-- ==== Sys2Proof/Word.lean ====
section
/-! DEFINITION. The byte, the unit in which every datagram, table row and stored record of the module is
laid out (R6, R8). Everything else that helps to read or write bytes stands in Machine/Bits.lean. -/

namespace Sys2Proof

/-- One octet of a datagram, a row or a record. -/
abbrev Byte := BitVec 8

/-- A string of octets, first on the wire first. -/
abbrev Bytes := List Byte

end Sys2Proof
end

