-- ==== Sys2Proof/Machine/Bits.lean ====
section
/-! DEFINITION. Reading and writing fields of bytes: the module's own protocols travel most significant byte
first (R6), bit 0 is the least significant bit of a field and a range is written [msb:lsb] (R5). -/

namespace Sys2Proof.Machine

/-- The `n` low bytes of `v`, most significant first (R6). -/
def beBytes : Nat → Nat → Bytes
  | 0, _ => []
  | n + 1, v => BitVec.ofNat 8 (v / 256 ^ n) :: beBytes n v

/-- The number a run of bytes spells, most significant first (R6). -/
def beNat (bs : Bytes) : Nat :=
  bs.foldl (fun a b => a * 256 + b.toNat) 0

/-- The `len` bytes of `bs` that start at offset `off`; missing bytes are not invented. -/
def slice (bs : Bytes) (off len : Nat) : Bytes := (bs.drop off).take len

/-- The field of `len` bytes at offset `off`, as a number. -/
def field (bs : Bytes) (off len : Nat) : Nat := beNat (slice bs off len)

/-- The bit range [hi:lo] of `v` (R5). -/
def bits (v hi lo : Nat) : Nat := (v / 2 ^ lo) % 2 ^ (hi + 1 - lo)

/-- Bit `i` of `v`. -/
def bit (v i : Nat) : Bool := v.testBit i

/-- `v` with bit `i` set. -/
def setBit (v i : Nat) : Nat := if v.testBit i then v else v + 2 ^ i

/-- `v` with bit `i` cleared. -/
def clrBit (v i : Nat) : Nat := if v.testBit i then v - 2 ^ i else v

/-- `v` with bit `i` set or cleared. -/
def putBit (v i : Nat) (b : Bool) : Nat := if b then setBit v i else clrBit v i

/-- The bits of `v` that are clear in `w` (what a W1C write of `w` leaves, R9). -/
def w1c (v w : Nat) : Nat := v &&& (v ^^^ w)

/-- How many of the low `n` bits of `v` are set. -/
def popCount : Nat → Nat → Nat
  | 0, _ => 0
  | n + 1, v => popCount n v + (if v.testBit n then 1 else 0)

/-- The signed value of an `n`-byte two's complement field (R8). -/
def toSigned (nbytes v : Nat) : Int :=
  if v % 256 ^ nbytes < 256 ^ nbytes / 2 then ((v % 256 ^ nbytes : Nat) : Int)
  else ((v % 256 ^ nbytes : Nat) : Int) - ((256 ^ nbytes : Nat) : Int)

/-- The two's complement code of `i` in `n` bytes (R8). -/
def ofSigned (nbytes : Nat) (i : Int) : Nat := (i.emod ((256 ^ nbytes : Nat) : Int)).toNat

/-- Value of a 16-bit temperature code in 1/64 °C. -/
abbrev s16 (v : Nat) : Int := toSigned 2 v

/-- The code of a temperature in 1/64 °C, saturated to the I16 range. -/
def code16 (i : Int) : Nat := ofSigned 2 (max (-32768) (min 32767 i))

/-- `n` saturated at the largest value of `nbytes` bytes. -/
def satBytes (nbytes n : Nat) : Nat := min n (256 ^ nbytes - 1)

/-- Quotient rounded up; 0 when the divisor is 0. -/
def ceilDiv (a b : Nat) : Nat := if b = 0 then 0 else (a + b - 1) / b

/-- `x` bounded to [lo, hi]. -/
def clampNat (lo hi x : Nat) : Nat := max lo (min hi x)

/-- `bs` padded with zeros to `n` bytes. -/
def padTo (n : Nat) (bs : Bytes) : Bytes := bs ++ List.replicate (n - bs.length) 0

/-- The element at position `i`, or `d`. -/
def nth {α : Type} (l : List α) (i : Nat) (d : α) : α := l.getD i d

/-- `l` with position `i` replaced by `f` of what stood there. -/
def modAt {α : Type} (l : List α) (i : Nat) (f : α → α) : List α :=
  l.mapIdx fun j x => if j = i then f x else x

/-- The first element with the least key; the earlier element wins a tie. -/
def minBy {α : Type} (key : α → Nat) : List α → Option α
  | [] => none
  | x :: xs =>
    match minBy key xs with
    | none => some x
    | some y => if key x ≤ key y then some x else some y

/-- The first element with the greatest key; the earlier element wins a tie. -/
def maxBy {α : Type} (key : α → Nat) : List α → Option α
  | [] => none
  | x :: xs =>
    match maxBy key xs with
    | none => some x
    | some y => if key y ≤ key x then some x else some y

/-- The sum of `f` over a list. -/
def sumOf {α : Type} (f : α → Nat) (l : List α) : Nat := l.foldl (fun a x => a + f x) 0

/-- The sum of the integer `f` over a list. -/
def sumInt {α : Type} (f : α → Int) (l : List α) : Int := l.foldl (fun a x => a + f x) 0

/-- Insertion of `x` in front of the first element whose key is greater. -/
def insertBy {α : Type} (key : α → Nat) (x : α) : List α → List α
  | [] => [x]
  | y :: ys => if key x < key y then x :: y :: ys else y :: insertBy key x ys

/-- Stable sort by rising key. -/
def sortBy {α : Type} (key : α → Nat) (l : List α) : List α := l.foldl (fun acc x => insertBy key x acc) []

/-- Whether a list of octets is valid UTF-8 (R107): lead bytes, continuation bytes, no overlong form, no
surrogate and nothing above U+10FFFF. `need` continuation bytes are outstanding and the next lies in [lo, hi]. -/
def utf8Ok : Bytes → Nat → Nat → Nat → Bool
  | [], need, _, _ => need == 0
  | b :: bs, 0, _, _ =>
    let v := b.toNat
    if v < 0x80 then utf8Ok bs 0 0x80 0xBF
    else if 0xC2 ≤ v && v ≤ 0xDF then utf8Ok bs 1 0x80 0xBF
    else if v == 0xE0 then utf8Ok bs 2 0xA0 0xBF
    else if v == 0xED then utf8Ok bs 2 0x80 0x9F
    else if 0xE1 ≤ v && v ≤ 0xEF then utf8Ok bs 2 0x80 0xBF
    else if v == 0xF0 then utf8Ok bs 3 0x90 0xBF
    else if v == 0xF4 then utf8Ok bs 3 0x80 0x8F
    else if 0xF1 ≤ v && v ≤ 0xF3 then utf8Ok bs 3 0x80 0xBF
    else false
  | b :: bs, n + 1, lo, hi =>
    if lo ≤ b.toNat && b.toNat ≤ hi then utf8Ok bs n 0x80 0xBF else false

end Sys2Proof.Machine
end

