-- ==== Sys2Proof/Machine/Inputs.lean ====
section
/-! DEFINITION. What the commands carry from outside the module: received datagrams and frames, and what the
module measures at its connectors, sensors and self-tests. Each is plain data; none is chosen by the model. -/

namespace Sys2Proof.Machine

/-- A UDP datagram as it stands in the receive path: source address and port, destination port, payload. -/
structure Rx where
  src : Nat
  sport : Nat
  dport : Nat
  bytes : Bytes
  deriving DecidableEq, Repr

/-- A received Ethernet frame with what the checks of R87 look at. `len` is the frame's length in bytes, FCS
included; `corrected` is the count of codewords with corrected symbols it brought (R99). -/
structure Frame where
  len : Nat
  fcsOk : Bool := true
  uncorrectable : Bool := false
  corrected : Nat := 0
  pause : Bool := false
  tagged : Bool := false
  etherType : Nat := 0x86DD
  ipVersion : Nat := 6
  dst : Nat
  nextHeader : Nat := 17
  extHeader : Bool := false
  checksumOk : Bool := true
  checksumZero : Bool := false
  rx : Rx
  deriving DecidableEq, Repr

/-- What the cage check reads (R80, R97): whether anything is present and answers over CMIS, the medium coded as
`PORT_MEDIA`, the power asked for in watts (R666) and the module power-up time it advertises in ms. -/
structure Cage where
  present : Bool
  media : Nat
  watts : Nat
  powerUpMs : Nat
  deriving DecidableEq, Repr

/-- The start of one stack in step 10 (R338): whether the rails and the logic die passed, and the channels whose
training failed. -/
structure StackStart where
  ok : Bool
  failed : List Nat
  deriving DecidableEq, Repr

/-- An angle input over the tick just ended: its count, the net counts travelled, and whether it saw a fault. -/
structure AngleIn where
  count : Nat := 0
  travel : Int := 0
  fault : Bool := false
  deriving DecidableEq, Repr

/-- What the module measures at a tick boundary: the die power in mW; the mean of each analog terminal as the IOC reads
it (mΩ, nA or µV by mode); the angle inputs;
the valve channels whose off check found no coil, the mean coil and high-side currents in mA, the boost rail in 1/16 V;
the bus time of each field bus port in the tick just ended, in ps; the temperatures of the module's own sensors in
1/64 °C; the utilisation of each stack in 1/1,000; the arrays' temperatures; feeds A and B and the actuator feed in mV and
the actuator current in mA. -/
structure TickIn where
  diePower : Nat := 0
  terminals : List Int := []
  angles : List AngleIn := []
  noCoil : List Nat := []
  coils : List (Nat × Nat) := []
  bankCurrents : List Nat := []
  boostRail : Nat := 0
  busy : List Nat := []
  inlet : List Int := []
  outlet : Int := 0
  boards : List Int := []
  dies : List Int := []
  dieEstimate : Int := 0
  inletEstimate : Int := 0
  stackTemps : List Int := []
  stackUtil : List Nat := []
  arrayTemps : List Int := []
  feedA : Nat := 0
  feedB : Nat := 0
  actFeed : Nat := 0
  actCurrent : Nat := 0
  deriving DecidableEq, Repr

/-- What the module measures at a turn boundary: the hold-up capacitance in percent of rated; the analog channels whose
reference departs by more than 0.5% of span; the mains voltages in mV and the order of the phases; the pre-FEC error
ratios of the port lanes as F32, their signal-to-noise ratios in 1/256 dB, the symbols corrected on each since the
boundary before and which are aligned; the share of clocks with a MAC of each array in 1/1,000; the mean logic draw of the
turn in mW; the SRAM words corrected by array and the interface retries by stack channel since the boundary before. -/
structure TurnIn where
  holdup : Nat := 100
  badRefs : List Nat := []
  mains : List Nat := [0, 0, 0]
  rotation : Nat := 0
  lanes : List Nat := []
  snr : List Int := []
  symbols : List Nat := []
  locks : List Bool := []
  arrayUtil : List Nat := []
  logicPower : Nat := 0
  sramCorrected : List (Nat × Nat) := []
  crcRetries : List (Nat × Nat) := []
  deriving DecidableEq, Repr

/-- A sensor delivery: the sources the IOC has not delivered in time, each as 65,536 × kind of R427 + select. -/
structure SensorIn where
  late : List Nat := []
  deriving DecidableEq, Repr

/-- A fan channel's measurements since its last run: the instants of the tach edges in ps, the mean supply current in
mA, and whether the converter limits. -/
structure FanIn where
  edges : List Nat := []
  current : Nat := 0
  limiting : Bool := false
  deriving DecidableEq, Repr

/-- A received CAN frame that passed the bus checks: `stamp` is the 80 MHz counter at its start-of-frame bit. -/
structure CanFrame where
  id : Nat := 0
  ext : Bool := false
  fdf : Bool := false
  brs : Bool := false
  esi : Bool := false
  remote : Bool := false
  stamp : Nat := 0
  data : Bytes := []
  deriving DecidableEq, Repr

/-- A bus error as ISO 11898-1 classes it: its kind (0 bit, 1 stuff, 2 form, 3 CRC, 4 acknowledgement), whether the port
was transmitting, whether an exception of the standard leaves the counter unchanged, and the number of further steps of 8
the standard asks for. -/
structure CanErr where
  kind : Nat := 0
  sending : Bool := false
  exempt : Bool := false
  more : Nat := 0
  deriving DecidableEq, Repr

/-- A leak rope's measurement: the sense pair in kΩ and the continuity loop in Ω. -/
structure RopeIn where
  kohm : Nat := 0
  loop : Nat := 0
  deriving DecidableEq, Repr

end Sys2Proof.Machine
end

