-- ==== Sys2Proof/Syntax.lean ====
section
/-! DEFINITION. The commands of the module: one constructor per row of spec/opcode_table.json, an operation the
module is asked for or an event that reaches it. The table gives its rows no operands; the operands here are what
the rule of each row reads from outside. The first operand `t` of every command is the instant it happens at, in ps
of the reference oscillator (R16), and `rx` is a received datagram (notes/assumptions/3.md). -/

namespace Sys2Proof

open Sys2Proof.Machine

/-- A command of the module. -/
inductive Instr where
  /-- A logic feed has stood at 40 V or more for 10 ms, so power good is given and step 1 of the start sequence begins (R669). -/
  | powerGood (t : Nat)
  /-- The next fan in the power-up order is raised once FAN_START_GAP_MS or the 500 ms internal fan gap has elapsed (R490). -/
  | fanPowerUpStagger (t : Nat)
  /-- Start step 2 ends when the ROM checksum is good and the fuses have been read (R624). -/
  | bootRomAndFuses (t : Nat) (ok : Bool)
  /-- Start step 3 reads the boot diary, the FRAM-kept entries, the keyring and the retirements; a failed read puts defaults in force (R636). -/
  | framRead (t : Nat) (ok : Bool) (lifeOk : Bool)
  /-- Start step 4 ends when the hub units and at least 16 keepers have passed BIST (R624). -/
  | hubAndKeepersBist (t : Nat) (hubOk : Bool) (keepersPass : List Nat)
  /-- The next group of 8 arrays is powered 50 µs after the previous group in start step 5 (R634). -/
  | arrayGroupPower (t : Nat)
  /-- Start step 5 ends when every powered array has passed or failed BIST; the step fails when fewer than 64 arrays pass (R637). -/
  | arraysBist (t : Nat) (pass : List Nat)
  /-- Start step 6 ends when 12 lanes carry the IOC link (R624). -/
  | iocLinkStart (t : Nat) (lanesFail : List Nat)
  /-- The module multicasts a boot request once per second until an offer that carries its BOOT_SEQ arrives (R628). -/
  | bootRequest (t : Nat)
  /-- A received offer is taken, or refused when its IMAGE_LENGTH is out of range, and the reads of the image begin (R628). -/
  | bootOffer (t : Nat) (rx : Rx)
  /-- A data datagram that matches an outstanding read is staged in array SRAM; one that matches none is dropped (R628). -/
  | bootData (t : Nat) (rx : Rx)
  /-- A read unanswered after 50 ms is sent again; after 8 unanswered sends the attempt is abandoned and a new request follows 1 s later (R628). -/
  | bootReadTimeout (t : Nat) (offset : Nat)
  /-- The staged image is tested against the refusal causes in order, and a result datagram is sent (R630). -/
  | imageCheck (t : Nat)
  /-- Stacks power up one after another through rails, logic-die BIST, channel training and zero fill in start step 10 (R338). -/
  | stacksStart (t : Nat) (found : List StackStart)
  /-- Start step 11 ends when keeper and IOC firmware run, the row program is loaded in slot 0 and the dictionary is open (R624). -/
  | firmwareStart (t : Nat) (iocOk : Bool)
  /-- START_WHEEL_DELAY after step 11 ends, the wheel sends the notice for turn 0 and waits up to 2 nominal turns for a valid cycle (R48). -/
  | wheelStep (t : Nat)
  /-- When no valid cycle comes within 2 nominal turns, turn 0 begins at once at the nominal length and the wheel enters Holdover (R48). -/
  | wheelStartTimeout (t : Nat)
  /-- Start step 13 ends when the field bus ports and the analog input channels have passed or failed BIST (R624). -/
  | iocUnitsBist (t : Nat) (portsFail : List Nat) (ainFail : List Nat)
  /-- At one tick boundary, step 14 ends the rest stance, arms the guard on static ceilings, opens the desk and starts the plant supervisor (R641). -/
  | arm (t : Nat)
  /-- A step that has lasted four times its limit makes the hardware timer reset the G1 and the IOC and restart from step 2 (R626). -/
  | startTimerExpiry (t : Nat)
  /-- 10 s after a required step fails, the sequence restarts from step 2 with START_CAUSE 3 (R638). -/
  | requiredStepRetry (t : Nat)
  /-- A restart command enters the rest stance with REST_CAUSE 3 and sends its reply (R640). -/
  | startCmd (t : Nat) (rx : Rx)
  /-- At the next tick boundary plus 100 ms, the last-gasp store is copied to FRAM, the chips are reset and the sequence runs from step 2 (R640). -/
  | restartReset (t : Nat)
  /-- At a turn boundary that falls due, the lowest unlifted class that has present guests is lifted, so that its guests receive ALLOCATE records (R178). -/
  | classLift (t : Nat)
  /-- At each tick boundary, the ceiling leaves switch, the IOC latches sensor and angle inputs, and phase sources advance (R57). -/
  | tickBoundary (t : Nat) (x : TickIn)
  /-- At a turn boundary, the module applies fences, then any stance change, then rotations, and recomputes per-turn values (R303). -/
  | turnBoundary (t : Nat) (x : TurnIn)
  /-- After MISS_CLEAR_TURNS consecutive turns without a miss, CLASS_WIDEN is lowered by one step (R399). -/
  | classWidenLower (t : Nat) (cls : Nat)
  /-- After 8 consecutive turns of strength at least 0.600, a detector publishes its period (R414). -/
  | periodPublish (t : Nat) (n : Nat)
  /-- After 8 consecutive turns of strength below 0.400, a detector withdraws its period (R414). -/
  | periodWithdraw (t : Nat) (n : Nat)
  /-- At the next tick boundary a spare analog channel takes the terminal of a fenced channel, or AIN_NO_SPARE sets (R548). -/
  | ainTakeover (t : Nat) (ch : Nat)
  /-- A zero crossing of the reference phase completes a cycle, which is judged valid or not and drives the wheel's state (R46). -/
  | mainsCycle (t : Nat) (phase : Nat)
  /-- No zero crossing comes for 1.5 nominal turns, so MAINS_ABSENT sets and the wheel enters Holdover (R53). -/
  | mainsAbsent (t : Nat)
  /-- Holdover has lasted HOLDOVER_LIMIT, so HOLDOVER_LONG sets (R53). -/
  | holdoverLong (t : Nat)
  /-- At tick index WHEEL_TICKS_ACTIVE / 2, the wheel builds and sends the notice for the next turn (R65). -/
  | wheelNotice (t : Nat)
  /-- 8 ticks after the first copy, the same wheel notice is sent again (R65). -/
  | wheelNoticeRepeat (t : Nat)
  /-- A write of WHEEL_REF_PHASE or WHEEL_PHASE_OFFSET moves the target boundary, and while Locked enters Relocking with PHASE_MOVED (R52). -/
  | wheelPhaseWrite (t : Nat) (rx : Rx)
  /-- At the first tick boundary at or after its interval mark, a one-step Sync is sent (R62). -/
  | ptpSync (t : Nat)
  /-- An Announce is sent at its interval mark with the clockClass of the wheel state (R60). -/
  | ptpAnnounce (t : Nat)
  /-- A received Delay_Req is answered with a Delay_Resp that honours its correctionField (R60). -/
  | ptpDelayReq (t : Nat) (rx : Rx)
  /-- The port checks that the optical module or cable is present and answers over CMIS (R80). -/
  | cageCheck (t : Nat) (cage : Cage)
  /-- With refused media, the port repeats the cage check every 10 s (R97). -/
  | cageRecheck (t : Nat) (cage : Cage)
  /-- The step ends when CMIS reports the optical module ready in high power (R80). -/
  | opticalModulePowerUp (t : Nat) (ready : Bool)
  /-- With passive copper, the step ends when both ends agree 1.6TBASE-CR8 (R80). -/
  | autoNegotiation (t : Nat) (agreed : Bool)
  /-- The step ends when every lane reports training complete (R80). -/
  | linkTraining (t : Nat) (complete : Bool)
  /-- The step ends when all lanes are aligned and FEC is locked (R80). -/
  | pcsAlignment (t : Nat) (locked : Bool)
  /-- After 10 ms without an uncorrectable codeword or a fault, the link is up, LINK_UP sets and reception resumes (R80). -/
  | linkHoldUp (t : Nat)
  /-- A step that overruns or faults fails the attempt, and the port goes on to the next lane map (R81). -/
  | linkAttemptFail (t : Nat) (fault : Bool)
  /-- After a round of five failures, the 10 s wait ends and the lane map order starts again (R81). -/
  | laneMapRoundWait (t : Nat)
  /-- Loss of alignment or a fault lasting 100 µs, or a CMIS loss, takes the link down, flushes the egress queues and restarts bring-up (R82). -/
  | linkDown (t : Nat) (cause : Nat)
  /-- At the first tick boundary after the link comes up, the port re-sends guard cuts in force, then the current wheel notice, then resumes sending (R96). -/
  | sendResume (t : Nat)
  /-- A received frame passes the ordered checks or is dropped and counted, and a frame that passes goes to its unit (R87). -/
  | frameReceive (t : Nat) (f : Frame)
  /-- Duplicate address detection on an address completes; on failure the port falls back and sets ADDR_DUPLICATE (R84). -/
  | duplicateAddressDetection (t : Nat) (linkLocal : Bool) (ok : Bool)
  /-- After link-local detection has failed, detection is repeated every 10 s (R84). -/
  | dadRetry (t : Nat)
  /-- Under SLAAC, the first advertisement that carries a /64 autonomous prefix forms the unicast address (R83). -/
  | routerAdvertisement (t : Nat) (pfx : Nat) (len : Nat) (autonomous : Bool)
  /-- The port answers a neighbour solicitation (R85). -/
  | neighbourSolicitation (t : Nat) (src : Nat) (target : Nat)
  /-- An ICMPv6 echo request is answered, up to 100 per second (R86). -/
  | echoRequest (t : Nat) (src : Nat) (dst : Nat) (body : Bytes)
  /-- When the cage is free, the scheduler takes the next datagram in strict class priority and sends it (R89). -/
  | egressServe (t : Nat)
  /-- A READ request returns the entry's value or is refused (R106). -/
  | read (t : Nat) (rx : Rx)
  /-- A WRITE to an entry that has no row of its own stores the value after the type, range and access checks (R110). -/
  | write (t : Nat) (rx : Rx)
  /-- A write of 1 to latch bits clears them, unless the event recurs in the same tick (R11). -/
  | latchClear (t : Nat) (rx : Rx)
  /-- A stored value takes effect at the later tick or turn boundary that its chapter sets (R110). -/
  | deferredWriteApply (t : Nat) (key : Nat)
  /-- A READ_BULK request starts a bulk reply of table rows, or is refused (R114). -/
  | readBulk (t : Nat) (rx : Rx)
  /-- When its egress class has room, the next fragment of a bulk reply is made from the table as it stands (R117). -/
  | bulkFragment (t : Nat) (id : Nat)
  /-- A WRITE_BULK request is accepted for the next tick boundary, or refused whole (R118). -/
  | writeBulk (t : Nat) (rx : Rx)
  /-- At the next tick boundary, all rows of an accepted WRITE_BULK are applied together and the reply is sent (R118). -/
  | writeBulkApply (t : Nat)
  /-- A SUBSCRIBE creates, replaces or cancels the subscription of its identity (R122). -/
  | subscribe (t : Nat) (rx : Rx)
  /-- At each turn boundary whose number is a multiple of PERIOD, the subscription's values are pushed (R124). -/
  | subscriptionPush (t : Nat) (src : Nat) (sport : Nat) (subId : Nat)
  /-- A subscription that no SUBSCRIBE renews for SUB_LEASE lapses (R125). -/
  | subscriptionLapse (t : Nat) (src : Nat) (sport : Nat) (subId : Nat)
  /-- An OPEN creates a pending session and replies with the module's ephemeral key and signature (R126). -/
  | openSession (t : Nat) (rx : Rx)
  /-- A PROVE opens the session when HOST_SIG verifies; otherwise the session is discarded and SIGNATURE_FAIL sets (R128). -/
  | prove (t : Nat) (rx : Rx)
  /-- When no PROVE arrives within 5 s of the OPEN reply, the pending session is discarded (R128). -/
  | proveTimeout (t : Nat) (session : Nat)
  /-- A CLOSE ends its keyed session (R132). -/
  | close (t : Nat) (rx : Rx)
  /-- A session that accepts no request for SESSION_IDLE closes (R132). -/
  | sessionIdleTimeout (t : Nat) (session : Nat)
  /-- A cached reply is removed from the reply cache after 2 s (R111). -/
  | replyCacheExpiry (t : Nat)
  /-- A check-in request is length-checked and queued, or dropped when the queue is full (R147). -/
  | checkInRequest (t : Nat) (rx : Rx)
  /-- The desk serves a queued check-in, testing the reasons in order, and admits, rejoins or refuses with a reply (R148). -/
  | checkInServe (t : Nat)
  /-- At the next tick boundary after a rejoin, the new passport replaces the old one and quarantine ends (R152). -/
  | passportTakeForce (t : Nat) (slot : Nat)
  /-- In the tick after a rejoin reply leaves, the guard cut or stale cap in force is re-sent with a fresh hold (R177). -/
  | rejoinCutResend (t : Nat) (slot : Nat)
  /-- A check-out request is answered, and a held slot is marked for freeing (R155). -/
  | checkOutRequest (t : Nat) (rx : Rx)
  /-- At the next tick boundary, the checked-out guest slot is freed with no reservation (R155). -/
  | checkOutFree (t : Nat) (slot : Nat)
  /-- A received telemetry bundle goes to the guard and to the parser lane with the fewest records queued (R182). -/
  | telemetryBundle (t : Nat) (rx : Rx)
  /-- Once the queue falls below a quarter of the depth, deferred cuts are put back, at most 1,024 per tick (R238). -/
  | deferredCutRequeue (t : Nat)
  /-- At the last refreshable tick of a class row cut, it is refreshed or allowed to lapse (R239). -/
  | rowCutRefresh (t : Nat) (scope : Nat)
  /-- When the clear count reaches GUARD_CLEAR_TICKS after an allocation has ended, the guard cut ends by release (R241). -/
  | guardRelease (t : Nat) (slot : Nat)
  /-- In the first tick that R169 allows after a release, RELEASE is sent with the allocator's value and the release slew (R242). -/
  | releaseSend (t : Nat) (slot : Nat)
  /-- When the scheduler takes up an egress class, the desk builds a cap or row cut bundle from the records queued and hands it to the port (R683). -/
  | capBundleBuild (t : Nat) (cls : Nat) (firstBit : Nat)
  /-- A parser lane parses a record or keep-alive and settles its fate under the ordered cases (R191). -/
  | recordParse (t : Nat) (lane : Nat)
  /-- In the tick after DISOBEY_RUN becomes 1, the per-guest record in force is re-sent with a fresh hold (R209). -/
  | disobeyResend (t : Nat) (slot : Nat)
  /-- DISOBEY_RUN reaches DISOBEY_TICKS, so the guest is marked disobedient (R209). -/
  | guestDisobedient (t : Nat) (slot : Nat)
  /-- After DISOBEY_TICKS consecutive in-bounds records, the disobedient mark clears (R209). -/
  | disobeyClear (t : Nat) (slot : Nat)
  /-- At the end of a counting tick, the desk updates ages, overruns queued records and folds the standing records (R194). -/
  | countingTickEnd (t : Nat)
  /-- A power or sample age exceeds STALE_TICKS, so the guest turns stale and a STALE_CAP record falls due (R196). -/
  | guestStale (t : Nat) (slot : Nat)
  /-- In the first tick that R169 allows, the STALE_CAP record leaves (R196). -/
  | staleCapSend (t : Nat) (slot : Nat)
  /-- Staleness ends, and in the next tick RELEASE or a re-sent guard cut follows (R198). -/
  | staleEnd (t : Nat) (slot : Nat)
  /-- The presence age reaches ABSENCE_TICKS, so the absence timeout passes (R199). -/
  | absenceTimeout (t : Nat) (slot : Nat)
  /-- At the next tick boundary, the slot is reserved, an ORPHAN record is sent and a LAPSED notice goes to the aggregator (R156). -/
  | guestLapse (t : Nat) (slot : Nat)
  /-- When the reserve time passes, a reserved guest slot becomes free (R156). -/
  | reserveExpiry (t : Nat) (slot : Nat)
  /-- After PAIR_AGREE_TICKS consecutive agreeing ticks, the disagreement episode ends (R203). -/
  | pairEpisodeEnd (t : Nat) (slot : Nat) (pair : Nat)
  /-- When an episode reaches PAIR_PERSIST ticks, the residual sums are compared, and a member is quarantined or the case is logged undecided (R204). -/
  | pairPersistReached (t : Nat) (slot : Nat) (pair : Nat)
  /-- A per-guest cap whose hold would lapse too soon is refreshed with a fresh hold (R171). -/
  | capRefresh (t : Nat) (slot : Nat)
  /-- At the end of each summary step, every guest's MAX_HOT goes to a RAINFLOW operation and the die matrix takes its value (R598). -/
  | summaryStepEnd (t : Nat)
  /-- At the start of an allocation period, ROW_BUDGET is fixed within the capacity slew (R406). -/
  | allocationPeriodStart (t : Nat)
  /-- The allocator completes its iterations and feasibility pass, and the caps are ready at the end of the period (R403). -/
  | allocationPeriodEnd (t : Nat)
  /-- In the egress tick, the allocation's ALLOCATE records enter class 2, or are discarded while the link is down (R22). -/
  | allocateEgressTick (t : Nat)
  /-- At 0.6 tick, every present guest is updated, advanced and widened, and its bounds are written to the standby ceiling leaf (R390). -/
  | rowProgramStep (t : Nat)
  /-- At 0.85 of the tick, guests whose state is still incomplete are advanced without a measurement update (R393). -/
  | measurementCutoff (t : Nat)
  /-- After SETTLE_TICKS steps, the guest ends settling and the row program writes its bounds (R396). -/
  | settleEnd (t : Nat) (slot : Nat)
  /-- With both home copies of a model line poisoned, the class runs on the image model from the next tick boundary (R398). -/
  | classFallback (t : Nat) (cls : Nat)
  /-- An imbalance above LEAK_IMBALANCE for LEAK_PERSIST ticks makes the branch a suspect and may publish LEAK_FIRST_BRANCH (R415). -/
  | leakSuspect (t : Nat) (branch : Nat) (transient : Nat)
  /-- After REBUILD_PERIOD ticks, or on a held request, a rebuild of a hinge table starts writing the standby leaf (R375). -/
  | hingeRebuildStart (t : Nat) (slot : Nat) (k : Nat)
  /-- A command requests a rebuild of a hinge table (R375). -/
  | hingeRebuild (t : Nat) (rx : Rx)
  /-- A rebuild completes its validation scalar and passes or fails (R376). -/
  | hingeValidate (t : Nat) (slot : Nat) (k : Nat)
  /-- The preload of a RESIDENT standby leaf into its reading arrays completes (R376). -/
  | hingePreloadDone (t : Nat) (slot : Nat) (k : Nat)
  /-- At the first tick boundary after pass and preload, the standby leaf becomes live with age 0 (R376). -/
  | hingeSwap (t : Nat) (slot : Nat) (k : Nat)
  /-- A table's age exceeds STALE_LIMIT, so its brackets are widened and HINGE_STALE sets (R378). -/
  | hingeStale (t : Nat) (slot : Nat) (k : Nat)
  /-- BEGIN reserves staging space for a form in an operator slot (R358). -/
  | progUploadBegin (t : Nat) (rx : Rx)
  /-- CHUNK stages form data at the expected offset (R358). -/
  | progUploadChunk (t : Nat) (rx : Rx)
  /-- COMMIT starts the loader on the staged form (R359). -/
  | progUploadCommit (t : Nat) (rx : Rx)
  /-- The loader finishes testing and fitting the form, and refuses it or accepts it with a load factor (R359). -/
  | progFitComplete (t : Nat) (slot : Nat)
  /-- At the first tick boundary with placement and preload complete, the new program replaces the slot's previous program (R360). -/
  | progInstall (t : Nat) (slot : Nat)
  /-- UNLOAD orders the slot's program to stop (R361). -/
  | progUploadUnload (t : Nat) (rx : Rx)
  /-- At the next tick boundary, the program stops, its outputs read open and its forecast inputs are unbound (R361). -/
  | progStop (t : Nat) (slot : Nat)
  /-- PROG_FEED stores values for the slot's feed buffer, or is refused when out of range (R365). -/
  | progFeed (t : Nat) (rx : Rx)
  /-- At the next tick boundary, pending feeds are written into the feed buffer in arrival order (R365). -/
  | progFeedApply (t : Nat) (slot : Nat)
  /-- At a due tick boundary an operator program starts a step, or skips the start while a step still runs (R366). -/
  | progStepStart (t : Nat) (slot : Nat)
  /-- An operator step completes and writes its state to the home copies (R366). -/
  | progStepComplete (t : Nat) (slot : Nat) (poison : List (Nat × Nat))
  /-- At the first tick boundary after a step completes, its outputs are published (R366). -/
  | progPublish (t : Nat) (slot : Nat)
  /-- A cell parity error marks the step unbracketed, and the step reruns once within its ledger slot (R293). -/
  | parityError (t : Nat) (array : Nat)
  /-- At the end of its ledger slot, a step that has not finished writes no results (R294). -/
  | stepOverrun (t : Nat) (array : Nat)
  /-- A block error fences the array within 1 µs and discards its running step (R296). -/
  | arrayBlockError (t : Nat) (array : Nat) (sram : Bool)
  /-- At the next tick boundary a chosen spare takes the fenced array's role and loads its home copies (R296). -/
  | migration (t : Nat) (array : Nat)
  /-- In the last tick before a rotation boundary, background porters preload the incoming spare (R302). -/
  | rotationPreload (t : Nat) (region : Nat)
  /-- At a region's rotation boundary, a tested spare takes the role of the longest-serving active array, or the rotation is deferred (R301). -/
  | rotation (t : Nat) (region : Nat)
  /-- A region fault stops all arrays of the region within 1 µs (R304). -/
  | regionFence (t : Nat) (region : Nat)
  /-- At the next tick boundary, the region's row program share, class models and guest state are moved to the other regions (R305). -/
  | regionReconfigure (t : Nat) (region : Nat)
  /-- An error that no lower level contains puts the module into the rest stance (R29). -/
  | chipLevelError (t : Nat)
  /-- An uncorrectable stack line is marked poisoned (R324). -/
  | lineUncorrectable (t : Nat) (stack : Nat) (line : Nat)
  /-- At the row's next refresh, a failing DRAM row is copied to a spare row (R322). -/
  | rowSpare (t : Nat) (stack : Nat) (bank : Nat) (row : Nat)
  /-- The background copy of a page to a reserve page completes, and the page is remapped (R323). -/
  | pageRetire (t : Nat) (stack : Nat) (page : Nat)
  /-- The patrol scrub completes its pass over every line once per SCRUB_PERIOD_TURNS (R321). -/
  | patrolScrubPass (t : Nat) (stack : Nat) (corrected : List (Nat × Nat))
  /-- A stack channel is lost, and its slot returns poison from then on (R327). -/
  | channelLoss (t : Nat) (stack : Nat) (channel : Nat)
  /-- At the next tick boundary, the lowest spare channel takes the lost slot and starts its zero fill, or the stack is lost (R328). -/
  | channelSpare (t : Nat) (stack : Nat) (slot : Nat)
  /-- The background zero fill of a promoted channel completes (R328). -/
  | zeroFillDone (t : Nat) (stack : Nat) (channel : Nat)
  /-- A stack is lost, and its region is fenced (R330). -/
  | stackLoss (t : Nat) (stack : Nat)
  /-- The stack's temperature crosses 85 °C or 95 °C, and refresh doubles or background traffic stops (R331). -/
  | stackHot (t : Nat) (stack : Nat) (temp : Nat)
  /-- A link lane fails its check on 8 consecutive frames (R27). -/
  | iocLaneFail (t : Nat) (lane : Nat)
  /-- At the next turn boundary a spare lane is brought in; with none left, the module enters the rest stance (R27). -/
  | iocLaneSpare (t : Nat)
  /-- Loss of the IOC link puts the module into the rest stance, and hardware rest values apply (R38). -/
  | iocLinkLoss (t : Nat)
  /-- The IOC delivers the tick's sensor values and receive objects to the hub (R57). -/
  | sensorDelivery (t : Nat) (x : SensorIn)
  /-- In its ledger slot of a due tick, a loop engine computes its output by its mode (R429). -/
  | loopRun (t : Nat) (engine : Nat)
  /-- A hold that lasts FREEZE_HOLD ticks is a loop fault, and the engine enters REST (R442). -/
  | feedbackHoldTimeout (t : Nat) (engine : Nat)
  /-- The following timer exceeds FOLLOW_ERR_TIME, which is a loop fault with cause 1 (R444). -/
  | followingErrorFault (t : Nat) (engine : Nat)
  /-- At the end of its ledger slot, a run that is not final keeps the previous output and counts a miss (R446). -/
  | loopSlotMissed (t : Nat) (engine : Nat)
  /-- An engine block error fences the engine (R447). -/
  | engineBlockError (t : Nat) (engine : Nat)
  /-- At the next tick boundary, a spare engine takes the loop with its configuration and state, or NO_SPARE sets (R448). -/
  | engineTakeover (t : Nat) (engine : Nat) (saved : Bool)
  /-- A write of LOOP_MODE requests a mode for the engine's next run, or is refused in the rest stance (R435). -/
  | loopModeWrite (t : Nat) (rx : Rx)
  /-- A write of MANUAL_VALUE in MANUAL starts a hand-over to the new value (R439). -/
  | manualValueWrite (t : Nat) (rx : Rx)
  /-- LOOP_CMD 1 makes a waiting hand-over take effect at the next run (R438). -/
  | loopCmdAccept (t : Nat) (rx : Rx)
  /-- LOOP_CMD 2 clears the engine's repetitive table (R432). -/
  | loopCmdClearTable (t : Nat) (rx : Rx)
  /-- A write of an engine's PHASE_SOURCE rebinds it and clears its table (R432). -/
  | phaseSourceWrite (t : Nat) (rx : Rx)
  /-- At 0.40 tick, the valve, fan and field bus demands pass from the hub to the IOC (R57). -/
  | outputHandoff (t : Nat)
  /-- At 0.50 tick, new demands take effect and field bus transmit frames are queued (R57). -/
  | actuatorUpdate (t : Nat)
  /-- VALVE_CMD 0 sets the host demand to de-energise, or is refused while the host is not the owner (R460). -/
  | valveCmdDeenergise (t : Nat) (rx : Rx)
  /-- VALVE_CMD 1 sets the host demand to energise, or is refused while the host is not the owner (R460). -/
  | valveCmdEnergise (t : Nat) (rx : Rx)
  /-- VALVE_CMD 2 clears every fault bit whose cause has ended (R477). -/
  | valveCmdClear (t : Nat) (rx : Rx)
  /-- A queued channel is admitted to boost once its bank's budget allows it (R469). -/
  | boostAdmit (t : Nat) (bank : Nat)
  /-- The coil current reaches PEAK_A, and the channel enters peak (R462). -/
  | boostEnd (t : Nat) (ch : Nat) (current : Nat)
  /-- BOOST_MAX_US passes without reaching PEAK_A, so the channel goes on to peak and sets PEAK_SHORT (R464). -/
  | boostTimeout (t : Nat) (ch : Nat)
  /-- PEAK_US passes, and the channel enters descent (R462). -/
  | peakEnd (t : Nat) (ch : Nat)
  /-- The head of a bank's queue has waited 2.0 ms, so peaks are cut short to let it in (R470). -/
  | boostWaitLong (t : Nat) (bank : Nat)
  /-- The free-wheeling current falls to HOLD_A, and the channel enters hold (R462). -/
  | descentEnd (t : Nat) (ch : Nat) (current : Nat)
  /-- The discharging current falls below 0.05 A, and the channel is off (R462). -/
  | releaseEnd (t : Nat) (ch : Nat) (current : Nat)
  /-- A change of coil voltage slope greater than SEAT_KINK ends a seating window with MOVED (R473). -/
  | seatKink (t : Nat) (ch : Nat) (kink : Nat)
  /-- A seating window ends without a kink, giving NOT_MOVED (R473). -/
  | seatWindowEnd (t : Nat) (ch : Nat)
  /-- At the tick boundary after a window ends, the seating result is shown, and SEAT_MISSING may set (R474). -/
  | seatResultPublish (t : Nat) (ch : Nat)
  /-- A current below 0.1 A 500 µs into boost is an open-while-on fault (R476). -/
  | valveOpenOn (t : Nat) (ch : Nat) (current : Nat)
  /-- Low-side over-current opens the low side, with one retry or fault-off (R476). -/
  | valveShort (t : Nat) (ch : Nat)
  /-- 10 ms after a first short, a channel whose demand is still energise retries from boost (R476). -/
  | valveShortRetry (t : Nat) (ch : Nat)
  /-- A high-side current above 40 A turns the high side off and faults every channel of the bank (R476). -/
  | bankOvercurrent (t : Nat) (bank : Nat) (current : Nat)
  /-- A channel switch reaches 150 °C and goes fault-off (R476). -/
  | valveHot (t : Nat) (ch : Nat) (temp : Nat)
  /-- A driver fault fences the channel, or the whole bank for a high-side fault (R478). -/
  | valveDriverFault (t : Nat) (ch : Nat) (highSide : Bool)
  /-- At the next tick boundary the take-over switch moves and a spare channel takes the output, or VALVE_NO_SPARE sets (R479). -/
  | valveTakeover (t : Nat) (ch : Nat)
  /-- The take-over switch movement completes, and the spare takes the demand (R478). -/
  | valveSwitchDone (t : Nat) (ch : Nat)
  /-- The actuator feed falls below 22.0 V, so every channel goes off (R471). -/
  | valveFeedLow (t : Nat) (volts : Nat)
  /-- The feed rises above 23.0 V, and channels whose demand is energise restart from boost (R471). -/
  | valveFeedRestore (t : Nat) (volts : Nat)
  /-- A new BOOST_V takes effect at the first tick boundary with no channel in boost, peak or descent (R481). -/
  | boostVApply (t : Nat)
  /-- Eight times per turn, each fan channel measures its speed and sets its supply (R494). -/
  | speedLoopRun (t : Nat) (ch : Nat) (x : FanIn)
  /-- Host silence lasting FAN_WATCHDOG_S makes the watchdog take every fan and begin a staggered ramp to full speed (R496). -/
  | fanWatchdog (t : Nat)
  /-- After FAN_STAGGER_MS, the next fan in the order starts its ramp or restart (R496). -/
  | fanStaggerStart (t : Nat)
  /-- The start phase ends, entering running, or a kick or a stall fault follows (R498). -/
  | fanStartEnd (t : Nat) (ch : Nat)
  /-- A kick ends in running, a pause, or a stall fault after the last kick (R498). -/
  | fanKickEnd (t : Nat) (ch : Nat)
  /-- The pause after a kick ends, and the next kick starts (R498). -/
  | fanPauseEnd (t : Nat) (ch : Nat)
  /-- FAN_STALL_RETRY s after a stall, the channel starts again (R499). -/
  | fanStallRetry (t : Nat) (ch : Nat)
  /-- No tach edge comes for FAN_TACH_TIMEOUT while running, and the current sorts it into stall, open or tach loss (R500). -/
  | tachAbsent (t : Nat) (ch : Nat)
  /-- Tach edges have been present in 8 consecutive runs, so an open-loop channel returns to running (R501). -/
  | tachRestored (t : Nat) (ch : Nat)
  /-- The converter stays in current limit for 2 s, which is an overload fault (R502). -/
  | fanOverload (t : Nat) (ch : Nat)
  /-- The converter reaches 150 °C, which is a hot fault (R502). -/
  | fanHot (t : Nat) (ch : Nat) (temp : Nat)
  /-- FAN_CMD 1 clears fault bits whose cause has ended and starts the channel (R502). -/
  | fanCmd (t : Nat) (rx : Rx)
  /-- The actuator feed falls below 20.0 V, so every fan channel goes to 0 V (R503). -/
  | fanFeedLow (t : Nat) (volts : Nat)
  /-- The feed rises above 21.0 V, and the channels start with a stagger (R503). -/
  | fanFeedRestore (t : Nat) (volts : Nat)
  /-- A driver fault fences the fan channel with its supply off (R504). -/
  | fanDriverFault (t : Nat) (ch : Nat)
  /-- At the next tick boundary a spare channel takes the fan output, or FAN_NO_SPARE sets (R504). -/
  | fanTakeover (t : Nat) (ch : Nat)
  /-- The fan take-over switch movement completes, and the spare takes the fan (R504). -/
  | fanSwitchDone (t : Nat) (ch : Nat)
  /-- A failed internal fan's target passes to the spare, which starts while the others run at full speed (R506). -/
  | ifanTakeover (t : Nat) (n : Nat)
  /-- A received CAN frame is acknowledged and stored in its matching receive object, or discarded as unmatched (R518). -/
  | canFrameReceive (t : Nat) (port : Nat) (f : CanFrame)
  /-- A transmitted frame is acknowledged, SENT sets and the unacknowledged count resets (R529). -/
  | canTxDone (t : Nat) (port : Nat) (time : Nat)
  /-- A detected bus error updates the error counters and states; entering error passive sets FB_PASSIVE (R532). -/
  | canError (t : Nat) (port : Nat) (e : CanErr)
  /-- FB_CMD 1 orders a bus-off port to rejoin at the next tick boundary (R533). -/
  | fbCmdRejoin (t : Nat) (rx : Rx)
  /-- After 128 sequences of 11 recessive bits, the port is error active again (R533). -/
  | busOffRecoveryDone (t : Nat) (port : Nat)
  /-- 16 consecutive unacknowledged attempts put the port into the alone state and hold its frames (R534). -/
  | aloneEnter (t : Nat) (port : Nat)
  /-- At the probe interval in the alone state, one probe frame is sent without retransmission (R535). -/
  | aloneProbe (t : Nat) (port : Nat)
  /-- FB_CMD 2 brings the next probe forward to the next actuator update (R535). -/
  | fbCmdProbe (t : Nat) (rx : Rx)
  /-- No frame has matched for RX_TIMEOUT ms, so the object sets STALE (R521). -/
  | rxObjectStale (t : Nat) (obj : Nat)
  /-- When the end conditions have held for FB_SUPPRESS_HOLD ticks, suppression ends (R538). -/
  | suppressionEnd (t : Nat) (port : Nat)
  /-- A port leaving mode 0 integrates on 11 recessive bits and then takes part (R541). -/
  | fbIntegrateDone (t : Nat) (port : Nat)
  /-- A controller fault fences the port with its transceiver in standby (R540). -/
  | fbPortFence (t : Nat) (port : Nat)
  /-- At 0.08 tick, the supervisor evaluates branches, pumps and leaks, and raises row cuts and demands (R544). -/
  | plantSupervisorRun (t : Nat)
  /-- No trend condition has held for FLOW_RECOVER_TICKS, so trend ends (R564). -/
  | trendEnd (t : Nat) (branch : Nat)
  /-- The supply flow has stood at FLOW_RECOVER_PCT for FLOW_RECOVER_TICKS, so the branch is recovering (R566). -/
  | flowRecovery (t : Nat) (branch : Nat)
  /-- PLANT_LIFT_GAP ticks after the previous lift, the next class of a recovering branch is lifted (R567). -/
  | plantClassLift (t : Nat) (branch : Nat)
  /-- A start not succeeded within PS_START_MS fails, and the pump is tripped (R561). -/
  | pumpStartTimeout (t : Nat) (set : Nat) (pump : Nat)
  /-- A tripped pump whose fault bit has read clear for one turn returns to standby (R586). -/
  | pumpStandbyReturn (t : Nat) (set : Nat) (pump : Nat)
  /-- At the next tick boundary after a lead change, the speed engine's binding moves to the new lead (R559). -/
  | leadRebind (t : Nat) (set : Nat)
  /-- At PS_ROTATE_TURNS, a standby starts and the longest runner stops, unless the rotation must wait (R563). -/
  | pumpRotation (t : Nat) (set : Nat)
  /-- PS_CMD 1 orders a rotation of the pump set (R563). -/
  | psCmd (t : Nat) (rx : Rx)
  /-- Once neither hold condition has held for FLOW_RECOVER_TICKS, the supervisor gives up the cooler fans (R569). -/
  | plantFanHoldRelease (t : Nat)
  /-- Eight times per turn, each leak rope is measured and judged dry, wet or broken (R549). -/
  | ropeMeasure (t : Nat) (rope : Nat) (x : RopeIn)
  /-- When the published branch heat is safe or LEAK_CLOSE_MAX passes, the supervisor holds the isolation valve and demands closing (R571). -/
  | isolationCloseDemand (t : Nat) (branch : Nat)
  /-- After SEAT_WINDOW_MS in the opposite state, closing is demanded once more (R572). -/
  | isolationRetryClose (t : Nat) (branch : Nat)
  /-- BR_CMD 1 ends isolation and opens the valve, or is refused while a rope reads wet (R573). -/
  | brCmdEndIsolation (t : Nat) (rx : Rx)
  /-- BR_CMD 2 declares a leak on the branch (R570). -/
  | brCmdDeclareLeak (t : Nat) (rx : Rx)
  /-- A write of BR_ENABLE takes a branch out of the plant map with a ceiling-0 row cut, or returns it to recovering (R557). -/
  | brEnableWrite (t : Nat) (rx : Rx)
  /-- At its last refreshable tick, a plant row cut is refreshed while its cause stands (R574). -/
  | plantRowCutRefresh (t : Nat) (branch : Nat)
  /-- The hottest die sensor at 115 °C or more for 8 consecutive ticks is a chip-level error (R578). -/
  | dieOvertempError (t : Nat)
  /-- Every 125 ns the writer commits the next staged record and reads it back (R606). -/
  | logCommit (t : Nat) (readback : Bool)
  /-- When the staging queue next empties after losses, one EVENTS_LOST record is staged (R607). -/
  | eventsLostRecord (t : Nat)
  /-- At the next tick boundary, a failing log page is copied to a spare page and remapped (R610). -/
  | logPageRetire (t : Nat) (page : Nat) (damaged : List Nat)
  /-- HIST_SET sets a histogram's source and binning and clears its counts at the next tick boundary (R596). -/
  | histSet (t : Nat) (rx : Rx)
  /-- A new HIST_COUNT discards or adds histograms at the next turn boundary (R592). -/
  | histCountWrite (t : Nat) (rx : Rx)
  /-- REC_CMD 1 clears the log and re-stages open records (R618). -/
  | recCmdClearLog (t : Nat) (rx : Rx)
  /-- REC_CMD 2 clears every histogram's bins and extremes (R618). -/
  | recCmdClearHistograms (t : Nat) (rx : Rx)
  /-- REC_CMD 3 clears guest extremes and rainflow matrices in the background (R618). -/
  | recCmdClearGuestHistory (t : Nat) (rx : Rx)
  /-- REC_CMD 4 clears the die rainflow matrix in SRAM and FRAM (R618). -/
  | recCmdClearDieRainflow (t : Nat) (rx : Rx)
  /-- REC_CMD 5 clears the FRAM copy of the last-gasp store (R618). -/
  | recCmdClearFramLastgasp (t : Nat) (rx : Rx)
  /-- A background clear of command 3 or 4 completes, and REC_CMD_STATE returns to idle (R618). -/
  | recCmdComplete (t : Nat)
  /-- Both feeds below 38 V for 50 µs stops the arrays, port and stacks and copies the last-gasp store to FRAM (R670). -/
  | logicPowerLoss (t : Nat)
  /-- The FRAM copy on power loss completes, and the chips are held in reset (R670). -/
  | framCopyDone (t : Nat)
  /-- The loss of one feed while the other stands in range sets FEED_A_LOST or FEED_B_LOST (R669). -/
  | feedLost (t : Nat) (feed : Nat)
  /-- A feed outside 40 V to 60 V for one tick sets FEED_RANGE (R669). -/
  | feedRange (t : Nat) (feed : Nat)
  /-- An actuator over-current opens the electronic fuse, and valves and fans act as at a low feed (R672). -/
  | actFuseOpen (t : Nat)
  /-- After 1 s the fuse closes again, unless this was its third opening within 60 s (R672). -/
  | actFuseReclose (t : Nat)
  /-- ACT_CMD 1 closes a fuse that stays open (R672). -/
  | actCmd (t : Nat) (rx : Rx)
  /-- A current above 60 A for 1 s without an opening sets ACT_OVERLOAD (R673). -/
  | actOverload (t : Nat)
  /-- KEY_ENROL writes an operator key into an empty or revoked keyring slot (R633). -/
  | keyEnrol (t : Nat) (rx : Rx)
  /-- KEY_REVOKE revokes an active slot and closes its sessions (R633). -/
  | keyRevoke (t : Nat) (rx : Rx)
  /-- FUSE_SEC_RAISE blows fuses up to the running image's security version (R632). -/
  | fuseSecRaise (t : Nat) (rx : Rx)
  /-- FUSE_KEY_REVOKE revokes fused key slot 0 (R632). -/
  | fuseKeyRevoke (t : Nat) (rx : Rx)
  /-- A write of STANCE selects the turn boundary at which it takes effect, or is refused in the rest stance (R34). -/
  | stanceWrite (t : Nat) (rx : Rx)
  /-- A unit's test ends and its signature is compared with the stored value (R648). -/
  | bistComplete (t : Nat) (row : Nat) (signature : Nat)
  /-- At the first tick boundary after a test, the unit becomes a tested spare or is retired (R648). -/
  | bistResult (t : Nat) (row : Nat)
  /-- A test that does not end within twice its time counts as a mismatch (R650). -/
  | bistTimeout (t : Nat) (row : Nat)
  /-- At a turn boundary, the spare with the oldest pass beyond SPARE_RETEST_TURNS is tested again (R651). -/
  | spareRetest (t : Nat) (kind : Nat)
  /-- At PLANNED_TEST_TURNS, an active keeper, engine or internal fan hands its role to a spare and is tested, or the test is deferred (R652). -/
  | plannedTest (t : Nat) (kind : Nat)
  /-- A keeper suffers a block error, is fenced and a tested spare keeper takes its work, or with fewer than 16 keepers able to run the module enters the rest stance (R656). -/
  | keeperBlockError (t : Nat) (keeper : Nat)
  /-- The background move of an operator program's storage to another stack completes, and the program, suspended during the move, may resume (R373). -/
  | progStorageMoveDone (t : Nat) (slot : Nat)
  /-- The analog take-over switch finishes its break-before-make movement within 1 ms, and the spare channel serves the terminal (R548). -/
  | ainSwitchDone (t : Nat) (ch : Nat)
  /-- A dictionary request whose OP is not one of the defined operation codes is refused with UNKNOWN_OP (R106). -/
  | unknownOp (t : Nat) (rx : Rx)
  deriving DecidableEq, Repr

end Sys2Proof
end

