-- ==== Sys2Proof/Decode.lean ====
section
/-! DEFINITION. Reading a command from a word of the opcode table. The table of this hardware gives no row any bits
(every `fields` is empty), and no rule of the spec spells a command as a word, so no word spells one
(notes/assumptions/4.md). Requests are read from their datagrams in Machine/DictCore.lean and Machine/Desk.lean. -/

namespace Sys2Proof

/-- The command that the low `nbits` bits of `w` spell by the table's bits: none, since it gives none. -/
def decodeTableWord (_nbits _w : Nat) : Option Instr := none

end Sys2Proof
end

