-- ==== Sys2Proof/Machine/Float.lean ====
section
/-! DEFINITION. The plain number formats (R251 to R255): exact dyadic values, rounding in a stated direction,
encoding and decoding, and plain arithmetic on codes. -/

namespace Sys2Proof.Machine

/-- An exact value `m` × 2^`e`. -/
structure Dy where
  m : Int
  e : Int
  deriving DecidableEq, Repr

/-- The integer `i` as an exact value. -/
def Dy.int (i : Int) : Dy := { m := i, e := 0 }

/-- Zero. -/
def Dy.zero : Dy := { m := 0, e := 0 }

/-- 2^`k`. -/
def Dy.pow2 (k : Int) : Dy := { m := 1, e := k }

/-- The significand of `x` when its exponent is lowered to `e`. -/
def Dy.atExp (x : Dy) (e : Int) : Int := x.m * ((2 ^ (x.e - e).toNat : Nat) : Int)

/-- Exact sum. -/
def Dy.add (x y : Dy) : Dy := let e := min x.e y.e; { m := x.atExp e + y.atExp e, e := e }

/-- Negation. -/
def Dy.neg (x : Dy) : Dy := { x with m := -x.m }

/-- Exact difference. -/
def Dy.sub (x y : Dy) : Dy := x.add y.neg

/-- Exact product. -/
def Dy.mul (x y : Dy) : Dy := { m := x.m * y.m, e := x.e + y.e }

/-- Magnitude. -/
def Dy.abs (x : Dy) : Dy := { x with m := x.m.natAbs }

/-- Comparison of exact values. -/
def Dy.le (x y : Dy) : Bool := let e := min x.e y.e; decide (x.atExp e ≤ y.atExp e)
def Dy.lt (x y : Dy) : Bool := !y.le x
def Dy.max (x y : Dy) : Dy := if x.le y then y else x
def Dy.min (x y : Dy) : Dy := if x.le y then x else y

/-- ⌊x⌋. -/
def Dy.floor (x : Dy) : Int :=
  if 0 ≤ x.e then x.m * ((2 ^ x.e.toNat : Nat) : Int) else x.m.fdiv ((2 ^ (-x.e).toNat : Nat) : Int)

/-- ⌈x⌉. -/
def Dy.ceil (x : Dy) : Int := -(x.neg.floor)

/-- Directions of rounding: to nearest with ties to even, toward +∞, toward −∞ (R263). -/
inductive Rnd where
  | near | up | down
  deriving DecidableEq, Repr

/-- A floating-point format: significand bits with the implicit one, smallest normal exponent, largest finite
value, and the widths of its fields (R251, R257). `hasInf` tells whether the format has infinities, `signed`
whether it has a sign bit. -/
structure Fmt where
  p : Nat
  emin : Int
  maxFin : Dy
  expBits : Nat
  bias : Int
  hasInf : Bool
  signed : Bool
  deriving DecidableEq, Repr

def Fmt.f32 : Fmt := ⟨24, -126, ⟨16777215, 104⟩, 8, 127, true, true⟩
def Fmt.f16 : Fmt := ⟨11, -14, ⟨2047, 5⟩, 5, 15, true, true⟩
def Fmt.bf16 : Fmt := ⟨8, -126, ⟨255, 120⟩, 8, 127, true, true⟩
def Fmt.e4m3 : Fmt := ⟨4, -6, ⟨14, 5⟩, 4, 7, false, true⟩
def Fmt.e5m2 : Fmt := ⟨3, -14, ⟨7, 13⟩, 5, 15, true, true⟩
def Fmt.ue5m3 : Fmt := ⟨4, -14, ⟨15, 12⟩, 5, 15, true, false⟩
def Fmt.ue5m10 : Fmt := ⟨11, -14, ⟨2047, 5⟩, 5, 15, true, false⟩

/-- ⌊log2 (num / den)⌋ for positive operands. -/
def log2Ratio (num den : Nat) : Int :=
  let l : Int := (num.log2 : Int) - (den.log2 : Int)
  let ge : Bool := if 0 ≤ l then decide (den * 2 ^ l.toNat ≤ num) else decide (den ≤ num * 2 ^ (-l).toNat)
  if ge then l else l - 1

/-- Round the positive magnitude `num`/`den` to `p` significand bits with exponents from `emin`; `up` and `down`
are taken away from and toward zero. -/
def roundMag (p : Nat) (emin : Int) (r : Rnd) (num den : Nat) : Nat × Int :=
  if num = 0 then (0, emin - p + 1) else
  let ex : Int := max (log2Ratio num den) emin - p + 1
  let n := if ex < 0 then num * 2 ^ (-ex).toNat else num
  let d := if ex < 0 then den else den * 2 ^ ex.toNat
  let q := n / d
  let rem := n % d
  let inc : Bool :=
    match r with
    | .near => decide (d < 2 * rem) || (decide (2 * rem = d) && q % 2 == 1)
    | .up => decide (rem ≠ 0)
    | .down => false
  (if inc then q + 1 else q, ex)

/-- Direction seen by the magnitude of a negative number. -/
def Rnd.flip : Rnd → Rnd
  | .near => .near
  | .up => .down
  | .down => .up

/-- Round the signed ratio `num`/`den` to a format's precision, its largest value not yet regarded. -/
def Fmt.roundRatio (f : Fmt) (r : Rnd) (num : Int) (den : Nat) : Dy :=
  if num < 0 then
    let (m, e) := roundMag f.p f.emin r.flip num.natAbs den
    { m := -(m : Int), e := e }
  else
    let (m, e) := roundMag f.p f.emin r num.natAbs den
    { m := m, e := e }

/-- Round an exact value to a format's precision. -/
def Fmt.round (f : Fmt) (r : Rnd) (x : Dy) : Dy :=
  if 0 ≤ x.e then f.roundRatio r (x.m * ((2 ^ x.e.toNat : Nat) : Int)) 1
  else f.roundRatio r x.m (2 ^ (-x.e).toNat)

/-- Whether a magnitude lies beyond the format's largest finite value. -/
def Fmt.beyond (f : Fmt) (x : Dy) : Bool := !x.abs.le f.maxFin

/-- ⌊√n⌋ by bisection on the bits of the root, highest first. -/
def isqrtAux (n : Nat) : Nat → Nat → Nat
  | 0, r => r
  | k + 1, r => let r' := r + 2 ^ k; if r' * r' ≤ n then isqrtAux n k r' else isqrtAux n k r

/-- ⌊√n⌋. -/
def isqrt (n : Nat) : Nat := isqrtAux n (n.log2 / 2 + 1) 0

/-- √(num/den) rounded to the format (R268): the root is taken with two spare bits and a sticky bit. -/
def Fmt.sqrtRatio (f : Fmt) (r : Rnd) (num den : Nat) : Dy :=
  if num = 0 then Dy.zero else
  let e2 : Int := log2Ratio num den
  let k : Nat := ((2 * (f.p + 3 : Int) - e2).toNat + 1) / 2 * 2
  let n := num * 2 ^ k
  let q := n / den
  let s := isqrt q
  let exact : Bool := decide (s * s * den = n)
  let s2 := 2 * s + (if exact then 0 else 1)
  let half : Int := (k / 2 : Nat)
  f.round r { m := s2, e := -half - 1 }

/-- √x of an exact non-negative value, rounded. -/
def Fmt.sqrt (f : Fmt) (r : Rnd) (x : Dy) : Dy :=
  if 0 ≤ x.e then f.sqrtRatio r (x.m.natAbs * 2 ^ x.e.toNat) 1
  else f.sqrtRatio r x.m.natAbs (2 ^ (-x.e).toNat)

/-- 1/√x of an exact positive value, rounded. -/
def Fmt.rsqrt (f : Fmt) (r : Rnd) (x : Dy) : Dy :=
  if 0 ≤ x.e then f.sqrtRatio r 1 (x.m.natAbs * 2 ^ x.e.toNat)
  else f.sqrtRatio r (2 ^ (-x.e).toNat) x.m.natAbs

/-- x / y of exact values with y not zero, rounded. -/
def Fmt.div (f : Fmt) (r : Rnd) (x y : Dy) : Dy :=
  let s : Int := if y.m < 0 then -1 else 1
  let d : Int := x.e - y.e
  if 0 ≤ d then f.roundRatio r (s * x.m * ((2 ^ d.toNat : Nat) : Int)) y.m.natAbs
  else f.roundRatio r (s * x.m) (y.m.natAbs * 2 ^ (-d).toNat)

/-- Half the unit in the last place of a midpoint (R262, R263). -/
def Fmt.halfUlp (f : Fmt) (x : Dy) : Dy :=
  if x.m = 0 then Dy.pow2 (f.emin - f.p)
  else
    let e : Int := (x.m.natAbs.log2 : Int) + x.e
    Dy.pow2 (max e f.emin - f.p)

/-- The value a floating-point code stands for. -/
inductive FV where
  | nan
  | inf (neg : Bool)
  | fin (neg : Bool) (d : Dy)
  deriving DecidableEq, Repr

/-- The bits of the fraction field. -/
def Fmt.fracBits (f : Fmt) : Nat := f.p - 1

/-- The value of a code (R251, R252, R257). -/
def Fmt.decode (f : Fmt) (c : Nat) : FV :=
  let fb := f.fracBits
  let frac := c % 2 ^ fb
  let ex := (c / 2 ^ fb) % 2 ^ f.expBits
  let neg := f.signed && (c / 2 ^ (fb + f.expBits)) % 2 == 1
  let top := 2 ^ f.expBits - 1
  if ex = top && f.hasInf then
    if frac = 0 || !f.signed then .inf neg else .nan
  else if ex = top && !f.hasInf && frac = 2 ^ fb - 1 then .nan
  else
    let m : Int := if ex = 0 then (frac : Int) else ((frac + 2 ^ fb : Nat) : Int)
    let e : Int := (if ex = 0 then 1 else (ex : Int)) - f.bias - fb
    .fin neg { m := if neg then -m else m, e := e }

/-- The canonical NaN of the format (R251). -/
def Fmt.nanCode (f : Fmt) : Nat :=
  if f.hasInf then (2 ^ f.expBits - 1) * 2 ^ f.fracBits + 2 ^ (f.fracBits - 1)
  else 2 ^ (f.fracBits + f.expBits) - 1

/-- The code of +∞. -/
def Fmt.infCode (f : Fmt) : Nat := (2 ^ f.expBits - 1) * 2 ^ f.fracBits

/-- The code of the magnitude of a value that lies on the format's grid. -/
def Fmt.encodeMag (f : Fmt) (x : Dy) : Nat :=
  if x.m = 0 then 0 else
  let e : Int := (x.m.natAbs.log2 : Int) + x.e
  let lo : Int := max e f.emin - f.p + 1
  let sig := (x.abs.atExp (min x.e lo)).toNat / 2 ^ (lo - min x.e lo).toNat
  if e < f.emin then sig
  else (e + f.bias).toNat * 2 ^ f.fracBits + (sig - 2 ^ f.fracBits)

/-- The sign bit's weight. -/
def Fmt.signBit (f : Fmt) : Nat := 2 ^ (f.fracBits + f.expBits)

/-- Round a value into a format and encode it (R253, R255): NaN to the canonical NaN, overflow to ±∞ where the
format is wider than 8 bits, to the largest finite value in the 8-bit formats. -/
def Fmt.encode (f : Fmt) (r : Rnd) (v : FV) : Nat :=
  let sat := f.p ≤ 4
  match v with
  | .nan => f.nanCode
  | .inf neg =>
    (if neg then f.signBit else 0) + (if f.hasInf then f.infCode else f.encodeMag f.maxFin)
  | .fin neg d =>
    let x := f.round r d
    let mag :=
      if f.beyond x then (if sat then f.encodeMag f.maxFin else f.infCode) else f.encodeMag x
    (if neg then f.signBit else 0) + mag

/-- An exact value as a format value, zero with the sign given. -/
def FV.ofDy (d : Dy) (zeroNeg : Bool := false) : FV := .fin (if d.m = 0 then zeroNeg else decide (d.m < 0)) d

/-- Plain sum of two values before rounding (IEEE 754). -/
def FV.add : FV → FV → FV
  | .nan, _ => .nan
  | _, .nan => .nan
  | .inf a, .inf b => if a = b then .inf a else .nan
  | .inf a, .fin _ _ => .inf a
  | .fin _ _, .inf b => .inf b
  | .fin a x, .fin b y => .ofDy (x.add y) (a && b)

/-- Negation. -/
def FV.neg : FV → FV
  | .nan => .nan
  | .inf a => .inf !a
  | .fin a x => .fin (!a) x.neg

/-- Plain product before rounding. -/
def FV.mul : FV → FV → FV
  | .nan, _ => .nan
  | _, .nan => .nan
  | .inf a, .inf b => .inf (a != b)
  | .inf a, .fin b y => if y.m = 0 then .nan else .inf (a != b)
  | .fin a x, .inf b => if x.m = 0 then .nan else .inf (a != b)
  | .fin a x, .fin b y => .fin (a != b) (x.mul y)

/-! ### FP32 on codes -/

/-- The value of an FP32 code. -/
def f32Val (c : Nat) : FV := Fmt.f32.decode c
/-- The FP32 code of a value, rounded to nearest. -/
def f32Enc (v : FV) : Nat := Fmt.f32.encode .near v
/-- The canonical NaN. -/
abbrev f32NaN : Nat := 0x7FC00000
/-- Whether a code is finite. -/
def f32Finite (c : Nat) : Bool := match f32Val c with | .fin _ _ => true | _ => false
/-- The exact value of a finite code, 0 otherwise. -/
def f32Dy (c : Nat) : Dy := match f32Val c with | .fin _ d => d | _ => Dy.zero
def f32Add (a b : Nat) : Nat := f32Enc ((f32Val a).add (f32Val b))
def f32Neg (a : Nat) : Nat := f32Enc (f32Val a).neg
def f32Sub (a b : Nat) : Nat := f32Enc ((f32Val a).add (f32Val b).neg)
def f32Mul (a b : Nat) : Nat := f32Enc ((f32Val a).mul (f32Val b))

/-- Plain FP32 quotient. -/
def f32Div (a b : Nat) : Nat :=
  match f32Val a, f32Val b with
  | .nan, _ => f32NaN
  | _, .nan => f32NaN
  | .inf _, .inf _ => f32NaN
  | .inf s, .fin t _ => f32Enc (.inf (s != t))
  | .fin s _, .inf t => f32Enc (.fin (s != t) Dy.zero)
  | .fin s x, .fin t y =>
    if y.m = 0 then (if x.m = 0 then f32NaN else f32Enc (.inf (s != t)))
    else f32Enc (.fin (s != t) (Fmt.f32.div .near x y))

/-- a < b; false with a NaN. -/
def f32Lt (a b : Nat) : Bool :=
  match f32Val a, f32Val b with
  | .fin _ x, .fin _ y => x.lt y
  | .inf true, .inf false => true
  | .inf true, .fin _ _ => true
  | .fin _ _, .inf false => true
  | _, _ => false

/-- a ≤ b; false with a NaN. -/
def f32Le (a b : Nat) : Bool :=
  match f32Val a, f32Val b with
  | .fin _ x, .fin _ y => x.le y
  | .inf s, .inf t => s || !t
  | .inf true, .fin _ _ => true
  | .fin _ _, .inf false => true
  | _, _ => false

def f32Min (a b : Nat) : Nat := if f32Lt b a then b else a
def f32Max (a b : Nat) : Nat := if f32Lt a b then b else a
/-- |a|. -/
def f32Abs (a : Nat) : Nat := a % 2 ^ 31
/-- Whether a code is a NaN. -/
def f32IsNaN (c : Nat) : Bool := f32Val c == .nan
/-- The FP32 nearest to num/den. -/
def f32Ratio (num : Int) (den : Nat) : Nat :=
  if den = 0 then f32NaN else f32Enc (.ofDy (Fmt.f32.roundRatio .near num den))
/-- The FP32 of an integer, rounded to nearest. -/
def f32Int (i : Int) : Nat := f32Ratio i 1
/-- The FP32 of num/den rounded in a direction. -/
def f32RatioR (r : Rnd) (num : Int) (den : Nat) : Nat :=
  if den = 0 then f32NaN else f32Enc (.ofDy (Fmt.f32.roundRatio r num den))
/-- ⌊a⌋ of a finite code, as an integer. -/
def f32Floor (a : Nat) : Int := (f32Dy a).floor

end Sys2Proof.Machine
end

