-- ==== Sys2Proof/Machine/Bracket.lean ====
section
/-! DEFINITION. Bracket arithmetic (R256 to R278). A bracket is held as its exact midpoint and radius; operations
round their midpoint to nearest and their radius outward, add half an ulp of the result, and count the brackets
that turn open. -/

namespace Sys2Proof.Machine

/-- A bracket ⟨mid, rad⟩; `isOpen` stands for an infinite radius (R260), whose midpoint has no meaning (R261). -/
structure Br where
  mid : Dy := Dy.zero
  rad : Dy := Dy.zero
  isOpen : Bool := false
  deriving DecidableEq, Repr

/-- Counts of results that turned open, by cause (R277). -/
structure BrCnt where
  input : Nat := 0
  domain : Nat := 0
  mid : Nat := 0
  rad : Nat := 0
  deriving DecidableEq, Repr

/-- The open bracket. -/
def Br.opened : Br := { isOpen := true }

/-- The exact bracket of a value. -/
def Br.exact (d : Dy) : Br := { mid := d }

/-- Lower and upper edges of a bracket that is not open. -/
def Br.lo (b : Br) : Dy := b.mid.sub b.rad
def Br.hi (b : Br) : Dy := b.mid.add b.rad

/-- Count one opening of cause `c` (1 input, 2 domain, 3 midpoint, 4 radius). -/
def BrCnt.add (k : BrCnt) (c : Nat) : BrCnt :=
  if c = 1 then { k with input := k.input + 1 }
  else if c = 2 then { k with domain := k.domain + 1 }
  else if c = 3 then { k with mid := k.mid + 1 }
  else { k with rad := k.rad + 1 }

/-- Bracket computations count openings as they go. -/
abbrev BrM := StateM BrCnt

/-- An open result that is counted under cause `c`. -/
def Br.openBy (c : Nat) : BrM Br := do
  modify fun k => k.add c
  return Br.opened

/-- Round a radius term toward +∞ in FP32; none is +∞ (R264). -/
def ru32 (x : Option Dy) : Option Dy :=
  match x with
  | none => none
  | some d => let r := Fmt.f32.round .up d; if Fmt.f32.beyond r then none else some r

/-- Radius sum with RU. -/
def radAdd (x y : Option Dy) : Option Dy :=
  match x, y with
  | some a, some b => ru32 (some (a.add b))
  | _, _ => none

/-- Radius product with RU. -/
def radMul (x y : Dy) : Option Dy := ru32 (some (x.mul y))

/-- Round midpoint and radius into the result formats (R263, R264). `m` is the midpoint before rounding as a function
of the rounding, `r` the radius before h. -/
def Br.finish (fm fr : Fmt) (m : Dy) (r : Option Dy) : BrM Br :=
  let mm := fm.round .near m
  if fm.beyond mm then Br.openBy 3
  else
    match radAdd r (some (fm.halfUlp mm)) with
    | none => Br.openBy 4
    | some d =>
      let rr := fr.round .up d
      if fr.beyond rr then Br.openBy 4 else return { mid := mm, rad := rr }

/-- `finish` into bracket-FP32. -/
def Br.fin32 (m : Dy) (r : Option Dy) : BrM Br := Br.finish Fmt.f32 Fmt.f32 m r

/-- ADD (R267). -/
def Br.add (x y : Br) : BrM Br :=
  if x.isOpen || y.isOpen then pure Br.opened
  else Br.fin32 (x.mid.add y.mid) (ru32 (some (x.rad.add y.rad)))

/-- NEG: the midpoint is exact; h is added as for every operation of R267 (R263). -/
def Br.neg (x : Br) : BrM Br := if x.isOpen then pure Br.opened else Br.fin32 x.mid.neg (some x.rad)

/-- ABS. -/
def Br.abs (x : Br) : BrM Br := if x.isOpen then pure Br.opened else Br.fin32 x.mid.abs (some x.rad)

/-- SUB. -/
def Br.sub (x y : Br) : BrM Br :=
  if x.isOpen || y.isOpen then pure Br.opened
  else Br.fin32 (x.mid.sub y.mid) (ru32 (some (x.rad.add y.rad)))

/-- |a|β + |b|α + αβ in the fixed order of R269, each step rounded up. -/
def Br.prodRad (x y : Br) : Option Dy :=
  radAdd (radAdd (radMul x.mid.abs y.rad) (radMul y.mid.abs x.rad)) (radMul x.rad y.rad)

/-- MUL. -/
def Br.mul (x y : Br) : BrM Br :=
  if x.isOpen || y.isOpen then pure Br.opened else Br.fin32 (x.mid.mul y.mid) (x.prodRad y)

/-- MAC into the accumulator `acc` (R267, R269). -/
def Br.mac (acc x y : Br) : BrM Br :=
  if acc.isOpen || x.isOpen || y.isOpen then pure Br.opened
  else Br.fin32 (acc.mid.add (x.mid.mul y.mid)) (radAdd (some acc.rad) (x.prodRad y))

/-- D = RD(|b| × RD(|b| − β)) of DIV and RCP. -/
def Br.denom (y : Br) : Dy := Fmt.f32.round .down (y.mid.abs.mul (Fmt.f32.round .down (y.mid.abs.sub y.rad)))

/-- Radius quotient with RU. -/
def radDiv (x : Option Dy) (d : Dy) : Option Dy :=
  match x with
  | none => none
  | some a => let q := Fmt.f32.div .up a d; if Fmt.f32.beyond q then none else some q

/-- DIV. -/
def Br.div (x y : Br) : BrM Br :=
  if x.isOpen || y.isOpen then pure Br.opened
  else
    let d := y.denom
    if d.m ≤ 0 then Br.openBy 2
    else Br.fin32 (Fmt.f32.div .near x.mid y.mid)
      (radDiv (radAdd (radMul x.mid.abs y.rad) (radMul y.mid.abs x.rad)) d)

/-- RCP. -/
def Br.rcp (y : Br) : BrM Br :=
  if y.isOpen then pure Br.opened
  else
    let d := y.denom
    if d.m ≤ 0 then Br.openBy 2
    else Br.fin32 (Fmt.f32.div .near (Dy.int 1) y.mid) (radDiv (some y.rad) d)

/-- SQRT. -/
def Br.sqrt (x : Br) : BrM Br :=
  if x.isOpen then pure Br.opened
  else
    let l := Fmt.f32.round .down (x.mid.sub x.rad)
    if l.m < 0 then Br.openBy 2
    else Br.fin32 (Fmt.f32.sqrt .near x.mid)
      (ru32 (some ((Fmt.f32.sqrt .up x.mid).sub (Fmt.f32.sqrt .down l))))

/-- RSQRT. -/
def Br.rsqrt (x : Br) : BrM Br :=
  if x.isOpen then pure Br.opened
  else
    let l := Fmt.f32.round .down (x.mid.sub x.rad)
    if l.m ≤ 0 then Br.openBy 2
    else Br.fin32 (Fmt.f32.rsqrt .near x.mid)
      (ru32 (some ((Fmt.f32.rsqrt .up l).sub (Fmt.f32.rsqrt .down x.mid))))

/-- MAX. -/
def Br.max (x y : Br) : BrM Br :=
  if x.isOpen || y.isOpen then pure Br.opened else Br.fin32 (x.mid.max y.mid) (some (x.rad.max y.rad))

/-- MIN. -/
def Br.min (x y : Br) : BrM Br :=
  if x.isOpen || y.isOpen then pure Br.opened else Br.fin32 (x.mid.min y.mid) (some (x.rad.max y.rad))

/-- SCALE by 2^k. -/
def Br.scale (x : Br) (k : Int) : BrM Br :=
  if x.isOpen then pure Br.opened
  else Br.fin32 (x.mid.mul (Dy.pow2 k)) (ru32 (some (x.rad.mul (Dy.pow2 k))))

/-- WIDEN by a plain FP32 value, given as its code (R267). -/
def Br.widen (x : Br) (w : FV) : BrM Br :=
  if x.isOpen then pure Br.opened
  else
    match w with
    | .nan => Br.openBy 2
    | .inf neg => if neg then Br.openBy 2 else Br.openBy 4
    | .fin _ d => if d.m < 0 then Br.openBy 2 else Br.fin32 x.mid (ru32 (some (x.rad.add d)))

/-- HULL. -/
def Br.hull (x y : Br) : BrM Br :=
  if x.isOpen || y.isOpen then pure Br.opened
  else
    let l := Fmt.f32.round .down (x.lo.min y.lo)
    let u := Fmt.f32.round .up (x.hi.max y.hi)
    if Fmt.f32.beyond l || Fmt.f32.beyond u then Br.openBy 4
    else
      let m := Fmt.f32.round .near ((l.add u).mul (Dy.pow2 (-1)))
      Br.fin32 m (ru32 (some ((Fmt.f32.round .up (u.sub m)).max (Fmt.f32.round .up (m.sub l)))))

/-- Narrow a bracket-FP32 to bracket-FP16 (R271). -/
def Br.to16 (x : Br) : BrM Br :=
  if x.isOpen then pure Br.opened else Br.finish Fmt.f16 Fmt.ue5m10 x.mid (some x.rad)

/-- Narrow a bracket-FP32 to bracket-FP8 (R271). -/
def Br.to8 (x : Br) : BrM Br :=
  if x.isOpen then pure Br.opened else Br.finish Fmt.e4m3 Fmt.ue5m3 x.mid (some x.rad)

/-- Plain value to bracket-FP32 (R271). -/
def Br.ofPlain (v : FV) : BrM Br :=
  match v with
  | .fin _ d => pure (Br.exact d)
  | _ => Br.openBy 1

/-- LOWER and UPPER of R271 as FP32 codes. -/
def Br.lower (x : Br) : Nat := if x.isOpen then 0xFF800000 else Fmt.f32.encode .down (.ofDy x.lo)
def Br.upper (x : Br) : Nat := if x.isOpen then 0x7F800000 else Fmt.f32.encode .up (.ofDy x.hi)
/-- MID of R271. -/
def Br.midCode (x : Br) : Nat := if x.isOpen then f32NaN else f32Enc (.ofDy x.mid)

/-- A temperature code as a bracket (R272); none for no reading. -/
def Br.ofTemp (v : Nat) : BrM (Option Br) :=
  if v = 0x8000 then pure none
  else if v = 0x7FFF then do return some (← Br.openBy 1)
  else pure (some { mid := ⟨2 * s16 v - 1, -7⟩, rad := Dy.pow2 (-7) })

/-- A power code as a bracket (R272). -/
def Br.ofPower (p : Nat) : BrM Br :=
  if p = 0xFFFF then Br.openBy 1 else pure { mid := ⟨2 * p - 1, -4⟩, rad := Dy.pow2 (-4) }

/-- A cap code as a bracket (R272). -/
def Br.ofCap (c : Nat) : Br := Br.exact ⟨c, -3⟩

/-- The BRK16 word of a bracket on the bracket-FP16 grid (R258, R261). -/
def Br.code16 (x : Br) : Nat :=
  if x.isOpen then 0x7E007C00
  else (Fmt.f16.encode .near (.ofDy x.mid)) * 65536 + Fmt.ue5m10.encode .up (.ofDy x.rad)

/-- The bracket of a BRK16 word; bit 15 is reserved (R7, R258). -/
def Br.of16 (w : Nat) : Br :=
  match Fmt.f16.decode (w / 65536), Fmt.ue5m10.decode (w % 32768) with
  | .fin _ m, .fin _ r => { mid := m, rad := r }
  | _, _ => Br.opened

/-- The bracket of a bracket-FP8 word. -/
def Br.of8 (w : Nat) : Br :=
  match Fmt.e4m3.decode (w / 256), Fmt.ue5m3.decode (w % 256) with
  | .fin _ m, .fin _ r => { mid := m, rad := r }
  | _, _ => Br.opened

/-- The bracket-FP8 word of a bracket on that grid. -/
def Br.code8 (x : Br) : Nat :=
  if x.isOpen then 0x7FF8
  else (Fmt.e4m3.encode .near (.ofDy x.mid)) * 256 + Fmt.ue5m3.encode .up (.ofDy x.rad)

/-- The bracket of a bracket-FP32 double word (R258, R260). -/
def Br.of32 (w : Nat) : Br :=
  match f32Val (w / 2 ^ 32), f32Val (w % 2 ^ 32) with
  | .fin _ m, .fin neg r => if neg then Br.opened else { mid := m, rad := r }
  | _, _ => Br.opened

/-- The bracket-FP32 double word of a bracket. -/
def Br.code32 (x : Br) : Nat :=
  if x.isOpen then 0x7FC000007F800000
  else f32Enc (.ofDy x.mid) * 2 ^ 32 + Fmt.f32.encode .up (.ofDy x.rad)

/-- Plain MAC of two INT8 operands into an INT32 accumulator that saturates (R254). -/
def intMac (acc a b : Int) : Int := max (-2147483648) (min 2147483647 (acc + a * b))

end Sys2Proof.Machine
end

