-- ==== Sys2Proof/Config.lean ====
section
/-! DEFINITION. What the module's build, its fuses and its firmware image fix, and the values the spec leaves
open. Every constant here is opaque and has no body: nothing in Lean can evaluate one, so a statement about the
machine holds whatever they are (notes/assumptions/1.md and 2.md). -/

namespace Sys2Proof

/-- Free value number `k`: a value the spec leaves open at one use. The machine reads the counter
`State.freeCtr`, applies this constant to it and advances the counter. -/
opaque Config.freeValue : Nat → Nat

/-- `PORT_MAC`, fused (R88). -/
opaque Config.portMac : Nat
/-- `HW_ISSUE`, fused (R135). -/
opaque Config.hwIssue : Nat
/-- `DEVICE_PUBKEY`, fused (R135). -/
opaque Config.devicePubkey : Nat
/-- `BOOT_ROM_VERSION` of the boot ROM (R643). -/
opaque Config.bootRomVersion : Nat
/-- `SERIAL`, fused (R135): the octets of the string. -/
opaque Config.serial : Bytes
/-- The fused key slots' SM3 hashes, slot 0 and slot 1 (R626). -/
opaque Config.fusedKeyHash : Nat → Nat

/-- SM3 of a run of octets, as a 256-bit number: the standard is named by the spec and not restated there. -/
opaque Config.sm3 : Bytes → Nat
/-- HMAC-SM3 under a key (R129), as a 256-bit number. -/
opaque Config.hmacSm3 : Nat → Bytes → Nat
/-- SM2 verification of a signature over a run of octets under a public key (R128, R631). -/
opaque Config.sm2Verify : Bytes → Bytes → Bytes → Bool
/-- SM2 signature of a run of octets under the device key (R127); the second operand is the free randomness. -/
opaque Config.sm2Sign : Bytes → Nat → Nat
/-- The fresh SM2 public key of one OPEN, from the free randomness of that OPEN (R126). -/
opaque Config.sm2Eph : Nat → Nat
/-- The session key of R129 from the module's secret of one OPEN, the host's ephemeral key and T. -/
opaque Config.sessionKey : Nat → Bytes → Bytes → Nat

/-- The default of an entry the spec marks "Image", read from the firmware image (R135, R382, R417). -/
opaque Config.imageDefault : Bytes → Nat → Nat
/-- A parameter a firmware image holds for class `c` (R387, R388): image, class, parameter number. -/
opaque Config.imageClass : Bytes → Nat → Nat → Nat
/-- A weight of the shipped part of an image that the spec names and does not print: image, table, position. -/
opaque Config.imageTable : Bytes → Nat → Nat → Nat

/-- offsetScaledLogVariance of the reference oscillator in Announce messages (R60). -/
opaque Config.ptpVariance : Nat
/-- What the row program's refit finds (R410, R411): refit, class or guest slot, parameter ↦ word. -/
opaque Config.refit : Nat → Nat → Nat → Nat
/-- Which of several units or programs the module takes where the spec leaves it open: draw, candidate ↦ sort key. -/
opaque Config.choice : Nat → Nat → Nat
/-- Where the areas of R318 lie in a stack: area (0 state area, 1 look-back entry, 2 summary row, 3 histogram bin,
4 guest rainflow cell, 5 guest extremes row), unit, position ↦ line of the stack. -/
opaque Config.layout : Nat → Nat → Nat → Nat
/-- A constant of the internal fans' speed loop that R505 calls fixed and does not print, by the key of the customer
channels' entry of that meaning. -/
opaque Config.ifanConst : Nat → Nat
/-- The order in which a cell adds the products of a long sum (R276): a sort key per position. -/
opaque Config.macOrder : Nat → Nat → Nat

end Sys2Proof
end

