-- ==== Sys2Proof/Machine/AMap.lean ====
section
/-! DEFINITION. Sparse stores kept as plain data: a list of (key, value) pairs with strictly rising keys, so that
equal stores are equal lists. The register store, the guests and every other sparse table of the module use it. -/

namespace Sys2Proof.Machine

/-- A sparse store: keys strictly rising. -/
abbrev AMap (α : Type) := List (Nat × α)

/-- What the store lists at `k`. -/
def AMap.get {α : Type} : AMap α → Nat → Option α
  | [], _ => none
  | (j, v) :: m, k => if j = k then some v else AMap.get m k

/-- The store with `v` listed at `k`. -/
def AMap.set {α : Type} : AMap α → Nat → α → AMap α
  | [], k, v => [(k, v)]
  | (j, w) :: m, k, v =>
    if k < j then (k, v) :: (j, w) :: m
    else if k = j then (k, v) :: m
    else (j, w) :: AMap.set m k v

/-- The store without an entry at `k`. -/
def AMap.erase {α : Type} (m : AMap α) (k : Nat) : AMap α := m.filter fun p => p.1 != k

/-- What an unlisted key reads as, made explicit. -/
def AMap.getD {α : Type} (m : AMap α) (k : Nat) (d : α) : α := (AMap.get m k).getD d

/-- Write `v` at `k` where unlisted keys read as `d`: writing `d` removes the entry. -/
def AMap.put {α : Type} [DecidableEq α] (m : AMap α) (k : Nat) (v d : α) : AMap α :=
  if v = d then AMap.erase m k else AMap.set m k v

/-- Apply `f` to the value at `k`, if one is listed. -/
def AMap.adjust {α : Type} (m : AMap α) (k : Nat) (f : α → α) : AMap α :=
  m.map fun p => if p.1 = k then (p.1, f p.2) else p

/-- Apply `f` to every value. -/
def AMap.mapVals {α β : Type} (m : AMap α) (f : Nat → α → β) : AMap β := m.map fun p => (p.1, f p.1 p.2)

/-- Strictly rising keys: the canonical form. -/
def AMap.Rising {α : Type} : AMap α → Prop
  | [] => True
  | [_] => True
  | (j, _) :: (k, v) :: m => j < k ∧ AMap.Rising ((k, v) :: m)

/-- The canonical form, as a check. -/
def AMap.wf {α : Type} : AMap α → Bool
  | [] => true
  | [_] => true
  | (j, _) :: (k, v) :: m => decide (j < k) && AMap.wf ((k, v) :: m)

end Sys2Proof.Machine
end

