-- ==== Sys2Proof/Machine/EntryTable.lean ====
section
/-! DEFINITION. The entries of the object dictionary (R9, R10, R101 to R139), one definition per entry and one
row per entry in the table the dictionary server looks requests up in. A key is index × 256 + subindex of the
first unit; unit n of a per-unit entry stands n indices further on (R137). Defaults are those of the spec's entry
tables; an entry whose default is fused is a Config constant, and one whose default is marked "Image", "FRAM" or
by unit is written at firmware start (Machine/Start.lean). -/

namespace Sys2Proof.Machine

/-- A dictionary entry: the key of its first unit and its default (R10). -/
structure Ent where
  key : Nat
  dflt : Nat
  deriving DecidableEq, Repr

/-- Dictionary types (R8). -/
inductive Ty where
  | u8 | u16 | u32 | u64 | i16 | i32 | f32 | brk16 | tick | str
  | oct (n : Nat)
  | octVar
  deriving DecidableEq, Repr

/-- Access codes (R9). -/
inductive Acc where
  | ro | rw | rws | wo | w1c | k
  deriving DecidableEq, Repr

/-- The range or set of values an entry's own row or rule states. -/
inductive Chk where
  | any
  | rng (lo hi : Nat)
  | rngOr (lo hi other : Nat)
  | srng (lo hi : Int)
  | oneOf (l : List Nat)
  | f32
  | f32min0
  | f32pos
  | f32rng (lo hi : Nat)
  | addr
  | mcast
  | btNominal
  | btData
  | rxCfg
  | txCfg
  | txTiming
  deriving DecidableEq, Repr

/-- One row of the dictionary: name, first unit's key and default, number of units, last subindex, type, access,
stated values, and whether the entry is kept in FRAM (R10). -/
structure Row where
  name : String
  ent : Ent
  units : Nat
  lastSub : Nat
  ty : Ty
  acc : Acc
  chk : Chk
  fram : Bool
  deriving DecidableEq, Repr

/-- 0x4000.01 STANCE (R33). -/
def E.STANCE : Ent := ⟨0x400001, 1⟩
/-- 0x4000.02 STANCE_ACTIVE (R33). -/
def E.STANCE_ACTIVE : Ent := ⟨0x400002, 3⟩
/-- 0x4000.03 DIE_POWER_CEILING (R33). -/
def E.DIE_POWER_CEILING : Ent := ⟨0x400003, 700⟩
/-- 0x4000.04 REST_CAUSE (R33). -/
def E.REST_CAUSE : Ent := ⟨0x400004, 0⟩
/-- 0x2000.01 WHEEL_TICKS (R51). -/
def E.WHEEL_TICKS : Ent := ⟨0x200001, 200⟩
/-- 0x2000.02 WHEEL_TICKS_ACTIVE (R51). -/
def E.WHEEL_TICKS_ACTIVE : Ent := ⟨0x200002, 200⟩
/-- 0x2000.03 WHEEL_NOMINAL_HZ (R51). -/
def E.WHEEL_NOMINAL_HZ : Ent := ⟨0x200003, 50⟩
/-- 0x2000.04 WHEEL_STATE (R51). -/
def E.WHEEL_STATE : Ent := ⟨0x200004, 0⟩
/-- 0x2000.05 WHEEL_REF_PHASE (R51). -/
def E.WHEEL_REF_PHASE : Ent := ⟨0x200005, 0⟩
/-- 0x2000.06 WHEEL_PHASE_OFFSET (R51). -/
def E.WHEEL_PHASE_OFFSET : Ent := ⟨0x200006, 0⟩
/-- 0x2000.07 MAINS_FREQ (R51). -/
def E.MAINS_FREQ : Ent := ⟨0x200007, 0⟩
/-- 0x2000.08 TICK_PERIOD_PS (R51). -/
def E.TICK_PERIOD_PS : Ent := ⟨0x200008, 0⟩
/-- 0x2000.09 WHEEL_NOW (R51). -/
def E.WHEEL_NOW : Ent := ⟨0x200009, 0⟩
/-- 0x2000.0A HOLDOVER_LIMIT (R51). -/
def E.HOLDOVER_LIMIT : Ent := ⟨0x20000A, 600⟩
/-- 0x2000.0B HOLDOVER_TIME (R51). -/
def E.HOLDOVER_TIME : Ent := ⟨0x20000B, 0⟩
/-- 0x2000.0C WHEEL_LATCHES (R51). -/
def E.WHEEL_LATCHES : Ent := ⟨0x20000C, 0⟩
/-- 0x2000.0D PTP_ORIGIN_S (R51). -/
def E.PTP_ORIGIN_S : Ent := ⟨0x20000D, 0⟩
/-- 0x2010.01 PTP_DOMAIN (R63). -/
def E.PTP_DOMAIN : Ent := ⟨0x201001, 0⟩
/-- 0x2010.02 PTP_PRIORITY1 (R63). -/
def E.PTP_PRIORITY1 : Ent := ⟨0x201002, 128⟩
/-- 0x2010.03 PTP_PRIORITY2 (R63). -/
def E.PTP_PRIORITY2 : Ent := ⟨0x201003, 128⟩
/-- 0x2010.04 PTP_LOG_SYNC (R63). -/
def E.PTP_LOG_SYNC : Ent := ⟨0x201004, 65532⟩
/-- 0x2010.05 PTP_LOG_ANNOUNCE (R63). -/
def E.PTP_LOG_ANNOUNCE : Ent := ⟨0x201005, 0⟩
/-- 0x2010.06 PTP_LOG_DELAY_REQ (R63). -/
def E.PTP_LOG_DELAY_REQ : Ent := ⟨0x201006, 65532⟩
/-- 0x2010.07 PTP_CLOCK_CLASS (R63). -/
def E.PTP_CLOCK_CLASS : Ent := ⟨0x201007, 248⟩
/-- 0x2020.01 PHASE_KIND (R69). -/
def E.PHASE_KIND : Ent := ⟨0x202001, 0⟩
/-- 0x2020.02 PHASE_INPUT (R69). -/
def E.PHASE_INPUT : Ent := ⟨0x202002, 0⟩
/-- 0x2020.03 ANGLE_COUNTS (R69). -/
def E.ANGLE_COUNTS : Ent := ⟨0x202003, 1024⟩
/-- 0x2020.04 PHASE_BIN (R69). -/
def E.PHASE_BIN : Ent := ⟨0x202004, 0⟩
/-- 0x2020.05 PHASE_VALID (R69). -/
def E.PHASE_VALID : Ent := ⟨0x202005, 0⟩
/-- 0x2020.06 PHASE_PERIOD (R69). -/
def E.PHASE_PERIOD : Ent := ⟨0x202006, 0⟩
/-- 0x1100.01 PORT_MAC (R97). -/
def E.PORT_MAC : Ent := ⟨0x110001, Config.portMac⟩
/-- 0x1100.02 PORT_ADDR_MODE (R97). -/
def E.PORT_ADDR_MODE : Ent := ⟨0x110002, 1⟩
/-- 0x1100.03 PORT_ADDR (R97). -/
def E.PORT_ADDR : Ent := ⟨0x110003, 0⟩
/-- 0x1100.04 PORT_PREFIX_LEN (R97). -/
def E.PORT_PREFIX_LEN : Ent := ⟨0x110004, 64⟩
/-- 0x1100.05 PORT_ADDR_ACTIVE (R97). -/
def E.PORT_ADDR_ACTIVE : Ent := ⟨0x110005, 0⟩
/-- 0x1100.06 PORT_MTU (R97). -/
def E.PORT_MTU : Ent := ⟨0x110006, 9000⟩
/-- 0x1100.07 ROW_GROUP (R97). -/
def E.ROW_GROUP : Ent := ⟨0x110007, 339062177159182778970669940794401554608⟩
/-- 0x1100.08 PTP_MCAST_SCOPE (R97). -/
def E.PTP_MCAST_SCOPE : Ent := ⟨0x110008, 5⟩
/-- 0x1100.09 UDP_PORT_TELEMETRY (R97). -/
def E.UDP_PORT_TELEMETRY : Ent := ⟨0x110009, 49200⟩
/-- 0x1100.0A UDP_PORT_CAPS (R97). -/
def E.UDP_PORT_CAPS : Ent := ⟨0x11000A, 49201⟩
/-- 0x1100.0B UDP_PORT_DICT (R97). -/
def E.UDP_PORT_DICT : Ent := ⟨0x11000B, 49202⟩
/-- 0x1100.0C UDP_PORT_BOOT (R97). -/
def E.UDP_PORT_BOOT : Ent := ⟨0x11000C, 49203⟩
/-- 0x1100.0D PORT_EXPORT_RATE (R97). -/
def E.PORT_EXPORT_RATE : Ent := ⟨0x11000D, 400⟩
/-- 0x1100.0E PORT_LANE_MAP (R97). -/
def E.PORT_LANE_MAP : Ent := ⟨0x11000E, 0⟩
/-- 0x1100.0F PORT_MEDIA (R97). -/
def E.PORT_MEDIA : Ent := ⟨0x11000F, 0⟩
/-- 0x1100.10 LINK_STATE (R97). -/
def E.LINK_STATE : Ent := ⟨0x110010, 0⟩
/-- 0x1100.11 PORT_BER_WARN (R97). -/
def E.PORT_BER_WARN : Ent := ⟨0x110011, 944879383⟩
/-- 0x1100.12 PORT_LATCHES (R97). -/
def E.PORT_LATCHES : Ent := ⟨0x110012, 0⟩
/-- 0x1101.01 DSCP_GUARD (R97). -/
def E.DSCP_GUARD : Ent := ⟨0x110101, 46⟩
/-- 0x1101.02 DSCP_TIME (R97). -/
def E.DSCP_TIME : Ent := ⟨0x110102, 56⟩
/-- 0x1101.03 DSCP_CAPS (R97). -/
def E.DSCP_CAPS : Ent := ⟨0x110103, 34⟩
/-- 0x1101.04 DSCP_DESK (R97). -/
def E.DSCP_DESK : Ent := ⟨0x110104, 26⟩
/-- 0x1101.05 DSCP_DICT (R97). -/
def E.DSCP_DICT : Ent := ⟨0x110105, 16⟩
/-- 0x1101.06 DSCP_EXPORT (R97). -/
def E.DSCP_EXPORT : Ent := ⟨0x110106, 8⟩
/-- 0x1110.01 RX_FRAMES (R99). -/
def E.RX_FRAMES : Ent := ⟨0x111001, 0⟩
/-- 0x1110.02 RX_BYTES (R99). -/
def E.RX_BYTES : Ent := ⟨0x111002, 0⟩
/-- 0x1110.03 TX_FRAMES (R99). -/
def E.TX_FRAMES : Ent := ⟨0x111003, 0⟩
/-- 0x1110.04 TX_BYTES (R99). -/
def E.TX_BYTES : Ent := ⟨0x111004, 0⟩
/-- 0x1110.05 DROP_FCS (R99). -/
def E.DROP_FCS : Ent := ⟨0x111005, 0⟩
/-- 0x1110.06 DROP_OVERSIZE (R99). -/
def E.DROP_OVERSIZE : Ent := ⟨0x111006, 0⟩
/-- 0x1110.07 DROP_ETHERTYPE (R99). -/
def E.DROP_ETHERTYPE : Ent := ⟨0x111007, 0⟩
/-- 0x1110.08 DROP_ADDRESS (R99). -/
def E.DROP_ADDRESS : Ent := ⟨0x111008, 0⟩
/-- 0x1110.09 DROP_HEADER (R99). -/
def E.DROP_HEADER : Ent := ⟨0x111009, 0⟩
/-- 0x1110.0A DROP_CHECKSUM (R99). -/
def E.DROP_CHECKSUM : Ent := ⟨0x11100A, 0⟩
/-- 0x1110.0B DROP_PORT (R99). -/
def E.DROP_PORT : Ent := ⟨0x11100B, 0⟩
/-- 0x1110.0C DROP_INGRESS (R99). -/
def E.DROP_INGRESS : Ent := ⟨0x11100C, 0⟩
/-- 0x1110.0D DROP_PAUSE (R99). -/
def E.DROP_PAUSE : Ent := ⟨0x11100D, 0⟩
/-- 0x1110.0E DROP_EGRESS (R99). -/
def E.DROP_EGRESS : Ent := ⟨0x11100E, 0⟩
/-- 0x1110.0F FEC_CORRECTED (R99). -/
def E.FEC_CORRECTED : Ent := ⟨0x11100F, 0⟩
/-- 0x1110.10 FEC_UNCORRECTED (R99). -/
def E.FEC_UNCORRECTED : Ent := ⟨0x111010, 0⟩
/-- 0x1110.11 LINK_DOWNS (R99). -/
def E.LINK_DOWNS : Ent := ⟨0x111011, 0⟩
/-- 0x1110.12 TX_CLASS0 (R99). -/
def E.TX_CLASS0 : Ent := ⟨0x111012, 0⟩
/-- 0x1110.13 TX_CLASS1 (R99). -/
def E.TX_CLASS1 : Ent := ⟨0x111013, 0⟩
/-- 0x1110.14 TX_CLASS2 (R99). -/
def E.TX_CLASS2 : Ent := ⟨0x111014, 0⟩
/-- 0x1110.15 TX_CLASS3 (R99). -/
def E.TX_CLASS3 : Ent := ⟨0x111015, 0⟩
/-- 0x1110.16 TX_CLASS4 (R99). -/
def E.TX_CLASS4 : Ent := ⟨0x111016, 0⟩
/-- 0x1110.17 TX_CLASS5 (R99). -/
def E.TX_CLASS5 : Ent := ⟨0x111017, 0⟩
/-- 0x1120.01 LANE_SNR (R100). -/
def E.LANE_SNR : Ent := ⟨0x112001, 0⟩
/-- 0x1120.02 LANE_BER (R100). -/
def E.LANE_BER : Ent := ⟨0x112002, 0⟩
/-- 0x1120.03 LANE_SYMBOLS (R100). -/
def E.LANE_SYMBOLS : Ent := ⟨0x112003, 0⟩
/-- 0x1120.04 LANE_LOCK (R100). -/
def E.LANE_LOCK : Ent := ⟨0x112004, 0⟩
/-- 0x1000.01 VENDOR (R135). -/
def E.VENDOR : Ent := ⟨0x100001, 0⟩
/-- 0x1000.02 PRODUCT (R135). -/
def E.PRODUCT : Ent := ⟨0x100002, 0⟩
/-- 0x1000.03 SERIAL (R135). -/
def E.SERIAL : Ent := ⟨0x100003, 0⟩
/-- 0x1000.04 HW_ISSUE (R135). -/
def E.HW_ISSUE : Ent := ⟨0x100004, Config.hwIssue⟩
/-- 0x1000.05 FW_VERSION (R135). -/
def E.FW_VERSION : Ent := ⟨0x100005, 0⟩
/-- 0x1000.06 DICT_VERSION (R135). -/
def E.DICT_VERSION : Ent := ⟨0x100006, 1⟩
/-- 0x1000.07 GUEST_PROTO_VERSION (R135). -/
def E.GUEST_PROTO_VERSION : Ent := ⟨0x100007, 1⟩
/-- 0x1000.08 STAVRIX_FORM_VERSION (R135). -/
def E.STAVRIX_FORM_VERSION : Ent := ⟨0x100008, 0⟩
/-- 0x1000.09 DEVICE_PUBKEY (R135). -/
def E.DEVICE_PUBKEY : Ent := ⟨0x100009, Config.devicePubkey⟩
/-- 0x1010.01 DICT_OPEN_WRITES (R135). -/
def E.DICT_OPEN_WRITES : Ent := ⟨0x101001, 1⟩
/-- 0x1010.02 SESSION_IDLE (R135). -/
def E.SESSION_IDLE : Ent := ⟨0x101002, 60⟩
/-- 0x1010.03 SUB_LEASE (R135). -/
def E.SUB_LEASE : Ent := ⟨0x101003, 600⟩
/-- 0x1010.04 SESSIONS_OPEN (R135). -/
def E.SESSIONS_OPEN : Ent := ⟨0x101004, 0⟩
/-- 0x1010.05 DICT_REQUESTS (R135). -/
def E.DICT_REQUESTS : Ent := ⟨0x101005, 0⟩
/-- 0x1010.06 DICT_REFUSED (R135). -/
def E.DICT_REFUSED : Ent := ⟨0x101006, 0⟩
/-- 0x1010.07 TAG_FAILS (R135). -/
def E.TAG_FAILS : Ent := ⟨0x101007, 0⟩
/-- 0x1010.08 DICT_LATCHES (R135). -/
def E.DICT_LATCHES : Ent := ⟨0x101008, 0⟩
/-- 0x3000.01 DESK_OPEN (R179). -/
def E.DESK_OPEN : Ent := ⟨0x300001, 0⟩
/-- 0x3000.02 DESK_PRESENT (R179). -/
def E.DESK_PRESENT : Ent := ⟨0x300002, 0⟩
/-- 0x3000.03 DESK_RESERVED (R179). -/
def E.DESK_RESERVED : Ent := ⟨0x300003, 0⟩
/-- 0x3000.04 DESK_FPR_MODE (R179). -/
def E.DESK_FPR_MODE : Ent := ⟨0x300004, 0⟩
/-- 0x3000.05 CAP_HOLD_TICKS (R179). -/
def E.CAP_HOLD_TICKS : Ent := ⟨0x300005, 200⟩
/-- 0x3000.06 LIFT_GAP_TURNS (R179). -/
def E.LIFT_GAP_TURNS : Ent := ⟨0x300006, 1⟩
/-- 0x3000.07 LIFT_SLEW (R179). -/
def E.LIFT_SLEW : Ent := ⟨0x300007, 8⟩
/-- 0x3000.08 DESK_LATCHES (R179). -/
def E.DESK_LATCHES : Ent := ⟨0x300008, 0⟩
/-- 0x3001.01 CHECKIN_ADMITTED (R179). -/
def E.CHECKIN_ADMITTED : Ent := ⟨0x300101, 0⟩
/-- 0x3001.02 CHECKIN_REJOINED (R179). -/
def E.CHECKIN_REJOINED : Ent := ⟨0x300102, 0⟩
/-- 0x3001.03 REFUSE_FULL_COUNT (R179). -/
def E.REFUSE_FULL_COUNT : Ent := ⟨0x300103, 0⟩
/-- 0x3001.04 REFUSE_FULL_RATE (R179). -/
def E.REFUSE_FULL_RATE : Ent := ⟨0x300104, 0⟩
/-- 0x3001.05 REFUSE_UNKNOWN_CLASS (R179). -/
def E.REFUSE_UNKNOWN_CLASS : Ent := ⟨0x300105, 0⟩
/-- 0x3001.06 REFUSE_BAD_PASSPORT (R179). -/
def E.REFUSE_BAD_PASSPORT : Ent := ⟨0x300106, 0⟩
/-- 0x3001.07 REFUSE_NOT_OPEN (R179). -/
def E.REFUSE_NOT_OPEN : Ent := ⟨0x300107, 0⟩
/-- 0x3001.08 REFUSE_ID_CONFLICT (R179). -/
def E.REFUSE_ID_CONFLICT : Ent := ⟨0x300108, 0⟩
/-- 0x3001.09 REFUSE_BAD_VERSION (R179). -/
def E.REFUSE_BAD_VERSION : Ent := ⟨0x300109, 0⟩
/-- 0x3001.0A REFUSE_NOT_HELD (R179). -/
def E.REFUSE_NOT_HELD : Ent := ⟨0x30010A, 0⟩
/-- 0x3001.0B CHECKOUTS (R179). -/
def E.CHECKOUTS : Ent := ⟨0x30010B, 0⟩
/-- 0x3001.0C LAPSES (R179). -/
def E.LAPSES : Ent := ⟨0x30010C, 0⟩
/-- 0x3001.0D RECLAIMS (R179). -/
def E.RECLAIMS : Ent := ⟨0x30010D, 0⟩
/-- 0x3001.0E CHECKIN_DROPPED (R179). -/
def E.CHECKIN_DROPPED : Ent := ⟨0x30010E, 0⟩
/-- 0x3001.0F REFUSE_BRANCH_OFF (R179). -/
def E.REFUSE_BRANCH_OFF : Ent := ⟨0x30010F, 0⟩
/-- 0x3001.10 DESK_MALFORMED (R179). -/
def E.DESK_MALFORMED : Ent := ⟨0x300110, 0⟩
/-- 0x3010.01 ADMIT_HZ (R214). -/
def E.ADMIT_HZ : Ent := ⟨0x301001, 65⟩
/-- 0x3010.02 ADMIT_LIMIT (R214). -/
def E.ADMIT_LIMIT : Ent := ⟨0x301002, 0⟩
/-- 0x3010.03 LANES_ACTIVE (R214). -/
def E.LANES_ACTIVE : Ent := ⟨0x301003, 16⟩
/-- 0x3010.04 INGEST_LOAD (R214). -/
def E.INGEST_LOAD : Ent := ⟨0x301004, 0⟩
/-- 0x3010.05 LANE_BACKLOG_MAX (R214). -/
def E.LANE_BACKLOG_MAX : Ent := ⟨0x301005, 0⟩
/-- 0x3010.06 ABSENCE_TICKS (R214). -/
def E.ABSENCE_TICKS : Ent := ⟨0x301006, 2400⟩
/-- 0x3010.07 RESERVE_TURNS (R214). -/
def E.RESERVE_TURNS : Ent := ⟨0x301007, 3000⟩
/-- 0x3010.08 STALE_TICKS (R214). -/
def E.STALE_TICKS : Ent := ⟨0x301008, 12⟩
/-- 0x3010.09 LATE_LIMIT (R214). -/
def E.LATE_LIMIT : Ent := ⟨0x301009, 8⟩
/-- 0x3010.0A PAIR_PERSIST (R214). -/
def E.PAIR_PERSIST : Ent := ⟨0x30100A, 500⟩
/-- 0x3010.0B PAIR_AGREE_TICKS (R214). -/
def E.PAIR_AGREE_TICKS : Ent := ⟨0x30100B, 8⟩
/-- 0x3010.0C ECHO_TOLERANCE (R214). -/
def E.ECHO_TOLERANCE : Ent := ⟨0x30100C, 8⟩
/-- 0x3010.0D OVERPOWER_PCT (R214). -/
def E.OVERPOWER_PCT : Ent := ⟨0x30100D, 5⟩
/-- 0x3010.0E DISOBEY_TICKS (R214). -/
def E.DISOBEY_TICKS : Ent := ⟨0x30100E, 16⟩
/-- 0x3010.0F STALE_RELEASE_SLEW (R214). -/
def E.STALE_RELEASE_SLEW : Ent := ⟨0x30100F, 8⟩
/-- 0x3010.10 LOOKBACK_TICKS (R214). -/
def E.LOOKBACK_TICKS : Ent := ⟨0x301010, 9830⟩
/-- 0x3010.11 SUMMARY_TICKS (R214). -/
def E.SUMMARY_TICKS : Ent := ⟨0x301011, 0⟩
/-- 0x3010.12 SUMMARY_STEPS (R214). -/
def E.SUMMARY_STEPS : Ent := ⟨0x301012, 39321⟩
/-- 0x3010.13 INGEST_LATCHES (R214). -/
def E.INGEST_LATCHES : Ent := ⟨0x301013, 0⟩
/-- 0x3011.01 RECORDS_ACCEPTED (R215). -/
def E.RECORDS_ACCEPTED : Ent := ⟨0x301101, 0⟩
/-- 0x3011.02 RECORDS_LATE (R215). -/
def E.RECORDS_LATE : Ent := ⟨0x301102, 0⟩
/-- 0x3011.03 RECORDS_SUPERSEDED (R215). -/
def E.RECORDS_SUPERSEDED : Ent := ⟨0x301103, 0⟩
/-- 0x3011.04 RECORDS_TOO_OLD (R215). -/
def E.RECORDS_TOO_OLD : Ent := ⟨0x301104, 0⟩
/-- 0x3011.05 RECORDS_EARLY (R215). -/
def E.RECORDS_EARLY : Ent := ⟨0x301105, 0⟩
/-- 0x3011.06 RECORDS_FOREIGN (R215). -/
def E.RECORDS_FOREIGN : Ent := ⟨0x301106, 0⟩
/-- 0x3011.07 RECORDS_MALFORMED (R215). -/
def E.RECORDS_MALFORMED : Ent := ⟨0x301107, 0⟩
/-- 0x3011.08 BUNDLES_DISCARDED (R215). -/
def E.BUNDLES_DISCARDED : Ent := ⟨0x301108, 0⟩
/-- 0x3011.09 KEEPALIVES (R215). -/
def E.KEEPALIVES : Ent := ⟨0x301109, 0⟩
/-- 0x3011.0A SEQ_GAPS_ALL (R215). -/
def E.SEQ_GAPS_ALL : Ent := ⟨0x30110A, 0⟩
/-- 0x3011.0B LANE_OVERRUNS (R215). -/
def E.LANE_OVERRUNS : Ent := ⟨0x30110B, 0⟩
/-- 0x3011.0C STALE_ENTRIES (R215). -/
def E.STALE_ENTRIES : Ent := ⟨0x30110C, 0⟩
/-- 0x3011.0D QUARANTINES (R215). -/
def E.QUARANTINES : Ent := ⟨0x30110D, 0⟩
/-- 0x3011.0E DISOBEY_EVENTS (R215). -/
def E.DISOBEY_EVENTS : Ent := ⟨0x30110E, 0⟩
/-- 0x3020.01 GUARD_CUT_PCT (R247). -/
def E.GUARD_CUT_PCT : Ent := ⟨0x302001, 80⟩
/-- 0x3020.02 GUARD_DEEP_EXCESS (R247). -/
def E.GUARD_DEEP_EXCESS : Ent := ⟨0x302002, 128⟩
/-- 0x3020.03 GUARD_RECUT_TICKS (R247). -/
def E.GUARD_RECUT_TICKS : Ent := ⟨0x302003, 4⟩
/-- 0x3020.04 GUARD_HOLD_TICKS (R247). -/
def E.GUARD_HOLD_TICKS : Ent := ⟨0x302004, 200⟩
/-- 0x3020.05 GUARD_CLEAR_TICKS (R247). -/
def E.GUARD_CLEAR_TICKS : Ent := ⟨0x302005, 32⟩
/-- 0x3020.06 GUARD_CLEAR_MARGIN (R247). -/
def E.GUARD_CLEAR_MARGIN : Ent := ⟨0x302006, 32⟩
/-- 0x3020.07 GUARD_RELEASE_SLEW (R247). -/
def E.GUARD_RELEASE_SLEW : Ent := ⟨0x302007, 8⟩
/-- 0x3020.08 GUARD_ROWCUT_DEPTH (R247). -/
def E.GUARD_ROWCUT_DEPTH : Ent := ⟨0x302008, 4096⟩
/-- 0x3020.09 GUARD_ROWCUT_CLASS_MIN (R247). -/
def E.GUARD_ROWCUT_CLASS_MIN : Ent := ⟨0x302009, 64⟩
/-- 0x3020.0A GUARD_ROWCUT_HOLD (R247). -/
def E.GUARD_ROWCUT_HOLD : Ent := ⟨0x30200A, 24⟩
/-- 0x3020.0B GUARD_LATCHES (R247). -/
def E.GUARD_LATCHES : Ent := ⟨0x30200B, 0⟩
/-- 0x3022.01 GUARD_LAT_MAX (R247). -/
def E.GUARD_LAT_MAX : Ent := ⟨0x302201, 0⟩
/-- 0x3022.02 GUARD_LAT_MEAN (R247). -/
def E.GUARD_LAT_MEAN : Ent := ⟨0x302202, 0⟩
/-- 0x3022.03 GUARD_QUEUE_MAX (R247). -/
def E.GUARD_QUEUE_MAX : Ent := ⟨0x302203, 0⟩
/-- 0x3022.04 GUARD_CUTS_IN_FORCE (R247). -/
def E.GUARD_CUTS_IN_FORCE : Ent := ⟨0x302204, 0⟩
/-- 0x3022.05 ROW_CUTS_IN_FORCE (R247). -/
def E.ROW_CUTS_IN_FORCE : Ent := ⟨0x302205, 0⟩
/-- 0x3021.01 GUARD_SAMPLES (R248). -/
def E.GUARD_SAMPLES : Ent := ⟨0x302101, 0⟩
/-- 0x3021.02 GUARD_STATIC_SAMPLES (R248). -/
def E.GUARD_STATIC_SAMPLES : Ent := ⟨0x302102, 0⟩
/-- 0x3021.03 GUARD_EXCEEDANCES (R248). -/
def E.GUARD_EXCEEDANCES : Ent := ⟨0x302103, 0⟩
/-- 0x3021.04 GUARD_CUTS (R248). -/
def E.GUARD_CUTS : Ent := ⟨0x302104, 0⟩
/-- 0x3021.05 GUARD_RECUTS (R248). -/
def E.GUARD_RECUTS : Ent := ⟨0x302105, 0⟩
/-- 0x3021.06 GUARD_DEEP_CUTS (R248). -/
def E.GUARD_DEEP_CUTS : Ent := ⟨0x302106, 0⟩
/-- 0x3021.07 GUARD_RELEASES (R248). -/
def E.GUARD_RELEASES : Ent := ⟨0x302107, 0⟩
/-- 0x3021.08 GUARD_TAKEOVERS (R248). -/
def E.GUARD_TAKEOVERS : Ent := ⟨0x302108, 0⟩
/-- 0x3021.09 ROW_CUTS_CLASS (R248). -/
def E.ROW_CUTS_CLASS : Ent := ⟨0x302109, 0⟩
/-- 0x3021.0A GUARD_DEFERRED (R248). -/
def E.GUARD_DEFERRED : Ent := ⟨0x30210A, 0⟩
/-- 0x3021.0B GUARD_LATE_CUTS (R248). -/
def E.GUARD_LATE_CUTS : Ent := ⟨0x30210B, 0⟩
/-- 0x3021.0C GUARD_AT_FLOOR_EVENTS (R248). -/
def E.GUARD_AT_FLOOR_EVENTS : Ent := ⟨0x30210C, 0⟩
/-- 0x4080.01 BRK_OPENED (R278). -/
def E.BRK_OPENED : Ent := ⟨0x408001, 0⟩
/-- 0x4080.02 BRK_OPEN_INPUT (R278). -/
def E.BRK_OPEN_INPUT : Ent := ⟨0x408002, 0⟩
/-- 0x4080.03 BRK_OPEN_DOMAIN (R278). -/
def E.BRK_OPEN_DOMAIN : Ent := ⟨0x408003, 0⟩
/-- 0x4080.04 BRK_OPEN_MID_OVF (R278). -/
def E.BRK_OPEN_MID_OVF : Ent := ⟨0x408004, 0⟩
/-- 0x4080.05 BRK_OPEN_RAD_OVF (R278). -/
def E.BRK_OPEN_RAD_OVF : Ent := ⟨0x408005, 0⟩
/-- 0x4010.01 ARRAYS_ACTIVE (R310). -/
def E.ARRAYS_ACTIVE : Ent := ⟨0x401001, 128⟩
/-- 0x4010.02 ARRAYS_SPARE (R310). -/
def E.ARRAYS_SPARE : Ent := ⟨0x401002, 16⟩
/-- 0x4010.03 ARRAYS_ROW (R310). -/
def E.ARRAYS_ROW : Ent := ⟨0x401003, 48⟩
/-- 0x4010.04 ARRAYS_OPER (R310). -/
def E.ARRAYS_OPER : Ent := ⟨0x401004, 80⟩
/-- 0x4010.05 ARRAYS_RETIRED (R310). -/
def E.ARRAYS_RETIRED : Ent := ⟨0x401005, 0⟩
/-- 0x4010.06 REGIONS_FENCED (R310). -/
def E.REGIONS_FENCED : Ent := ⟨0x401006, 0⟩
/-- 0x4010.07 ROTATE_ENABLE (R310). -/
def E.ROTATE_ENABLE : Ent := ⟨0x401007, 1⟩
/-- 0x4010.08 ROTATE_NEXT_TURN (R310). -/
def E.ROTATE_NEXT_TURN : Ent := ⟨0x401008, 1024⟩
/-- 0x4010.09 FABRIC_LATCHES (R310). -/
def E.FABRIC_LATCHES : Ent := ⟨0x401009, 0⟩
/-- 0x4010.0A ARRAYS_TOTAL (R310). -/
def E.ARRAYS_TOTAL : Ent := ⟨0x40100A, 144⟩
/-- 0x4010.0B REGIONS_TOTAL (R310). -/
def E.REGIONS_TOTAL : Ent := ⟨0x40100B, 4⟩
/-- 0x4020.01 DIE_POWER (R310). -/
def E.DIE_POWER : Ent := ⟨0x402001, 0⟩
/-- 0x4020.02 DIE_POWER_PEAK (R310). -/
def E.DIE_POWER_PEAK : Ent := ⟨0x402002, 0⟩
/-- 0x4020.03 OPER_POWER_STRETCH (R310). -/
def E.OPER_POWER_STRETCH : Ent := ⟨0x402003, 0⟩
/-- 0x4020.04 DIE_POWER_HYST (R310). -/
def E.DIE_POWER_HYST : Ent := ⟨0x402004, 20⟩
/-- 0x4100.01 ARRAY_STATE (R311). -/
def E.ARRAY_STATE : Ent := ⟨0x410001, 0⟩
/-- 0x4100.02 ROLE_TURNS (R311). -/
def E.ROLE_TURNS : Ent := ⟨0x410002, 0⟩
/-- 0x4100.03 CELL_PARITY_ERRORS (R311). -/
def E.CELL_PARITY_ERRORS : Ent := ⟨0x410003, 0⟩
/-- 0x4100.04 STEP_RERUNS (R311). -/
def E.STEP_RERUNS : Ent := ⟨0x410004, 0⟩
/-- 0x4100.05 SRAM_CORRECTED (R311). -/
def E.SRAM_CORRECTED : Ent := ⟨0x410005, 0⟩
/-- 0x4100.06 ARRAY_TEMP (R311). -/
def E.ARRAY_TEMP : Ent := ⟨0x410006, 0⟩
/-- 0x4100.07 ARRAY_UTIL (R311). -/
def E.ARRAY_UTIL : Ent := ⟨0x410007, 0⟩
/-- 0x4100.08 ARRAY_POSITION (R311). -/
def E.ARRAY_POSITION : Ent := ⟨0x410008, 0⟩
/-- 0x4011.01 STEP_RERUNS_ALL (R314). -/
def E.STEP_RERUNS_ALL : Ent := ⟨0x401101, 0⟩
/-- 0x4011.02 STEP_OVERRUNS (R314). -/
def E.STEP_OVERRUNS : Ent := ⟨0x401102, 0⟩
/-- 0x4011.03 ARRAY_FENCES (R314). -/
def E.ARRAY_FENCES : Ent := ⟨0x401103, 0⟩
/-- 0x4011.04 MIGRATIONS (R314). -/
def E.MIGRATIONS : Ent := ⟨0x401104, 0⟩
/-- 0x4011.05 ROTATIONS (R314). -/
def E.ROTATIONS : Ent := ⟨0x401105, 0⟩
/-- 0x4011.06 ROTATIONS_DEFERRED (R314). -/
def E.ROTATIONS_DEFERRED : Ent := ⟨0x401106, 0⟩
/-- 0x4011.07 SRAM_UNCORRECTABLE (R314). -/
def E.SRAM_UNCORRECTABLE : Ent := ⟨0x401107, 0⟩
/-- 0x4011.08 POWER_CLAMPS (R314). -/
def E.POWER_CLAMPS : Ent := ⟨0x401108, 0⟩
/-- 0x5000.01 STACKS_ACTIVE (R339). -/
def E.STACKS_ACTIVE : Ent := ⟨0x500001, 4⟩
/-- 0x5000.02 STACK_GUEST_CAPACITY (R339). -/
def E.STACK_GUEST_CAPACITY : Ent := ⟨0x500002, 32768⟩
/-- 0x5000.03 SCRUB_PERIOD_TURNS (R339). -/
def E.SCRUB_PERIOD_TURNS : Ent := ⟨0x500003, 4096⟩
/-- 0x5000.04 STACK_BG_LIMIT (R339). -/
def E.STACK_BG_LIMIT : Ent := ⟨0x500004, 85⟩
/-- 0x5000.05 STACK_LATCHES (R339). -/
def E.STACK_LATCHES : Ent := ⟨0x500005, 0⟩
/-- 0x5100.01 STACK_STATE (R340). -/
def E.STACK_STATE : Ent := ⟨0x510001, 0⟩
/-- 0x5100.02 STACK_CHANNEL_MAP (R340). -/
def E.STACK_CHANNEL_MAP : Ent := ⟨0x510002, 5233100606242806050955395731361295⟩
/-- 0x5100.03 STACK_TEMP (R340). -/
def E.STACK_TEMP : Ent := ⟨0x510003, 0⟩
/-- 0x5100.04 STACK_UTIL (R340). -/
def E.STACK_UTIL : Ent := ⟨0x510004, 0⟩
/-- 0x5100.05 GUESTS_HOSTED (R340). -/
def E.GUESTS_HOSTED : Ent := ⟨0x510005, 0⟩
/-- 0x5100.06 ECC_CORRECTED (R340). -/
def E.ECC_CORRECTED : Ent := ⟨0x510006, 0⟩
/-- 0x5100.07 ECC_UNCORRECTABLE (R340). -/
def E.ECC_UNCORRECTABLE : Ent := ⟨0x510007, 0⟩
/-- 0x5100.08 POISON_READS (R340). -/
def E.POISON_READS : Ent := ⟨0x510008, 0⟩
/-- 0x5100.09 ROWS_SPARED (R340). -/
def E.ROWS_SPARED : Ent := ⟨0x510009, 0⟩
/-- 0x5100.0A PAGES_RETIRED (R340). -/
def E.PAGES_RETIRED : Ent := ⟨0x51000A, 0⟩
/-- 0x5100.0B RESERVE_PAGES_FREE (R340). -/
def E.RESERVE_PAGES_FREE : Ent := ⟨0x51000B, 3584⟩
/-- 0x5100.0C SCATTER_RECORDS (R340). -/
def E.SCATTER_RECORDS : Ent := ⟨0x51000C, 0⟩
/-- 0x5100.0D TALLY_OPS (R340). -/
def E.TALLY_OPS : Ent := ⟨0x51000D, 0⟩
/-- 0x5100.0E TALLY_SATURATED (R340). -/
def E.TALLY_SATURATED : Ent := ⟨0x51000E, 0⟩
/-- 0x5100.0F TALLY_DROPPED (R340). -/
def E.TALLY_DROPPED : Ent := ⟨0x51000F, 0⟩
/-- 0x5100.10 TALLY_RESTARTS (R340). -/
def E.TALLY_RESTARTS : Ent := ⟨0x510010, 0⟩
/-- 0x5100.11 BG_THROTTLE_TICKS (R340). -/
def E.BG_THROTTLE_TICKS : Ent := ⟨0x510011, 0⟩
/-- 0x5110.01 CHAN_STATE (R341). -/
def E.CHAN_STATE : Ent := ⟨0x511001, 0⟩
/-- 0x5110.02 CHAN_SLOT (R341). -/
def E.CHAN_SLOT : Ent := ⟨0x511002, 255⟩
/-- 0x5110.03 CHAN_CORRECTED (R341). -/
def E.CHAN_CORRECTED : Ent := ⟨0x511003, 0⟩
/-- 0x5110.04 CHAN_UNCORRECTABLE (R341). -/
def E.CHAN_UNCORRECTABLE : Ent := ⟨0x511004, 0⟩
/-- 0x5110.05 CHAN_CRC_RETRIES (R341). -/
def E.CHAN_CRC_RETRIES : Ent := ⟨0x511005, 0⟩
/-- 0x4030.01 OPER_DEMAND (R381). -/
def E.OPER_DEMAND : Ent := ⟨0x403001, 0⟩
/-- 0x4030.02 OPER_STORE_FREE (R381). -/
def E.OPER_STORE_FREE : Ent := ⟨0x403002, 0⟩
/-- 0x4030.03 STAVRIX_FORM_MIN (R381). -/
def E.STAVRIX_FORM_MIN : Ent := ⟨0x403003, 0⟩
/-- 0x4030.04 LOADER_LATCHES (R381). -/
def E.LOADER_LATCHES : Ent := ⟨0x403004, 0⟩
/-- 0x4200.01 PROG_STATE (R382). -/
def E.PROG_STATE : Ent := ⟨0x420001, 0⟩
/-- 0x4200.02 PROG_RESULT (R382). -/
def E.PROG_RESULT : Ent := ⟨0x420002, 0⟩
/-- 0x4200.03 PROG_PRIORITY (R382). -/
def E.PROG_PRIORITY : Ent := ⟨0x420003, 8⟩
/-- 0x4200.04 PROG_FORM_VERSION (R382). -/
def E.PROG_FORM_VERSION : Ent := ⟨0x420004, 0⟩
/-- 0x4200.05 PROG_PERIOD (R382). -/
def E.PROG_PERIOD : Ent := ⟨0x420005, 0⟩
/-- 0x4200.06 PROG_FACTOR (R382). -/
def E.PROG_FACTOR : Ent := ⟨0x420006, 0⟩
/-- 0x4200.07 PROG_PHASE (R382). -/
def E.PROG_PHASE : Ent := ⟨0x420007, 0⟩
/-- 0x4200.08 PROG_DEMAND (R382). -/
def E.PROG_DEMAND : Ent := ⟨0x420008, 0⟩
/-- 0x4200.09 PROG_STORE (R382). -/
def E.PROG_STORE : Ent := ⟨0x420009, 0⟩
/-- 0x4200.0A PROG_LAST_PUBLISH (R382). -/
def E.PROG_LAST_PUBLISH : Ent := ⟨0x42000A, 0⟩
/-- 0x4200.0B PROG_STEPS (R382). -/
def E.PROG_STEPS : Ent := ⟨0x42000B, 0⟩
/-- 0x4200.0C PROG_OVERRUNS (R382). -/
def E.PROG_OVERRUNS : Ent := ⟨0x42000C, 0⟩
/-- 0x4200.0D PROG_STEPS_LOST (R382). -/
def E.PROG_STEPS_LOST : Ent := ⟨0x42000D, 0⟩
/-- 0x4200.0E PROG_POISON_STEPS (R382). -/
def E.PROG_POISON_STEPS : Ent := ⟨0x42000E, 0⟩
/-- 0x4200.0F PROG_PROBE (R382). -/
def E.PROG_PROBE : Ent := ⟨0x42000F, 0⟩
/-- 0x4200.10 PROG_DIGEST (R382). -/
def E.PROG_DIGEST : Ent := ⟨0x420010, 0⟩
/-- 0x4200.11 PROG_FLAGS (R382). -/
def E.PROG_FLAGS : Ent := ⟨0x420011, 0⟩
/-- 0x4200.12 PROG_UPLOAD (R382). -/
def E.PROG_UPLOAD : Ent := ⟨0x420012, 0⟩
/-- 0x4200.13 PROG_FEED (R382). -/
def E.PROG_FEED : Ent := ⟨0x420013, 0⟩
/-- 0x4300.01 HINGE_STATE (R385). -/
def E.HINGE_STATE : Ent := ⟨0x430001, 0⟩
/-- 0x4300.02 HINGE_LIVE_LEAF (R385). -/
def E.HINGE_LIVE_LEAF : Ent := ⟨0x430002, 0⟩
/-- 0x4300.03 HINGE_AGE (R385). -/
def E.HINGE_AGE : Ent := ⟨0x430003, 0⟩
/-- 0x4300.04 HINGE_STALE_LIMIT (R385). -/
def E.HINGE_STALE_LIMIT : Ent := ⟨0x430004, 0⟩
/-- 0x4300.05 HINGE_SWAPS (R385). -/
def E.HINGE_SWAPS : Ent := ⟨0x430005, 0⟩
/-- 0x4300.06 HINGE_FAILS (R385). -/
def E.HINGE_FAILS : Ent := ⟨0x430006, 0⟩
/-- 0x4300.07 HINGE_RESTARTS (R385). -/
def E.HINGE_RESTARTS : Ent := ⟨0x430007, 0⟩
/-- 0x4300.08 HINGE_REBUILD (R385). -/
def E.HINGE_REBUILD : Ent := ⟨0x430008, 0⟩
/-- 0x4031.01 PROG_LOADS (R386). -/
def E.PROG_LOADS : Ent := ⟨0x403101, 0⟩
/-- 0x4031.02 PROG_REFUSALS (R386). -/
def E.PROG_REFUSALS : Ent := ⟨0x403102, 0⟩
/-- 0x4031.03 REPLACEMENTS (R386). -/
def E.REPLACEMENTS : Ent := ⟨0x403103, 0⟩
/-- 0x4031.04 STEPS_LOST_ALL (R386). -/
def E.STEPS_LOST_ALL : Ent := ⟨0x403104, 0⟩
/-- 0x4031.05 HINGE_SWAPS_ALL (R386). -/
def E.HINGE_SWAPS_ALL : Ent := ⟨0x403105, 0⟩
/-- 0x4031.06 HINGE_FAILS_ALL (R386). -/
def E.HINGE_FAILS_ALL : Ent := ⟨0x403106, 0⟩
/-- 0x4040.01 RP_CLASSES (R416). -/
def E.RP_CLASSES : Ent := ⟨0x404001, 0⟩
/-- 0x4040.02 ALLOC_ITERS (R416). -/
def E.ALLOC_ITERS : Ent := ⟨0x404002, 7⟩
/-- 0x4040.03 ALLOC_STEP (R416). -/
def E.ALLOC_STEP : Ent := ⟨0x404003, 128⟩
/-- 0x4040.04 ALLOC_SLEW (R416). -/
def E.ALLOC_SLEW : Ent := ⟨0x404004, 16⟩
/-- 0x4040.05 ROW_BUDGET_MAX (R416). -/
def E.ROW_BUDGET_MAX : Ent := ⟨0x404005, 16000⟩
/-- 0x4040.06 ROW_BUDGET_ENGINE (R416). -/
def E.ROW_BUDGET_ENGINE : Ent := ⟨0x404006, 65535⟩
/-- 0x4040.07 ROW_BUDGET (R416). -/
def E.ROW_BUDGET : Ent := ⟨0x404007, 0⟩
/-- 0x4040.08 ROW_POWER_PRED (R416). -/
def E.ROW_POWER_PRED : Ent := ⟨0x404008, 0⟩
/-- 0x4040.09 SUPPLY_SLEW (R416). -/
def E.SUPPLY_SLEW : Ent := ⟨0x404009, 131⟩
/-- 0x4040.0A SETTLE_TICKS (R416). -/
def E.SETTLE_TICKS : Ent := ⟨0x40400A, 32⟩
/-- 0x4040.0B CATCHUP_MAX (R416). -/
def E.CATCHUP_MAX : Ent := ⟨0x40400B, 8⟩
/-- 0x4040.0C MISS_RATIO_HI (R416). -/
def E.MISS_RATIO_HI : Ent := ⟨0x40400C, 100⟩
/-- 0x4040.0D MISS_WIDEN_STEP (R416). -/
def E.MISS_WIDEN_STEP : Ent := ⟨0x40400D, 8⟩
/-- 0x4040.0E MISS_WIDEN_MAX (R416). -/
def E.MISS_WIDEN_MAX : Ent := ⟨0x40400E, 128⟩
/-- 0x4040.0F MISS_CLEAR_TURNS (R416). -/
def E.MISS_CLEAR_TURNS : Ent := ⟨0x40400F, 16⟩
/-- 0x4040.10 REFIT_WINDOW (R416). -/
def E.REFIT_WINDOW : Ent := ⟨0x404010, 6000⟩
/-- 0x4040.11 RP_LATCHES (R416). -/
def E.RP_LATCHES : Ent := ⟨0x404011, 0⟩
/-- 0x4400.01 CLASS_STATE (R417). -/
def E.CLASS_STATE : Ent := ⟨0x440001, 0⟩
/-- 0x4400.02 CLASS_NODES (R417). -/
def E.CLASS_NODES : Ent := ⟨0x440002, 0⟩
/-- 0x4400.03 CLASS_INPUTS (R417). -/
def E.CLASS_INPUTS : Ent := ⟨0x440003, 0⟩
/-- 0x4400.04 CLASS_GUESTS (R417). -/
def E.CLASS_GUESTS : Ent := ⟨0x440004, 0⟩
/-- 0x4400.05 CLASS_REGION (R417). -/
def E.CLASS_REGION : Ent := ⟨0x440005, 255⟩
/-- 0x4400.06 CLASS_WIDEN (R417). -/
def E.CLASS_WIDEN : Ent := ⟨0x440006, 0⟩
/-- 0x4400.07 CLASS_MISSES (R417). -/
def E.CLASS_MISSES : Ent := ⟨0x440007, 0⟩
/-- 0x4400.08 CLASS_MISSES_TURN (R417). -/
def E.CLASS_MISSES_TURN : Ent := ⟨0x440008, 0⟩
/-- 0x4400.09 CLASS_DEMAND_INPUT (R417). -/
def E.CLASS_DEMAND_INPUT : Ent := ⟨0x440009, 0⟩
/-- 0x4400.0A CLASS_CAP_MEAN (R417). -/
def E.CLASS_CAP_MEAN : Ent := ⟨0x44000A, 0⟩
/-- 0x4400.0B CLASS_COMPARED_TURN (R417). -/
def E.CLASS_COMPARED_TURN : Ent := ⟨0x44000B, 0⟩
/-- 0x4060.01 PD_SOURCE (R418). -/
def E.PD_SOURCE : Ent := ⟨0x406001, 0⟩
/-- 0x4060.02 PD_SELECT (R418). -/
def E.PD_SELECT : Ent := ⟨0x406002, 0⟩
/-- 0x4060.03 PD_MIN (R418). -/
def E.PD_MIN : Ent := ⟨0x406003, 4⟩
/-- 0x4060.04 PD_MAX (R418). -/
def E.PD_MAX : Ent := ⟨0x406004, 65535⟩
/-- 0x4060.05 PD_PERIOD (R418). -/
def E.PD_PERIOD : Ent := ⟨0x406005, 0⟩
/-- 0x4060.06 PD_STRENGTH (R418). -/
def E.PD_STRENGTH : Ent := ⟨0x406006, 0⟩
/-- 0x4070.01 LEAK_SUSPECTS (R419). -/
def E.LEAK_SUSPECTS : Ent := ⟨0x407001, 0⟩
/-- 0x4070.02 LEAK_FIRST_BRANCH (R419). -/
def E.LEAK_FIRST_BRANCH : Ent := ⟨0x407002, 255⟩
/-- 0x4070.03 LEAK_IMBALANCE (R419). -/
def E.LEAK_IMBALANCE : Ent := ⟨0x407003, 32⟩
/-- 0x4070.04 LEAK_PERSIST (R419). -/
def E.LEAK_PERSIST : Ent := ⟨0x407004, 20⟩
/-- 0x4071.01 BRANCH_IMBALANCE (R419). -/
def E.BRANCH_IMBALANCE : Ent := ⟨0x407101, 0⟩
/-- 0x4041.01 STEPS_NO_MEAS (R421). -/
def E.STEPS_NO_MEAS : Ent := ⟨0x404101, 0⟩
/-- 0x4041.02 GUESTS_CATCHUP (R421). -/
def E.GUESTS_CATCHUP : Ent := ⟨0x404102, 0⟩
/-- 0x4041.03 GUEST_RESTARTS (R421). -/
def E.GUEST_RESTARTS : Ent := ⟨0x404103, 0⟩
/-- 0x4041.04 ENCLOSURE_MISSES (R421). -/
def E.ENCLOSURE_MISSES : Ent := ⟨0x404104, 0⟩
/-- 0x4041.05 ALLOC_PERIODS (R421). -/
def E.ALLOC_PERIODS : Ent := ⟨0x404105, 0⟩
/-- 0x4041.06 ALLOC_INFEASIBLE_COUNT (R421). -/
def E.ALLOC_INFEASIBLE_COUNT : Ent := ⟨0x404106, 0⟩
/-- 0x4041.07 ALLOC_BUDGET_BOUND (R421). -/
def E.ALLOC_BUDGET_BOUND : Ent := ⟨0x404107, 0⟩
/-- 0x4041.08 ALLOC_ABANDONED (R421). -/
def E.ALLOC_ABANDONED : Ent := ⟨0x404108, 0⟩
/-- 0x6000.01 LOOP_MODE (R452). -/
def E.LOOP_MODE : Ent := ⟨0x600001, 3⟩
/-- 0x6000.02 LOOP_MODE_ACTIVE (R452). -/
def E.LOOP_MODE_ACTIVE : Ent := ⟨0x600002, 3⟩
/-- 0x6000.03 LOOP_PERIOD (R452). -/
def E.LOOP_PERIOD : Ent := ⟨0x600003, 1⟩
/-- 0x6000.04 LOOP_PHASE (R452). -/
def E.LOOP_PHASE : Ent := ⟨0x600004, 0⟩
/-- 0x6000.05 LOOP_CONFIG (R452). -/
def E.LOOP_CONFIG : Ent := ⟨0x600005, 0⟩
/-- 0x6000.06 MEAS_BIND (R452). -/
def E.MEAS_BIND : Ent := ⟨0x600006, 0⟩
/-- 0x6000.07 MEAS_SCALE (R452). -/
def E.MEAS_SCALE : Ent := ⟨0x600007, 1065353216⟩
/-- 0x6000.08 MEAS_OFFSET (R452). -/
def E.MEAS_OFFSET : Ent := ⟨0x600008, 0⟩
/-- 0x6000.09 SP_BIND (R452). -/
def E.SP_BIND : Ent := ⟨0x600009, 0⟩
/-- 0x6000.0A SETPOINT (R452). -/
def E.SETPOINT : Ent := ⟨0x60000A, 0⟩
/-- 0x6000.0B SP_RATE (R452). -/
def E.SP_RATE : Ent := ⟨0x60000B, 1065353216⟩
/-- 0x6000.0C HYST (R452). -/
def E.HYST : Ent := ⟨0x60000C, 0⟩
/-- 0x6000.0D SWING (R452). -/
def E.SWING : Ent := ⟨0x60000D, 0⟩
/-- 0x6000.0E KI (R452). -/
def E.KI : Ent := ⟨0x60000E, 0⟩
/-- 0x6000.0F UMIN (R452). -/
def E.UMIN : Ent := ⟨0x60000F, 0⟩
/-- 0x6000.10 UMAX (R452). -/
def E.UMAX : Ent := ⟨0x600010, 1065353216⟩
/-- 0x6000.11 REST_VALUE (R452). -/
def E.REST_VALUE : Ent := ⟨0x600011, 0⟩
/-- 0x6000.12 MANUAL_VALUE (R452). -/
def E.MANUAL_VALUE : Ent := ⟨0x600012, 0⟩
/-- 0x6000.13 FF_BIND (R452). -/
def E.FF_BIND : Ent := ⟨0x600013, 0⟩
/-- 0x6000.14 FF_GAIN (R452). -/
def E.FF_GAIN : Ent := ⟨0x600014, 0⟩
/-- 0x6000.15 FOLLOW_BIND (R452). -/
def E.FOLLOW_BIND : Ent := ⟨0x600015, 0⟩
/-- 0x6000.16 FOLLOW_GAIN (R452). -/
def E.FOLLOW_GAIN : Ent := ⟨0x600016, 1065353216⟩
/-- 0x6000.17 FOLLOW_OFFSET (R452). -/
def E.FOLLOW_OFFSET : Ent := ⟨0x600017, 0⟩
/-- 0x6000.18 OUT_BIND (R452). -/
def E.OUT_BIND : Ent := ⟨0x600018, 0⟩
/-- 0x6000.19 OUT_SCALE (R452). -/
def E.OUT_SCALE : Ent := ⟨0x600019, 1065353216⟩
/-- 0x6000.1A PHASE_SOURCE (R452). -/
def E.PHASE_SOURCE : Ent := ⟨0x60001A, 255⟩
/-- 0x6000.1B TABLE_GAIN (R452). -/
def E.TABLE_GAIN : Ent := ⟨0x60001B, 0⟩
/-- 0x6000.1C TABLE_FORGET (R452). -/
def E.TABLE_FORGET : Ent := ⟨0x60001C, 1065353216⟩
/-- 0x6000.1D FOLLOW_ERR_LIMIT (R452). -/
def E.FOLLOW_ERR_LIMIT : Ent := ⟨0x60001D, 2139095040⟩
/-- 0x6000.1E FOLLOW_ERR_TIME (R452). -/
def E.FOLLOW_ERR_TIME : Ent := ⟨0x60001E, 1200⟩
/-- 0x6000.1F FB_MAX_AGE (R452). -/
def E.FB_MAX_AGE : Ent := ⟨0x60001F, 2⟩
/-- 0x6000.20 FREEZE_COUNT (R452). -/
def E.FREEZE_COUNT : Ent := ⟨0x600020, 50⟩
/-- 0x6000.21 FREEZE_MOVE (R452). -/
def E.FREEZE_MOVE : Ent := ⟨0x600021, 1008981770⟩
/-- 0x6000.22 FREEZE_HOLD (R452). -/
def E.FREEZE_HOLD : Ent := ⟨0x600022, 600⟩
/-- 0x6000.23 HANDOVER_TICKS (R452). -/
def E.HANDOVER_TICKS : Ent := ⟨0x600023, 1200⟩
/-- 0x6000.24 JUMP_LIMIT (R452). -/
def E.JUMP_LIMIT : Ent := ⟨0x600024, 2139095040⟩
/-- 0x6000.25 MISS_LIMIT (R452). -/
def E.MISS_LIMIT : Ent := ⟨0x600025, 4⟩
/-- 0x6000.26 LOOP_CMD (R452). -/
def E.LOOP_CMD : Ent := ⟨0x600026, 0⟩
/-- 0x6000.27 LOOP_STATUS (R452). -/
def E.LOOP_STATUS : Ent := ⟨0x600027, 0⟩
/-- 0x6000.28 LOOP_LATCHES (R452). -/
def E.LOOP_LATCHES : Ent := ⟨0x600028, 0⟩
/-- 0x6000.29 LOOP_FAULT_CAUSE (R452). -/
def E.LOOP_FAULT_CAUSE : Ent := ⟨0x600029, 0⟩
/-- 0x6000.2A LOOP_OUTPUT (R452). -/
def E.LOOP_OUTPUT : Ent := ⟨0x60002A, 0⟩
/-- 0x6000.2B LOOP_MEAS (R452). -/
def E.LOOP_MEAS : Ent := ⟨0x60002B, 0⟩
/-- 0x6000.2C LOOP_SP_INTERNAL (R452). -/
def E.LOOP_SP_INTERNAL : Ent := ⟨0x60002C, 0⟩
/-- 0x6000.2D LOOP_ERROR (R452). -/
def E.LOOP_ERROR : Ent := ⟨0x60002D, 0⟩
/-- 0x6000.2E LOOP_TRIM (R452). -/
def E.LOOP_TRIM : Ent := ⟨0x60002E, 0⟩
/-- 0x6000.2F LOOP_MISSES (R452). -/
def E.LOOP_MISSES : Ent := ⟨0x60002F, 0⟩
/-- 0x6000.30 LOOP_MOVED_TO (R452). -/
def E.LOOP_MOVED_TO : Ent := ⟨0x600030, 255⟩
/-- 0x6000.31 LOOP_RUNS (R452). -/
def E.LOOP_RUNS : Ent := ⟨0x600031, 0⟩
/-- 0x6000.32 LOOP_MISSES_TOTAL (R452). -/
def E.LOOP_MISSES_TOTAL : Ent := ⟨0x600032, 0⟩
/-- 0x6000.33 LOOP_FAULTS (R452). -/
def E.LOOP_FAULTS : Ent := ⟨0x600033, 0⟩
/-- 0x7060.01 BOOST_V (R481). -/
def E.BOOST_V : Ent := ⟨0x706001, 60⟩
/-- 0x7060.02 BOOST_RAIL_V (R481). -/
def E.BOOST_RAIL_V : Ent := ⟨0x706002, 0⟩
/-- 0x7060.03 VALVE_LATCHES (R481). -/
def E.VALVE_LATCHES : Ent := ⟨0x706003, 0⟩
/-- 0x7060.04 VALVE_FAULTS (R481). -/
def E.VALVE_FAULTS : Ent := ⟨0x706004, 0⟩
/-- 0x7060.05 VALVE_TAKEOVERS (R481). -/
def E.VALVE_TAKEOVERS : Ent := ⟨0x706005, 0⟩
/-- 0x7000.01 VALVE_CMD (R482). -/
def E.VALVE_CMD : Ent := ⟨0x700001, 0⟩
/-- 0x7000.02 VALVE_OWNER (R482). -/
def E.VALVE_OWNER : Ent := ⟨0x700002, 0⟩
/-- 0x7000.03 VALVE_DEMAND (R482). -/
def E.VALVE_DEMAND : Ent := ⟨0x700003, 0⟩
/-- 0x7000.04 VALVE_CONFIG (R482). -/
def E.VALVE_CONFIG : Ent := ⟨0x700004, 0⟩
/-- 0x7000.05 PEAK_A (R482). -/
def E.PEAK_A : Ent := ⟨0x700005, 4000⟩
/-- 0x7000.06 HOLD_A (R482). -/
def E.HOLD_A : Ent := ⟨0x700006, 1000⟩
/-- 0x7000.07 BOOST_MAX_US (R482). -/
def E.BOOST_MAX_US : Ent := ⟨0x700007, 3000⟩
/-- 0x7000.08 PEAK_US (R482). -/
def E.PEAK_US : Ent := ⟨0x700008, 5000⟩
/-- 0x7000.09 SEAT_WINDOW_MS (R482). -/
def E.SEAT_WINDOW_MS : Ent := ⟨0x700009, 10⟩
/-- 0x7000.0A SEAT_KINK (R482). -/
def E.SEAT_KINK : Ent := ⟨0x70000A, 50⟩
/-- 0x7000.0B VALVE_REST (R482). -/
def E.VALVE_REST : Ent := ⟨0x70000B, 0⟩
/-- 0x7000.0C VALVE_PHASE (R482). -/
def E.VALVE_PHASE : Ent := ⟨0x70000C, 0⟩
/-- 0x7000.0D VALVE_CURRENT (R482). -/
def E.VALVE_CURRENT : Ent := ⟨0x70000D, 0⟩
/-- 0x7000.0E VALVE_OUTPUT (R482). -/
def E.VALVE_OUTPUT : Ent := ⟨0x70000E, 255⟩
/-- 0x7000.0F VALVE_MOVED_TO (R482). -/
def E.VALVE_MOVED_TO : Ent := ⟨0x70000F, 255⟩
/-- 0x7000.10 SEAT_RESULT (R482). -/
def E.SEAT_RESULT : Ent := ⟨0x700010, 0⟩
/-- 0x7000.11 SEAT_EVENT (R482). -/
def E.SEAT_EVENT : Ent := ⟨0x700011, 0⟩
/-- 0x7000.12 SEAT_TICK (R482). -/
def E.SEAT_TICK : Ent := ⟨0x700012, 0⟩
/-- 0x7000.13 SEAT_DELAY (R482). -/
def E.SEAT_DELAY : Ent := ⟨0x700013, 0⟩
/-- 0x7000.14 VALVE_STATUS (R482). -/
def E.VALVE_STATUS : Ent := ⟨0x700014, 0⟩
/-- 0x7000.15 VALVE_FAULT (R482). -/
def E.VALVE_FAULT : Ent := ⟨0x700015, 0⟩
/-- 0x7000.16 ENERGISE_COUNT (R482). -/
def E.ENERGISE_COUNT : Ent := ⟨0x700016, 0⟩
/-- 0x7000.17 BOOST_WAITS (R482). -/
def E.BOOST_WAITS : Ent := ⟨0x700017, 0⟩
/-- 0x7040.01 BANK_RAIL (R487). -/
def E.BANK_RAIL : Ent := ⟨0x704001, 0⟩
/-- 0x7040.02 BANK_BUDGET_USED (R487). -/
def E.BANK_BUDGET_USED : Ent := ⟨0x704002, 0⟩
/-- 0x7040.03 BANK_QUEUE (R487). -/
def E.BANK_QUEUE : Ent := ⟨0x704003, 0⟩
/-- 0x7040.04 BANK_WAIT_MAX (R487). -/
def E.BANK_WAIT_MAX : Ent := ⟨0x704004, 0⟩
/-- 0x7040.05 BANK_CURRENT (R487). -/
def E.BANK_CURRENT : Ent := ⟨0x704005, 0⟩
/-- 0x7100.01 FAN_TARGET (R507). -/
def E.FAN_TARGET : Ent := ⟨0x710001, 0⟩
/-- 0x7100.02 FAN_OWNER (R507). -/
def E.FAN_OWNER : Ent := ⟨0x710002, 0⟩
/-- 0x7100.03 FAN_GROUP (R507). -/
def E.FAN_GROUP : Ent := ⟨0x710003, 0⟩
/-- 0x7100.04 FAN_PPR (R507). -/
def E.FAN_PPR : Ent := ⟨0x710004, 2⟩
/-- 0x7100.05 FAN_VMAX (R507). -/
def E.FAN_VMAX : Ent := ⟨0x710005, 48000⟩
/-- 0x7100.06 FAN_RPM_MAX (R507). -/
def E.FAN_RPM_MAX : Ent := ⟨0x710006, 3000⟩
/-- 0x7100.07 FAN_RPM_MIN (R507). -/
def E.FAN_RPM_MIN : Ent := ⟨0x710007, 300⟩
/-- 0x7100.08 FAN_KP (R507). -/
def E.FAN_KP : Ent := ⟨0x710008, 1065353216⟩
/-- 0x7100.09 FAN_KI (R507). -/
def E.FAN_KI : Ent := ⟨0x710009, 1045220557⟩
/-- 0x7100.0A FAN_RAMP (R507). -/
def E.FAN_RAMP : Ent := ⟨0x71000A, 50⟩
/-- 0x7100.0B FAN_VSLEW (R507). -/
def E.FAN_VSLEW : Ent := ⟨0x71000B, 200⟩
/-- 0x7100.0C FAN_VSLEW_MAX (R507). -/
def E.FAN_VSLEW_MAX : Ent := ⟨0x71000C, 2000⟩
/-- 0x7100.0D FAN_START_V (R507). -/
def E.FAN_START_V : Ent := ⟨0x71000D, 24000⟩
/-- 0x7100.0E FAN_START_MS (R507). -/
def E.FAN_START_MS : Ent := ⟨0x71000E, 2000⟩
/-- 0x7100.0F FAN_KICKS (R507). -/
def E.FAN_KICKS : Ent := ⟨0x71000F, 3⟩
/-- 0x7100.10 FAN_KICK_V (R507). -/
def E.FAN_KICK_V : Ent := ⟨0x710010, 48000⟩
/-- 0x7100.11 FAN_KICK_MS (R507). -/
def E.FAN_KICK_MS : Ent := ⟨0x710011, 500⟩
/-- 0x7100.12 FAN_STALL_RETRY (R507). -/
def E.FAN_STALL_RETRY : Ent := ⟨0x710012, 60⟩
/-- 0x7100.13 FAN_STALL_I (R507). -/
def E.FAN_STALL_I : Ent := ⟨0x710013, 2500⟩
/-- 0x7100.14 FAN_TACH_TIMEOUT (R507). -/
def E.FAN_TACH_TIMEOUT : Ent := ⟨0x710014, 200⟩
/-- 0x7100.15 FAN_TACH_MARGIN (R507). -/
def E.FAN_TACH_MARGIN : Ent := ⟨0x710015, 3000⟩
/-- 0x7100.16 FAN_RAISE_RPM (R507). -/
def E.FAN_RAISE_RPM : Ent := ⟨0x710016, 0⟩
/-- 0x7100.17 FAN_BAND_0 (R507). -/
def E.FAN_BAND_0 : Ent := ⟨0x710017, 0⟩
/-- 0x7100.18 FAN_BAND_1 (R507). -/
def E.FAN_BAND_1 : Ent := ⟨0x710018, 0⟩
/-- 0x7100.19 FAN_BAND_2 (R507). -/
def E.FAN_BAND_2 : Ent := ⟨0x710019, 0⟩
/-- 0x7100.1A FAN_BAND_3 (R507). -/
def E.FAN_BAND_3 : Ent := ⟨0x71001A, 0⟩
/-- 0x7100.1B FAN_CMD (R507). -/
def E.FAN_CMD : Ent := ⟨0x71001B, 0⟩
/-- 0x7100.1C FAN_STATE (R507). -/
def E.FAN_STATE : Ent := ⟨0x71001C, 0⟩
/-- 0x7100.1D FAN_TARGET_ACTIVE (R507). -/
def E.FAN_TARGET_ACTIVE : Ent := ⟨0x71001D, 0⟩
/-- 0x7100.1E FAN_SPEED (R507). -/
def E.FAN_SPEED : Ent := ⟨0x71001E, 0⟩
/-- 0x7100.1F FAN_VOLTAGE (R507). -/
def E.FAN_VOLTAGE : Ent := ⟨0x71001F, 0⟩
/-- 0x7100.20 FAN_CURRENT (R507). -/
def E.FAN_CURRENT : Ent := ⟨0x710020, 0⟩
/-- 0x7100.21 FAN_STATUS (R507). -/
def E.FAN_STATUS : Ent := ⟨0x710021, 0⟩
/-- 0x7100.22 FAN_FAULT (R507). -/
def E.FAN_FAULT : Ent := ⟨0x710022, 0⟩
/-- 0x7100.23 FAN_OUTPUT (R507). -/
def E.FAN_OUTPUT : Ent := ⟨0x710023, 255⟩
/-- 0x7100.24 FAN_MOVED_TO (R507). -/
def E.FAN_MOVED_TO : Ent := ⟨0x710024, 255⟩
/-- 0x7100.25 FAN_STARTS (R507). -/
def E.FAN_STARTS : Ent := ⟨0x710025, 0⟩
/-- 0x7100.26 FAN_KICKS_TOTAL (R507). -/
def E.FAN_KICKS_TOTAL : Ent := ⟨0x710026, 0⟩
/-- 0x7160.01 FAN_WATCHDOG_S (R510). -/
def E.FAN_WATCHDOG_S : Ent := ⟨0x716001, 10⟩
/-- 0x7160.02 FAN_STAGGER_MS (R510). -/
def E.FAN_STAGGER_MS : Ent := ⟨0x716002, 500⟩
/-- 0x7160.03 FAN_START_GAP_MS (R510). -/
def E.FAN_START_GAP_MS : Ent := ⟨0x716003, 250⟩
/-- 0x7160.04 HOST_SILENT_MS (R510). -/
def E.HOST_SILENT_MS : Ent := ⟨0x716004, 0⟩
/-- 0x7160.05 FAN_LATCHES (R510). -/
def E.FAN_LATCHES : Ent := ⟨0x716005, 0⟩
/-- 0x7160.06 FAN_FAULTS (R510). -/
def E.FAN_FAULTS : Ent := ⟨0x716006, 0⟩
/-- 0x7160.07 FAN_TAKEOVERS (R510). -/
def E.FAN_TAKEOVERS : Ent := ⟨0x716007, 0⟩
/-- 0x7180.01 IFAN_ROLE (R512). -/
def E.IFAN_ROLE : Ent := ⟨0x718001, 0⟩
/-- 0x7180.02 IFAN_STATE (R512). -/
def E.IFAN_STATE : Ent := ⟨0x718002, 0⟩
/-- 0x7180.03 IFAN_TARGET_ACTIVE (R512). -/
def E.IFAN_TARGET_ACTIVE : Ent := ⟨0x718003, 0⟩
/-- 0x7180.04 IFAN_SPEED (R512). -/
def E.IFAN_SPEED : Ent := ⟨0x718004, 0⟩
/-- 0x7180.05 IFAN_CURRENT (R512). -/
def E.IFAN_CURRENT : Ent := ⟨0x718005, 0⟩
/-- 0x7180.06 IFAN_FAULT (R512). -/
def E.IFAN_FAULT : Ent := ⟨0x718006, 0⟩
/-- 0x7200.01 FB_MODE (R541). -/
def E.FB_MODE : Ent := ⟨0x720001, 0⟩
/-- 0x7200.02 FB_NOMINAL (R541). -/
def E.FB_NOMINAL : Ent := ⟨0x720002, 142483488⟩
/-- 0x7200.03 FB_DATA (R541). -/
def E.FB_DATA : Ent := ⟨0x720003, 71176208⟩
/-- 0x7200.04 FB_TDC_OFFSET (R541). -/
def E.FB_TDC_OFFSET : Ent := ⟨0x720004, 32⟩
/-- 0x7200.05 FB_TERM (R541). -/
def E.FB_TERM : Ent := ⟨0x720005, 0⟩
/-- 0x7200.06 FB_STATE (R541). -/
def E.FB_STATE : Ent := ⟨0x720006, 0⟩
/-- 0x7200.07 FB_TEC (R541). -/
def E.FB_TEC : Ent := ⟨0x720007, 0⟩
/-- 0x7200.08 FB_REC (R541). -/
def E.FB_REC : Ent := ⟨0x720008, 0⟩
/-- 0x7200.09 FB_UNACKED (R541). -/
def E.FB_UNACKED : Ent := ⟨0x720009, 0⟩
/-- 0x7200.0A FB_BUS_LOAD (R541). -/
def E.FB_BUS_LOAD : Ent := ⟨0x72000A, 0⟩
/-- 0x7200.0B FB_LOAD_HI (R541). -/
def E.FB_LOAD_HI : Ent := ⟨0x72000B, 800⟩
/-- 0x7200.0C FB_LOAD_LO (R541). -/
def E.FB_LOAD_LO : Ent := ⟨0x72000C, 700⟩
/-- 0x7200.0D FB_WAIT_HI (R541). -/
def E.FB_WAIT_HI : Ent := ⟨0x72000D, 4⟩
/-- 0x7200.0E FB_SUPPRESS_HOLD (R541). -/
def E.FB_SUPPRESS_HOLD : Ent := ⟨0x72000E, 1200⟩
/-- 0x7200.0F FB_CMD (R541). -/
def E.FB_CMD : Ent := ⟨0x72000F, 0⟩
/-- 0x7200.10 FB_LATCHES (R541). -/
def E.FB_LATCHES : Ent := ⟨0x720010, 0⟩
/-- 0x7200.11 FB_RX_FRAMES (R541). -/
def E.FB_RX_FRAMES : Ent := ⟨0x720011, 0⟩
/-- 0x7200.12 FB_TX_FRAMES (R541). -/
def E.FB_TX_FRAMES : Ent := ⟨0x720012, 0⟩
/-- 0x7200.13 FB_ERR_BIT (R541). -/
def E.FB_ERR_BIT : Ent := ⟨0x720013, 0⟩
/-- 0x7200.14 FB_ERR_STUFF (R541). -/
def E.FB_ERR_STUFF : Ent := ⟨0x720014, 0⟩
/-- 0x7200.15 FB_ERR_FORM (R541). -/
def E.FB_ERR_FORM : Ent := ⟨0x720015, 0⟩
/-- 0x7200.16 FB_ERR_CRC (R541). -/
def E.FB_ERR_CRC : Ent := ⟨0x720016, 0⟩
/-- 0x7200.17 FB_ERR_ACK (R541). -/
def E.FB_ERR_ACK : Ent := ⟨0x720017, 0⟩
/-- 0x7200.18 FB_RX_UNMATCHED (R541). -/
def E.FB_RX_UNMATCHED : Ent := ⟨0x720018, 0⟩
/-- 0x7200.19 FB_RX_OVERWRITES (R541). -/
def E.FB_RX_OVERWRITES : Ent := ⟨0x720019, 0⟩
/-- 0x7200.1A FB_TX_SUPPRESSED (R541). -/
def E.FB_TX_SUPPRESSED : Ent := ⟨0x72001A, 0⟩
/-- 0x7200.1B FB_TX_LATE (R541). -/
def E.FB_TX_LATE : Ent := ⟨0x72001B, 0⟩
/-- 0x7200.1C FB_BUS_OFFS (R541). -/
def E.FB_BUS_OFFS : Ent := ⟨0x72001C, 0⟩
/-- 0x7200.1D FB_ALONE_EVENTS (R541). -/
def E.FB_ALONE_EVENTS : Ent := ⟨0x72001D, 0⟩
/-- 0x7210.00 RX_CONFIG (R542). -/
def E.RX_CONFIG : Ent := ⟨0x721000, 0⟩
/-- 0x7218.00 RX_STATUS (R542). -/
def E.RX_STATUS : Ent := ⟨0x721800, 0⟩
/-- 0x7220.00 RX_RECORD (R542). -/
def E.RX_RECORD : Ent := ⟨0x722000, 0⟩
/-- 0x7228.00 TX_CONFIG (R542). -/
def E.TX_CONFIG : Ent := ⟨0x722800, 0⟩
/-- 0x7230.00 TX_TIMING (R542). -/
def E.TX_TIMING : Ent := ⟨0x723000, 65536⟩
/-- 0x7238.00 TX_DATA (R542). -/
def E.TX_DATA : Ent := ⟨0x723800, 0⟩
/-- 0x7240.00 TX_STATUS (R542). -/
def E.TX_STATUS : Ent := ⟨0x724000, 0⟩
/-- 0x7300.01 AIN_MODE (R579). -/
def E.AIN_MODE : Ent := ⟨0x730001, 0⟩
/-- 0x7300.02 AIN_LO (R579). -/
def E.AIN_LO : Ent := ⟨0x730002, 0⟩
/-- 0x7300.03 AIN_HI (R579). -/
def E.AIN_HI : Ent := ⟨0x730003, 1120403456⟩
/-- 0x7300.04 AIN_UNCERT (R579). -/
def E.AIN_UNCERT : Ent := ⟨0x730004, 0⟩
/-- 0x7300.05 AIN_FILTER (R579). -/
def E.AIN_FILTER : Ent := ⟨0x730005, 0⟩
/-- 0x7300.06 AIN_VALUE (R579). -/
def E.AIN_VALUE : Ent := ⟨0x730006, 0⟩
/-- 0x7300.07 AIN_RAW (R579). -/
def E.AIN_RAW : Ent := ⟨0x730007, 0⟩
/-- 0x7300.08 AIN_TICK (R579). -/
def E.AIN_TICK : Ent := ⟨0x730008, 0⟩
/-- 0x7300.09 AIN_STATUS (R579). -/
def E.AIN_STATUS : Ent := ⟨0x730009, 0⟩
/-- 0x7300.0A AIN_TERMINAL (R579). -/
def E.AIN_TERMINAL : Ent := ⟨0x73000A, 255⟩
/-- 0x7300.0B AIN_MOVED_TO (R579). -/
def E.AIN_MOVED_TO : Ent := ⟨0x73000B, 255⟩
/-- 0x7350.01 ROPE_ENABLE (R581). -/
def E.ROPE_ENABLE : Ent := ⟨0x735001, 0⟩
/-- 0x7350.02 ROPE_WET_KOHM (R581). -/
def E.ROPE_WET_KOHM : Ent := ⟨0x735002, 100⟩
/-- 0x7350.03 ROPE_PERSIST (R581). -/
def E.ROPE_PERSIST : Ent := ⟨0x735003, 2⟩
/-- 0x7350.04 ROPE_BRANCHES (R581). -/
def E.ROPE_BRANCHES : Ent := ⟨0x735004, 0⟩
/-- 0x7350.05 ROPE_KOHM (R581). -/
def E.ROPE_KOHM : Ent := ⟨0x735005, 0⟩
/-- 0x7350.06 ROPE_STATE (R581). -/
def E.ROPE_STATE : Ent := ⟨0x735006, 0⟩
/-- 0x7360.01 ANGLE_MODE (R581). -/
def E.ANGLE_MODE : Ent := ⟨0x736001, 0⟩
/-- 0x7360.02 ANGLE_CPR (R581). -/
def E.ANGLE_CPR : Ent := ⟨0x736002, 1024⟩
/-- 0x7360.03 ANGLE_COUNT (R581). -/
def E.ANGLE_COUNT : Ent := ⟨0x736003, 0⟩
/-- 0x7360.04 ANGLE_SPEED (R581). -/
def E.ANGLE_SPEED : Ent := ⟨0x736004, 0⟩
/-- 0x7360.05 ANGLE_FAULT_NOW (R581). -/
def E.ANGLE_FAULT_NOW : Ent := ⟨0x736005, 0⟩
/-- 0x7370.01 MAINS_VRMS_L1 (R581). -/
def E.MAINS_VRMS_L1 : Ent := ⟨0x737001, 0⟩
/-- 0x7370.02 MAINS_VRMS_L2 (R581). -/
def E.MAINS_VRMS_L2 : Ent := ⟨0x737002, 0⟩
/-- 0x7370.03 MAINS_VRMS_L3 (R581). -/
def E.MAINS_VRMS_L3 : Ent := ⟨0x737003, 0⟩
/-- 0x7370.04 MAINS_ROTATION (R581). -/
def E.MAINS_ROTATION : Ent := ⟨0x737004, 0⟩
/-- 0x7380.01 SFE_LATCHES (R581). -/
def E.SFE_LATCHES : Ent := ⟨0x738001, 0⟩
/-- 0x8000.01 COOLANT_RHO (R583). -/
def E.COOLANT_RHO : Ent := ⟨0x800001, 1020⟩
/-- 0x8000.02 COOLANT_CP (R583). -/
def E.COOLANT_CP : Ent := ⟨0x800002, 3900⟩
/-- 0x8000.03 PLANT_MARGIN (R583). -/
def E.PLANT_MARGIN : Ent := ⟨0x800003, 90⟩
/-- 0x8000.04 PLANT_CAPACITY (R583). -/
def E.PLANT_CAPACITY : Ent := ⟨0x800004, 0⟩
/-- 0x8000.05 BUDGET_SLEW (R583). -/
def E.BUDGET_SLEW : Ent := ⟨0x800005, 500⟩
/-- 0x8000.06 FLOW_LOW_PCT (R583). -/
def E.FLOW_LOW_PCT : Ent := ⟨0x800006, 85⟩
/-- 0x8000.07 FLOW_STOP_PCT (R583). -/
def E.FLOW_STOP_PCT : Ent := ⟨0x800007, 40⟩
/-- 0x8000.08 FLOW_STOP_TICKS (R583). -/
def E.FLOW_STOP_TICKS : Ent := ⟨0x800008, 10⟩
/-- 0x8000.09 FLOW_RECOVER_PCT (R583). -/
def E.FLOW_RECOVER_PCT : Ent := ⟨0x800009, 80⟩
/-- 0x8000.0A FLOW_RECOVER_TICKS (R583). -/
def E.FLOW_RECOVER_TICKS : Ent := ⟨0x80000A, 1200⟩
/-- 0x8000.0B FLOW_TREND_TICKS (R583). -/
def E.FLOW_TREND_TICKS : Ent := ⟨0x80000B, 1200⟩
/-- 0x8000.0C FLOW_TREND_HORIZON (R583). -/
def E.FLOW_TREND_HORIZON : Ent := ⟨0x80000C, 12000⟩
/-- 0x8000.0D TREND_RETURN_MARGIN (R583). -/
def E.TREND_RETURN_MARGIN : Ent := ⟨0x80000D, 64⟩
/-- 0x8000.0E COAST_CAP (R583). -/
def E.COAST_CAP : Ent := ⟨0x80000E, 0⟩
/-- 0x8000.0F PLANT_CUT_HOLD (R583). -/
def E.PLANT_CUT_HOLD : Ent := ⟨0x80000F, 24⟩
/-- 0x8000.10 PLANT_CUT_SLEW (R583). -/
def E.PLANT_CUT_SLEW : Ent := ⟨0x800010, 8⟩
/-- 0x8000.11 PLANT_LIFT_GAP (R583). -/
def E.PLANT_LIFT_GAP : Ent := ⟨0x800011, 200⟩
/-- 0x8000.12 LEAK_SUSPECT_ACT (R583). -/
def E.LEAK_SUSPECT_ACT : Ent := ⟨0x800012, 0⟩
/-- 0x8000.13 LEAK_CLOSE_MAX (R583). -/
def E.LEAK_CLOSE_MAX : Ent := ⟨0x800013, 12000⟩
/-- 0x8000.14 PLANT_LATCHES (R583). -/
def E.PLANT_LATCHES : Ent := ⟨0x800014, 0⟩
/-- 0x8100.01 BR_ENABLE (R584). -/
def E.BR_ENABLE : Ent := ⟨0x810001, 0⟩
/-- 0x8100.02 BR_SUPPLY_T (R584). -/
def E.BR_SUPPLY_T : Ent := ⟨0x810002, 0⟩
/-- 0x8100.03 BR_RETURN_T (R584). -/
def E.BR_RETURN_T : Ent := ⟨0x810003, 0⟩
/-- 0x8100.04 BR_SUPPLY_FLOW (R584). -/
def E.BR_SUPPLY_FLOW : Ent := ⟨0x810004, 0⟩
/-- 0x8100.05 BR_RETURN_FLOW (R584). -/
def E.BR_RETURN_FLOW : Ent := ⟨0x810005, 0⟩
/-- 0x8100.06 BR_FLOW_SET (R584). -/
def E.BR_FLOW_SET : Ent := ⟨0x810006, 0⟩
/-- 0x8100.07 BR_RETURN_LIMIT (R584). -/
def E.BR_RETURN_LIMIT : Ent := ⟨0x810007, 2880⟩
/-- 0x8100.08 BR_PUMP_SET (R584). -/
def E.BR_PUMP_SET : Ent := ⟨0x810008, 255⟩
/-- 0x8100.09 BR_ISO_VALVE (R584). -/
def E.BR_ISO_VALVE : Ent := ⟨0x810009, 255⟩
/-- 0x8100.0A BR_ISO_CLOSE (R584). -/
def E.BR_ISO_CLOSE : Ent := ⟨0x81000A, 1⟩
/-- 0x8100.0B BR_SAFE_KW (R584). -/
def E.BR_SAFE_KW : Ent := ⟨0x81000B, 50⟩
/-- 0x8100.0C BR_STATE (R584). -/
def E.BR_STATE : Ent := ⟨0x81000C, 0⟩
/-- 0x8100.0D BR_CMD (R584). -/
def E.BR_CMD : Ent := ⟨0x81000D, 0⟩
/-- 0x8100.0E BR_FLOW (R584). -/
def E.BR_FLOW : Ent := ⟨0x81000E, 0⟩
/-- 0x8100.0F BR_HEAT (R584). -/
def E.BR_HEAT : Ent := ⟨0x81000F, 0⟩
/-- 0x8200.01 HX_ENABLE (R585). -/
def E.HX_ENABLE : Ent := ⟨0x820001, 0⟩
/-- 0x8200.02 HX_RATED_KW (R585). -/
def E.HX_RATED_KW : Ent := ⟨0x820002, 0⟩
/-- 0x8200.03 HX_PRIMARY_T (R585). -/
def E.HX_PRIMARY_T : Ent := ⟨0x820003, 0⟩
/-- 0x8200.04 HX_PRIMARY_MAX (R585). -/
def E.HX_PRIMARY_MAX : Ent := ⟨0x820004, 2240⟩
/-- 0x8200.05 HX_STATE (R585). -/
def E.HX_STATE : Ent := ⟨0x820005, 0⟩
/-- 0x8200.06 HX_FANS (R585). -/
def E.HX_FANS : Ent := ⟨0x820006, 0⟩
/-- 0x8300.01 PS_ENABLE (R585). -/
def E.PS_ENABLE : Ent := ⟨0x830001, 0⟩
/-- 0x8300.02 PS_PUMPS (R585). -/
def E.PS_PUMPS : Ent := ⟨0x830002, 1⟩
/-- 0x8300.03 PS_RUN_COUNT (R585). -/
def E.PS_RUN_COUNT : Ent := ⟨0x830003, 1⟩
/-- 0x8300.04 PS_ENGINE (R585). -/
def E.PS_ENGINE : Ent := ⟨0x830004, 65535⟩
/-- 0x8300.05 PS_ROTATE_TURNS (R585). -/
def E.PS_ROTATE_TURNS : Ent := ⟨0x830005, 1440000⟩
/-- 0x8300.06 PS_START_GAP_MS (R585). -/
def E.PS_START_GAP_MS : Ent := ⟨0x830006, 5000⟩
/-- 0x8300.07 PS_START_MS (R585). -/
def E.PS_START_MS : Ent := ⟨0x830007, 20000⟩
/-- 0x8300.08 PS_START_SPEED (R585). -/
def E.PS_START_SPEED : Ent := ⟨0x830008, 800⟩
/-- 0x8300.09 PS_TREND_FLOOR (R585). -/
def E.PS_TREND_FLOOR : Ent := ⟨0x830009, 900⟩
/-- 0x8300.0A PS_LEAD (R585). -/
def E.PS_LEAD : Ent := ⟨0x83000A, 255⟩
/-- 0x8300.0B PS_CMD (R585). -/
def E.PS_CMD : Ent := ⟨0x83000B, 0⟩
/-- 0x8310.01 PUMP_PORT (R586). -/
def E.PUMP_PORT : Ent := ⟨0x831001, 0⟩
/-- 0x8310.02 PUMP_RX (R586). -/
def E.PUMP_RX : Ent := ⟨0x831002, 0⟩
/-- 0x8310.03 PUMP_TX (R586). -/
def E.PUMP_TX : Ent := ⟨0x831003, 0⟩
/-- 0x8310.04 PUMP_RUN_CMD_BIT (R586). -/
def E.PUMP_RUN_CMD_BIT : Ent := ⟨0x831004, 0⟩
/-- 0x8310.05 PUMP_RUN_STAT_BIT (R586). -/
def E.PUMP_RUN_STAT_BIT : Ent := ⟨0x831005, 0⟩
/-- 0x8310.06 PUMP_FAULT_STAT_BIT (R586). -/
def E.PUMP_FAULT_STAT_BIT : Ent := ⟨0x831006, 1⟩
/-- 0x8310.07 PUMP_ROLE (R586). -/
def E.PUMP_ROLE : Ent := ⟨0x831007, 2⟩
/-- 0x8310.08 PUMP_RUN_TURNS (R586). -/
def E.PUMP_RUN_TURNS : Ent := ⟨0x831008, 0⟩
/-- 0x8310.09 PUMP_TRIPS (R586). -/
def E.PUMP_TRIPS : Ent := ⟨0x831009, 0⟩
/-- 0xC100.01 COOL_INLET_T (R588). -/
def E.COOL_INLET_T : Ent := ⟨0xC10001, 0⟩
/-- 0xC100.02 COOL_OUTLET_T (R588). -/
def E.COOL_OUTLET_T : Ent := ⟨0xC10002, 0⟩
/-- 0xC100.03 COOL_DIE_T (R588). -/
def E.COOL_DIE_T : Ent := ⟨0xC10003, 0⟩
/-- 0xC100.04 COOL_BOARD_T (R588). -/
def E.COOL_BOARD_T : Ent := ⟨0xC10004, 0⟩
/-- 0xC100.05 COOL_QUARANTINE (R588). -/
def E.COOL_QUARANTINE : Ent := ⟨0xC10005, 0⟩
/-- 0xC100.06 IFAN_LAW_TARGET (R588). -/
def E.IFAN_LAW_TARGET : Ent := ⟨0xC10006, 0⟩
/-- 0xC100.07 DIE_CEILING_EFFECTIVE (R588). -/
def E.DIE_CEILING_EFFECTIVE : Ent := ⟨0xC10007, 700⟩
/-- 0xC100.08 COOL_LATCHES (R588). -/
def E.COOL_LATCHES : Ent := ⟨0xC10008, 0⟩
/-- 0x9000.01 LOG_NEXT (R619). -/
def E.LOG_NEXT : Ent := ⟨0x900001, 0⟩
/-- 0x9000.02 LOG_STACK (R619). -/
def E.LOG_STACK : Ent := ⟨0x900002, 0⟩
/-- 0x9000.03 LOG_SPARE_PAGES (R619). -/
def E.LOG_SPARE_PAGES : Ent := ⟨0x900003, 492⟩
/-- 0x9000.04 COND_FOLD_TICKS (R619). -/
def E.COND_FOLD_TICKS : Ent := ⟨0x900004, 2400⟩
/-- 0x9000.05 HIST_COUNT (R619). -/
def E.HIST_COUNT : Ent := ⟨0x900005, 1024⟩
/-- 0x9000.06 HIST_SET (R619). -/
def E.HIST_SET : Ent := ⟨0x900006, 0⟩
/-- 0x9000.07 REC_CMD (R619). -/
def E.REC_CMD : Ent := ⟨0x900007, 0⟩
/-- 0x9000.08 REC_CMD_STATE (R619). -/
def E.REC_CMD_STATE : Ent := ⟨0x900008, 0⟩
/-- 0x9000.09 REC_LATCHES (R619). -/
def E.REC_LATCHES : Ent := ⟨0x900009, 0⟩
/-- 0x9000.0A LASTGASP_COUNT (R619). -/
def E.LASTGASP_COUNT : Ent := ⟨0x90000A, 0⟩
/-- 0x9000.0B LASTGASP_FRAM_COUNT (R619). -/
def E.LASTGASP_FRAM_COUNT : Ent := ⟨0x90000B, 0⟩
/-- 0x9010.01 RF_GATE (R619). -/
def E.RF_GATE : Ent := ⟨0x901001, 32⟩
/-- 0x9010.02 RF_RANGE_STEP (R619). -/
def E.RF_RANGE_STEP : Ent := ⟨0x901002, 128⟩
/-- 0x9010.03 RF_MEAN_LO (R619). -/
def E.RF_MEAN_LO : Ent := ⟨0x901003, 2560⟩
/-- 0x9010.04 RF_MEAN_STEP (R619). -/
def E.RF_MEAN_STEP : Ent := ⟨0x901004, 192⟩
/-- 0x9010.05 DIE_RF_GATE (R619). -/
def E.DIE_RF_GATE : Ent := ⟨0x901005, 32⟩
/-- 0x9010.06 DIE_RF_RANGE_STEP (R619). -/
def E.DIE_RF_RANGE_STEP : Ent := ⟨0x901006, 128⟩
/-- 0x9010.07 DIE_RF_MEAN_LO (R619). -/
def E.DIE_RF_MEAN_LO : Ent := ⟨0x901007, 3200⟩
/-- 0x9010.08 DIE_RF_MEAN_STEP (R619). -/
def E.DIE_RF_MEAN_STEP : Ent := ⟨0x901008, 192⟩
/-- 0x9040.00 LASTGASP_FRAM (R619). -/
def E.LASTGASP_FRAM : Ent := ⟨0x904000, 0⟩
/-- 0x9041.00 LASTGASP_SRAM (R619). -/
def E.LASTGASP_SRAM : Ent := ⟨0x904100, 0⟩
/-- 0x9001.01 COND_WRITTEN (R620). -/
def E.COND_WRITTEN : Ent := ⟨0x900101, 0⟩
/-- 0x9001.02 COND_FOLDED (R620). -/
def E.COND_FOLDED : Ent := ⟨0x900102, 0⟩
/-- 0x9001.03 COND_LOST (R620). -/
def E.COND_LOST : Ent := ⟨0x900103, 0⟩
/-- 0x9001.04 COND_NOT_LOGGED (R620). -/
def E.COND_NOT_LOGGED : Ent := ⟨0x900104, 0⟩
/-- 0x9001.05 LOG_PAGES_RETIRED (R620). -/
def E.LOG_PAGES_RETIRED : Ent := ⟨0x900105, 0⟩
/-- 0x9001.06 LOG_RECORDS_DAMAGED (R620). -/
def E.LOG_RECORDS_DAMAGED : Ent := ⟨0x900106, 0⟩
/-- 0x9001.07 LASTGASP_OVERFLOW (R620). -/
def E.LASTGASP_OVERFLOW : Ent := ⟨0x900107, 0⟩
/-- 0xA000.01 START_STAGE (R643). -/
def E.START_STAGE : Ent := ⟨0xA00001, 11⟩
/-- 0xA000.02 START_COUNT (R643). -/
def E.START_COUNT : Ent := ⟨0xA00002, 0⟩
/-- 0xA000.03 START_CAUSE (R643). -/
def E.START_CAUSE : Ent := ⟨0xA00003, 0⟩
/-- 0xA000.04 START_WHEEL_DELAY (R643). -/
def E.START_WHEEL_DELAY : Ent := ⟨0xA00004, 500⟩
/-- 0xA000.05 START_COHERENT_PCT (R643). -/
def E.START_COHERENT_PCT : Ent := ⟨0xA00005, 90⟩
/-- 0xA000.06 MODEL_CEILINGS (R643). -/
def E.MODEL_CEILINGS : Ent := ⟨0xA00006, 0⟩
/-- 0xA000.07 MODEL_CEILINGS_TICK (R643). -/
def E.MODEL_CEILINGS_TICK : Ent := ⟨0xA00007, 0⟩
/-- 0xA000.08 GUARD_ARMED_MS (R643). -/
def E.GUARD_ARMED_MS : Ent := ⟨0xA00008, 0⟩
/-- 0xA000.09 START_CMD (R643). -/
def E.START_CMD : Ent := ⟨0xA00009, 0⟩
/-- 0xA000.0A START_LATCHES (R643). -/
def E.START_LATCHES : Ent := ⟨0xA0000A, 0⟩
/-- 0xA010.00 BOOT_DIARY (R643). -/
def E.BOOT_DIARY : Ent := ⟨0xA01000, 0⟩
/-- 0xA020.01 FW_IMAGE_DIGEST (R643). -/
def E.FW_IMAGE_DIGEST : Ent := ⟨0xA02001, 0⟩
/-- 0xA020.02 FW_SEC_VERSION (R643). -/
def E.FW_SEC_VERSION : Ent := ⟨0xA02002, 0⟩
/-- 0xA020.03 FW_KEY_SLOT (R643). -/
def E.FW_KEY_SLOT : Ent := ⟨0xA02003, 0⟩
/-- 0xA020.04 FUSE_SEC_VERSION (R643). -/
def E.FUSE_SEC_VERSION : Ent := ⟨0xA02004, 0⟩
/-- 0xA020.05 FUSE_KEY_REVOKED (R643). -/
def E.FUSE_KEY_REVOKED : Ent := ⟨0xA02005, 0⟩
/-- 0xA020.06 BOOT_ROM_VERSION (R643). -/
def E.BOOT_ROM_VERSION : Ent := ⟨0xA02006, Config.bootRomVersion⟩
/-- 0xA020.07 FUSE_SEC_RAISE (R643). -/
def E.FUSE_SEC_RAISE : Ent := ⟨0xA02007, 0⟩
/-- 0xA020.08 FUSE_KEY_REVOKE (R643). -/
def E.FUSE_KEY_REVOKE : Ent := ⟨0xA02008, 0⟩
/-- 0xA030.01 KEY_STATE (R644). -/
def E.KEY_STATE : Ent := ⟨0xA03001, 0⟩
/-- 0xA030.02 KEY_PUBLIC (R644). -/
def E.KEY_PUBLIC : Ent := ⟨0xA03002, 0⟩
/-- 0xB000.01 WEAR_RETIRE_ERRORS (R660). -/
def E.WEAR_RETIRE_ERRORS : Ent := ⟨0xB00001, 3⟩
/-- 0xB000.02 WEAR_RETIRE_TURNS (R660). -/
def E.WEAR_RETIRE_TURNS : Ent := ⟨0xB00002, 216000⟩
/-- 0xB000.03 WEAR_LATCHES (R660). -/
def E.WEAR_LATCHES : Ent := ⟨0xB00003, 0⟩
/-- 0xB000.04 BIST_RUNS (R660). -/
def E.BIST_RUNS : Ent := ⟨0xB00004, 0⟩
/-- 0xB000.05 BIST_MISMATCHES (R660). -/
def E.BIST_MISMATCHES : Ent := ⟨0xB00005, 0⟩
/-- 0xB100.01 UNITS_ACTIVE (R661). -/
def E.UNITS_ACTIVE : Ent := ⟨0xB10001, 0⟩
/-- 0xB100.02 UNITS_SPARE (R661). -/
def E.UNITS_SPARE : Ent := ⟨0xB10002, 0⟩
/-- 0xB100.03 UNITS_RETIRED (R661). -/
def E.UNITS_RETIRED : Ent := ⟨0xB10003, 0⟩
/-- 0xB100.04 PLANNED_TEST_TURNS (R661). -/
def E.PLANNED_TEST_TURNS : Ent := ⟨0xB10004, 216000⟩
/-- 0xB100.05 SPARE_RETEST_TURNS (R661). -/
def E.SPARE_RETEST_TURNS : Ent := ⟨0xB10005, 216000⟩
/-- 0xB100.06 NEXT_PLANNED_TURN (R661). -/
def E.NEXT_PLANNED_TURN : Ent := ⟨0xB10006, 0⟩
/-- 0xB100.07 KIND_TAKEOVERS (R661). -/
def E.KIND_TAKEOVERS : Ent := ⟨0xB10007, 0⟩
/-- 0xC000.01 FEED_A_V (R679). -/
def E.FEED_A_V : Ent := ⟨0xC00001, 0⟩
/-- 0xC000.02 FEED_B_V (R679). -/
def E.FEED_B_V : Ent := ⟨0xC00002, 0⟩
/-- 0xC000.03 LOGIC_POWER (R679). -/
def E.LOGIC_POWER : Ent := ⟨0xC00003, 0⟩
/-- 0xC000.04 ACT_FEED_V (R679). -/
def E.ACT_FEED_V : Ent := ⟨0xC00004, 0⟩
/-- 0xC000.05 ACT_FEED_I (R679). -/
def E.ACT_FEED_I : Ent := ⟨0xC00005, 0⟩
/-- 0xC000.06 ACT_FUSE_STATE (R679). -/
def E.ACT_FUSE_STATE : Ent := ⟨0xC00006, 0⟩
/-- 0xC000.07 ACT_CMD (R679). -/
def E.ACT_CMD : Ent := ⟨0xC00007, 0⟩
/-- 0xC000.08 HOLDUP_PCT (R679). -/
def E.HOLDUP_PCT : Ent := ⟨0xC00008, 0⟩
/-- 0xC000.09 ELEC_LATCHES (R679). -/
def E.ELEC_LATCHES : Ent := ⟨0xC00009, 0⟩
/-- 0xA038.01 KEY_ENROL (R633). -/
def E.KEY_ENROL : Ent := ⟨0xA03801, 0⟩
/-- 0xA038.02 KEY_REVOKE (R633). -/
def E.KEY_REVOKE : Ent := ⟨0xA03802, 0⟩
/-- 0x6000.40 LOOP_TABLE (R452). -/
def E.LOOP_TABLE : Ent := ⟨0x600040, 0⟩

/-- Rows of the dictionary, part 0. -/
def dictRows0 : List Row := [
  ⟨"STANCE", E.STANCE, 1, 1, .u8, .rw, (.rng 0 2), false⟩,
  ⟨"STANCE_ACTIVE", E.STANCE_ACTIVE, 1, 2, .u8, .ro, .any, false⟩,
  ⟨"DIE_POWER_CEILING", E.DIE_POWER_CEILING, 1, 3, .u16, .rw, (.rng 300 820), false⟩,
  ⟨"REST_CAUSE", E.REST_CAUSE, 1, 4, .u8, .ro, .any, false⟩,
  ⟨"WHEEL_TICKS", E.WHEEL_TICKS, 1, 1, .u16, .rw, (.oneOf [160, 200, 240]), true⟩,
  ⟨"WHEEL_TICKS_ACTIVE", E.WHEEL_TICKS_ACTIVE, 1, 2, .u16, .ro, .any, false⟩,
  ⟨"WHEEL_NOMINAL_HZ", E.WHEEL_NOMINAL_HZ, 1, 3, .u8, .rw, (.oneOf [50, 60]), true⟩,
  ⟨"WHEEL_STATE", E.WHEEL_STATE, 1, 4, .u8, .ro, .any, false⟩,
  ⟨"WHEEL_REF_PHASE", E.WHEEL_REF_PHASE, 1, 5, .u8, .rw, (.rng 0 2), false⟩,
  ⟨"WHEEL_PHASE_OFFSET", E.WHEEL_PHASE_OFFSET, 1, 6, .u16, .rw, .any, false⟩,
  ⟨"MAINS_FREQ", E.MAINS_FREQ, 1, 7, .f32, .ro, .any, false⟩,
  ⟨"TICK_PERIOD_PS", E.TICK_PERIOD_PS, 1, 8, .u32, .ro, .any, false⟩,
  ⟨"WHEEL_NOW", E.WHEEL_NOW, 1, 9, .tick, .ro, .any, false⟩,
  ⟨"HOLDOVER_LIMIT", E.HOLDOVER_LIMIT, 1, 10, .u32, .rw, .any, false⟩,
  ⟨"HOLDOVER_TIME", E.HOLDOVER_TIME, 1, 11, .u32, .ro, .any, false⟩,
  ⟨"WHEEL_LATCHES", E.WHEEL_LATCHES, 1, 12, .u16, .w1c, .any, false⟩,
  ⟨"PTP_ORIGIN_S", E.PTP_ORIGIN_S, 1, 13, .u64, .rw, (.rng 0 281474976710655), false⟩,
  ⟨"PTP_DOMAIN", E.PTP_DOMAIN, 1, 1, .u8, .rw, (.rng 0 127), false⟩,
  ⟨"PTP_PRIORITY1", E.PTP_PRIORITY1, 1, 2, .u8, .rw, .any, false⟩,
  ⟨"PTP_PRIORITY2", E.PTP_PRIORITY2, 1, 3, .u8, .rw, .any, false⟩,
  ⟨"PTP_LOG_SYNC", E.PTP_LOG_SYNC, 1, 4, .i16, .rw, (.srng (-7) 0), false⟩,
  ⟨"PTP_LOG_ANNOUNCE", E.PTP_LOG_ANNOUNCE, 1, 5, .i16, .rw, (.srng (-3) 3), false⟩,
  ⟨"PTP_LOG_DELAY_REQ", E.PTP_LOG_DELAY_REQ, 1, 6, .i16, .rw, (.srng (-7) 0), false⟩,
  ⟨"PTP_CLOCK_CLASS", E.PTP_CLOCK_CLASS, 1, 7, .u8, .ro, .any, false⟩,
  ⟨"PHASE_KIND", E.PHASE_KIND, 16, 1, .u8, .rw, (.rng 0 3), false⟩,
  ⟨"PHASE_INPUT", E.PHASE_INPUT, 16, 2, .u8, .rw, (.rng 0 15), false⟩,
  ⟨"ANGLE_COUNTS", E.ANGLE_COUNTS, 16, 3, .u32, .rw, (.rng 1 4294967295), false⟩,
  ⟨"PHASE_BIN", E.PHASE_BIN, 16, 4, .u8, .ro, .any, false⟩,
  ⟨"PHASE_VALID", E.PHASE_VALID, 16, 5, .u8, .ro, .any, false⟩,
  ⟨"PHASE_PERIOD", E.PHASE_PERIOD, 16, 6, .u32, .ro, .any, false⟩,
  ⟨"PORT_MAC", E.PORT_MAC, 1, 1, (.oct 6), .ro, .any, false⟩,
  ⟨"PORT_ADDR_MODE", E.PORT_ADDR_MODE, 1, 2, .u8, .rw, (.rng 0 2), true⟩,
  ⟨"PORT_ADDR", E.PORT_ADDR, 1, 3, (.oct 16), .rw, .addr, true⟩,
  ⟨"PORT_PREFIX_LEN", E.PORT_PREFIX_LEN, 1, 4, .u8, .rw, (.rng 1 128), true⟩,
  ⟨"PORT_ADDR_ACTIVE", E.PORT_ADDR_ACTIVE, 1, 5, (.oct 16), .ro, .any, false⟩,
  ⟨"PORT_MTU", E.PORT_MTU, 1, 6, .u16, .rw, (.rng 1280 9216), true⟩,
  ⟨"ROW_GROUP", E.ROW_GROUP, 1, 7, (.oct 16), .rw, .mcast, false⟩,
  ⟨"PTP_MCAST_SCOPE", E.PTP_MCAST_SCOPE, 1, 8, .u8, .rw, (.oneOf [2, 4, 5, 8, 14]), false⟩,
  ⟨"UDP_PORT_TELEMETRY", E.UDP_PORT_TELEMETRY, 1, 9, .u16, .rw, (.rng 1024 65535), true⟩,
  ⟨"UDP_PORT_CAPS", E.UDP_PORT_CAPS, 1, 10, .u16, .rw, (.rng 1024 65535), true⟩,
  ⟨"UDP_PORT_DICT", E.UDP_PORT_DICT, 1, 11, .u16, .rw, (.rng 1024 65535), true⟩,
  ⟨"UDP_PORT_BOOT", E.UDP_PORT_BOOT, 1, 12, .u16, .rw, (.rng 1024 65535), true⟩,
  ⟨"PORT_EXPORT_RATE", E.PORT_EXPORT_RATE, 1, 13, .u16, .rw, (.rng 10 1200), false⟩,
  ⟨"PORT_LANE_MAP", E.PORT_LANE_MAP, 1, 14, .u8, .ro, .any, false⟩,
  ⟨"PORT_MEDIA", E.PORT_MEDIA, 1, 15, .u8, .ro, .any, false⟩,
  ⟨"LINK_STATE", E.LINK_STATE, 1, 16, .u8, .ro, .any, false⟩,
  ⟨"PORT_BER_WARN", E.PORT_BER_WARN, 1, 17, .f32, .rw, .any, false⟩,
  ⟨"PORT_LATCHES", E.PORT_LATCHES, 1, 18, .u16, .w1c, .any, false⟩,
  ⟨"DSCP_GUARD", E.DSCP_GUARD, 1, 1, .u8, .rw, (.rng 0 63), false⟩,
  ⟨"DSCP_TIME", E.DSCP_TIME, 1, 2, .u8, .rw, (.rng 0 63), false⟩]

/-- Rows of the dictionary, part 1. -/
def dictRows1 : List Row := [
  ⟨"DSCP_CAPS", E.DSCP_CAPS, 1, 3, .u8, .rw, (.rng 0 63), false⟩,
  ⟨"DSCP_DESK", E.DSCP_DESK, 1, 4, .u8, .rw, (.rng 0 63), false⟩,
  ⟨"DSCP_DICT", E.DSCP_DICT, 1, 5, .u8, .rw, (.rng 0 63), false⟩,
  ⟨"DSCP_EXPORT", E.DSCP_EXPORT, 1, 6, .u8, .rw, (.rng 0 63), false⟩,
  ⟨"RX_FRAMES", E.RX_FRAMES, 1, 1, .u64, .ro, .any, false⟩,
  ⟨"RX_BYTES", E.RX_BYTES, 1, 2, .u64, .ro, .any, false⟩,
  ⟨"TX_FRAMES", E.TX_FRAMES, 1, 3, .u64, .ro, .any, false⟩,
  ⟨"TX_BYTES", E.TX_BYTES, 1, 4, .u64, .ro, .any, false⟩,
  ⟨"DROP_FCS", E.DROP_FCS, 1, 5, .u64, .ro, .any, false⟩,
  ⟨"DROP_OVERSIZE", E.DROP_OVERSIZE, 1, 6, .u64, .ro, .any, false⟩,
  ⟨"DROP_ETHERTYPE", E.DROP_ETHERTYPE, 1, 7, .u64, .ro, .any, false⟩,
  ⟨"DROP_ADDRESS", E.DROP_ADDRESS, 1, 8, .u64, .ro, .any, false⟩,
  ⟨"DROP_HEADER", E.DROP_HEADER, 1, 9, .u64, .ro, .any, false⟩,
  ⟨"DROP_CHECKSUM", E.DROP_CHECKSUM, 1, 10, .u64, .ro, .any, false⟩,
  ⟨"DROP_PORT", E.DROP_PORT, 1, 11, .u64, .ro, .any, false⟩,
  ⟨"DROP_INGRESS", E.DROP_INGRESS, 1, 12, .u64, .ro, .any, false⟩,
  ⟨"DROP_PAUSE", E.DROP_PAUSE, 1, 13, .u64, .ro, .any, false⟩,
  ⟨"DROP_EGRESS", E.DROP_EGRESS, 1, 14, .u64, .ro, .any, false⟩,
  ⟨"FEC_CORRECTED", E.FEC_CORRECTED, 1, 15, .u64, .ro, .any, false⟩,
  ⟨"FEC_UNCORRECTED", E.FEC_UNCORRECTED, 1, 16, .u64, .ro, .any, false⟩,
  ⟨"LINK_DOWNS", E.LINK_DOWNS, 1, 17, .u64, .ro, .any, false⟩,
  ⟨"TX_CLASS0", E.TX_CLASS0, 1, 18, .u64, .ro, .any, false⟩,
  ⟨"TX_CLASS1", E.TX_CLASS1, 1, 19, .u64, .ro, .any, false⟩,
  ⟨"TX_CLASS2", E.TX_CLASS2, 1, 20, .u64, .ro, .any, false⟩,
  ⟨"TX_CLASS3", E.TX_CLASS3, 1, 21, .u64, .ro, .any, false⟩,
  ⟨"TX_CLASS4", E.TX_CLASS4, 1, 22, .u64, .ro, .any, false⟩,
  ⟨"TX_CLASS5", E.TX_CLASS5, 1, 23, .u64, .ro, .any, false⟩,
  ⟨"LANE_SNR", E.LANE_SNR, 8, 1, .i16, .ro, .any, false⟩,
  ⟨"LANE_BER", E.LANE_BER, 8, 2, .f32, .ro, .any, false⟩,
  ⟨"LANE_SYMBOLS", E.LANE_SYMBOLS, 8, 3, .u64, .ro, .any, false⟩,
  ⟨"LANE_LOCK", E.LANE_LOCK, 8, 4, .u8, .ro, .any, false⟩,
  ⟨"VENDOR", E.VENDOR, 1, 1, .str, .ro, .any, false⟩,
  ⟨"PRODUCT", E.PRODUCT, 1, 2, .str, .ro, .any, false⟩,
  ⟨"SERIAL", E.SERIAL, 1, 3, .str, .ro, .any, false⟩,
  ⟨"HW_ISSUE", E.HW_ISSUE, 1, 4, .u16, .ro, .any, false⟩,
  ⟨"FW_VERSION", E.FW_VERSION, 1, 5, .u32, .ro, .any, false⟩,
  ⟨"DICT_VERSION", E.DICT_VERSION, 1, 6, .u16, .ro, .any, false⟩,
  ⟨"GUEST_PROTO_VERSION", E.GUEST_PROTO_VERSION, 1, 7, .u8, .ro, .any, false⟩,
  ⟨"STAVRIX_FORM_VERSION", E.STAVRIX_FORM_VERSION, 1, 8, .u16, .ro, .any, false⟩,
  ⟨"DEVICE_PUBKEY", E.DEVICE_PUBKEY, 1, 9, (.oct 64), .ro, .any, false⟩,
  ⟨"DICT_OPEN_WRITES", E.DICT_OPEN_WRITES, 1, 1, .u8, .k, (.rng 0 1), false⟩,
  ⟨"SESSION_IDLE", E.SESSION_IDLE, 1, 2, .u16, .rw, (.rng 10 3600), false⟩,
  ⟨"SUB_LEASE", E.SUB_LEASE, 1, 3, .u16, .rw, .any, false⟩,
  ⟨"SESSIONS_OPEN", E.SESSIONS_OPEN, 1, 4, .u8, .ro, .any, false⟩,
  ⟨"DICT_REQUESTS", E.DICT_REQUESTS, 1, 5, .u64, .ro, .any, false⟩,
  ⟨"DICT_REFUSED", E.DICT_REFUSED, 1, 6, .u64, .ro, .any, false⟩,
  ⟨"TAG_FAILS", E.TAG_FAILS, 1, 7, .u64, .ro, .any, false⟩,
  ⟨"DICT_LATCHES", E.DICT_LATCHES, 1, 8, .u16, .w1c, .any, false⟩,
  ⟨"DESK_OPEN", E.DESK_OPEN, 1, 1, .u8, .ro, .any, false⟩,
  ⟨"DESK_PRESENT", E.DESK_PRESENT, 1, 2, .u32, .ro, .any, false⟩]

/-- Rows of the dictionary, part 2. -/
def dictRows2 : List Row := [
  ⟨"DESK_RESERVED", E.DESK_RESERVED, 1, 3, .u32, .ro, .any, false⟩,
  ⟨"DESK_FPR_MODE", E.DESK_FPR_MODE, 1, 4, .u8, .rw, (.rng 0 1), false⟩,
  ⟨"CAP_HOLD_TICKS", E.CAP_HOLD_TICKS, 1, 5, .u8, .rw, (.rng 20 255), false⟩,
  ⟨"LIFT_GAP_TURNS", E.LIFT_GAP_TURNS, 1, 6, .u16, .rw, (.rng 1 1000), false⟩,
  ⟨"LIFT_SLEW", E.LIFT_SLEW, 1, 7, .u8, .rw, .any, false⟩,
  ⟨"DESK_LATCHES", E.DESK_LATCHES, 1, 8, .u16, .w1c, .any, false⟩,
  ⟨"CHECKIN_ADMITTED", E.CHECKIN_ADMITTED, 1, 1, .u64, .ro, .any, false⟩,
  ⟨"CHECKIN_REJOINED", E.CHECKIN_REJOINED, 1, 2, .u64, .ro, .any, false⟩,
  ⟨"REFUSE_FULL_COUNT", E.REFUSE_FULL_COUNT, 1, 3, .u64, .ro, .any, false⟩,
  ⟨"REFUSE_FULL_RATE", E.REFUSE_FULL_RATE, 1, 4, .u64, .ro, .any, false⟩,
  ⟨"REFUSE_UNKNOWN_CLASS", E.REFUSE_UNKNOWN_CLASS, 1, 5, .u64, .ro, .any, false⟩,
  ⟨"REFUSE_BAD_PASSPORT", E.REFUSE_BAD_PASSPORT, 1, 6, .u64, .ro, .any, false⟩,
  ⟨"REFUSE_NOT_OPEN", E.REFUSE_NOT_OPEN, 1, 7, .u64, .ro, .any, false⟩,
  ⟨"REFUSE_ID_CONFLICT", E.REFUSE_ID_CONFLICT, 1, 8, .u64, .ro, .any, false⟩,
  ⟨"REFUSE_BAD_VERSION", E.REFUSE_BAD_VERSION, 1, 9, .u64, .ro, .any, false⟩,
  ⟨"REFUSE_NOT_HELD", E.REFUSE_NOT_HELD, 1, 10, .u64, .ro, .any, false⟩,
  ⟨"CHECKOUTS", E.CHECKOUTS, 1, 11, .u64, .ro, .any, false⟩,
  ⟨"LAPSES", E.LAPSES, 1, 12, .u64, .ro, .any, false⟩,
  ⟨"RECLAIMS", E.RECLAIMS, 1, 13, .u64, .ro, .any, false⟩,
  ⟨"CHECKIN_DROPPED", E.CHECKIN_DROPPED, 1, 14, .u64, .ro, .any, false⟩,
  ⟨"REFUSE_BRANCH_OFF", E.REFUSE_BRANCH_OFF, 1, 15, .u64, .ro, .any, false⟩,
  ⟨"DESK_MALFORMED", E.DESK_MALFORMED, 1, 16, .u64, .ro, .any, false⟩,
  ⟨"ADMIT_HZ", E.ADMIT_HZ, 1, 1, .u8, .rw, (.rng 45 65), false⟩,
  ⟨"ADMIT_LIMIT", E.ADMIT_LIMIT, 1, 2, .u32, .ro, .any, false⟩,
  ⟨"LANES_ACTIVE", E.LANES_ACTIVE, 1, 3, .u8, .ro, .any, false⟩,
  ⟨"INGEST_LOAD", E.INGEST_LOAD, 1, 4, .u16, .ro, .any, false⟩,
  ⟨"LANE_BACKLOG_MAX", E.LANE_BACKLOG_MAX, 1, 5, .u32, .ro, .any, false⟩,
  ⟨"ABSENCE_TICKS", E.ABSENCE_TICKS, 1, 6, .u32, .rw, (.rng 1 1000000), false⟩,
  ⟨"RESERVE_TURNS", E.RESERVE_TURNS, 1, 7, .u32, .rw, (.rng 0 1000000), false⟩,
  ⟨"STALE_TICKS", E.STALE_TICKS, 1, 8, .u16, .rw, (.rng 9 1000), false⟩,
  ⟨"LATE_LIMIT", E.LATE_LIMIT, 1, 9, .u8, .rw, (.rng 1 64), false⟩,
  ⟨"PAIR_PERSIST", E.PAIR_PERSIST, 1, 10, .u16, .rw, (.rng 0 65535), false⟩,
  ⟨"PAIR_AGREE_TICKS", E.PAIR_AGREE_TICKS, 1, 11, .u8, .rw, (.rng 1 255), false⟩,
  ⟨"ECHO_TOLERANCE", E.ECHO_TOLERANCE, 1, 12, .u16, .rw, .any, false⟩,
  ⟨"OVERPOWER_PCT", E.OVERPOWER_PCT, 1, 13, .u8, .rw, (.rng 1 50), false⟩,
  ⟨"DISOBEY_TICKS", E.DISOBEY_TICKS, 1, 14, .u16, .rw, (.rng 2 1000), false⟩,
  ⟨"STALE_RELEASE_SLEW", E.STALE_RELEASE_SLEW, 1, 15, .u8, .rw, .any, false⟩,
  ⟨"LOOKBACK_TICKS", E.LOOKBACK_TICKS, 1, 16, .u32, .ro, .any, false⟩,
  ⟨"SUMMARY_TICKS", E.SUMMARY_TICKS, 1, 17, .u16, .ro, .any, false⟩,
  ⟨"SUMMARY_STEPS", E.SUMMARY_STEPS, 1, 18, .u32, .ro, .any, false⟩,
  ⟨"INGEST_LATCHES", E.INGEST_LATCHES, 1, 19, .u16, .w1c, .any, false⟩,
  ⟨"RECORDS_ACCEPTED", E.RECORDS_ACCEPTED, 1, 1, .u64, .ro, .any, false⟩,
  ⟨"RECORDS_LATE", E.RECORDS_LATE, 1, 2, .u64, .ro, .any, false⟩,
  ⟨"RECORDS_SUPERSEDED", E.RECORDS_SUPERSEDED, 1, 3, .u64, .ro, .any, false⟩,
  ⟨"RECORDS_TOO_OLD", E.RECORDS_TOO_OLD, 1, 4, .u64, .ro, .any, false⟩,
  ⟨"RECORDS_EARLY", E.RECORDS_EARLY, 1, 5, .u64, .ro, .any, false⟩,
  ⟨"RECORDS_FOREIGN", E.RECORDS_FOREIGN, 1, 6, .u64, .ro, .any, false⟩,
  ⟨"RECORDS_MALFORMED", E.RECORDS_MALFORMED, 1, 7, .u64, .ro, .any, false⟩,
  ⟨"BUNDLES_DISCARDED", E.BUNDLES_DISCARDED, 1, 8, .u64, .ro, .any, false⟩,
  ⟨"KEEPALIVES", E.KEEPALIVES, 1, 9, .u64, .ro, .any, false⟩]

/-- Rows of the dictionary, part 3. -/
def dictRows3 : List Row := [
  ⟨"SEQ_GAPS_ALL", E.SEQ_GAPS_ALL, 1, 10, .u64, .ro, .any, false⟩,
  ⟨"LANE_OVERRUNS", E.LANE_OVERRUNS, 1, 11, .u64, .ro, .any, false⟩,
  ⟨"STALE_ENTRIES", E.STALE_ENTRIES, 1, 12, .u64, .ro, .any, false⟩,
  ⟨"QUARANTINES", E.QUARANTINES, 1, 13, .u64, .ro, .any, false⟩,
  ⟨"DISOBEY_EVENTS", E.DISOBEY_EVENTS, 1, 14, .u64, .ro, .any, false⟩,
  ⟨"GUARD_CUT_PCT", E.GUARD_CUT_PCT, 1, 1, .u8, .rw, (.rng 10 95), false⟩,
  ⟨"GUARD_DEEP_EXCESS", E.GUARD_DEEP_EXCESS, 1, 2, .u16, .rw, (.rng 1 2048), false⟩,
  ⟨"GUARD_RECUT_TICKS", E.GUARD_RECUT_TICKS, 1, 3, .u8, .rw, (.rng 2 64), false⟩,
  ⟨"GUARD_HOLD_TICKS", E.GUARD_HOLD_TICKS, 1, 4, .u8, .rw, (.rng 20 255), false⟩,
  ⟨"GUARD_CLEAR_TICKS", E.GUARD_CLEAR_TICKS, 1, 5, .u16, .rw, (.rng 1 10000), false⟩,
  ⟨"GUARD_CLEAR_MARGIN", E.GUARD_CLEAR_MARGIN, 1, 6, .u16, .rw, (.rng 0 1024), false⟩,
  ⟨"GUARD_RELEASE_SLEW", E.GUARD_RELEASE_SLEW, 1, 7, .u8, .rw, .any, false⟩,
  ⟨"GUARD_ROWCUT_DEPTH", E.GUARD_ROWCUT_DEPTH, 1, 8, .u32, .rw, (.rng 512 65536), false⟩,
  ⟨"GUARD_ROWCUT_CLASS_MIN", E.GUARD_ROWCUT_CLASS_MIN, 1, 9, .u16, .rw, (.rng 1 4096), false⟩,
  ⟨"GUARD_ROWCUT_HOLD", E.GUARD_ROWCUT_HOLD, 1, 10, .u8, .rw, (.rng 4 255), false⟩,
  ⟨"GUARD_LATCHES", E.GUARD_LATCHES, 1, 11, .u16, .w1c, .any, false⟩,
  ⟨"GUARD_LAT_MAX", E.GUARD_LAT_MAX, 1, 1, .u32, .ro, .any, false⟩,
  ⟨"GUARD_LAT_MEAN", E.GUARD_LAT_MEAN, 1, 2, .u32, .ro, .any, false⟩,
  ⟨"GUARD_QUEUE_MAX", E.GUARD_QUEUE_MAX, 1, 3, .u32, .ro, .any, false⟩,
  ⟨"GUARD_CUTS_IN_FORCE", E.GUARD_CUTS_IN_FORCE, 1, 4, .u32, .ro, .any, false⟩,
  ⟨"ROW_CUTS_IN_FORCE", E.ROW_CUTS_IN_FORCE, 1, 5, .u16, .ro, .any, false⟩,
  ⟨"GUARD_SAMPLES", E.GUARD_SAMPLES, 1, 1, .u64, .ro, .any, false⟩,
  ⟨"GUARD_STATIC_SAMPLES", E.GUARD_STATIC_SAMPLES, 1, 2, .u64, .ro, .any, false⟩,
  ⟨"GUARD_EXCEEDANCES", E.GUARD_EXCEEDANCES, 1, 3, .u64, .ro, .any, false⟩,
  ⟨"GUARD_CUTS", E.GUARD_CUTS, 1, 4, .u64, .ro, .any, false⟩,
  ⟨"GUARD_RECUTS", E.GUARD_RECUTS, 1, 5, .u64, .ro, .any, false⟩,
  ⟨"GUARD_DEEP_CUTS", E.GUARD_DEEP_CUTS, 1, 6, .u64, .ro, .any, false⟩,
  ⟨"GUARD_RELEASES", E.GUARD_RELEASES, 1, 7, .u64, .ro, .any, false⟩,
  ⟨"GUARD_TAKEOVERS", E.GUARD_TAKEOVERS, 1, 8, .u64, .ro, .any, false⟩,
  ⟨"ROW_CUTS_CLASS", E.ROW_CUTS_CLASS, 1, 9, .u64, .ro, .any, false⟩,
  ⟨"GUARD_DEFERRED", E.GUARD_DEFERRED, 1, 10, .u64, .ro, .any, false⟩,
  ⟨"GUARD_LATE_CUTS", E.GUARD_LATE_CUTS, 1, 11, .u64, .ro, .any, false⟩,
  ⟨"GUARD_AT_FLOOR_EVENTS", E.GUARD_AT_FLOOR_EVENTS, 1, 12, .u64, .ro, .any, false⟩,
  ⟨"BRK_OPENED", E.BRK_OPENED, 1, 1, .u64, .ro, .any, false⟩,
  ⟨"BRK_OPEN_INPUT", E.BRK_OPEN_INPUT, 1, 2, .u64, .ro, .any, false⟩,
  ⟨"BRK_OPEN_DOMAIN", E.BRK_OPEN_DOMAIN, 1, 3, .u64, .ro, .any, false⟩,
  ⟨"BRK_OPEN_MID_OVF", E.BRK_OPEN_MID_OVF, 1, 4, .u64, .ro, .any, false⟩,
  ⟨"BRK_OPEN_RAD_OVF", E.BRK_OPEN_RAD_OVF, 1, 5, .u64, .ro, .any, false⟩,
  ⟨"ARRAYS_ACTIVE", E.ARRAYS_ACTIVE, 1, 1, .u8, .ro, .any, false⟩,
  ⟨"ARRAYS_SPARE", E.ARRAYS_SPARE, 1, 2, .u8, .ro, .any, false⟩,
  ⟨"ARRAYS_ROW", E.ARRAYS_ROW, 1, 3, .u8, .ro, .any, false⟩,
  ⟨"ARRAYS_OPER", E.ARRAYS_OPER, 1, 4, .u8, .ro, .any, false⟩,
  ⟨"ARRAYS_RETIRED", E.ARRAYS_RETIRED, 1, 5, .u8, .ro, .any, false⟩,
  ⟨"REGIONS_FENCED", E.REGIONS_FENCED, 1, 6, .u8, .ro, .any, false⟩,
  ⟨"ROTATE_ENABLE", E.ROTATE_ENABLE, 1, 7, .u8, .rw, (.rng 0 1), false⟩,
  ⟨"ROTATE_NEXT_TURN", E.ROTATE_NEXT_TURN, 1, 8, .u64, .ro, .any, false⟩,
  ⟨"FABRIC_LATCHES", E.FABRIC_LATCHES, 1, 9, .u16, .w1c, .any, false⟩,
  ⟨"ARRAYS_TOTAL", E.ARRAYS_TOTAL, 1, 10, .u8, .ro, .any, false⟩,
  ⟨"REGIONS_TOTAL", E.REGIONS_TOTAL, 1, 11, .u8, .ro, .any, false⟩,
  ⟨"DIE_POWER", E.DIE_POWER, 1, 1, .u16, .ro, .any, false⟩]

/-- Rows of the dictionary, part 4. -/
def dictRows4 : List Row := [
  ⟨"DIE_POWER_PEAK", E.DIE_POWER_PEAK, 1, 2, .u16, .ro, .any, false⟩,
  ⟨"OPER_POWER_STRETCH", E.OPER_POWER_STRETCH, 1, 3, .u8, .ro, .any, false⟩,
  ⟨"DIE_POWER_HYST", E.DIE_POWER_HYST, 1, 4, .u16, .rw, (.rng 5 200), false⟩,
  ⟨"ARRAY_STATE", E.ARRAY_STATE, 144, 1, .u16, .ro, .any, false⟩,
  ⟨"ROLE_TURNS", E.ROLE_TURNS, 144, 2, .u64, .ro, .any, false⟩,
  ⟨"CELL_PARITY_ERRORS", E.CELL_PARITY_ERRORS, 144, 3, .u64, .ro, .any, false⟩,
  ⟨"STEP_RERUNS", E.STEP_RERUNS, 144, 4, .u64, .ro, .any, false⟩,
  ⟨"SRAM_CORRECTED", E.SRAM_CORRECTED, 144, 5, .u64, .ro, .any, false⟩,
  ⟨"ARRAY_TEMP", E.ARRAY_TEMP, 144, 6, .i16, .ro, .any, false⟩,
  ⟨"ARRAY_UTIL", E.ARRAY_UTIL, 144, 7, .u16, .ro, .any, false⟩,
  ⟨"ARRAY_POSITION", E.ARRAY_POSITION, 144, 8, .u16, .ro, .any, false⟩,
  ⟨"STEP_RERUNS_ALL", E.STEP_RERUNS_ALL, 1, 1, .u64, .ro, .any, false⟩,
  ⟨"STEP_OVERRUNS", E.STEP_OVERRUNS, 1, 2, .u64, .ro, .any, false⟩,
  ⟨"ARRAY_FENCES", E.ARRAY_FENCES, 1, 3, .u64, .ro, .any, false⟩,
  ⟨"MIGRATIONS", E.MIGRATIONS, 1, 4, .u64, .ro, .any, false⟩,
  ⟨"ROTATIONS", E.ROTATIONS, 1, 5, .u64, .ro, .any, false⟩,
  ⟨"ROTATIONS_DEFERRED", E.ROTATIONS_DEFERRED, 1, 6, .u64, .ro, .any, false⟩,
  ⟨"SRAM_UNCORRECTABLE", E.SRAM_UNCORRECTABLE, 1, 7, .u64, .ro, .any, false⟩,
  ⟨"POWER_CLAMPS", E.POWER_CLAMPS, 1, 8, .u64, .ro, .any, false⟩,
  ⟨"STACKS_ACTIVE", E.STACKS_ACTIVE, 1, 1, .u8, .ro, .any, false⟩,
  ⟨"STACK_GUEST_CAPACITY", E.STACK_GUEST_CAPACITY, 1, 2, .u32, .ro, .any, false⟩,
  ⟨"SCRUB_PERIOD_TURNS", E.SCRUB_PERIOD_TURNS, 1, 3, .u16, .rw, (.rng 1024 65535), false⟩,
  ⟨"STACK_BG_LIMIT", E.STACK_BG_LIMIT, 1, 4, .u8, .rw, (.rng 50 95), false⟩,
  ⟨"STACK_LATCHES", E.STACK_LATCHES, 1, 5, .u16, .w1c, .any, false⟩,
  ⟨"STACK_STATE", E.STACK_STATE, 4, 1, .u8, .ro, .any, false⟩,
  ⟨"STACK_CHANNEL_MAP", E.STACK_CHANNEL_MAP, 4, 2, (.oct 16), .ro, .any, false⟩,
  ⟨"STACK_TEMP", E.STACK_TEMP, 4, 3, .i16, .ro, .any, false⟩,
  ⟨"STACK_UTIL", E.STACK_UTIL, 4, 4, .u16, .ro, .any, false⟩,
  ⟨"GUESTS_HOSTED", E.GUESTS_HOSTED, 4, 5, .u32, .ro, .any, false⟩,
  ⟨"ECC_CORRECTED", E.ECC_CORRECTED, 4, 6, .u64, .ro, .any, false⟩,
  ⟨"ECC_UNCORRECTABLE", E.ECC_UNCORRECTABLE, 4, 7, .u64, .ro, .any, false⟩,
  ⟨"POISON_READS", E.POISON_READS, 4, 8, .u64, .ro, .any, false⟩,
  ⟨"ROWS_SPARED", E.ROWS_SPARED, 4, 9, .u32, .ro, .any, false⟩,
  ⟨"PAGES_RETIRED", E.PAGES_RETIRED, 4, 10, .u32, .ro, .any, false⟩,
  ⟨"RESERVE_PAGES_FREE", E.RESERVE_PAGES_FREE, 4, 11, .u32, .ro, .any, false⟩,
  ⟨"SCATTER_RECORDS", E.SCATTER_RECORDS, 4, 12, .u64, .ro, .any, false⟩,
  ⟨"TALLY_OPS", E.TALLY_OPS, 4, 13, .u64, .ro, .any, false⟩,
  ⟨"TALLY_SATURATED", E.TALLY_SATURATED, 4, 14, .u64, .ro, .any, false⟩,
  ⟨"TALLY_DROPPED", E.TALLY_DROPPED, 4, 15, .u64, .ro, .any, false⟩,
  ⟨"TALLY_RESTARTS", E.TALLY_RESTARTS, 4, 16, .u64, .ro, .any, false⟩,
  ⟨"BG_THROTTLE_TICKS", E.BG_THROTTLE_TICKS, 4, 17, .u64, .ro, .any, false⟩,
  ⟨"CHAN_STATE", E.CHAN_STATE, 72, 1, .u8, .ro, .any, false⟩,
  ⟨"CHAN_SLOT", E.CHAN_SLOT, 72, 2, .u8, .ro, .any, false⟩,
  ⟨"CHAN_CORRECTED", E.CHAN_CORRECTED, 72, 3, .u64, .ro, .any, false⟩,
  ⟨"CHAN_UNCORRECTABLE", E.CHAN_UNCORRECTABLE, 72, 4, .u64, .ro, .any, false⟩,
  ⟨"CHAN_CRC_RETRIES", E.CHAN_CRC_RETRIES, 72, 5, .u64, .ro, .any, false⟩,
  ⟨"OPER_DEMAND", E.OPER_DEMAND, 1, 1, .u32, .ro, .any, false⟩,
  ⟨"OPER_STORE_FREE", E.OPER_STORE_FREE, 1, 2, .u64, .ro, .any, false⟩,
  ⟨"STAVRIX_FORM_MIN", E.STAVRIX_FORM_MIN, 1, 3, .u16, .ro, .any, false⟩,
  ⟨"LOADER_LATCHES", E.LOADER_LATCHES, 1, 4, .u16, .w1c, .any, false⟩]

/-- Rows of the dictionary, part 5. -/
def dictRows5 : List Row := [
  ⟨"PROG_STATE", E.PROG_STATE, 16, 1, .u8, .ro, .any, false⟩,
  ⟨"PROG_RESULT", E.PROG_RESULT, 16, 2, .u8, .ro, .any, false⟩,
  ⟨"PROG_PRIORITY", E.PROG_PRIORITY, 16, 3, .u8, .rw, (.rng 0 15), false⟩,
  ⟨"PROG_FORM_VERSION", E.PROG_FORM_VERSION, 16, 4, .u16, .ro, .any, false⟩,
  ⟨"PROG_PERIOD", E.PROG_PERIOD, 16, 5, .u16, .ro, .any, false⟩,
  ⟨"PROG_FACTOR", E.PROG_FACTOR, 16, 6, .u16, .ro, .any, false⟩,
  ⟨"PROG_PHASE", E.PROG_PHASE, 16, 7, .u16, .ro, .any, false⟩,
  ⟨"PROG_DEMAND", E.PROG_DEMAND, 16, 8, .u32, .ro, .any, false⟩,
  ⟨"PROG_STORE", E.PROG_STORE, 16, 9, .u64, .ro, .any, false⟩,
  ⟨"PROG_LAST_PUBLISH", E.PROG_LAST_PUBLISH, 16, 10, .tick, .ro, .any, false⟩,
  ⟨"PROG_STEPS", E.PROG_STEPS, 16, 11, .u64, .ro, .any, false⟩,
  ⟨"PROG_OVERRUNS", E.PROG_OVERRUNS, 16, 12, .u64, .ro, .any, false⟩,
  ⟨"PROG_STEPS_LOST", E.PROG_STEPS_LOST, 16, 13, .u64, .ro, .any, false⟩,
  ⟨"PROG_POISON_STEPS", E.PROG_POISON_STEPS, 16, 14, .u64, .ro, .any, false⟩,
  ⟨"PROG_PROBE", E.PROG_PROBE, 16, 15, (.oct 64), .ro, .any, false⟩,
  ⟨"PROG_DIGEST", E.PROG_DIGEST, 16, 16, (.oct 32), .ro, .any, false⟩,
  ⟨"PROG_FLAGS", E.PROG_FLAGS, 16, 17, .u16, .ro, .any, false⟩,
  ⟨"PROG_UPLOAD", E.PROG_UPLOAD, 16, 18, .octVar, .k, .any, false⟩,
  ⟨"PROG_FEED", E.PROG_FEED, 16, 19, .octVar, .wo, .any, false⟩,
  ⟨"HINGE_STATE", E.HINGE_STATE, 128, 1, .u8, .ro, .any, false⟩,
  ⟨"HINGE_LIVE_LEAF", E.HINGE_LIVE_LEAF, 128, 2, .u8, .ro, .any, false⟩,
  ⟨"HINGE_AGE", E.HINGE_AGE, 128, 3, .u32, .ro, .any, false⟩,
  ⟨"HINGE_STALE_LIMIT", E.HINGE_STALE_LIMIT, 128, 4, .u32, .ro, .any, false⟩,
  ⟨"HINGE_SWAPS", E.HINGE_SWAPS, 128, 5, .u64, .ro, .any, false⟩,
  ⟨"HINGE_FAILS", E.HINGE_FAILS, 128, 6, .u64, .ro, .any, false⟩,
  ⟨"HINGE_RESTARTS", E.HINGE_RESTARTS, 128, 7, .u64, .ro, .any, false⟩,
  ⟨"HINGE_REBUILD", E.HINGE_REBUILD, 128, 8, .u8, .wo, .any, false⟩,
  ⟨"PROG_LOADS", E.PROG_LOADS, 1, 1, .u64, .ro, .any, false⟩,
  ⟨"PROG_REFUSALS", E.PROG_REFUSALS, 1, 2, .u64, .ro, .any, false⟩,
  ⟨"REPLACEMENTS", E.REPLACEMENTS, 1, 3, .u64, .ro, .any, false⟩,
  ⟨"STEPS_LOST_ALL", E.STEPS_LOST_ALL, 1, 4, .u64, .ro, .any, false⟩,
  ⟨"HINGE_SWAPS_ALL", E.HINGE_SWAPS_ALL, 1, 5, .u64, .ro, .any, false⟩,
  ⟨"HINGE_FAILS_ALL", E.HINGE_FAILS_ALL, 1, 6, .u64, .ro, .any, false⟩,
  ⟨"RP_CLASSES", E.RP_CLASSES, 1, 1, .u16, .ro, .any, false⟩,
  ⟨"ALLOC_ITERS", E.ALLOC_ITERS, 1, 2, .u8, .rw, (.rng 1 32), false⟩,
  ⟨"ALLOC_STEP", E.ALLOC_STEP, 1, 3, .u16, .rw, (.rng 8 8000), false⟩,
  ⟨"ALLOC_SLEW", E.ALLOC_SLEW, 1, 4, .u8, .rw, .any, false⟩,
  ⟨"ROW_BUDGET_MAX", E.ROW_BUDGET_MAX, 1, 5, .u32, .rw, (.rng 100 16000), false⟩,
  ⟨"ROW_BUDGET_ENGINE", E.ROW_BUDGET_ENGINE, 1, 6, .u16, .rw, (.rngOr 0 255 65535), false⟩,
  ⟨"ROW_BUDGET", E.ROW_BUDGET, 1, 7, .u32, .ro, .any, false⟩,
  ⟨"ROW_POWER_PRED", E.ROW_POWER_PRED, 1, 8, .u32, .ro, .any, false⟩,
  ⟨"SUPPLY_SLEW", E.SUPPLY_SLEW, 1, 9, .u16, .rw, .any, false⟩,
  ⟨"SETTLE_TICKS", E.SETTLE_TICKS, 1, 10, .u16, .rw, (.rng 8 4096), false⟩,
  ⟨"CATCHUP_MAX", E.CATCHUP_MAX, 1, 11, .u8, .rw, (.rng 1 64), false⟩,
  ⟨"MISS_RATIO_HI", E.MISS_RATIO_HI, 1, 12, .u32, .rw, (.rng 1 100000), false⟩,
  ⟨"MISS_WIDEN_STEP", E.MISS_WIDEN_STEP, 1, 13, .u16, .rw, (.rng 1 256), false⟩,
  ⟨"MISS_WIDEN_MAX", E.MISS_WIDEN_MAX, 1, 14, .u16, .rw, (.rng 0 1024), false⟩,
  ⟨"MISS_CLEAR_TURNS", E.MISS_CLEAR_TURNS, 1, 15, .u16, .rw, (.rng 1 4096), false⟩,
  ⟨"REFIT_WINDOW", E.REFIT_WINDOW, 1, 16, .u32, .rw, (.rng 100 39321), false⟩,
  ⟨"RP_LATCHES", E.RP_LATCHES, 1, 17, .u16, .w1c, .any, false⟩]

/-- Rows of the dictionary, part 6. -/
def dictRows6 : List Row := [
  ⟨"CLASS_STATE", E.CLASS_STATE, 256, 1, .u8, .ro, .any, false⟩,
  ⟨"CLASS_NODES", E.CLASS_NODES, 256, 2, .u8, .ro, .any, false⟩,
  ⟨"CLASS_INPUTS", E.CLASS_INPUTS, 256, 3, .u8, .ro, .any, false⟩,
  ⟨"CLASS_GUESTS", E.CLASS_GUESTS, 256, 4, .u32, .ro, .any, false⟩,
  ⟨"CLASS_REGION", E.CLASS_REGION, 256, 5, .u8, .ro, .any, false⟩,
  ⟨"CLASS_WIDEN", E.CLASS_WIDEN, 256, 6, .u16, .ro, .any, false⟩,
  ⟨"CLASS_MISSES", E.CLASS_MISSES, 256, 7, .u64, .ro, .any, false⟩,
  ⟨"CLASS_MISSES_TURN", E.CLASS_MISSES_TURN, 256, 8, .u32, .ro, .any, false⟩,
  ⟨"CLASS_DEMAND_INPUT", E.CLASS_DEMAND_INPUT, 256, 9, .u8, .ro, .any, false⟩,
  ⟨"CLASS_CAP_MEAN", E.CLASS_CAP_MEAN, 256, 10, .u16, .ro, .any, false⟩,
  ⟨"CLASS_COMPARED_TURN", E.CLASS_COMPARED_TURN, 256, 11, .u64, .ro, .any, false⟩,
  ⟨"PD_SOURCE", E.PD_SOURCE, 16, 1, .u8, .rw, (.rng 0 3), false⟩,
  ⟨"PD_SELECT", E.PD_SELECT, 16, 2, .u8, .rw, .any, false⟩,
  ⟨"PD_MIN", E.PD_MIN, 16, 3, .u32, .rw, (.rng 4 65535), false⟩,
  ⟨"PD_MAX", E.PD_MAX, 16, 4, .u32, .rw, (.rng 4 65535), false⟩,
  ⟨"PD_PERIOD", E.PD_PERIOD, 16, 5, .u32, .ro, .any, false⟩,
  ⟨"PD_STRENGTH", E.PD_STRENGTH, 16, 6, .u16, .ro, .any, false⟩,
  ⟨"LEAK_SUSPECTS", E.LEAK_SUSPECTS, 1, 1, .u64, .ro, .any, false⟩,
  ⟨"LEAK_FIRST_BRANCH", E.LEAK_FIRST_BRANCH, 1, 2, .u8, .ro, .any, false⟩,
  ⟨"LEAK_IMBALANCE", E.LEAK_IMBALANCE, 1, 3, .u16, .rw, (.rng 1 6400), false⟩,
  ⟨"LEAK_PERSIST", E.LEAK_PERSIST, 1, 4, .u16, .rw, (.rng 1 10000), false⟩,
  ⟨"BRANCH_IMBALANCE", E.BRANCH_IMBALANCE, 1, 40, .brk16, .ro, .any, false⟩,
  ⟨"STEPS_NO_MEAS", E.STEPS_NO_MEAS, 1, 1, .u64, .ro, .any, false⟩,
  ⟨"GUESTS_CATCHUP", E.GUESTS_CATCHUP, 1, 2, .u64, .ro, .any, false⟩,
  ⟨"GUEST_RESTARTS", E.GUEST_RESTARTS, 1, 3, .u64, .ro, .any, false⟩,
  ⟨"ENCLOSURE_MISSES", E.ENCLOSURE_MISSES, 1, 4, .u64, .ro, .any, false⟩,
  ⟨"ALLOC_PERIODS", E.ALLOC_PERIODS, 1, 5, .u64, .ro, .any, false⟩,
  ⟨"ALLOC_INFEASIBLE_COUNT", E.ALLOC_INFEASIBLE_COUNT, 1, 6, .u64, .ro, .any, false⟩,
  ⟨"ALLOC_BUDGET_BOUND", E.ALLOC_BUDGET_BOUND, 1, 7, .u64, .ro, .any, false⟩,
  ⟨"ALLOC_ABANDONED", E.ALLOC_ABANDONED, 1, 8, .u64, .ro, .any, false⟩,
  ⟨"LOOP_MODE", E.LOOP_MODE, 256, 1, .u8, .rw, (.rng 0 3), false⟩,
  ⟨"LOOP_MODE_ACTIVE", E.LOOP_MODE_ACTIVE, 256, 2, .u8, .ro, .any, false⟩,
  ⟨"LOOP_PERIOD", E.LOOP_PERIOD, 256, 3, .u16, .rws, (.rng 1 1000), false⟩,
  ⟨"LOOP_PHASE", E.LOOP_PHASE, 256, 4, .u16, .rws, .any, false⟩,
  ⟨"LOOP_CONFIG", E.LOOP_CONFIG, 256, 5, .u16, .rws, .any, false⟩,
  ⟨"MEAS_BIND", E.MEAS_BIND, 256, 6, .u64, .rws, .any, false⟩,
  ⟨"MEAS_SCALE", E.MEAS_SCALE, 256, 7, .f32, .rws, .f32, false⟩,
  ⟨"MEAS_OFFSET", E.MEAS_OFFSET, 256, 8, .f32, .rws, .f32, false⟩,
  ⟨"SP_BIND", E.SP_BIND, 256, 9, .u64, .rws, .any, false⟩,
  ⟨"SETPOINT", E.SETPOINT, 256, 10, .f32, .rw, .f32, false⟩,
  ⟨"SP_RATE", E.SP_RATE, 256, 11, .f32, .rw, (.f32rng 0x358637BD 0x4E6E6B28), false⟩,
  ⟨"HYST", E.HYST, 256, 12, .f32, .rw, .f32min0, false⟩,
  ⟨"SWING", E.SWING, 256, 13, .f32, .rw, .f32min0, false⟩,
  ⟨"KI", E.KI, 256, 14, .f32, .rw, .f32min0, false⟩,
  ⟨"UMIN", E.UMIN, 256, 15, .f32, .rw, .f32, false⟩,
  ⟨"UMAX", E.UMAX, 256, 16, .f32, .rw, .f32, false⟩,
  ⟨"REST_VALUE", E.REST_VALUE, 256, 17, .f32, .rw, .f32, false⟩,
  ⟨"MANUAL_VALUE", E.MANUAL_VALUE, 256, 18, .f32, .rw, .f32, false⟩,
  ⟨"FF_BIND", E.FF_BIND, 256, 19, .u64, .rws, .any, false⟩,
  ⟨"FF_GAIN", E.FF_GAIN, 256, 20, .f32, .rw, .f32, false⟩]

/-- Rows of the dictionary, part 7. -/
def dictRows7 : List Row := [
  ⟨"FOLLOW_BIND", E.FOLLOW_BIND, 256, 21, .u64, .rws, .any, false⟩,
  ⟨"FOLLOW_GAIN", E.FOLLOW_GAIN, 256, 22, .f32, .rw, .f32, false⟩,
  ⟨"FOLLOW_OFFSET", E.FOLLOW_OFFSET, 256, 23, .f32, .rw, .f32, false⟩,
  ⟨"OUT_BIND", E.OUT_BIND, 256, 24, .u64, .rws, .any, false⟩,
  ⟨"OUT_SCALE", E.OUT_SCALE, 256, 25, .f32, .rws, .f32, false⟩,
  ⟨"PHASE_SOURCE", E.PHASE_SOURCE, 256, 26, .u8, .rw, (.rngOr 0 15 255), false⟩,
  ⟨"TABLE_GAIN", E.TABLE_GAIN, 256, 27, .f32, .rw, .f32min0, false⟩,
  ⟨"TABLE_FORGET", E.TABLE_FORGET, 256, 28, .f32, .rw, (.f32rng 0 0x3F800000), false⟩,
  ⟨"FOLLOW_ERR_LIMIT", E.FOLLOW_ERR_LIMIT, 256, 29, .f32, .rw, .f32min0, false⟩,
  ⟨"FOLLOW_ERR_TIME", E.FOLLOW_ERR_TIME, 256, 30, .u32, .rw, (.rng 1 1000000), false⟩,
  ⟨"FB_MAX_AGE", E.FB_MAX_AGE, 256, 31, .u16, .rw, (.rng 1 1000), false⟩,
  ⟨"FREEZE_COUNT", E.FREEZE_COUNT, 256, 32, .u16, .rw, (.rng 0 1000), false⟩,
  ⟨"FREEZE_MOVE", E.FREEZE_MOVE, 256, 33, .f32, .rw, .f32pos, false⟩,
  ⟨"FREEZE_HOLD", E.FREEZE_HOLD, 256, 34, .u32, .rw, (.rng 1 1000000), false⟩,
  ⟨"HANDOVER_TICKS", E.HANDOVER_TICKS, 256, 35, .u32, .rw, (.rng 0 1000000), false⟩,
  ⟨"JUMP_LIMIT", E.JUMP_LIMIT, 256, 36, .f32, .rw, .f32min0, false⟩,
  ⟨"MISS_LIMIT", E.MISS_LIMIT, 256, 37, .u8, .rw, (.rng 1 64), false⟩,
  ⟨"LOOP_CMD", E.LOOP_CMD, 256, 38, .u8, .wo, .any, false⟩,
  ⟨"LOOP_STATUS", E.LOOP_STATUS, 256, 39, .u16, .ro, .any, false⟩,
  ⟨"LOOP_LATCHES", E.LOOP_LATCHES, 256, 40, .u16, .w1c, .any, false⟩,
  ⟨"LOOP_FAULT_CAUSE", E.LOOP_FAULT_CAUSE, 256, 41, .u8, .ro, .any, false⟩,
  ⟨"LOOP_OUTPUT", E.LOOP_OUTPUT, 256, 42, .f32, .ro, .any, false⟩,
  ⟨"LOOP_MEAS", E.LOOP_MEAS, 256, 43, .f32, .ro, .any, false⟩,
  ⟨"LOOP_SP_INTERNAL", E.LOOP_SP_INTERNAL, 256, 44, .f32, .ro, .any, false⟩,
  ⟨"LOOP_ERROR", E.LOOP_ERROR, 256, 45, .f32, .ro, .any, false⟩,
  ⟨"LOOP_TRIM", E.LOOP_TRIM, 256, 46, .f32, .ro, .any, false⟩,
  ⟨"LOOP_MISSES", E.LOOP_MISSES, 256, 47, .u8, .ro, .any, false⟩,
  ⟨"LOOP_MOVED_TO", E.LOOP_MOVED_TO, 256, 48, .u8, .ro, .any, false⟩,
  ⟨"LOOP_RUNS", E.LOOP_RUNS, 256, 49, .u64, .ro, .any, false⟩,
  ⟨"LOOP_MISSES_TOTAL", E.LOOP_MISSES_TOTAL, 256, 50, .u64, .ro, .any, false⟩,
  ⟨"LOOP_FAULTS", E.LOOP_FAULTS, 256, 51, .u64, .ro, .any, false⟩,
  ⟨"BOOST_V", E.BOOST_V, 1, 1, .u8, .rw, (.rng 30 72), false⟩,
  ⟨"BOOST_RAIL_V", E.BOOST_RAIL_V, 1, 2, .u16, .ro, .any, false⟩,
  ⟨"VALVE_LATCHES", E.VALVE_LATCHES, 1, 3, .u16, .w1c, .any, false⟩,
  ⟨"VALVE_FAULTS", E.VALVE_FAULTS, 1, 4, .u64, .ro, .any, false⟩,
  ⟨"VALVE_TAKEOVERS", E.VALVE_TAKEOVERS, 1, 5, .u64, .ro, .any, false⟩,
  ⟨"VALVE_CMD", E.VALVE_CMD, 56, 1, .u8, .wo, .any, false⟩,
  ⟨"VALVE_OWNER", E.VALVE_OWNER, 56, 2, .u8, .ro, .any, false⟩,
  ⟨"VALVE_DEMAND", E.VALVE_DEMAND, 56, 3, .u8, .ro, .any, false⟩,
  ⟨"VALVE_CONFIG", E.VALVE_CONFIG, 56, 4, .u16, .rws, .any, false⟩,
  ⟨"PEAK_A", E.PEAK_A, 56, 5, .u16, .rws, (.rng 500 24000), false⟩,
  ⟨"HOLD_A", E.HOLD_A, 56, 6, .u16, .rws, (.rng 200 3000), false⟩,
  ⟨"BOOST_MAX_US", E.BOOST_MAX_US, 56, 7, .u16, .rws, (.rng 100 5000), false⟩,
  ⟨"PEAK_US", E.PEAK_US, 56, 8, .u32, .rws, (.rng 100 100000), false⟩,
  ⟨"SEAT_WINDOW_MS", E.SEAT_WINDOW_MS, 56, 9, .u8, .rw, (.rng 1 100), false⟩,
  ⟨"SEAT_KINK", E.SEAT_KINK, 56, 10, .u16, .rw, (.rng 1 10000), false⟩,
  ⟨"VALVE_REST", E.VALVE_REST, 56, 11, .u8, .rw, (.rng 0 1), false⟩,
  ⟨"VALVE_PHASE", E.VALVE_PHASE, 56, 12, .u8, .ro, .any, false⟩,
  ⟨"VALVE_CURRENT", E.VALVE_CURRENT, 56, 13, .u16, .ro, .any, false⟩,
  ⟨"VALVE_OUTPUT", E.VALVE_OUTPUT, 56, 14, .u8, .ro, .any, false⟩]

/-- Rows of the dictionary, part 8. -/
def dictRows8 : List Row := [
  ⟨"VALVE_MOVED_TO", E.VALVE_MOVED_TO, 56, 15, .u8, .ro, .any, false⟩,
  ⟨"SEAT_RESULT", E.SEAT_RESULT, 56, 16, .u8, .ro, .any, false⟩,
  ⟨"SEAT_EVENT", E.SEAT_EVENT, 56, 17, .u8, .ro, .any, false⟩,
  ⟨"SEAT_TICK", E.SEAT_TICK, 56, 18, .tick, .ro, .any, false⟩,
  ⟨"SEAT_DELAY", E.SEAT_DELAY, 56, 19, .u32, .ro, .any, false⟩,
  ⟨"VALVE_STATUS", E.VALVE_STATUS, 56, 20, .u16, .ro, .any, false⟩,
  ⟨"VALVE_FAULT", E.VALVE_FAULT, 56, 21, .u16, .ro, .any, false⟩,
  ⟨"ENERGISE_COUNT", E.ENERGISE_COUNT, 56, 22, .u64, .ro, .any, false⟩,
  ⟨"BOOST_WAITS", E.BOOST_WAITS, 56, 23, .u64, .ro, .any, false⟩,
  ⟨"BANK_RAIL", E.BANK_RAIL, 14, 1, .u8, .ro, .any, false⟩,
  ⟨"BANK_BUDGET_USED", E.BANK_BUDGET_USED, 14, 2, .u16, .ro, .any, false⟩,
  ⟨"BANK_QUEUE", E.BANK_QUEUE, 14, 3, .u8, .ro, .any, false⟩,
  ⟨"BANK_WAIT_MAX", E.BANK_WAIT_MAX, 14, 4, .u32, .ro, .any, false⟩,
  ⟨"BANK_CURRENT", E.BANK_CURRENT, 14, 5, .u16, .ro, .any, false⟩,
  ⟨"FAN_TARGET", E.FAN_TARGET, 28, 1, .u16, .rw, .any, false⟩,
  ⟨"FAN_OWNER", E.FAN_OWNER, 28, 2, .u8, .ro, .any, false⟩,
  ⟨"FAN_GROUP", E.FAN_GROUP, 28, 3, .u8, .rws, (.rng 0 8), false⟩,
  ⟨"FAN_PPR", E.FAN_PPR, 28, 4, .u8, .rws, (.rng 1 8), false⟩,
  ⟨"FAN_VMAX", E.FAN_VMAX, 28, 5, .u16, .rws, (.rng 6000 54000), true⟩,
  ⟨"FAN_RPM_MAX", E.FAN_RPM_MAX, 28, 6, .u16, .rws, (.rng 100 30000), false⟩,
  ⟨"FAN_RPM_MIN", E.FAN_RPM_MIN, 28, 7, .u16, .rws, (.rng 50 30000), false⟩,
  ⟨"FAN_KP", E.FAN_KP, 28, 8, .f32, .rw, .f32min0, false⟩,
  ⟨"FAN_KI", E.FAN_KI, 28, 9, .f32, .rw, .f32min0, false⟩,
  ⟨"FAN_RAMP", E.FAN_RAMP, 28, 10, .u16, .rw, (.rng 1 30000), false⟩,
  ⟨"FAN_VSLEW", E.FAN_VSLEW, 28, 11, .u16, .rw, (.rng 50 54000), false⟩,
  ⟨"FAN_VSLEW_MAX", E.FAN_VSLEW_MAX, 28, 12, .u16, .rw, (.rng 0 65535), false⟩,
  ⟨"FAN_START_V", E.FAN_START_V, 28, 13, .u16, .rw, (.rng 1000 54000), false⟩,
  ⟨"FAN_START_MS", E.FAN_START_MS, 28, 14, .u16, .rw, (.rng 100 30000), false⟩,
  ⟨"FAN_KICKS", E.FAN_KICKS, 28, 15, .u8, .rw, (.rng 0 8), false⟩,
  ⟨"FAN_KICK_V", E.FAN_KICK_V, 28, 16, .u16, .rw, .any, false⟩,
  ⟨"FAN_KICK_MS", E.FAN_KICK_MS, 28, 17, .u16, .rw, (.rng 100 10000), false⟩,
  ⟨"FAN_STALL_RETRY", E.FAN_STALL_RETRY, 28, 18, .u16, .rw, .any, false⟩,
  ⟨"FAN_STALL_I", E.FAN_STALL_I, 28, 19, .u16, .rw, (.rng 100 3500), false⟩,
  ⟨"FAN_TACH_TIMEOUT", E.FAN_TACH_TIMEOUT, 28, 20, .u16, .rw, (.rng 10 10000), false⟩,
  ⟨"FAN_TACH_MARGIN", E.FAN_TACH_MARGIN, 28, 21, .u16, .rw, (.rng 0 54000), false⟩,
  ⟨"FAN_RAISE_RPM", E.FAN_RAISE_RPM, 28, 22, .u16, .rw, .any, false⟩,
  ⟨"FAN_BAND_0", E.FAN_BAND_0, 28, 23, .u32, .rw, .any, false⟩,
  ⟨"FAN_BAND_1", E.FAN_BAND_1, 28, 24, .u32, .rw, .any, false⟩,
  ⟨"FAN_BAND_2", E.FAN_BAND_2, 28, 25, .u32, .rw, .any, false⟩,
  ⟨"FAN_BAND_3", E.FAN_BAND_3, 28, 26, .u32, .rw, .any, false⟩,
  ⟨"FAN_CMD", E.FAN_CMD, 28, 27, .u8, .wo, .any, false⟩,
  ⟨"FAN_STATE", E.FAN_STATE, 28, 28, .u8, .ro, .any, false⟩,
  ⟨"FAN_TARGET_ACTIVE", E.FAN_TARGET_ACTIVE, 28, 29, .u16, .ro, .any, false⟩,
  ⟨"FAN_SPEED", E.FAN_SPEED, 28, 30, .u16, .ro, .any, false⟩,
  ⟨"FAN_VOLTAGE", E.FAN_VOLTAGE, 28, 31, .u16, .ro, .any, false⟩,
  ⟨"FAN_CURRENT", E.FAN_CURRENT, 28, 32, .u16, .ro, .any, false⟩,
  ⟨"FAN_STATUS", E.FAN_STATUS, 28, 33, .u16, .ro, .any, false⟩,
  ⟨"FAN_FAULT", E.FAN_FAULT, 28, 34, .u16, .ro, .any, false⟩,
  ⟨"FAN_OUTPUT", E.FAN_OUTPUT, 28, 35, .u8, .ro, .any, false⟩,
  ⟨"FAN_MOVED_TO", E.FAN_MOVED_TO, 28, 36, .u8, .ro, .any, false⟩]

/-- Rows of the dictionary, part 9. -/
def dictRows9 : List Row := [
  ⟨"FAN_STARTS", E.FAN_STARTS, 28, 37, .u64, .ro, .any, false⟩,
  ⟨"FAN_KICKS_TOTAL", E.FAN_KICKS_TOTAL, 28, 38, .u64, .ro, .any, false⟩,
  ⟨"FAN_WATCHDOG_S", E.FAN_WATCHDOG_S, 1, 1, .u16, .rw, (.rng 1 3600), false⟩,
  ⟨"FAN_STAGGER_MS", E.FAN_STAGGER_MS, 1, 2, .u16, .rw, (.rng 0 10000), false⟩,
  ⟨"FAN_START_GAP_MS", E.FAN_START_GAP_MS, 1, 3, .u16, .rw, (.rng 0 10000), true⟩,
  ⟨"HOST_SILENT_MS", E.HOST_SILENT_MS, 1, 4, .u32, .ro, .any, false⟩,
  ⟨"FAN_LATCHES", E.FAN_LATCHES, 1, 5, .u16, .w1c, .any, false⟩,
  ⟨"FAN_FAULTS", E.FAN_FAULTS, 1, 6, .u64, .ro, .any, false⟩,
  ⟨"FAN_TAKEOVERS", E.FAN_TAKEOVERS, 1, 7, .u64, .ro, .any, false⟩,
  ⟨"IFAN_ROLE", E.IFAN_ROLE, 6, 1, .u8, .ro, .any, false⟩,
  ⟨"IFAN_STATE", E.IFAN_STATE, 6, 2, .u8, .ro, .any, false⟩,
  ⟨"IFAN_TARGET_ACTIVE", E.IFAN_TARGET_ACTIVE, 6, 3, .u16, .ro, .any, false⟩,
  ⟨"IFAN_SPEED", E.IFAN_SPEED, 6, 4, .u16, .ro, .any, false⟩,
  ⟨"IFAN_CURRENT", E.IFAN_CURRENT, 6, 5, .u16, .ro, .any, false⟩,
  ⟨"IFAN_FAULT", E.IFAN_FAULT, 6, 6, .u16, .ro, .any, false⟩,
  ⟨"FB_MODE", E.FB_MODE, 8, 1, .u8, .rw, (.rng 0 2), false⟩,
  ⟨"FB_NOMINAL", E.FB_NOMINAL, 8, 2, .u32, .rws, .btNominal, false⟩,
  ⟨"FB_DATA", E.FB_DATA, 8, 3, .u32, .rws, .btData, false⟩,
  ⟨"FB_TDC_OFFSET", E.FB_TDC_OFFSET, 8, 4, .u8, .rws, (.rng 0 127), false⟩,
  ⟨"FB_TERM", E.FB_TERM, 8, 5, .u8, .rw, (.rng 0 1), false⟩,
  ⟨"FB_STATE", E.FB_STATE, 8, 6, .u8, .ro, .any, false⟩,
  ⟨"FB_TEC", E.FB_TEC, 8, 7, .u16, .ro, .any, false⟩,
  ⟨"FB_REC", E.FB_REC, 8, 8, .u16, .ro, .any, false⟩,
  ⟨"FB_UNACKED", E.FB_UNACKED, 8, 9, .u8, .ro, .any, false⟩,
  ⟨"FB_BUS_LOAD", E.FB_BUS_LOAD, 8, 10, .u16, .ro, .any, false⟩,
  ⟨"FB_LOAD_HI", E.FB_LOAD_HI, 8, 11, .u16, .rw, (.rng 100 1000), false⟩,
  ⟨"FB_LOAD_LO", E.FB_LOAD_LO, 8, 12, .u16, .rw, .any, false⟩,
  ⟨"FB_WAIT_HI", E.FB_WAIT_HI, 8, 13, .u16, .rw, (.rng 1 1000), false⟩,
  ⟨"FB_SUPPRESS_HOLD", E.FB_SUPPRESS_HOLD, 8, 14, .u16, .rw, (.rng 1 65535), false⟩,
  ⟨"FB_CMD", E.FB_CMD, 8, 15, .u8, .wo, .any, false⟩,
  ⟨"FB_LATCHES", E.FB_LATCHES, 8, 16, .u16, .w1c, .any, false⟩,
  ⟨"FB_RX_FRAMES", E.FB_RX_FRAMES, 8, 17, .u64, .ro, .any, false⟩,
  ⟨"FB_TX_FRAMES", E.FB_TX_FRAMES, 8, 18, .u64, .ro, .any, false⟩,
  ⟨"FB_ERR_BIT", E.FB_ERR_BIT, 8, 19, .u64, .ro, .any, false⟩,
  ⟨"FB_ERR_STUFF", E.FB_ERR_STUFF, 8, 20, .u64, .ro, .any, false⟩,
  ⟨"FB_ERR_FORM", E.FB_ERR_FORM, 8, 21, .u64, .ro, .any, false⟩,
  ⟨"FB_ERR_CRC", E.FB_ERR_CRC, 8, 22, .u64, .ro, .any, false⟩,
  ⟨"FB_ERR_ACK", E.FB_ERR_ACK, 8, 23, .u64, .ro, .any, false⟩,
  ⟨"FB_RX_UNMATCHED", E.FB_RX_UNMATCHED, 8, 24, .u64, .ro, .any, false⟩,
  ⟨"FB_RX_OVERWRITES", E.FB_RX_OVERWRITES, 8, 25, .u64, .ro, .any, false⟩,
  ⟨"FB_TX_SUPPRESSED", E.FB_TX_SUPPRESSED, 8, 26, .u64, .ro, .any, false⟩,
  ⟨"FB_TX_LATE", E.FB_TX_LATE, 8, 27, .u64, .ro, .any, false⟩,
  ⟨"FB_BUS_OFFS", E.FB_BUS_OFFS, 8, 28, .u64, .ro, .any, false⟩,
  ⟨"FB_ALONE_EVENTS", E.FB_ALONE_EVENTS, 8, 29, .u64, .ro, .any, false⟩,
  ⟨"RX_CONFIG", E.RX_CONFIG, 8, 255, .u64, .rw, .rxCfg, false⟩,
  ⟨"RX_STATUS", E.RX_STATUS, 8, 255, .u8, .w1c, .any, false⟩,
  ⟨"RX_RECORD", E.RX_RECORD, 8, 255, (.oct 84), .ro, .any, false⟩,
  ⟨"TX_CONFIG", E.TX_CONFIG, 8, 63, .u64, .rw, .txCfg, false⟩,
  ⟨"TX_TIMING", E.TX_TIMING, 8, 63, .u32, .rw, .txTiming, false⟩,
  ⟨"TX_DATA", E.TX_DATA, 8, 63, (.oct 64), .rw, .any, false⟩]

/-- Rows of the dictionary, part 10. -/
def dictRows10 : List Row := [
  ⟨"TX_STATUS", E.TX_STATUS, 8, 63, .u8, .ro, .any, false⟩,
  ⟨"AIN_MODE", E.AIN_MODE, 80, 1, .u8, .rw, (.rng 0 3), false⟩,
  ⟨"AIN_LO", E.AIN_LO, 80, 2, .f32, .rws, .f32, false⟩,
  ⟨"AIN_HI", E.AIN_HI, 80, 3, .f32, .rws, .f32, false⟩,
  ⟨"AIN_UNCERT", E.AIN_UNCERT, 80, 4, .f32, .rw, .f32min0, false⟩,
  ⟨"AIN_FILTER", E.AIN_FILTER, 80, 5, .u16, .rw, (.rng 0 10000), false⟩,
  ⟨"AIN_VALUE", E.AIN_VALUE, 80, 6, .f32, .ro, .any, false⟩,
  ⟨"AIN_RAW", E.AIN_RAW, 80, 7, .i32, .ro, .any, false⟩,
  ⟨"AIN_TICK", E.AIN_TICK, 80, 8, .tick, .ro, .any, false⟩,
  ⟨"AIN_STATUS", E.AIN_STATUS, 80, 9, .u8, .ro, .any, false⟩,
  ⟨"AIN_TERMINAL", E.AIN_TERMINAL, 80, 10, .u8, .ro, .any, false⟩,
  ⟨"AIN_MOVED_TO", E.AIN_MOVED_TO, 80, 11, .u8, .ro, .any, false⟩,
  ⟨"ROPE_ENABLE", E.ROPE_ENABLE, 16, 1, .u8, .rw, (.rng 0 1), false⟩,
  ⟨"ROPE_WET_KOHM", E.ROPE_WET_KOHM, 16, 2, .u16, .rw, (.rng 1 10000), false⟩,
  ⟨"ROPE_PERSIST", E.ROPE_PERSIST, 16, 3, .u8, .rw, (.rng 1 64), false⟩,
  ⟨"ROPE_BRANCHES", E.ROPE_BRANCHES, 16, 4, .u64, .rw, .any, false⟩,
  ⟨"ROPE_KOHM", E.ROPE_KOHM, 16, 5, .u32, .ro, .any, false⟩,
  ⟨"ROPE_STATE", E.ROPE_STATE, 16, 6, .u8, .ro, .any, false⟩,
  ⟨"ANGLE_MODE", E.ANGLE_MODE, 8, 1, .u8, .rw, (.rng 0 2), false⟩,
  ⟨"ANGLE_CPR", E.ANGLE_CPR, 8, 2, .u32, .rw, (.rng 1 4294967295), false⟩,
  ⟨"ANGLE_COUNT", E.ANGLE_COUNT, 8, 3, .u32, .ro, .any, false⟩,
  ⟨"ANGLE_SPEED", E.ANGLE_SPEED, 8, 4, .f32, .ro, .any, false⟩,
  ⟨"ANGLE_FAULT_NOW", E.ANGLE_FAULT_NOW, 8, 5, .u8, .ro, .any, false⟩,
  ⟨"MAINS_VRMS_L1", E.MAINS_VRMS_L1, 1, 1, .f32, .ro, .any, false⟩,
  ⟨"MAINS_VRMS_L2", E.MAINS_VRMS_L2, 1, 2, .f32, .ro, .any, false⟩,
  ⟨"MAINS_VRMS_L3", E.MAINS_VRMS_L3, 1, 3, .f32, .ro, .any, false⟩,
  ⟨"MAINS_ROTATION", E.MAINS_ROTATION, 1, 4, .u8, .ro, .any, false⟩,
  ⟨"SFE_LATCHES", E.SFE_LATCHES, 1, 1, .u16, .w1c, .any, false⟩,
  ⟨"COOLANT_RHO", E.COOLANT_RHO, 1, 1, .u16, .rw, (.rng 500 2000), false⟩,
  ⟨"COOLANT_CP", E.COOLANT_CP, 1, 2, .u16, .rw, (.rng 1000 5000), false⟩,
  ⟨"PLANT_MARGIN", E.PLANT_MARGIN, 1, 3, .u8, .rw, (.rng 50 100), false⟩,
  ⟨"PLANT_CAPACITY", E.PLANT_CAPACITY, 1, 4, .u32, .ro, .any, false⟩,
  ⟨"BUDGET_SLEW", E.BUDGET_SLEW, 1, 5, .u32, .rw, (.rng 1 16000), false⟩,
  ⟨"FLOW_LOW_PCT", E.FLOW_LOW_PCT, 1, 6, .u8, .rw, (.rng 1 100), false⟩,
  ⟨"FLOW_STOP_PCT", E.FLOW_STOP_PCT, 1, 7, .u8, .rw, (.rng 1 100), false⟩,
  ⟨"FLOW_STOP_TICKS", E.FLOW_STOP_TICKS, 1, 8, .u16, .rw, (.rng 1 10000), false⟩,
  ⟨"FLOW_RECOVER_PCT", E.FLOW_RECOVER_PCT, 1, 9, .u8, .rw, (.rng 1 100), false⟩,
  ⟨"FLOW_RECOVER_TICKS", E.FLOW_RECOVER_TICKS, 1, 10, .u16, .rw, (.rng 1 65535), false⟩,
  ⟨"FLOW_TREND_TICKS", E.FLOW_TREND_TICKS, 1, 11, .u16, .rw, (.rng 10 65535), false⟩,
  ⟨"FLOW_TREND_HORIZON", E.FLOW_TREND_HORIZON, 1, 12, .u32, .rw, (.rng 1 1000000), false⟩,
  ⟨"TREND_RETURN_MARGIN", E.TREND_RETURN_MARGIN, 1, 13, .u16, .rw, (.rng 1 1024), false⟩,
  ⟨"COAST_CAP", E.COAST_CAP, 1, 14, .u16, .rw, .any, false⟩,
  ⟨"PLANT_CUT_HOLD", E.PLANT_CUT_HOLD, 1, 15, .u8, .rw, (.rng 4 255), false⟩,
  ⟨"PLANT_CUT_SLEW", E.PLANT_CUT_SLEW, 1, 16, .u8, .rw, .any, false⟩,
  ⟨"PLANT_LIFT_GAP", E.PLANT_LIFT_GAP, 1, 17, .u16, .rw, (.rng 1 65535), false⟩,
  ⟨"LEAK_SUSPECT_ACT", E.LEAK_SUSPECT_ACT, 1, 18, .u8, .rw, (.rng 0 1), false⟩,
  ⟨"LEAK_CLOSE_MAX", E.LEAK_CLOSE_MAX, 1, 19, .u32, .rw, (.rng 1 1000000), false⟩,
  ⟨"PLANT_LATCHES", E.PLANT_LATCHES, 1, 20, .u16, .w1c, .any, false⟩,
  ⟨"BR_ENABLE", E.BR_ENABLE, 40, 1, .u8, .rw, (.rng 0 1), false⟩,
  ⟨"BR_SUPPLY_T", E.BR_SUPPLY_T, 40, 2, .u64, .rws, .any, false⟩]

/-- Rows of the dictionary, part 11. -/
def dictRows11 : List Row := [
  ⟨"BR_RETURN_T", E.BR_RETURN_T, 40, 3, .u64, .rws, .any, false⟩,
  ⟨"BR_SUPPLY_FLOW", E.BR_SUPPLY_FLOW, 40, 4, .u64, .rws, .any, false⟩,
  ⟨"BR_RETURN_FLOW", E.BR_RETURN_FLOW, 40, 5, .u64, .rws, .any, false⟩,
  ⟨"BR_FLOW_SET", E.BR_FLOW_SET, 40, 6, .u16, .rw, .any, false⟩,
  ⟨"BR_RETURN_LIMIT", E.BR_RETURN_LIMIT, 40, 7, .i16, .rw, .any, false⟩,
  ⟨"BR_PUMP_SET", E.BR_PUMP_SET, 40, 8, .u8, .rw, (.rngOr 0 7 255), false⟩,
  ⟨"BR_ISO_VALVE", E.BR_ISO_VALVE, 40, 9, .u8, .rws, (.rngOr 0 47 255), false⟩,
  ⟨"BR_ISO_CLOSE", E.BR_ISO_CLOSE, 40, 10, .u8, .rws, (.rng 0 1), false⟩,
  ⟨"BR_SAFE_KW", E.BR_SAFE_KW, 40, 11, .u16, .rw, .any, false⟩,
  ⟨"BR_STATE", E.BR_STATE, 40, 12, .u8, .ro, .any, false⟩,
  ⟨"BR_CMD", E.BR_CMD, 40, 13, .u8, .wo, .any, false⟩,
  ⟨"BR_FLOW", E.BR_FLOW, 40, 14, .brk16, .ro, .any, false⟩,
  ⟨"BR_HEAT", E.BR_HEAT, 40, 15, .u16, .ro, .any, false⟩,
  ⟨"HX_ENABLE", E.HX_ENABLE, 16, 1, .u8, .rw, (.rng 0 1), false⟩,
  ⟨"HX_RATED_KW", E.HX_RATED_KW, 16, 2, .u16, .rw, .any, false⟩,
  ⟨"HX_PRIMARY_T", E.HX_PRIMARY_T, 16, 3, .u64, .rw, .any, false⟩,
  ⟨"HX_PRIMARY_MAX", E.HX_PRIMARY_MAX, 16, 4, .i16, .rw, .any, false⟩,
  ⟨"HX_STATE", E.HX_STATE, 16, 5, .u8, .ro, .any, false⟩,
  ⟨"HX_FANS", E.HX_FANS, 16, 6, .u32, .rw, .any, false⟩,
  ⟨"PS_ENABLE", E.PS_ENABLE, 8, 1, .u8, .rw, (.rng 0 1), false⟩,
  ⟨"PS_PUMPS", E.PS_PUMPS, 8, 2, .u8, .rws, (.rng 1 3), false⟩,
  ⟨"PS_RUN_COUNT", E.PS_RUN_COUNT, 8, 3, .u8, .rws, (.rng 1 3), false⟩,
  ⟨"PS_ENGINE", E.PS_ENGINE, 8, 4, .u16, .rws, (.rngOr 0 255 65535), false⟩,
  ⟨"PS_ROTATE_TURNS", E.PS_ROTATE_TURNS, 8, 5, .u32, .rw, .any, false⟩,
  ⟨"PS_START_GAP_MS", E.PS_START_GAP_MS, 8, 6, .u16, .rw, .any, false⟩,
  ⟨"PS_START_MS", E.PS_START_MS, 8, 7, .u16, .rw, (.rng 100 60000), false⟩,
  ⟨"PS_START_SPEED", E.PS_START_SPEED, 8, 8, .u16, .rw, .any, false⟩,
  ⟨"PS_TREND_FLOOR", E.PS_TREND_FLOOR, 8, 9, .u16, .rw, .any, false⟩,
  ⟨"PS_LEAD", E.PS_LEAD, 8, 10, .u8, .ro, .any, false⟩,
  ⟨"PS_CMD", E.PS_CMD, 8, 11, .u8, .wo, .any, false⟩,
  ⟨"PUMP_PORT", E.PUMP_PORT, 24, 1, .u8, .rws, (.rng 0 7), false⟩,
  ⟨"PUMP_RX", E.PUMP_RX, 24, 2, .u8, .rws, .any, false⟩,
  ⟨"PUMP_TX", E.PUMP_TX, 24, 3, .u8, .rws, (.rng 0 63), false⟩,
  ⟨"PUMP_RUN_CMD_BIT", E.PUMP_RUN_CMD_BIT, 24, 4, .u16, .rws, (.rng 0 511), false⟩,
  ⟨"PUMP_RUN_STAT_BIT", E.PUMP_RUN_STAT_BIT, 24, 5, .u16, .rws, (.rng 0 511), false⟩,
  ⟨"PUMP_FAULT_STAT_BIT", E.PUMP_FAULT_STAT_BIT, 24, 6, .u16, .rws, (.rng 0 511), false⟩,
  ⟨"PUMP_ROLE", E.PUMP_ROLE, 24, 7, .u8, .ro, .any, false⟩,
  ⟨"PUMP_RUN_TURNS", E.PUMP_RUN_TURNS, 24, 8, .u64, .ro, .any, false⟩,
  ⟨"PUMP_TRIPS", E.PUMP_TRIPS, 24, 9, .u64, .ro, .any, false⟩,
  ⟨"COOL_INLET_T", E.COOL_INLET_T, 1, 1, .i16, .ro, .any, false⟩,
  ⟨"COOL_OUTLET_T", E.COOL_OUTLET_T, 1, 2, .i16, .ro, .any, false⟩,
  ⟨"COOL_DIE_T", E.COOL_DIE_T, 1, 3, .i16, .ro, .any, false⟩,
  ⟨"COOL_BOARD_T", E.COOL_BOARD_T, 1, 4, .i16, .ro, .any, false⟩,
  ⟨"COOL_QUARANTINE", E.COOL_QUARANTINE, 1, 5, .u32, .ro, .any, false⟩,
  ⟨"IFAN_LAW_TARGET", E.IFAN_LAW_TARGET, 1, 6, .u16, .ro, .any, false⟩,
  ⟨"DIE_CEILING_EFFECTIVE", E.DIE_CEILING_EFFECTIVE, 1, 7, .u16, .ro, .any, false⟩,
  ⟨"COOL_LATCHES", E.COOL_LATCHES, 1, 8, .u16, .w1c, .any, false⟩,
  ⟨"LOG_NEXT", E.LOG_NEXT, 1, 1, .u32, .ro, .any, false⟩,
  ⟨"LOG_STACK", E.LOG_STACK, 1, 2, .u8, .ro, .any, false⟩,
  ⟨"LOG_SPARE_PAGES", E.LOG_SPARE_PAGES, 1, 3, .u16, .ro, .any, false⟩]

/-- Rows of the dictionary, part 12. -/
def dictRows12 : List Row := [
  ⟨"COND_FOLD_TICKS", E.COND_FOLD_TICKS, 1, 4, .u32, .rw, (.rng 0 1000000), false⟩,
  ⟨"HIST_COUNT", E.HIST_COUNT, 1, 5, .u16, .rw, (.rng 0 8192), false⟩,
  ⟨"HIST_SET", E.HIST_SET, 1, 6, (.oct 16), .wo, .any, false⟩,
  ⟨"REC_CMD", E.REC_CMD, 1, 7, .u8, .k, .any, false⟩,
  ⟨"REC_CMD_STATE", E.REC_CMD_STATE, 1, 8, .u8, .ro, .any, false⟩,
  ⟨"REC_LATCHES", E.REC_LATCHES, 1, 9, .u16, .w1c, .any, false⟩,
  ⟨"LASTGASP_COUNT", E.LASTGASP_COUNT, 1, 10, .u8, .ro, .any, false⟩,
  ⟨"LASTGASP_FRAM_COUNT", E.LASTGASP_FRAM_COUNT, 1, 11, .u8, .ro, .any, false⟩,
  ⟨"RF_GATE", E.RF_GATE, 1, 1, .u16, .rw, (.rng 1 4096), true⟩,
  ⟨"RF_RANGE_STEP", E.RF_RANGE_STEP, 1, 2, .u16, .rw, (.rng 1 4096), true⟩,
  ⟨"RF_MEAN_LO", E.RF_MEAN_LO, 1, 3, .i16, .rw, .any, true⟩,
  ⟨"RF_MEAN_STEP", E.RF_MEAN_STEP, 1, 4, .u16, .rw, (.rng 1 4096), true⟩,
  ⟨"DIE_RF_GATE", E.DIE_RF_GATE, 1, 5, .u16, .rw, .any, true⟩,
  ⟨"DIE_RF_RANGE_STEP", E.DIE_RF_RANGE_STEP, 1, 6, .u16, .rw, .any, true⟩,
  ⟨"DIE_RF_MEAN_LO", E.DIE_RF_MEAN_LO, 1, 7, .i16, .rw, .any, true⟩,
  ⟨"DIE_RF_MEAN_STEP", E.DIE_RF_MEAN_STEP, 1, 8, .u16, .rw, .any, true⟩,
  ⟨"LASTGASP_FRAM", E.LASTGASP_FRAM, 1, 63, (.oct 64), .ro, .any, false⟩,
  ⟨"LASTGASP_SRAM", E.LASTGASP_SRAM, 1, 63, (.oct 64), .ro, .any, false⟩,
  ⟨"COND_WRITTEN", E.COND_WRITTEN, 1, 1, .u64, .ro, .any, false⟩,
  ⟨"COND_FOLDED", E.COND_FOLDED, 1, 2, .u64, .ro, .any, false⟩,
  ⟨"COND_LOST", E.COND_LOST, 1, 3, .u64, .ro, .any, false⟩,
  ⟨"COND_NOT_LOGGED", E.COND_NOT_LOGGED, 1, 4, .u64, .ro, .any, false⟩,
  ⟨"LOG_PAGES_RETIRED", E.LOG_PAGES_RETIRED, 1, 5, .u64, .ro, .any, false⟩,
  ⟨"LOG_RECORDS_DAMAGED", E.LOG_RECORDS_DAMAGED, 1, 6, .u64, .ro, .any, false⟩,
  ⟨"LASTGASP_OVERFLOW", E.LASTGASP_OVERFLOW, 1, 7, .u64, .ro, .any, false⟩,
  ⟨"START_STAGE", E.START_STAGE, 1, 1, .u8, .ro, .any, false⟩,
  ⟨"START_COUNT", E.START_COUNT, 1, 2, .u32, .ro, .any, false⟩,
  ⟨"START_CAUSE", E.START_CAUSE, 1, 3, .u8, .ro, .any, false⟩,
  ⟨"START_WHEEL_DELAY", E.START_WHEEL_DELAY, 1, 4, .u16, .rw, (.rng 0 10000), true⟩,
  ⟨"START_COHERENT_PCT", E.START_COHERENT_PCT, 1, 5, .u8, .rw, (.rng 50 100), false⟩,
  ⟨"MODEL_CEILINGS", E.MODEL_CEILINGS, 1, 6, .u8, .ro, .any, false⟩,
  ⟨"MODEL_CEILINGS_TICK", E.MODEL_CEILINGS_TICK, 1, 7, .tick, .ro, .any, false⟩,
  ⟨"GUARD_ARMED_MS", E.GUARD_ARMED_MS, 1, 8, .u32, .ro, .any, false⟩,
  ⟨"START_CMD", E.START_CMD, 1, 9, .u8, .k, .any, false⟩,
  ⟨"START_LATCHES", E.START_LATCHES, 1, 10, .u16, .w1c, .any, false⟩,
  ⟨"BOOT_DIARY", E.BOOT_DIARY, 1, 15, (.oct 128), .ro, .any, false⟩,
  ⟨"FW_IMAGE_DIGEST", E.FW_IMAGE_DIGEST, 1, 1, (.oct 32), .ro, .any, false⟩,
  ⟨"FW_SEC_VERSION", E.FW_SEC_VERSION, 1, 2, .u16, .ro, .any, false⟩,
  ⟨"FW_KEY_SLOT", E.FW_KEY_SLOT, 1, 3, .u8, .ro, .any, false⟩,
  ⟨"FUSE_SEC_VERSION", E.FUSE_SEC_VERSION, 1, 4, .u16, .ro, .any, false⟩,
  ⟨"FUSE_KEY_REVOKED", E.FUSE_KEY_REVOKED, 1, 5, .u8, .ro, .any, false⟩,
  ⟨"BOOT_ROM_VERSION", E.BOOT_ROM_VERSION, 1, 6, .u16, .ro, .any, false⟩,
  ⟨"FUSE_SEC_RAISE", E.FUSE_SEC_RAISE, 1, 7, .u8, .k, .any, false⟩,
  ⟨"FUSE_KEY_REVOKE", E.FUSE_KEY_REVOKE, 1, 8, .u8, .k, .any, false⟩,
  ⟨"KEY_STATE", E.KEY_STATE, 8, 1, .u8, .ro, .any, false⟩,
  ⟨"KEY_PUBLIC", E.KEY_PUBLIC, 8, 2, (.oct 64), .ro, .any, false⟩,
  ⟨"WEAR_RETIRE_ERRORS", E.WEAR_RETIRE_ERRORS, 1, 1, .u8, .rw, (.rng 2 255), false⟩,
  ⟨"WEAR_RETIRE_TURNS", E.WEAR_RETIRE_TURNS, 1, 2, .u32, .rw, (.rng 1 100000000), false⟩,
  ⟨"WEAR_LATCHES", E.WEAR_LATCHES, 1, 3, .u16, .w1c, .any, false⟩,
  ⟨"BIST_RUNS", E.BIST_RUNS, 1, 4, .u64, .ro, .any, false⟩]

/-- Rows of the dictionary, part 13. -/
def dictRows13 : List Row := [
  ⟨"BIST_MISMATCHES", E.BIST_MISMATCHES, 1, 5, .u64, .ro, .any, false⟩,
  ⟨"UNITS_ACTIVE", E.UNITS_ACTIVE, 17, 1, .u16, .ro, .any, false⟩,
  ⟨"UNITS_SPARE", E.UNITS_SPARE, 17, 2, .u16, .ro, .any, false⟩,
  ⟨"UNITS_RETIRED", E.UNITS_RETIRED, 17, 3, .u16, .ro, .any, false⟩,
  ⟨"PLANNED_TEST_TURNS", E.PLANNED_TEST_TURNS, 17, 4, .u32, .rw, (.rng 1000 100000000), false⟩,
  ⟨"SPARE_RETEST_TURNS", E.SPARE_RETEST_TURNS, 17, 5, .u32, .rw, (.rng 1000 100000000), false⟩,
  ⟨"NEXT_PLANNED_TURN", E.NEXT_PLANNED_TURN, 17, 6, .u64, .ro, .any, false⟩,
  ⟨"KIND_TAKEOVERS", E.KIND_TAKEOVERS, 17, 7, .u64, .ro, .any, false⟩,
  ⟨"FEED_A_V", E.FEED_A_V, 1, 1, .u16, .ro, .any, false⟩,
  ⟨"FEED_B_V", E.FEED_B_V, 1, 2, .u16, .ro, .any, false⟩,
  ⟨"LOGIC_POWER", E.LOGIC_POWER, 1, 3, .u16, .ro, .any, false⟩,
  ⟨"ACT_FEED_V", E.ACT_FEED_V, 1, 4, .u16, .ro, .any, false⟩,
  ⟨"ACT_FEED_I", E.ACT_FEED_I, 1, 5, .u16, .ro, .any, false⟩,
  ⟨"ACT_FUSE_STATE", E.ACT_FUSE_STATE, 1, 6, .u8, .ro, .any, false⟩,
  ⟨"ACT_CMD", E.ACT_CMD, 1, 7, .u8, .wo, .any, false⟩,
  ⟨"HOLDUP_PCT", E.HOLDUP_PCT, 1, 8, .u8, .ro, .any, false⟩,
  ⟨"ELEC_LATCHES", E.ELEC_LATCHES, 1, 9, .u16, .w1c, .any, false⟩,
  ⟨"KEY_ENROL", E.KEY_ENROL, 1, 1, .octVar, .k, .any, false⟩,
  ⟨"KEY_REVOKE", E.KEY_REVOKE, 1, 2, .octVar, .k, .any, false⟩,
  ⟨"LOOP_TABLE", E.LOOP_TABLE, 256, 127, (.oct 16), .ro, .any, false⟩]

/-- Every entry of the dictionary. -/
def dictRows : List Row :=
  dictRows0 ++ dictRows1 ++ dictRows2 ++ dictRows3 ++ dictRows4 ++ dictRows5 ++ dictRows6 ++ dictRows7 ++ dictRows8 ++ dictRows9 ++ dictRows10 ++ dictRows11 ++ dictRows12 ++ dictRows13

/-- The row that serves an index and subindex, with the unit the index names. -/
def findRow (index sub : Nat) : Option (Row × Nat) :=
  (dictRows.find? fun r =>
    decide (r.ent.key / 256 ≤ index) && decide (index < r.ent.key / 256 + r.units) &&
    decide (r.ent.key % 256 ≤ sub) && decide (sub ≤ r.lastSub)).map fun r => (r, index - r.ent.key / 256)

/-- Whether any entry stands at the index. -/
def knownIndex (index : Nat) : Bool :=
  dictRows.any fun r => decide (r.ent.key / 256 ≤ index) && decide (index < r.ent.key / 256 + r.units)

end Sys2Proof.Machine
end

