-- ==== Sys2Proof/Machine/State.lean ====
section
/-! DEFINITION. The state of the module as plain data. Every dictionary entry, the read-only and counter entries
included, is held in `State.regs`; what the chapters give the module beside its entries (queues, timers, tables,
the contents of FRAM, the states of units no entry shows) stands in the structures below, one group per chapter.
Instants are ps of the reference oscillator since `State.reset` (R16); a tick or a turn is its number. -/

namespace Sys2Proof.Machine

/-- Why the module stops. No rule of the spec stops it: every command leaves a next state, so this type is empty.
Nobody raises it; that is safe. -/
inductive Fault where
  deriving DecidableEq, Repr

/-- Why a command has no meaning. -/
inductive Refusal where
  /-- The command has no meaning in the model yet. Raised by an arm of `exec` alone; safe, a proof gets nothing
  from it. -/
  | notModelled (mnemonic : String)
  deriving DecidableEq, Repr

/-! ### The recorder (chapter 18) -/

/-- A condition record (R602). `ext` is its F32 code, `detail` its eight octets as a number. -/
structure Cond where
  index : Nat := 0
  sub : Nat := 0
  bit : Nat := 0
  key : Nat := 0
  start : Nat := 0
  dur : Nat := 0
  ext : Nat := 0x7FC00000
  extTick : Nat := 0
  count : Nat := 0
  rep : Nat := 0
  last : Nat := 0
  pos : Nat := 0
  flags : Nat := 0
  stance : Nat := 0
  detail : Nat := 0
  deriving DecidableEq, Repr

/-- An entry of the staging queue (R606): a new record, or the rewrite of one that has its position. -/
structure Staged where
  cond : Cond
  isNew : Bool
  ends : Nat
  deriving DecidableEq, Repr

/-- A key of the fold table (R605): the record and the tick in which its latest episode ended. -/
structure FoldKey where
  cond : Cond
  ends : Nat
  deriving DecidableEq, Repr

/-- A histogram (R593 to R596); values are F32 codes. -/
structure Hist where
  source : Nat := 0
  flags : Nat := 0
  select : Nat := 0
  lo : Nat := 0
  width : Nat := 0
  min : Nat := 0x7FC00000
  max : Nat := 0x7FC00000
  minTick : Nat := 0
  maxTick : Nat := 0
  since : Nat := 0
  bins : AMap Nat := []
  deriving DecidableEq, Repr

/-- A guest's extremes row (R597); values are the wire codes read as signed or unsigned numbers. -/
structure Extremes where
  seen : Bool := false
  powerSeen : Bool := false
  hotMax : Int := 0
  hotMin : Int := 0
  powerMax : Nat := 0
  hotMaxTick : Nat := 0
  hotMinTick : Nat := 0
  powerMaxTick : Nat := 0
  deriving DecidableEq, Repr

/-- A rainflow matrix with its residue of turning points, oldest first (R335, R598, R599). -/
structure Rainflow where
  cells : AMap Nat := []
  residue : List Int := []
  deriving DecidableEq, Repr

/-- The recorder's memories and queues. -/
structure Recorder where
  staged : List Staged := []
  lastCommit : Nat := 0
  log : AMap Cond := []
  folds : List FoldKey := []
  lost : Nat := 0
  lostFirst : Cond := {}
  lostFirstTick : Nat := 0
  lostLastTick : Nat := 0
  running : Bool := false
  stopped : Bool := false
  logLost : Bool := false
  failing : List (Nat × Nat) := []
  pageMap : AMap Nat := []
  damaged : List Nat := []
  gasp : List Cond := []
  hists : AMap Hist := []
  histDue : List (Nat × Nat × Hist) := []
  histCountDue : Option Nat := none
  histCountNow : Nat := 1024
  extremes : AMap Extremes := []
  rainflow : AMap Rainflow := []
  dieRf : Rainflow := {}
  cmds : List (Nat × Nat) := []
  clearing : Nat := 0
  deriving DecidableEq, Repr

/-! ### The wheel (chapter 2) -/

/-- The wheel beside its entries. `cross` holds the last zero crossing of each mains phase, `periods` the lengths
of the locked turns, newest first, `prevLen` the tick length of the turn before, `err` the phase error at the boundary that started the current turn. -/
structure Wheel where
  tick : Nat := 0
  idx : Nat := 0
  turn : Nat := 0
  tickStart : Nat := 0
  tickLen : Nat := 0
  prevLen : Nat := 0
  turnStart : Nat := 0
  turnDone : Bool := true
  nextLen : Option Nat := none
  origin : Nat := 0
  originS : Nat := 0
  waitFrom : Option Nat := none
  startAt : Option Nat := none
  cross : List (Option Nat) := [none, none, none]
  lastPeriod : Nat := 0
  validAt : Nat := 0
  validRun : Nat := 0
  lockRun : Nat := 0
  err : Int := 0
  locked : List Nat := []
  heldLen : Nat := 0
  holdFrom : Nat := 0
  closing : Bool := false
  longDone : Bool := false
  absentSeen : Bool := false
  notice : Bytes := []
  noticeTurn : Option Nat := none
  noticeTick : Nat := 0
  noticeRepeated : Bool := true
  currentNotice : Bytes := []
  syncNext : Nat := 0
  announceNext : Nat := 0
  ptpSeq : List Nat := [0, 0, 0]
  iocLatch : Nat := 0
  iocLatchPrev : Nat := 0
  deriving DecidableEq, Repr

/-- A phase source beside its entries (R69 to R72): the phase of a learned period in cycles, and the turn from which it may be
valid again. -/
structure Phase where
  phase : Rat := 0
  validFrom : Nat := 0
  deriving DecidableEq, Repr

/-! ### The port (chapter 3) -/

/-- A datagram on its way out. `proto` is 17 for UDP and 58 for ICMPv6. `tag` is 1 for a dictionary or desk reply,
2 for a wheel notice, 3 for a PTP message, 4 for a cap or row cut bundle, 5 for a bulk fragment, 6 for a Sync, 7 for neighbour discovery, 0 otherwise; `dscp` is set when it leaves (R89). -/
structure Dgram where
  cls : Nat
  dst : Nat
  sport : Nat
  dport : Nat
  proto : Nat := 17
  tag : Nat := 0
  dscp : Nat := 0
  bytes : Bytes
  deriving DecidableEq, Repr

/-- The port beside its entries. `step` is the step of R80 in progress: 0 none, 1 cage check, 2 module power-up,
3 auto-negotiation, 4 link training, 5 PCS alignment, 6 hold-up, 7 up. -/
structure Port where
  step : Nat := 0
  stepFrom : Nat := 0
  powerUpMax : Nat := 0
  attempt : Nat := 0
  diaryMap : Option Nat := none
  roundWait : Option Nat := none
  recheckFrom : Option Nat := none
  sending : Bool := false
  upTick : Nat := 0
  lastUncorr : Option Nat := none
  egress : List Dgram := []
  cageFreeAt : Nat := 0
  lastSent : Option Dgram := none
  exported : List (Nat × Nat) := []
  ingress : List Rx := []
  linkLocal : Nat := 0
  unicast : Nat := 0
  prefix64 : Option Nat := none
  dadFailAt : Nat := 0
  echoFrom : Nat := 0
  echoCount : Nat := 0
  deriving DecidableEq, Repr

/-! ### The dictionary server (chapter 4) -/

/-- A keyed session, pending or open (R126 to R132). -/
structure Session where
  id : Nat
  keyId : Nat
  isOpen : Bool := false
  key : Nat := 0
  transcript : Bytes := []
  since : Nat := 0
  lastSeq : Option Nat := none
  tagFails : List Nat := []
  deriving DecidableEq, Repr

/-- An entry of the reply cache (R111). `reply` is none until the reply is made. -/
structure Cached where
  src : Nat
  sport : Nat
  session : Nat
  op : Nat
  seq : Nat
  body : Bytes
  at_ : Nat
  reply : Option Bytes := none
  deriving DecidableEq, Repr

/-- A subscription (R122 to R125). -/
structure Subscription where
  src : Nat
  sport : Nat
  id : Nat
  period : Nat
  entries : List (Nat × Nat)
  seq : Nat
  session : Nat
  renewed : Nat
  pushed : Nat := 0
  deriving DecidableEq, Repr

/-- A bulk reply in progress (R114 to R121): the rows still to send, for history tables at tick `tick`. -/
structure Bulk where
  id : Nat
  src : Nat
  sport : Nat
  session : Nat
  seq : Nat
  table : Nat
  first : Nat
  last : Nat
  next : Nat
  tick : Nat := 0
  lastTick : Nat := 0
  span : Nat := 0
  from_ : Nat := 0
  empty : Bool := false
  deriving DecidableEq, Repr

/-- An accepted WRITE_BULK that waits for its tick boundary (R118). -/
structure BulkWrite where
  src : Nat
  sport : Nat
  session : Nat
  seq : Nat
  table : Nat
  first : Nat
  count : Nat
  rows : Bytes
  due : Nat
  deriving DecidableEq, Repr

/-- The dictionary server. `held` lists the stored entries whose value takes effect later (R110): key, value still
in force, and the tick (kind 0) or turn (kind 1) at which the stored value takes effect; kind 2 is the next start. -/
structure Dict where
  isOpen : Bool := false
  sessions : List Session := []
  cache : List Cached := []
  subs : List Subscription := []
  bulks : List Bulk := []
  bulkWrites : List BulkWrite := []
  held : AMap (Nat × Nat × Nat) := []
  hostHeard : Nat := 0
  deriving DecidableEq, Repr

/-! ### Start, power, wear (chapters 19, 20, 21) -/

/-- A boot diary entry (R635); bitmaps are numbers, `stepState` two bits a step, `ends` one value a step. -/
structure Diary where
  number : Nat := 0
  cause : Nat := 0
  reached : Nat := 0
  endState : Nat := 0
  laneMap : Nat := 0
  cameUp : Bool := false
  fw : Nat := 0
  stepState : Nat := 0
  alt : Nat := 0
  skipped : Nat := 0
  arrays : Nat := 0
  lanes : Nat := 0
  channels : Nat := 0
  regions : Nat := 0
  keepers : Nat := 0
  ports : Nat := 0
  ain : Nat := 0
  armedMs : Nat := 0
  lastResult : Nat := 0
  ends : List Nat := [0, 0, 0, 0, 0, 0, 0, 0, 0, 0, 0, 0, 0, 0]
  deriving DecidableEq, Repr

/-- An outstanding read of the image (R628). -/
structure BootRead where
  offset : Nat
  count : Nat
  sentAt : Nat
  sends : Nat
  deriving DecidableEq, Repr

/-- A life record of R659. -/
structure Life where
  useTurns : Nat := 0
  errs : Nat := 0
  passes : Nat := 0
  fails : Nat := 0
  retired : Bool := false
  cause : Nat := 0
  deriving DecidableEq, Repr

/-- The FRAM of the module (32 KiB, chapter 1): the FRAM-kept entries (R10), the boot diary newest first (R635),
the copy of the last-gasp store and of the die's rainflow matrix (R615), the life records of R659. It survives the
loss of power. -/
structure Fram where
  entries : AMap Nat := []
  diary : List Diary := []
  gasp : List Cond := []
  dieRf : Rainflow := {}
  life : AMap Life := []
  deriving DecidableEq, Repr

/-- The start sequence (chapter 19). `step` is the step in progress, 0 before power good and 15 once step 14 has
ended; `diary` is the entry of this start. -/
structure Start where
  step : Nat := 0
  from_ : Nat := 0
  powerGood : Nat := 0
  cause : Nat := 0
  diary : Diary := {}
  diaryInFram : Bool := true
  groups : Nat := 0
  groupAt : Nat := 0
  imageReqAt : Option Nat := none
  bootSeq : Nat := 0
  attempt : Nat := 1
  offer : Option (Nat × Nat × Nat × Nat) := none
  reads : List BootRead := []
  nextOff : Nat := 0
  stagedParts : AMap Bytes := []
  image : Bytes := []
  result11 : Bool := false
  failedAt : Option Nat := none
  restart : Option Nat := none
  prevStartTimer : Bool := false
  framDefaults : Bool := false
  refused : Bool := false
  coherentRun : Nat := 0
  linkUpTurn : Bool := false
  presentAtStart : Nat := 0
  covered : Nat := 0
  pairsDue : Nat := 0
  coveredTo : Nat := 0
  fuseSec : Nat := 0
  fuseRevoked : Nat := 0
  deriving DecidableEq, Repr

/-- A spared unit in the wear ledger (R658), with what R651, R655 and R648 need beside its row. `role` is 0
active, 1 spare, 2 fenced, 3 test, 4 retired; `outcome` is a test's result (0 match, 1 mismatch, 4 overrun) with the
tick it ended in; `retest` marks a spare's test under R651; `useTurns` counts up to `roleTurn`. -/
structure LedgerUnit where
  role : Nat := 0
  tested : Bool := false
  prevFail : Bool := false
  planned : Bool := false
  leftOut : Bool := false
  cause : Nat := 0
  serves : Nat := 0xFFFF
  useTurns : Nat := 0
  since : Nat := 0
  errs : Nat := 0
  corrected : Nat := 0
  passes : Nat := 0
  fails : Nat := 0
  lastTick : Nat := 0
  lastSig : Nat := 0
  changes : Nat := 0
  errTurns : List Nat := []
  roleTurn : Nat := 0
  lastPass : Nat := 0
  testFrom : Option Nat := none
  outcome : Option (Nat × Nat) := none
  retest : Bool := false
  deriving DecidableEq, Repr

/-- Wear and self-test beside the ledger rows: by kind, the turns of the last planned test and of the last boundary at
which one was due; the keepers' rows whose work waits for a spare under its retest; the internal fans, outgoing and
incoming, of a planned test whose spare has yet to run. -/
structure Wear where
  units : AMap LedgerUnit := []
  lastPlanned : AMap Nat := []
  plannedTried : AMap Nat := []
  waiting : List Nat := []
  ifanSwap : Option (Nat × Nat) := none
  deriving DecidableEq, Repr

/-- Power (chapter 21): `power` is 0 before power good, 1 good, 2 lost with the copy to FRAM in progress, 3 held in
reset. `openings` are the instants of the fuse's openings, newest first. -/
structure Elec where
  power : Nat := 0
  openings : List Nat := []
  openAt : Nat := 0
  deriving DecidableEq, Repr

/-! ### Arrays and stacks (chapters 9 and 10) -/

/-- An array beside its ledger row, which holds its role (R290, R312): `isRow` tells the row program's arrays from the
operators' among the active ones; `preloadFor` is the outgoing array whose home copies are preloaded (R302);
`parityTick` the tick whose step runs again after a parity error; `overruns` the run of ticks up to `overrunTick` whose
step overran; `heldSpare` the turn in which it last left the spare role; `handOver` the role that waits for a spare
since `fenceTick`: 0 none, 1 row program, 2 operator. -/
structure Arr where
  isRow : Bool := false
  preloadFor : Option Nat := none
  borrowed : Bool := false
  parityTick : Option Nat := none
  overruns : Nat := 0
  overrunTick : Nat := 0
  heldSpare : Nat := 0
  handOver : Nat := 0
  fenceTick : Nat := 0
  deriving DecidableEq, Repr

/-- The fabric beside its entries: the arrays; the die power readings of the turn in progress in mW; the tick whose
operator arrays are clamped; the fenced regions that wait for their reconfiguration, with the tick of their fence; the
deferred rotations and the turn of each region's last one; the arrays whose step of this tick writes no results; the
turn of the last stance change; the row program's reservation. -/
structure Fabric where
  arrays : AMap Arr := []
  powerSum : Nat := 0
  powerTicks : Nat := 0
  powerMax : Nat := 0
  lowTurns : Nat := 0
  clampTick : Option Nat := none
  fences : List (Nat × Nat) := []
  deferredRotation : List Nat := []
  rotated : AMap Nat := []
  noResult : List Nat := []
  stanceTurn : Option Nat := none
  reserved : Nat := 0
  deriving DecidableEq, Repr

/-- A memory stack beside its entries: the poisoned lines; by bank and by page, the spare rows and the reserve page in
use; the slots whose channel is lost, with the tick of the loss; the channels in their zero fill; whether background
traffic is granted, refresh is doubled, background admission is throttled; the utilisation readings of the turn; the
turn of the last patrol pass; the blocks carved for guests. -/
structure Stack where
  poisoned : List Nat := []
  sparedRows : AMap Nat := []
  pages : AMap Nat := []
  lostSlots : List (Nat × Nat) := []
  fills : List Nat := []
  background : Bool := true
  fastRefresh : Bool := false
  throttled : Bool := false
  utilSum : Nat := 0
  utilTicks : Nat := 0
  scrubTurn : Nat := 0
  carved : Nat := 0
  deriving DecidableEq, Repr

/-! ### Guests, ingest and the guard (chapters 5 to 7) -/

/-- A sensor entry of a passport (R144); temperatures are I16 codes. -/
structure SensorDef where
  node : Nat
  limit : Nat
  static : Nat
  deriving DecidableEq, Repr

/-- A pair entry of a passport (R145). -/
structure PairDef where
  a : Nat
  b : Nat
  tol : Nat
  deriving DecidableEq, Repr

/-- A passport (R143); `fpr` is 0 without a fingerprint. -/
structure Passport where
  id : Nat
  vendor : Nat
  cls : Nat
  kind : Nat
  branch : Nat
  floor : Nat
  orphan : Nat
  maxCap : Nat
  hasFpr : Bool
  fpr : Nat
  sensors : List SensorDef
  pairs : List PairDef
  deriving DecidableEq, Repr

/-- A per-guest record as it left (R166): `tick` is its bundle's `TICK`, `lapse` the tick at whose end its hold
lapses (for a RELEASE, that of the cut it ended). -/
structure CapRec where
  kind : Nat
  ceiling : Nat
  slew : Nat
  hold : Nat
  tick : Nat
  lapse : Nat
  deriving DecidableEq, Repr

/-- The permitted cap of R207 as it stands in one tick: the per-guest ceiling on its ramp, the record in force, the
records too young to act, the cap, and the slew at which the cap rises after a row cut. -/
structure Emul where
  any : Bool := false
  target : Nat := 0
  slew : Nat := 0
  pg : Nat := 0
  cap : Nat := 0
  current : Option CapRec := none
  queue : List CapRec := []
  rowSlew : Option Nat := none
  deriving DecidableEq, Repr

/-- An episode of a pair (R202 to R204): the ticks counted, the agreeing ticks in a row, the residual sums in °C·tick
and the count at which the sums were last compared. -/
structure PairSt where
  isOpen : Bool := false
  ticks : Nat := 0
  agree : Nat := 0
  sumA : Dy := Dy.zero
  sumB : Dy := Dy.zero
  compared : Nat := 0
  deriving DecidableEq, Repr

/-- The standing record of a counting tick (R192, R211): `disp` is its disposition, `values` the compared values by
sensor. -/
structure Standing where
  recTick : Nat
  frac : Nat
  disp : Nat
  raw : Bytes
  samples : List Nat
  power : Option (Nat × Nat)
  values : List (Nat × Nat)
  fault : Bool
  deriving DecidableEq, Repr

/-- A guard cut in force (R227): `tc` is the tick in which it took force, none while it waits unsent; `pre` the
per-guest ceiling before the episode; `clear` the clear count of R241. -/
structure Cut where
  ceiling : Nat
  tc : Option Nat := none
  depth : Nat := 1
  clear : Nat := 0
  pre : Nat
  deferred : Bool := false
  deriving DecidableEq, Repr

/-- The summary step in progress of one guest (R212). -/
structure Fold where
  maxHot : Option Int := none
  powerSum : Nat := 0
  powerN : Nat := 0
  capSum : Nat := 0
  sampled : Nat := 0
  flags : Nat := 0
  sums : List (Int × Nat) := []
  deriving DecidableEq, Repr

/-- A guest slot that is not free. Ages are kept as the counting ticks they run from (R194). `x` and `d` are
bracket-FP16 words (R389), `preds` the node brackets of R391 by the tick they bound; `lost` tells that the state area
holds poison, `halved` that the guest is stepped every second tick (R397); what stands under `…Before` is the state
before the step in progress, to which a discarded step returns (R296). `alloc` is the allocator's latest value. -/
structure Guest where
  present : Bool
  pp : Passport
  src : Nat
  sport : Nat
  capAddr : Nat
  capPort : Nat
  servedAt : Nat
  firstTick : Nat
  joinTick : Nat
  rejoined : Bool := false
  newPp : Option (Passport × Nat) := none
  becamePresent : Nat := 0
  freeDue : Option Nat := none
  lapseDue : Option Nat := none
  reservedTurn : Nat := 0
  reservedTick : Nat := 0
  lastPresence : Nat
  lastPower : Nat
  lastSample : Nat
  hasPower : Option Nat := none
  lastRecTick : Option Nat := none
  lastCount : Nat := 0
  lastSampleCount : Nat := 0
  lastSeq : Option Nat := none
  powerW : Nat := 0
  applied : Option Nat := none
  hottest : Nat := 0
  hottestSensor : Nat := 0
  fault : Bool := false
  lastLate : Bool := false
  degraded : Bool := false
  stale : Bool := false
  disobedient : Bool := false
  quarantine : Nat := 0
  pairs : AMap PairSt := []
  disobeyRun : Nat := 0
  inBounds : Nat := 0
  seqGaps : Nat := 0
  lateRecords : Nat := 0
  superseded : Nat := 0
  staleEpisodes : Nat := 0
  disobeyEpisodes : Nat := 0
  lastFrac : Nat := 0
  stack : Nat := 0
  standing : AMap Standing := []
  guarded : AMap Bool := []
  fold : Fold := {}
  exceedTick : Option Nat := none
  cut : Option Cut := none
  lastCap : Option CapRec := none
  staleCap : Bool := false
  staleDue : Bool := false
  preStale : Nat := 0
  releaseDue : Option (Nat × Nat × Bool) := none
  rampEnd : Option Nat := none
  rampFrom : Option Nat := none
  alloc : Option Nat := none
  firstAllocSent : Bool := false
  emul : Emul := {}
  disobeyResend : Option Nat := none
  rejoinResend : Option Nat := none
  staticOnly : Bool := true
  weight : Nat := 1024
  operMax : Nat := 0xFFFF
  weightNow : Nat := 1024
  operMaxNow : Nat := 0xFFFF
  x : List Nat := []
  d : List Nat := [0, 0, 0, 0]
  settle : Nat := 0
  settling : Bool := false
  pHist : List Nat := []
  stepTick : Option Nat := none
  restartDue : Bool := true
  preds : AMap (List Nat) := []
  lost : Bool := false
  halved : Bool := false
  xBefore : List Nat := []
  settleBefore : Nat := 0
  stepBefore : Option Nat := none
  deriving DecidableEq, Repr

/-- A row of the look-back ring (R211). -/
structure Look where
  frac : Nat := 0
  disp : Nat := 0
  age : Nat := 0
  raw : Bytes := []
  deriving DecidableEq, Repr

/-- A check-in request in the queue of R147. -/
structure CheckIn where
  rx : Rx
  deriving DecidableEq, Repr

/-- A record or keep-alive in a parser lane. `count` is its counting tick, `arrTick` its arrival tick, `dup` and
`bad` mark the discards of case 2 of R191. -/
structure LaneRec where
  src : Nat
  sport : Nat
  keepAlive : Bool
  tick : Nat
  arrTick : Nat
  frac : Nat
  count : Nat
  due : Nat
  beyond : Bool
  size : Nat
  bad : Bool
  raw : Bytes
  deriving DecidableEq, Repr

/-- A parser lane (R183, R184). -/
structure Lane where
  queue : List LaneRec := []
  freeAt : Nat := 0
  deriving DecidableEq, Repr

/-- A guard cut in the class 0 queue (R234): the inbound bundle it arose from, what it is (bit 0 a first cut, bit 1 a
further cut, bit 2 a deep cut; 0 for a refresh), the instant of the bundle's last bit for the first cut of a bundle,
and whether the conditions of R231 held. -/
structure CutRec where
  slot : Nat
  ceiling : Nat
  bundle : Nat := 0
  what : Nat := 0
  first : Option Nat := none
  clean : Bool := false
  deriving DecidableEq, Repr

/-- A row cut record to send (R168, R237). -/
structure RowRec where
  scope : Nat
  ceiling : Nat
  slew : Nat
  hold : Nat
  deriving DecidableEq, Repr

/-- A row cut that left: its bundle's `TICK` and the instant of its build. -/
structure RowSent where
  scope : Nat
  ceiling : Nat
  slew : Nat
  hold : Nat
  tick : Nat
  sentAt : Nat
  deriving DecidableEq, Repr

/-- A per-guest record in the class 2 queue. -/
structure CapDue where
  slot : Nat
  kind : Nat
  ceiling : Nat
  slew : Nat
  hold : Nat
  deriving DecidableEq, Repr

/-- The desk (chapters 5 and 6): `counted` is the counting tick that ends next, `backlog` the records queued at each
telemetry deadline of the turn, `notices` the turn of a slot's last notice, `lifted` the tick in which each class was
lifted, `seqs` the bundle numbers by type, address and port. -/
structure Desk where
  checkIns : List CheckIn := []
  served : Nat := 0
  servedTick : Nat := 0
  lanes : List Lane := List.replicate 16 {}
  counted : Nat := 0
  summaryFrom : Nat := 0
  look : AMap (AMap Look) := []
  summary : AMap (AMap Bytes) := []
  notices : AMap Nat := []
  lifted : AMap Nat := []
  lastLift : Nat := 0
  backlog : Nat := 0
  class0 : List CutRec := []
  rowOut : List RowRec := []
  class2 : List CapDue := []
  deferred : List CutRec := []
  requeued : Nat := 0
  requeueTick : Nat := 0
  seqs : List (Nat × Nat × Nat × Nat) := []
  rowSent : List RowSent := []
  bundles : Nat := 0
  deriving DecidableEq, Repr

/-- The guard's ceiling store (R218): the leaf in force and the standby leaf, by guest slot: each sensor's predicted
upper edge in 1/64 °C, none without a model ceiling (the margin and the limit of R217 are those of the tick that
compares); and the latencies and queue depth of the turn in progress. -/
structure Guard where
  live : AMap (List (Option Int)) := []
  standby : AMap (List (Option Int)) := []
  second : AMap (List (Option Int)) := []
  written : Nat := 0
  latMax : Nat := 0
  latSum : Nat := 0
  latN : Nat := 0
  queueMax : Nat := 0
  misses : AMap Nat := []
  compared : AMap Nat := []
  deriving DecidableEq, Repr

/-! ### Programs and the row program (chapters 11 and 12) -/

/-- A hinge table (R357, R375 to R379). For an operator program `leaf0` and `leaf1` are the tensor's words; for slot
0 `ver0` and `ver1` give each class's refit (R410), classes not listed running on the image's model. -/
structure Hinge where
  tensor : Nat := 0
  resident : Bool := true
  staleLimit : Nat := 0
  period : Nat := 0
  ageRate : Nat := 0
  validate : Nat := 0
  leaf0 : List Nat := []
  leaf1 : List Nat := []
  ver0 : AMap Nat := []
  ver1 : AMap Nat := []
  liveTick : Nat := 0
  nextStart : Nat := 0
  requested : Bool := false
  swapFrom : Nat := 0
  staleSeen : Bool := false
  deriving DecidableEq, Repr

/-- An output of a program (R356, R368): what was last published, as bracket-FP32 or plain words. -/
structure ProgOut where
  tensor : Nat
  sink : Nat
  select : Nat
  widen : Nat
  openAfter : Nat
  value : Option (List Nat) := none
  tick : Nat := 0
  deriving DecidableEq, Repr

/-- A form that is staged (R358): the length given at BEGIN and the bytes so far. -/
structure Staging where
  length : Nat
  bytes : Bytes
  deriving DecidableEq, Repr

/-- A form that waits for its placement and preload (R360). -/
structure Install where
  form : Bytes
  factor : Nat
  demand : Nat
  store : Nat
  from_ : Nat
  deriving DecidableEq, Repr

/-- An operator step in progress (R366, R377): its start tick, what its inputs and leaves held then, the fabric's
poison seen, and its results once it completed in tick `doneTick`. -/
structure Step where
  start : Nat
  tensors : AMap (List Nat)
  doneTick : Option Nat := none
  results : List (List Nat) := []
  poisoned : Bool := false
  deriving DecidableEq, Repr

/-- An operator program slot. -/
structure Prog where
  form : Bytes := []
  loaded : Bool := false
  loadFactor : Nat := 1
  factor : Nat := 1
  suspendFit : Bool := false
  suspendRate : Bool := false
  moving : Bool := false
  stack : Nat := 0
  staging : Option Staging := none
  fitting : Option Bytes := none
  install : Option Install := none
  stopFrom : Option Nat := none
  storeBack : Nat := 0
  step : Option Step := none
  states : AMap (List Nat) := []
  outs : List ProgOut := []
  feed : AMap Nat := []
  feeds : List (Nat × Nat × List Nat) := []
  lastStart : Option Nat := none
  hinges : AMap Hinge := []
  deriving DecidableEq, Repr

/-- The loader: the operator area, and whether a re-placement is due. -/
structure Loader where
  area : Nat := 0
  replaceDue : Bool := false
  deriving DecidableEq, Repr

/-- A period detector (R414): its signal, newest first, and its runs of turns. -/
structure PeriodDet where
  signal : List Nat := []
  strong : Nat := 0
  weak : Nat := 0
  publishing : Bool := false
  estimate : Nat := 0
  deriving DecidableEq, Repr

/-- An allocation in progress (R401): its first tick, its period, the guests' step states of that tick. -/
structure Alloc where
  t0 : Nat
  period : Nat
  states : AMap (List Nat)
  deriving DecidableEq, Repr

/-- The row program beside its entries: allocation periods count from tick `origin`; `ready` holds the caps of the
period that ended with tick `lastEnd`; `lam` the multipliers. -/
structure RowP where
  origin : Nat := 0
  period : Nat := 10
  alloc : Option Alloc := none
  lastEnd : Option Nat := none
  ready : AMap Nat := []
  readyFor : Option Nat := none
  lamBranch : AMap Rat := []
  lamRow : Rat := 0
  heat : AMap (List Nat) := []
  stepDone : Option Nat := none
  cutoffDone : Option Nat := none
  hinges : AMap Hinge := []
  clearTurns : AMap Nat := []
  dets : List PeriodDet := List.replicate 16 {}
  leakRun : AMap Nat := []
  leakTick : AMap Nat := []
  transient : AMap Nat := []
  published : List Nat := []
  budgetBound : Bool := false
  refits : Nat := 0
  deriving DecidableEq, Repr

/-- A branch of the plant map beside its entries (R557, R564 to R574). `isOn` is `BR_ENABLE` as the last run found it,
`share` the branch's part of Cf in kW; `flows` are the supply flow midpoints as F32, newest first; the runs count consecutive ticks; `lastHigh` is the last tick with the flow at `FLOW_LOW_PCT` or more. `stop` is
0 without a flow stop, 1 in it, 2 recovering, 3 from the egress on until the last class is lifted; `leak` is 0 without
a leak, 1 capped, 2 closing, 3 isolated, 4 isolation failed, 5 released and waiting for its flow. `bound` is the ceiling
of R567, `lapse` the last tick of the row cut's hold, `closeSeen` the instant of the latest closing demand,
`oppositeFrom` since when the opposite state is demanded, `restBefore` the host's `VALVE_REST`. -/
structure Branch where
  isOn : Bool := false
  share : Rat := 0
  armed : Bool := false
  flows : List Nat := []
  lowRun : Nat := 0
  returnRun : Nat := 0
  stopRun : Nat := 0
  lastHigh : Option Nat := none
  trend : Bool := false
  clearRun : Nat := 0
  stop : Nat := 0
  recoverRun : Nat := 0
  recoverTick : Nat := 0
  lapse : Option Nat := none
  bound : Nat := 0
  lifted : List Nat := []
  liftTick : Nat := 0
  off : Bool := false
  leak : Nat := 0
  leakTick : Nat := 0
  closeSeen : Nat := 0
  retried : Bool := false
  oppositeFrom : Option Nat := none
  restBefore : Option Nat := none
  deriving DecidableEq, Repr

/-- A pump beside its entries (R558 to R563). `starting` is the tick its start began in and `startedAt` the instant,
`startTurn` the turn it was last started in, `lastRan` the turn it last stopped in; `clearRun` counts the ticks its run
status reads clear; `faultClearFrom` is the tick since which its fault status reads clear. -/
structure Pump where
  runCmd : Bool := false
  starting : Option Nat := none
  startedAt : Nat := 0
  startTurn : Nat := 0
  lastRan : Nat := 0
  clearRun : Nat := 0
  faultClearFrom : Option Nat := none
  running : Bool := false
  deriving DecidableEq, Repr

/-- A pump set: `isOn` is `PS_ENABLE` as the last run found it; the turn of the last rotation, whether one was ordered,
the pump whose start belongs to a rotation, the tick of a lead change that waits for its rebinding, and the positions
still to start in the start step (R560). -/
structure PumpSet where
  isOn : Bool := false
  lastRotation : Nat := 0
  ordered : Bool := false
  rotating : Option Nat := none
  rebind : Option Nat := none
  toStart : List Nat := []
  deriving DecidableEq, Repr

/-- An analog input channel (R546 to R548): the filtered value latched by the IOC with its tick, the value and sample
tick in the hub, the filter's value and the mode it ran in, and, of a fenced channel, the tick of its fence while its terminal waits, and of a
spare the terminal with the instant its switch began to move. -/
structure Ain where
  mode : Nat := 0
  y : Option Nat := none
  latch : Option (Nat × Nat) := none
  hub : Option (Nat × Nat) := none
  fenceTick : Option Nat := none
  switching : Option (Nat × Nat) := none
  deriving DecidableEq, Repr

/-- An angle input (R550): the travel in counts and the length of the last ticks, newest first, the ticks in a row without a fault while
it is in fault, the speed latched and the speed in the hub, each with its sample tick. -/
structure Angle where
  window : List (Int × Nat) := []
  clean : Nat := 0
  latch : Option (Nat × Nat) := none
  hub : Option (Nat × Nat) := none
  deriving DecidableEq, Repr

/-- The plant side beside its entries (chapter 17): the plant quantities of R553 by number as bracket-FP32 words with
their sample ticks; by rope, the wet measurements in a row and the tick of the last one; `leakDue` the branches whose
leak the next run declares; `capSlewed` is the capacity of the previous allocation period and `capDrop` its unslewed
fall since (R556); `hxHeld` the heat exchangers whose fans are held, `fanHeld` these fans, `fanClear` by heat exchanger
the ticks without a hold condition (R569); `ran` the tick of the last run; `startGapFrom` the instant of the last start
of the start step; module sensors and their pairs (R576). -/
structure Plant where
  quant : AMap Nat := []
  quantTick : AMap Nat := []
  branches : AMap Branch := []
  pumps : AMap Pump := []
  sets : AMap PumpSet := []
  ains : AMap Ain := []
  angles : AMap Angle := []
  ropeWet : AMap Nat := []
  ropeAt : AMap Nat := []
  leakDue : List Nat := []
  capSlewed : Option Nat := none
  capDrop : Nat := 0
  hxHeld : List Nat := []
  fanHeld : List Nat := []
  fanClear : AMap Nat := []
  ran : Option Nat := none
  startGapFrom : Option Nat := none
  inlet : PairSt := {}
  dies : AMap PairSt := []
  dieHotRun : Nat := 0
  dieHot : Bool := false
  inletHot : Bool := false
  inletCoolFrom : Option Nat := none
  derated : Bool := false
  deriving DecidableEq, Repr

/-! ### Loop engines, drivers and field bus (chapters 13 to 16) -/

/-- A loop engine beside its entries (R429 to R449); values are F32 codes. `handD` is d of the hand-over in progress,
`wait` why a mode change waits (0 it does not, 1 the jump test, 2 a lost source), `manual` the value in force in MANUAL,
`same` the runs in a row with an unchanged measurement and `outs` the outputs of the latest runs, newest first. A hold
runs since tick `holdFrom` for cause `holdCause` (2, 3 or 4 as in `LOOP_FAULT_CAUSE`); `preset` and `entry` mark a run
that presets its trim or starts as at LOOP entry; `down` a loop without a spare; `fenceTick` a fenced engine whose
loop waits for a spare; `send` an output not yet handed off. -/
structure Eng where
  relay : Bool := false
  offset : Nat := 0
  handD : Nat := 0
  table : AMap Nat := []
  same : Nat := 0
  lastMeas : Option Nat := none
  outs : List Nat := []
  holdFrom : Option Nat := none
  holdCause : Nat := 0
  timer : Nat := 0
  soft : Bool := false
  accept : Bool := false
  clearTable : Bool := false
  manual : Nat := 0
  wait : Nat := 0
  waitMode : Nat := 0
  spGood : Option Nat := none
  ffGood : Option Nat := none
  spHeld : Bool := false
  ffHeld : Bool := false
  sat : Bool := false
  tabUsed : Bool := false
  lastRun : Option Nat := none
  missTick : Option Nat := none
  preset : Bool := false
  entry : Bool := false
  fenceTick : Option Nat := none
  down : Bool := false
  send : Bool := false
  deriving DecidableEq, Repr

/-- The end of a seating window (R473 to R475): result and event as `SEAT_RESULT` and `SEAT_EVENT` show them, the tick
and delay shown, the tick it ended in and the instant its window began. -/
structure SeatEnd where
  result : Nat
  event : Nat
  tick : Nat
  delay : Nat
  ended : Nat
  start : Nat
  deriving DecidableEq, Repr

/-- A valve channel beside its entries (R459 to R479). `host`, `eng` and `plant` are the demands of the three owners,
`fresh` the owners (1 plant, 2 engine, 3 host) whose demand arrived since the last update. While the channel queues,
`under` is the phase it keeps. Instants are ps: of the phase's start, of the entry into the queue, of the update that
latched the demand, of the first short. `seat` is the open window (event, start), `seatEnd` a window's end not
yet shown; `temp` the switch's temperature in °C as last reported; `fenceTick` a fenced channel whose output waits for
a spare; `switching` a spare's output and the instant its switch began to move; `peakCut` and `peakShort` are bits
of `VALVE_STATUS`. -/
structure Valve where
  host : Nat := 0
  eng : Option Nat := none
  plant : Option Nat := none
  fresh : List Nat := []
  restart : Bool := false
  under : Nat := 0
  phaseFrom : Nat := 0
  queuedAt : Nat := 0
  latchedAt : Nat := 0
  seat : Option (Nat × Nat) := none
  seatEnd : Option SeatEnd := none
  peakCut : Bool := false
  peakShort : Bool := false
  shorts : Nat := 0
  retryAt : Option Nat := none
  temp : Nat := 0
  fenceTick : Option Nat := none
  switching : Option (Nat × Nat) := none
  deriving DecidableEq, Repr

/-- A bank of four valve channels: the queue in the order of the demands, whether its head has waited 2.0 ms, the
turn's longest wait in ps, and whether an over-current holds its high side off (R468 to R470, R476). -/
structure Bank where
  queue : List Nat := []
  long : Bool := false
  waitMax : Nat := 0
  fault : Bool := false
  deriving DecidableEq, Repr

/-- A fan channel beside its entries (R491 to R504); fans 28 to 33 are the internal fans 0 to 5. `tInt`, `integ` and
`v` are the F32 codes of R494, `crossing` its band_crossing, `held` the voltage of the last run with tach. `started`
tells that the full-speed ramp of a staggered order has begun, `limFrom` since when the converter limits, `hub` the
speed and sample tick the loop engines read. -/
structure Fan where
  eng : Option Nat := none
  engFull : Bool := false
  phaseFrom : Nat := 0
  kicks : Nat := 0
  tInt : Nat := 0
  integ : Nat := 0
  v : Nat := 0
  crossing : Bool := false
  sat : Bool := false
  raised : Bool := false
  held : Nat := 0
  lastEdge : Option Nat := none
  edgeRuns : Nat := 0
  limFrom : Option Nat := none
  temp : Nat := 0
  started : Bool := false
  faultAt : Nat := 0
  lastRun : Option Nat := none
  hub : Option (Nat × Nat) := none
  fenceTick : Option Nat := none
  switching : Option (Nat × Nat) := none
  deriving DecidableEq, Repr

/-- A receive object beside its entries (R517 to R522): the instant of the last match, or of its enabling; whether a
frame has matched since; and the copy in the hub, tick and data. -/
structure RxObj where
  seen : Bool := false
  lastAt : Nat := 0
  hub : Option (Nat × Bytes) := none
  deriving DecidableEq, Repr

/-- A transmit object beside its entries (R525 to R531): whether its data was written since the last actuator update,
the pending frame's data with the tick it was first queued in, whether the frame on the bus is to be followed by another,
whether it is pending for its periodic due alone, and the last frame's bus time in ps. -/
structure TxObj where
  written : Bool := false
  pending : Option Bytes := none
  since : Nat := 0
  again : Bool := false
  periodic : Bool := false
  sent : Bool := false
  aborted : Bool := false
  last : Option Bytes := none
  time : Nat := 0
  deriving DecidableEq, Repr

/-- A field bus port beside its entries (R528 to R538): the frame on the bus, with its object; the tick in which a
rejoin takes effect; when integration or recovery began; the alone state's entry, its last probe and a probe asked for;
suppression with the boundaries for which its end conditions held; and of the load window's ticks, newest first, their
length, busy time and the time of the dues skipped. -/
structure FbPort where
  bus : Option (Nat × Bytes) := none
  rejoin : Option Nat := none
  since : Nat := 0
  aloneFrom : Nat := 0
  probed : Nat := 0
  probeNow : Bool := false
  suppressed : Bool := false
  clearRun : Nat := 0
  window : List (Nat × Nat × Nat) := []
  skipped : Nat := 0
  loadSum : Rat := 0
  loadTicks : Nat := 0
  deriving DecidableEq, Repr

/-- The IOC and the hub's side of it. `feed` is the actuator feed in mV as last reported. `stagger` lists the fans of a
staggered order that have not started, the last having started at `staggerAt`; `watchdog` is the instant at which the
watchdog took the fans, `restFans` tells that the rest owner's order has begun, `ifanWait` is the spare internal fan
that has yet to run, `ifanNone` tells that there was none. The last ticks of sensor delivery, hand-off and actuator update stand in `delivered`, `handed`, `updated`. -/
structure Ioc where
  linkLost : Bool := false
  lanesFailed : List Nat := []
  engines : AMap Eng := []
  valves : AMap Valve := []
  banks : AMap Bank := []
  fans : AMap Fan := []
  rx : AMap RxObj := []
  tx : AMap TxObj := []
  ports : AMap FbPort := []
  feed : Nat := 48000
  valvesLow : Bool := false
  fansLow : Bool := false
  stagger : List Nat := []
  staggerAt : Nat := 0
  watchdog : Option Nat := none
  restFans : Bool := false
  ifanWait : Option Nat := none
  ifanNone : Bool := false
  delivered : Option Nat := none
  handed : Option Nat := none
  updated : Option Nat := none
  deriving DecidableEq, Repr

/-- The whole module. `latched` lists the latch bits (entry key, bit) whose event came in the tick in progress (R11);
`freeCtr` numbers the free values drawn so far and is the model's own; `stancePending` lists the stances that wait for
their turn boundary (R34). -/
structure State where
  now : Nat := 0
  regs : AMap Nat := []
  fram : Fram := {}
  freeCtr : Nat := 0
  latched : List (Nat × Nat) := []
  stancePending : AMap Nat := []
  recorder : Recorder := {}
  wheel : Wheel := {}
  phases : AMap Phase := []
  port : Port := {}
  dict : Dict := {}
  start : Start := {}
  wear : Wear := {}
  elec : Elec := {}
  fabric : Fabric := {}
  stackMap : AMap Stack := []
  guests : AMap Guest := []
  desk : Desk := {}
  guard : Guard := {}
  progs : AMap Prog := []
  loader : Loader := {}
  row : RowP := {}
  plant : Plant := {}
  ioc : Ioc := {}
  pending : List Instr := []
  deriving DecidableEq, Repr

/-- The module right after reset: no power given, nothing started, FRAM as made, the queue empty. -/
def State.reset : State := {}

end Sys2Proof.Machine
end

