-- ==== Sys2Proof/Machine/Ops.lean ====
section
/-! DEFINITION. The named operations every chapter shares: time, dictionary registers, latches, condition records,
free values and the egress queues. -/

namespace Sys2Proof.Machine

/-! ### Time (R16) -/

/-- One microsecond, millisecond and second in ps. -/
abbrev us : Nat := 1000000
abbrev ms : Nat := 1000000000
abbrev sec : Nat := 1000000000000

/-- A command at instant `t`: time never runs back. -/
def State.at (s : State) (t : Nat) : State := { s with now := max s.now t }

/-- The outcome of a command that leaves `s`. -/
abbrev done (s : State) : Host.Outcome State Fault Refusal := .next s

/-- Apply `f` when `b` holds; an event whose condition does not hold changes nothing. -/
def State.when (s : State) (b : Bool) (f : State → State) : State := if b then f s else s

/-- The fraction of the tick in progress that has passed at instant `x`, in 1/65,536 tick, rounded down (R41). -/
def State.fracAt (s : State) (x : Nat) : Nat :=
  if s.wheel.tickLen = 0 then 0 else (x - s.wheel.tickStart) * 65536 / s.wheel.tickLen

/-! ### Registers -/

/-- The value of an entry. -/
def State.get (s : State) (e : Ent) : Nat := s.regs.getD e.key e.dflt

/-- The value of unit `u` of a per-unit entry (R137). -/
def State.getU (s : State) (e : Ent) (u : Nat) : Nat := s.regs.getD (e.key + 256 * u) e.dflt

/-- Write an entry. -/
def State.set (s : State) (e : Ent) (v : Nat) : State := { s with regs := s.regs.put e.key v e.dflt }

/-- Write unit `u` of a per-unit entry. -/
def State.setU (s : State) (e : Ent) (u v : Nat) : State :=
  { s with regs := s.regs.put (e.key + 256 * u) v e.dflt }

/-- Count `n` events on a U64 counter. -/
def State.add (s : State) (e : Ent) (n : Nat) : State := s.set e ((s.get e + n) % 2 ^ 64)

/-- Count one event on a U64 counter. -/
def State.inc (s : State) (e : Ent) : State := s.add e 1

/-- Count `n` events on a per-unit U64 counter. -/
def State.addU (s : State) (e : Ent) (u n : Nat) : State := s.setU e u ((s.getU e u + n) % 2 ^ 64)

/-- Count one event on a per-unit U64 counter. -/
def State.incU (s : State) (e : Ent) (u : Nat) : State := s.addU e u 1

/-- The value of an entry that is in force: the one before a write that has yet to take effect (R110). -/
def State.eff (s : State) (e : Ent) : Nat :=
  match s.dict.held.get e.key with
  | some (old, _, _) => old
  | none => s.get e

/-- As `eff`, for unit `u`. -/
def State.effU (s : State) (e : Ent) (u : Nat) : Nat :=
  match s.dict.held.get (e.key + 256 * u) with
  | some (old, _, _) => old
  | none => s.getU e u

/-- The held values of a kind are released: what is stored takes effect (R110). -/
def State.releaseHeld (s : State) (kind : Nat) : State :=
  { s with dict := { s.dict with held := s.dict.held.filter fun p => p.2.2.1 != kind } }

/-- The tick in progress and the ticks of a turn. -/
abbrev State.tick (s : State) : Nat := s.wheel.tick
abbrev State.turn (s : State) : Nat := s.wheel.turn
def State.ticksPerTurn (s : State) : Nat := s.get E.WHEEL_TICKS_ACTIVE

/-- Whether the module is in the rest stance (R39). -/
def State.inRest (s : State) : Bool := s.get E.STANCE_ACTIVE == 3

/-! ### Free values -/

/-- A value the spec leaves open: nothing is known of it. -/
def State.freeVal (s : State) : Nat := Config.freeValue s.freeCtr

/-- The state after one free value is drawn. -/
def State.drawn (s : State) : State := { s with freeCtr := s.freeCtr + 1 }

/-! ### Condition records (R602 to R607, R614) -/

/-- Whether two records have one source and key. -/
def Cond.same (a b : Cond) : Bool :=
  a.index == b.index && a.sub == b.sub && a.bit == b.bit && a.key == b.key

/-- `KEY` of unit `n` of kind `k` (R603). -/
def condKey (k n : Nat) : Nat := k * 0x1000000 + n

/-- The record with a further episode folded in (R605). -/
def Cond.fold (c : Cond) (tick : Nat) (isOpen : Bool) : Cond :=
  { c with
    rep := satBytes 4 (c.rep + 1), count := satBytes 4 (c.count + 1), last := tick
    dur := satBytes 4 (tick - c.start), flags := putBit c.flags 0 isOpen }

/-- The record when its latest episode ends. -/
def Cond.close (c : Cond) (tick : Nat) : Cond :=
  { c with dur := satBytes 4 (tick - c.start), flags := clrBit c.flags 0 }

/-- Whether the staging queue has an entry that a record of this key may take (R606). -/
def Recorder.room (r : Recorder) (key : Nat) : Bool :=
  decide (r.staged.length < 64) &&
    (key == 0 || decide ((r.staged.filter fun x => x.cond.key != 0).length < 56))

/-- Replace what is staged under the source and key of `c`. -/
def Recorder.restage (r : Recorder) (c : Cond) (ends : Nat) : Recorder :=
  { r with staged := r.staged.map fun x => if x.cond.same c then { x with cond := c, ends := ends } else x }

/-- Put the fold table's record of this source and key at `c`; a full table drops the key that ended earliest. -/
def Recorder.keep (r : Recorder) (c : Cond) (ends : Nat) : Recorder :=
  if r.folds.any fun f => f.cond.same c then
    { r with folds := r.folds.map fun f => if f.cond.same c then { cond := c, ends := ends } else f }
  else if r.folds.length < 4096 then { r with folds := r.folds ++ [{ cond := c, ends := ends }] }
  else
    match minBy FoldKey.ends r.folds with
    | none => { r with folds := [{ cond := c, ends := ends }] }
    | some f => { r with folds := (r.folds.filter fun g => !g.cond.same f.cond) ++ [{ cond := c, ends := ends }] }

/-- An arrival that finds no staging entry is lost (R607); the `EVENTS_LOST` record itself comes when the queue
next empties. -/
def State.condLost (s : State) (c : Cond) : State :=
  let r := s.recorder
  let r := if r.lost = 0 then { r with lostFirst := c, lostFirstTick := s.tick } else r
  let s : State := { s with recorder := { r with lost := satBytes 4 (r.lost + 1), lostLastTick := s.tick } }
  (s.inc E.COND_LOST).set E.REC_LATCHES (setBit (s.get E.REC_LATCHES) 4)

/-- A condition: an episode of `c`'s source and key begins (R605, R606). It folds into a staged record or into a
record of the fold table when it starts no more than `COND_FOLD_TICKS` after the last one ended, and takes a new
record otherwise. `isOpen` is set for an episode that its source ends later. -/
def State.cond (s : State) (c : Cond) (isOpen : Bool) : State :=
  if !s.recorder.running then s else
  let tick := s.tick
  let near (ends : Nat) : Bool := decide (tick ≤ ends + s.eff E.COND_FOLD_TICKS)
  match s.recorder.staged.find? fun x => x.cond.same c && near x.ends with
  | some x =>
    let s' : State := { s with recorder := s.recorder.restage (x.cond.fold tick isOpen) tick }
    s'.inc E.COND_FOLDED
  | none =>
    match s.recorder.folds.find? fun f => f.cond.same c && near f.ends with
    | some f =>
      if s.recorder.room c.key then
        let c' := f.cond.fold tick isOpen
        let r := s.recorder.keep c' tick
        let s' : State :=
          { s with recorder := { r with staged := r.staged ++ [{ cond := c', isNew := false, ends := tick }] } }
        s'.inc E.COND_FOLDED
      else s.condLost c
    | none =>
      if s.recorder.room c.key then
        let c' := { c with start := tick, last := tick, count := 1, stance := s.get E.STANCE_ACTIVE
                           flags := putBit c.flags 0 isOpen }
        { s with recorder := { s.recorder with
            staged := s.recorder.staged ++ [{ cond := c', isNew := true, ends := tick }] } }
      else s.condLost c

/-- The episode of `c`'s source and key ends (R605): its record is rewritten in place; one whose opening was lost
is discarded. -/
def State.condEnd (s : State) (c : Cond) : State :=
  match s.recorder.staged.find? fun x => x.cond.same c && x.cond.flags.testBit 0 with
  | some x => { s with recorder := s.recorder.restage (x.cond.close s.tick) s.tick }
  | none =>
    match s.recorder.folds.find? fun f => f.cond.same c && f.cond.flags.testBit 0 with
    | some f =>
      if s.recorder.room c.key then
        let c' := f.cond.close s.tick
        let r := s.recorder.keep c' s.tick
        { s with recorder := { r with staged := r.staged ++ [{ cond := c', isNew := false, ends := s.tick }] } }
      else s.condLost c
    | none => s

/-- The source of a latch bit: entry `e` of unit `u`, bit `b`, with the `KEY` of the unit concerned. -/
def latchCond (e : Ent) (u b key : Nat) : Cond :=
  { index := (e.key + 256 * u) / 256, sub := (e.key + 256 * u) % 256, bit := b, key := key }

/-- A latch event (R9, R11): the bit sets and the condition record is staged. -/
def State.latchU (s : State) (e : Ent) (u b key : Nat) : State :=
  let k := e.key + 256 * u
  let s' : State :=
    { s.setU e u (setBit (s.getU e u) b) with latched := (k, b) :: s.latched.filter fun p => p != (k, b) }
  s'.cond (latchCond e u b key) false

/-- A latch event of a module-wide entry. -/
def State.latch (s : State) (e : Ent) (b : Nat) (key : Nat := 0) : State := s.latchU e 0 b key

/-- A latch event of unit `u` that begins an episode its source ends later (R605). -/
def State.latchOpenU (s : State) (e : Ent) (u b key : Nat) : State :=
  let k := e.key + 256 * u
  let s' : State :=
    { s.setU e u (setBit (s.getU e u) b) with latched := (k, b) :: s.latched.filter fun p => p != (k, b) }
  s'.cond (latchCond e u b key) true

/-- As `latchOpenU`, of a module-wide entry. -/
def State.latchOpen (s : State) (e : Ent) (b : Nat) (key : Nat := 0) : State :=
  s.latchOpenU e 0 b key

/-- The episode of a latch ends. -/
def State.latchEnd (s : State) (e : Ent) (u b key : Nat) : State := s.condEnd (latchCond e u b key)

/-- A record enters the last-gasp store (R614): the first 64 are kept; the overflow latch is an event when its bit
first sets. -/
def State.gasp (s : State) (c : Cond) : State :=
  if s.recorder.gasp.length < 64 then
    let l := s.recorder.gasp ++ [c]
    let s' : State := { s with recorder := { s.recorder with gasp := l } }
    s'.set E.LASTGASP_COUNT l.length
  else
    let s' := s.inc E.LASTGASP_OVERFLOW
    if (s.get E.REC_LATCHES).testBit 5 then s' else s'.latch E.REC_LATCHES 5

/-- A condition of R604 that is a last-gasp record: it is staged for the log and enters the store. -/
def State.lastGasp (s : State) (bit detail : Nat) : State :=
  let c : Cond := { index := 0x9002, bit := bit, flags := 2, detail := detail, start := s.tick, last := s.tick
                    count := 1, stance := s.get E.STANCE_ACTIVE }
  (s.cond c false).gasp c

/-! ### The rest stance (R37, R38) -/

/-- The module enters the rest stance with a cause: `STANCE_ACTIVE` reads 3 and the recorder writes a last-gasp
record. What the units do in it, they read from `STANCE_ACTIVE`. Before step 14 the rest stance already holds and
`REST_CAUSE` stays 0 (R623); a restart order shows its own cause in any stance (R640). -/
def State.enterRest (s : State) (cause : Nat) : State :=
  if s.inRest then
    if cause = 3 && s.get E.REST_CAUSE != 0 then s.set E.REST_CAUSE 3 else s
  else ((s.set E.STANCE_ACTIVE 3).set E.REST_CAUSE cause).lastGasp 2 (cause * 2 ^ 56)

/-! ### Egress (R89 to R94) -/

/-- The size of a datagram in its queue: IPv6 and UDP headers and payload. -/
def Dgram.size (d : Dgram) : Nat := d.bytes.length + 48

/-- The length of a datagram's frame, FCS included, at least the Ethernet minimum. -/
def Dgram.frame (d : Dgram) : Nat := max 64 (d.size + 18)

/-- Whether the queue of the datagram's class has room for it (R93). -/
def Port.room (p : Port) (d : Dgram) : Bool :=
  let q := p.egress.filter fun x => x.cls == d.cls
  if d.cls = 0 then true
  else if d.cls ≤ 2 then decide (sumOf Dgram.size q + d.size ≤ 8388608)
  else decide (q.length < 256)

/-- Whether the link is up (R80). -/
def State.linkUp (s : State) : Bool := s.port.step == 7

/-- Put a datagram at the end of its class queue. While the link is down nothing is queued (R94); a datagram of
class 1 or 2 that finds no room is dropped and counted (R93). -/
def State.send (s : State) (d : Dgram) : State :=
  if !s.linkUp then s
  else if s.port.room d then { s with port := { s.port with egress := s.port.egress ++ [d] } }
  else if d.cls ≤ 2 then s.inc E.DROP_EGRESS
  else s

/-- Whether `send` would queue the datagram. -/
def State.canSend (s : State) (d : Dgram) : Bool := s.linkUp && s.port.room d

/-- A received datagram leaves the ingress list when its unit takes it. -/
def State.take (s : State) (rx : Rx) : State :=
  { s with port := { s.port with ingress := s.port.ingress.erase rx } }

end Sys2Proof.Machine
end

