-- ==== Sys2Proof/Machine/StartOps.lean ====
section
/-! DEFINITION. Moving the start sequence from step to step and keeping the boot diary (R624, R635, R638). -/

namespace Sys2Proof.Machine

/-- The step bits of the diary's `STEP_STATE` set to `v` for step `k` (R635). -/
def Diary.setStep (d : Diary) (k v : Nat) : Diary :=
  let old := bits d.stepState (2 * k - 1) (2 * k - 2)
  { d with stepState := d.stepState + v * 2 ^ (2 * k - 2) - old * 2 ^ (2 * k - 2) }

/-- What the diary shows of step `k`: 0 not begun, 1 begun, 2 passed, 3 failed. -/
def Diary.stepOf (d : Diary) (k : Nat) : Nat := bits d.stepState (2 * k - 1) (2 * k - 2)

/-- The entry of this start is written where the diary is kept, once step 3 has opened it. -/
def State.putDiary (s : State) (d : Diary) : State :=
  { s with
    start := { s.start with diary := d }
    fram := if s.start.diaryInFram && decide (3 ≤ d.reached) then
        match s.fram.diary with
        | x :: xs => if x.number = d.number then { s.fram with diary := d :: xs } else s.fram
        | [] => s.fram
      else s.fram }

/-- Step `k` begins. -/
def State.beginStep (s : State) (k : Nat) : State :=
  let d := (s.start.diary.setStep k 1)
  let s : State := { s with start := { s.start with step := k, from_ := s.now } }
  (s.putDiary { d with reached := max d.reached k }).set E.START_STAGE k

/-- Milliseconds since power good. -/
def State.msSincePower (s : State) : Nat := (s.now - s.start.powerGood) / ms

/-- Step `k` has passed, and the next one begins; after step 14 the start is complete. -/
def State.endStep (s : State) (k : Nat) : State :=
  let d := s.start.diary.setStep k 2
  let d := { d with ends := modAt d.ends (k - 1) fun _ => satBytes 2 s.msSincePower }
  if k < 14 then (s.putDiary d).beginStep (k + 1)
  else
    let s : State := { s with start := { s.start with step := 15, from_ := s.now } }
    (s.putDiary { d with endState := 1 }).set E.START_STAGE 15

/-- Step `k` has failed. A required step leaves the sequence waiting for its retry (R638). -/
def State.failStep (s : State) (k : Nat) (required : Bool) : State :=
  let d := s.start.diary.setStep k 3
  if required then
    let s : State := { s with start := { s.start with failedAt := some s.now } }
    s.putDiary { d with endState := 3 }
  else s.putDiary d

/-- The diary's entries before this start's, newest first; none when the diary could not be read (R636). -/
def State.prevDiaries (s : State) : List Diary := if s.start.diaryInFram then s.fram.diary.drop 1 else []

/-- What the entries of `f` leave out at the next start (R636): those of the newest entry, and, until a start has
completed, those of the entries before it. -/
def leftOutBy (f : Diary → Nat) : List Diary → Nat
  | [] => 0
  | d :: ds => f d ||| (if d.endState = 1 then 0 else leftOutBy f ds)

/-- A unit of kind `k` is entered in this start's diary as failed (R635). -/
def Diary.fail (d : Diary) (k n : Nat) : Diary :=
  match k with
  | 2 => { d with arrays := setBit d.arrays n }
  | 8 => { d with ain := setBit d.ain n }
  | 12 => { d with channels := setBit d.channels n }
  | 15 => { d with keepers := setBit d.keepers n }
  | 16 => { d with lanes := setBit d.lanes n }
  | _ => d

/-- The bits of a kind in a diary entry. -/
def Diary.failed (d : Diary) (k : Nat) : Nat :=
  match k with
  | 2 => d.arrays | 8 => d.ain | 12 => d.channels | 15 => d.keepers | 16 => d.lanes | _ => 0

/-- Whether the sequence is in step `k` and runs. -/
def State.inStep (s : State) (k : Nat) : Bool :=
  s.start.step == k && s.elec.power == 1 && s.start.failedAt == none

/-- Whether firmware runs: step 11 has ended and power stands (R38). -/
def State.fwRuns (s : State) : Bool := s.dict.isOpen && s.elec.power == 1

end Sys2Proof.Machine
end

