-- ==== Sys2Proof/Machine/DictCore.lean ====
section
/-! DEFINITION. The front end of the dictionary server (R101 to R134): the transaction header, the length, session,
tag, sequence and cache tests, the reply and its refusals. Each operation of the opcode table serves its own
requests through `State.serve`. -/

namespace Sys2Proof.Machine

/-- A dictionary request (R101). `length` is the header's LENGTH, `body` what lies between header and tag. -/
structure Req where
  rx : Rx
  version : Nat
  op : Nat
  flags : Nat
  session : Nat
  seq : Nat
  length : Nat
  body : Bytes
  tag : Bytes
  deriving DecidableEq, Repr

/-- The request a datagram of at least 16 bytes spells. -/
def Req.parse (rx : Rx) : Req :=
  let b := rx.bytes
  let flags := field b 2 2
  let tagLen := if flags % 2 = 1 then 16 else 0
  let stop := max 16 (b.length - tagLen)
  { rx := rx, version := field b 0 1, op := field b 1 1, flags := flags, session := field b 4 4
    seq := field b 8 4, length := field b 14 2, body := slice b 16 (stop - 16), tag := b.drop stop }

/-- Whether a tag stands behind the body. -/
def Req.tagged (q : Req) : Bool := q.flags % 2 == 1

/-- INDEX and SUB of a READ, WRITE or EXEC body, its TYPE octet and the value or argument block. -/
def Req.index (q : Req) : Nat := field q.body 0 2
def Req.sub (q : Req) : Nat := field q.body 2 1
def Req.ty (q : Req) : Nat := field q.body 3 1
def Req.value (q : Req) : Bytes := q.body.drop 4

/-- The status codes of R134 that the operations below name. -/
abbrev St.ok : Nat := 0
abbrev St.unknownIndex : Nat := 1
abbrev St.unknownSub : Nat := 2
abbrev St.readOnly : Nat := 3
abbrev St.unitRunning : Nat := 4
abbrev St.keyRequired : Nat := 5
abbrev St.typeMismatch : Nat := 6
abbrev St.outOfRange : Nat := 7
abbrev St.badLength : Nat := 8
abbrev St.unknownOp : Nat := 9
abbrev St.badVersion : Nat := 0xA
abbrev St.restStance : Nat := 0xB
abbrev St.busy : Nat := 0xC
abbrev St.notCommand : Nat := 0xD
abbrev St.unknownTable : Nat := 0xE
abbrev St.rowRange : Nat := 0xF
abbrev St.subFull : Nat := 0x10
abbrev St.sessionUnknown : Nat := 0x11
abbrev St.seqReplay : Nat := 0x12
abbrev St.keyUnknown : Nat := 0x13
abbrev St.signatureBad : Nat := 0x14
abbrev St.sessionsFull : Nat := 0x15
abbrev St.conflict : Nat := 0x16
abbrev St.zeroRefused : Nat := 0x17

/-- The place of a code in the ranking of R134: `ZERO_REFUSED` stands in the place of `OUT_OF_RANGE`, before it. -/
def codeRank (c : Nat) : Nat := if c = St.zeroRefused then 13 else 2 * c

/-- The code to report of those that apply (R134). -/
def lowestCode (codes : List Nat) : Option Nat := minBy codeRank codes

/-- `c` where `b` holds. -/
def codeIf (b : Bool) (c : Nat) : List Nat := if b then [c] else []

/-- What an operation answers: its status, its body, the session number of its header, the key it is tagged
with. -/
structure Ans where
  status : Nat
  body : Bytes := []
  session : Nat
  key : Option Nat := none
  deriving DecidableEq, Repr

/-- The first 16 bytes of HMAC-SM3 over header and body (R129). -/
def tagOf (key : Nat) (bytes : Bytes) : Bytes := (beBytes 32 (Config.hmacSm3 key bytes)).take 16

/-- Reply bytes (R101, R102): `extra` are the flags beside TAGGED. -/
def replyBytes (op seq extra : Nat) (a : Ans) : Bytes :=
  let h := [1] ++ beBytes 1 (op + 0x80) ++ beBytes 2 (extra + if a.key.isSome then 1 else 0)
    ++ beBytes 4 a.session ++ beBytes 4 seq ++ beBytes 2 a.status ++ beBytes 2 a.body.length ++ a.body
  match a.key with
  | some k => h ++ tagOf k h
  | none => h

/-- The session of a number. -/
def State.session (s : State) (id : Nat) : Option Session :=
  if id = 0 then none else s.dict.sessions.find? fun x => x.id == id

/-- The sessions and the entry that counts the open ones (R135). -/
def State.setSessions (s : State) (l : List Session) : State :=
  let s' : State := { s with dict := { s.dict with sessions := l } }
  s'.set E.SESSIONS_OPEN (l.filter fun x => x.isOpen).length

/-- A session ends; its subscriptions end with it (R125). -/
def State.closeSession (s : State) (id : Nat) : State :=
  let s := s.setSessions (s.dict.sessions.filter fun x => x.id != id)
  { s with dict := { s.dict with subs := s.dict.subs.filter fun x => x.session != id } }

/-- A dictionary datagram leaves in class 4 to an address and port (R105). A reply that finds the queue full is
dropped, counted and latched (R93, R136). -/
def State.sendReply (s : State) (dst dport : Nat) (bytes : Bytes) : State :=
  let d : Dgram := { cls := 4, dst := dst, sport := s.eff E.UDP_PORT_DICT, dport := dport, tag := 1, bytes := bytes }
  if s.linkUp && !s.port.room d then (s.inc E.DROP_EGRESS).latch E.DICT_LATCHES 0
  else s.send d

/-- The reply cache with an entry added; it holds the last 64 (R111). -/
def Dict.remember (d : Dict) (c : Cached) : Dict :=
  let l := d.cache ++ [c]
  { d with cache := l.drop (l.length - 64) }

/-- Whether a cache entry has the request's key (R111). -/
def Cached.keyIs (c : Cached) (q : Req) : Bool :=
  c.src == q.rx.src && c.sport == q.rx.sport && c.session == q.session && c.op == q.op && c.seq == q.seq

/-- A copy of a cached reply: CACHED is set and the tag is computed afresh (R111). -/
def cachedCopy (reply : Bytes) (key : Option Nat) : Bytes :=
  let flags := field reply 2 2
  let core := if flags % 2 = 1 then reply.take (reply.length - 16) else reply
  let core := slice core 0 2 ++ beBytes 2 (setBit flags 3) ++ core.drop 4
  match key with
  | some k => if flags % 2 = 1 then core ++ tagOf k core else core
  | none => core

/-- The body of a refused request on an entry (R108): the entry's index and subindex and the octet `last`; empty where
the request is too short to name one. -/
def Req.echo (q : Req) (last : Nat) : Bytes :=
  if q.body.length < 4 then [] else slice q.body 0 3 ++ beBytes 1 last

/-- What serving a request gives: codes that refuse it; else the answer, none for one that is made later. -/
structure Service where
  mine : Req → State → Bool
  codes : Req → Bool → State → List Nat
  refused : Req → State → Bytes
  run : Req → Bool → State → Option Ans × State

/-- Answer a request, keeping the reply in the cache (READ_BULK takes no part, R111). -/
def State.answer (s : State) (q : Req) (a : Ans) : State :=
  let bytes := replyBytes q.op q.seq 0 a
  let c : Cached := { src := q.rx.src, sport := q.rx.sport, session := q.session, op := q.op, seq := q.seq
                      body := q.body, at_ := s.now, reply := some bytes }
  let s : State := if q.op = 3 then s else { s with dict := s.dict.remember c }
  s.sendReply q.rx.src q.rx.sport bytes

/-- Refuse a request with a status code (R108). -/
def State.refuse (s : State) (q : Req) (code : Nat) (body : Bytes) (key : Option Nat) : State :=
  (s.inc E.DICT_REFUSED).answer q { status := code, body := body, session := q.session, key := key }

/-- A request of an open session with a missing or wrong tag (R130): dropped and counted; 16 within 1 s close the
session. -/
def State.tagFail (s : State) (x : Session) : State :=
  let fails := s.now :: x.tagFails.filter fun t => decide (s.now < t + sec)
  let s := s.inc E.TAG_FAILS
  if 16 ≤ fails.length then (s.closeSession x.id).latch E.DICT_LATCHES 2
  else s.setSessions (s.dict.sessions.map fun y => if y.id = x.id then { y with tagFails := fails } else y)

/-- What the checks of a request leave: it has been dealt with, or it is to be run, with whether its session is open. -/
inductive Screened where
  | dealt (s : State)
  | run (live : Bool) (s : State)

/-- A datagram taken as a request of the service (R103, R106, R125): the host has been heard. -/
def State.heard (s : State) (rx : Rx) : State :=
  let s := s.take rx
  ({ s with dict := { s.dict with hostHeard := s.now } } : State).inc E.DICT_REQUESTS

/-- A request within a session moves its `SEQ` mark and its idle time (R131, R132). -/
def State.markSeq (s : State) (x : Session) (seq : Nat) : State :=
  s.setSessions (s.dict.sessions.map fun y => if y.id = x.id then { y with lastSeq := some seq, since := s.now } else y)

/-- The checks of a request before it runs (R103 to R111, R130 to R134). The copy of a tagged reply needs the open session
whose key tags it afresh (R111). -/
def State.screen (s : State) (rx : Rx) (v : Service) : Screened :=
  let q := Req.parse rx
  if !s.fwRuns || rx.dport != s.eff E.UDP_PORT_DICT then .dealt s
  else if rx.bytes.length < 16 then .dealt ((s.take rx).inc E.DICT_REFUSED)
  else if !v.mine q s then .dealt s
  else if q.version ≠ 1 then .dealt ((s.heard rx).refuse q St.badVersion [] none)
  else
    let ses := s.session q.session
    let live := match ses with
      | some x => x.isOpen
      | none => false
    let keyOf : Option Nat := match ses with
      | some x => if x.isOpen then some x.key else none
      | none => none
    let bare := rx.bytes.take (rx.bytes.length - q.tag.length)
    let tagBad := match ses with
      | some x => x.isOpen && !(q.tagged && q.tag == tagOf x.key bare)
      | none => false
    if tagBad then match ses with
      | some x => .dealt ((s.take rx).tagFail x)
      | none => .dealt s
    else
      let usable (c : Cached) : Bool := match c.reply with
        | some r => field r 2 2 % 2 == 0 || keyOf.isSome
        | none => true
      let hit := if q.op = 3 then none else s.dict.cache.find? fun c => c.keyIs q && usable c
      let s := s.heard rx
      match hit with
      | some c =>
        if c.body == q.body || Config.sm3 c.body == Config.sm3 q.body then
          match c.reply with
          | some r => .dealt (s.sendReply rx.src rx.sport (cachedCopy r keyOf))
          | none => .dealt s
        else
          .dealt ((s.inc E.DICT_REFUSED).sendReply rx.src rx.sport
            (replyBytes q.op q.seq 0
              { status := St.seqReplay, body := v.refused q s, session := q.session, key := keyOf }))
      | none =>
        let lenBad := q.length != q.body.length ||
          rx.bytes.length != 16 + q.body.length + (if q.tagged then 16 else 0)
        let noSession := if q.op = 8 then (match ses with | some x => x.isOpen | none => true)
          else if q.op = 9 then !live
          else decide (q.session ≠ 0) && !live
        let old := match ses with
          | some x => x.isOpen && (match x.lastSeq with | some n => decide (q.seq ≤ n) | none => false)
          | none => false
        let s := match ses with
          | some x => if x.isOpen && !old then s.markSeq x q.seq else s
          | none => s
        let codes := codeIf lenBad St.badLength ++ codeIf noSession St.sessionUnknown
          ++ codeIf (old && q.op != 3) St.seqReplay ++ (if lenBad then [] else v.codes q live s)
        match lowestCode codes with
        | some c => .dealt (s.refuse q c (v.refused q s) (if noSession then none else keyOf))
        | none => .run live s

/-- Serve a request: what its checks leave, or what its run answers. -/
def State.serve (s : State) (rx : Rx) (v : Service) : State :=
  match s.screen rx v with
  | .dealt s => s
  | .run live s =>
    match v.run (Req.parse rx) live s with
    | (some a, s) => s.answer (Req.parse rx) a
    | (none, s) => s

/-- The answer OK with a body, tagged within a session. -/
def State.okAns (s : State) (q : Req) (body : Bytes) : Ans :=
  { status := St.ok, body := body, session := q.session
    key := match s.session q.session with
      | some x => if x.isOpen then some x.key else none
      | none => none }

/-- R133: a WRITE, WRITE_BULK or EXEC outside a session while `DICT_OPEN_WRITES` is 0, or any transaction on a K
entry outside one. -/
def State.keyCodes (s : State) (keyed isK writes : Bool) : List Nat :=
  codeIf (!keyed && (isK || (writes && s.get E.DICT_OPEN_WRITES == 0))) St.keyRequired

/-- The service of a command entry (R112, R113): an EXEC of entry `e` (units `units`, access K when `isK`) whose
argument block has `len` bytes, or any length that `codes` accepts when `len` is none. `arg` selects the requests
of one row of the opcode table. -/
def cmdService (e : Ent) (units : Nat) (isK : Bool) (len : Option Nat) (arg : Bytes → Bool)
    (keyFree : State → Bool) (codes : Nat → Bytes → State → List Nat)
    (run : Nat → Bytes → State → Bytes × State) : Service where
  mine q _ := q.op == 6 && decide (4 ≤ q.body.length) && decide (e.key / 256 ≤ q.index)
    && decide (q.index < e.key / 256 + units) && q.sub == e.key % 256 && arg q.value
  codes q keyed s :=
    (if keyFree s then [] else s.keyCodes keyed isK true)
      ++ (match len with
          | some n => if q.value.length ≠ n then [St.badLength] else codes (q.index - e.key / 256) q.value s
          | none => codes (q.index - e.key / 256) q.value s)
  refused q _ := q.echo 0
  run q _ s :=
    let a := s.okAns q []
    let (out, s') := run (q.index - e.key / 256) q.value s
    (some { a with body := slice q.body 0 3 ++ [0] ++ out }, s')

/-- Whether an argument block is the one octet `v`. -/
def argEq (v : Nat) (b : Bytes) : Bool := b.length == 1 && beNat b == v

/-- The blocks that the first row of a command entry serves: all but the values that have rows of their own. -/
def argFirst (others : List Nat) (b : Bytes) : Bool := !(b.length == 1 && others.contains (beNat b))

end Sys2Proof.Machine
end

