-- ==== Sys2Proof/Machine/Recorder.lean ====
section
/-! DEFINITION. The recorder (chapter 18): the log writer, histograms, extremes, rainflow counting, and its
commands. -/

namespace Sys2Proof.Machine

/-! ### The log (R606 to R612) -/

/-- A log position's page of 1,024 records (R590). -/
def pageOf (pos : Nat) : Nat := pos / 1024

/-- A staged record that cannot be logged (R608, R611): it is counted and enters the last-gasp store (R614). -/
def State.notLogged (s : State) (c : Cond) : State := (s.inc E.COND_NOT_LOGGED).gasp c

/-- A record leaves the head of the staging queue. -/
def Recorder.unstage (r : Recorder) : Recorder := { r with staged := r.staged.drop 1 }

/-- LOG_COMMIT (R606, R608, R609, R611): the writer commits the next staged record, 125 ns after the one before,
and reads it back. `readback` is false when the record read differs: the page is then failing, and the record waits
in the queue. -/
def execLogCommit (t : Nat) (readback : Bool) (s : State) : Host.Outcome State Fault Refusal :=
  let s := s.at t
  let r := s.recorder
  done <| s.when (r.running && decide (r.lastCommit + 125000 ≤ s.now)) fun s =>
    match r.staged with
    | [] => s
    | x :: _ =>
      let pos := if x.isNew then s.get E.LOG_NEXT else x.cond.pos
      let popped : State := { s with recorder := { r.unstage with lastCommit := s.now } }
      if r.stopped || r.logLost then popped.notLogged x.cond
      else if x.isNew && decide (16777216 ≤ pos) then
        let popped := if (s.get E.REC_LATCHES).testBit 0 then popped else popped.latch E.REC_LATCHES 0
        popped.notLogged x.cond
      else if r.failing.any fun f => f.1 == pageOf pos then s
      else if !readback then
        { s with recorder := { r with lastCommit := s.now, failing := r.failing ++ [(pageOf pos, s.tick)] } }
      else
        let c := { x.cond with pos := pos }
        let s : State :=
          { s with recorder := { (r.unstage.keep c x.ends) with lastCommit := s.now, log := r.log.set pos c } }
        if x.isNew then (s.set E.LOG_NEXT (pos + 1)).inc E.COND_WRITTEN else s

/-- EVENTS_LOST_RECORD (R607): when the queue next becomes empty, one record tells of the arrivals lost. -/
def execEventsLostRecord (t : Nat) (s : State) : Host.Outcome State Fault Refusal :=
  let s := s.at t
  let r := s.recorder
  done <| s.when (r.running && r.staged.isEmpty && decide (0 < r.lost)) fun s =>
    let f := r.lostFirst
    let c : Cond :=
      { index := 0x9002, bit := 0, start := r.lostFirstTick, last := r.lostFirstTick, count := r.lost, flags := 4
        dur := satBytes 4 (r.lostLastTick - r.lostFirstTick), stance := s.get E.STANCE_ACTIVE
        detail := f.index * 2 ^ 48 + f.sub * 2 ^ 40 + f.bit * 2 ^ 32 + f.key }
    { s with recorder := { r with lost := 0, staged := [{ cond := c, isNew := true, ends := r.lostLastTick }] } }

/-- LOG_PAGE_RETIRE (R610, R611): at the next tick boundary a failing page is copied to the lowest free spare page;
`damaged` are its positions that read back poisoned. With no spare page left the log stops. -/
def execLogPageRetire (t page : Nat) (damaged : List Nat) (s : State) : Host.Outcome State Fault Refusal :=
  let s := s.at t
  let r := s.recorder
  done <| s.when (r.failing.any fun f => f.1 == page && decide (f.2 < s.tick)) fun s =>
    let rest := r.failing.filter fun f => f.1 != page
    let spares := s.get E.LOG_SPARE_PAGES
    if spares = 0 then
      let s : State := { s with recorder := { r with failing := rest, stopped := true } }
      s.latch E.REC_LATCHES 2
    else
      let bad := damaged.filter fun p => pageOf p == page
      let s : State :=
        { s with recorder := { r with
            failing := rest, pageMap := r.pageMap.set page (492 - spares), damaged := r.damaged ++ bad
            log := r.log.filter fun p => !bad.contains p.1 } }
      let s := ((s.set E.LOG_SPARE_PAGES (spares - 1)).inc E.LOG_PAGES_RETIRED).add E.LOG_RECORDS_DAMAGED bad.length
      let k := E.REC_LATCHES
      let s : State := { s.set k (setBit (s.get k) 1) with latched := (k.key, 1) :: s.latched.filter (· != (k.key, 1)) }
      let c : Cond := { latchCond k 0 1 0 with detail := page }
      (s.cond c false).gasp
        { c with flags := 2, start := s.tick, last := s.tick, count := 1, stance := s.get E.STANCE_ACTIVE }

/-- A condition record's 64 bytes (R602). -/
def Cond.bytes (c : Cond) : Bytes :=
  beBytes 2 c.index ++ beBytes 1 c.sub ++ beBytes 1 c.bit ++ beBytes 4 c.key ++ beBytes 8 c.start ++ beBytes 4 c.dur
    ++ beBytes 4 c.ext ++ beBytes 8 c.extTick ++ beBytes 4 c.count ++ beBytes 4 c.rep ++ beBytes 8 c.last
    ++ beBytes 4 c.pos ++ beBytes 1 c.flags ++ beBytes 1 c.stance ++ [0, 0] ++ beBytes 8 c.detail

/-! ### Histograms (R592 to R596) -/

/-- The bin of a value (R594). -/
def histBin (lo width v : Nat) : Nat :=
  let x := f32Dy v
  let l := f32Dy lo
  let w := f32Dy width
  if x.lt l then 0
  else if (l.add (w.mul (Dy.int 62))).le x then 63
  else
    let q := Fmt.f32.div .down (Fmt.f32.round .down (x.sub l)) w
    min 63 (1 + q.floor.toNat)

/-- A tally increment (R326, R334). Counters stand at keys below `size` and saturate, counted at key `size`; a poisoned
counter, marked at `size + 2 + c`, takes the increment as its new value, counted at `size + 1`. -/
def tallyAdd (size : Nat) (m : AMap Nat) (c n : Nat) : AMap Nat :=
  if (AMap.get m (size + 2 + c)).isSome then
    let m := AMap.erase m (size + 2 + c)
    (AMap.set m (size + 1) (m.getD (size + 1) 0 + 1)).put c n 0
  else
    let v := m.getD c 0 + n
    let m := m.put c (satBytes 4 v) 0
    if satBytes 4 v < v then AMap.set m size (m.getD size 0 + 1) else m

/-- The counters with their two tallies of saturations and restarts taken off. -/
def tallyClean (size : Nat) (m : AMap Nat) : AMap Nat := AMap.erase (AMap.erase m size) (size + 1)

/-- A counter turns poisoned: it reads as zero until its next increment. -/
def tallyPoison (size : Nat) (m : AMap Nat) (c : Nat) : AMap Nat :=
  if (AMap.get m c).isSome then AMap.set (AMap.erase m c) (size + 2 + c) 1 else m

/-- A tally unit's own counters after `n` operations on `m`. -/
def State.tallied (s : State) (stack n size : Nat) (m : AMap Nat) : State :=
  let s := if n = 0 then s else s.addU E.TALLY_OPS stack n
  let s := if m.getD size 0 = 0 then s else s.addU E.TALLY_SATURATED stack (m.getD size 0)
  if m.getD (size + 1) 0 = 0 then s else s.addU E.TALLY_RESTARTS stack (m.getD (size + 1) 0)

/-- A histogram with one more value (R594, R595); a count lost to poison shows in its flags (R613). -/
def Hist.count (h : Hist) (v tick : Nat) : Hist :=
  let b := histBin h.lo h.width v
  let bins := tallyAdd 64 h.bins b 1
  let h := { h with bins := bins, flags := putBit h.flags 0 (bit h.flags 0 || decide (0 < bins.getD 65 0)) }
  let h := if f32IsNaN h.min || f32Lt v h.min then { h with min := v, minTick := tick } else h
  if f32IsNaN h.max || f32Lt h.max v then { h with max := v, maxTick := tick } else h

/-- A value of source `src` and select `sel` reaches every histogram that takes it (R593); NaN is not counted. -/
def State.histValue (s : State) (src sel v : Nat) : State :=
  if f32IsNaN v || !s.recorder.running || s.recorder.logLost then s else
  let takes (h : Hist) : Bool := h.source == src && (h.select == sel || src == 7 || src == 8 || src == 9)
  let hs := s.recorder.hists.map fun p => if takes p.2 then (p.1, p.2.count v s.tick) else p
  let s := (hs.filter fun p => takes p.2).foldl (fun s p => s.tallied (s.get E.LOG_STACK) 1 64 p.2.bins) s
  let hs := hs.map fun p => (p.1, { p.2 with bins := tallyClean 64 p.2.bins })
  { s with recorder := { s.recorder with hists := hs } }

/-- Several values of one source, each with its select. -/
def State.histValues (s : State) (src : Nat) (l : List (Nat × Nat)) : State :=
  l.foldl (fun s p => s.histValue src p.1 p.2) s

/-- Whether `HIST_SELECT` lies in the range of its source (R593, R553). -/
def quantityOk (q : Nat) : Bool :=
  decide (q < 160) || (decide (0x100 ≤ q) && decide (q < 0x110)) || (decide (0x200 ≤ q) && decide (q < 0x210))
    || q == 0x300 || q == 0x301 || q == 0x400 || q == 0x401

def histSelectOk (src sel : Nat) : Bool :=
  match src with
  | 1 => decide (sel < 256)
  | 2 => decide (sel < 256)
  | 3 => decide (sel < 256)
  | 4 => quantityOk sel
  | 5 => decide (sel < 80)
  | 6 => decide (sel < 256)
  | _ => true

/-- The service of `execHistSet`. -/
def histSetService : Service :=
  cmdService E.HIST_SET 1 false (some 16) (argFirst []) (fun _ => false)
    (fun _ b s =>
      let src := field b 2 1
      let lo := field b 8 4
      let w := field b 12 4
      codeIf (decide (s.recorder.histCountNow ≤ field b 0 2) || decide (9 < src) || !f32Finite lo || !f32Finite w
        || decide ((f32Dy w).m ≤ 0) || !histSelectOk src (field b 4 2)) St.outOfRange)
    (fun _ b s =>
      let h : Hist := { source := field b 2 1, select := field b 4 2, lo := field b 8 4, width := field b 12 4 }
      ([], { s with recorder := { s.recorder with histDue := s.recorder.histDue ++ [(field b 0 2, s.tick + 1, h)] } }))

/-- HIST_SET (R596): a histogram's source and binning, in force and cleared at the next tick boundary. -/
def execHistSet (t : Nat) (rx : Rx) (s : State) : Host.Outcome State Fault Refusal :=
  done ((s.at t).serve rx histSetService)

/-! ### Rainflow (R334, R335, R598, R599) -/

/-- The matrix cell of a cycle of range `r` and doubled mean `m2` (R598): row 16 r + k. -/
def rfCell (rangeStep : Nat) (meanLo : Int) (meanStep : Nat) (r : Nat) (m2 : Int) : Nat :=
  let rb := min 15 (r / max 1 rangeStep)
  let kb := max 0 (min 15 (Int.fdiv (m2 - 2 * meanLo) (2 * (max 1 meanStep : Nat))))
  16 * rb + kb.toNat

/-- Add to a matrix cell (R334). -/
def addCell (cells : AMap Nat) (c n : Nat) : AMap Nat := tallyAdd 256 cells c n

/-- Close four-point cycles at the newest end of the residue, newest point first (R335): each adds 2. -/
def rfClose (rs : Nat) (ml : Int) (mst : Nat) : Nat → AMap Nat → List Int → AMap Nat × List Int
  | 0, cells, pts => (cells, pts)
  | n + 1, cells, pts =>
    match pts with
    | d :: c :: b :: a :: rest =>
      let inner := (c - b).natAbs
      if inner ≤ (b - a).natAbs && inner ≤ (d - c).natAbs then
        rfClose rs ml mst n (addCell cells (rfCell rs ml mst inner (b + c)) 2) (d :: a :: rest)
      else (cells, pts)
    | _ => (cells, pts)

/-- One RAINFLOW operation (R334, R335, R598): a change of direction is a turning point when the value has moved at
least `gate` from the previous one; a full residue counts its two oldest points as a half cycle. -/
def Rainflow.value (f : Rainflow) (gate rs : Nat) (ml : Int) (mst : Nat) (v : Int) : Rainflow :=
  let new := f.residue.reverse
  let pts := match new with
    | [] => [v]
    | [a] => if gate ≤ (v - a).natAbs then [v, a] else [a]
    | b :: a :: rest =>
      let up := decide (a < b)
      if (up && decide (b ≤ v)) || (!up && decide (v ≤ b)) then v :: a :: rest
      else if gate ≤ (v - b).natAbs then v :: b :: a :: rest
      else b :: a :: rest
  let (cells, pts) := rfClose rs ml mst 16 f.cells pts
  if 32 < pts.length then
    match pts.reverse with
    | a :: b :: _ =>
      { cells := addCell cells (rfCell rs ml mst (b - a).natAbs (a + b)) 1, residue := (pts.reverse.drop 2) }
    | l => { cells := cells, residue := l }
  else { cells := cells, residue := pts.reverse }

/-- The counts that a read returns: the residue's consecutive pairs folded in (R599). -/
def Rainflow.folded (f : Rainflow) (rs : Nat) (ml : Int) (mst : Nat) : AMap Nat :=
  (f.residue.zip (f.residue.drop 1)).foldl
    (fun cells p => addCell cells (rfCell rs ml mst (p.2 - p.1).natAbs (p.1 + p.2)) 1) f.cells

/-! ### Commands (R618) -/

/-- The service of one value of `REC_CMD`. -/
def recCmd (v : Nat) (mine : Bytes → Bool) : Service :=
  cmdService E.REC_CMD 1 true (some 1) mine (fun _ => false)
    (fun _ b s => codeIf (beNat b != v) St.outOfRange ++ codeIf (s.get E.REC_CMD_STATE == 1) St.busy)
    (fun _ _ s =>
      let s : State := { s with recorder := { s.recorder with cmds := s.recorder.cmds ++ [(v, s.tick + 1)] } }
      ([], if v = 3 || v = 4 then s.set E.REC_CMD_STATE 1 else s))

/-- The service of `execRecCmdClearLog`. -/
def recCmdClearLogService : Service :=
  (recCmd 1 (argFirst [2, 3, 4, 5]))

/-- REC_CMD 1 (R618): clear the log at the next tick boundary. Blocks of another length and values without a row
of their own are refused here. -/
def execRecCmdClearLog (t : Nat) (rx : Rx) (s : State) : Host.Outcome State Fault Refusal :=
  done ((s.at t).serve rx recCmdClearLogService)

/-- The service of `execRecCmdClearHistograms`. -/
def recCmdClearHistogramsService : Service :=
  (recCmd 2 (argEq 2))

/-- REC_CMD 2 (R618): clear the bins and extremes of every histogram. -/
def execRecCmdClearHistograms (t : Nat) (rx : Rx) (s : State) : Host.Outcome State Fault Refusal :=
  done ((s.at t).serve rx recCmdClearHistogramsService)

/-- The service of `execRecCmdClearGuestHistory`. -/
def recCmdClearGuestHistoryService : Service :=
  (recCmd 3 (argEq 3))

/-- REC_CMD 3 (R618): clear every guest's extremes, rainflow matrix and residue. -/
def execRecCmdClearGuestHistory (t : Nat) (rx : Rx) (s : State) : Host.Outcome State Fault Refusal :=
  done ((s.at t).serve rx recCmdClearGuestHistoryService)

/-- The service of `execRecCmdClearDieRainflow`. -/
def recCmdClearDieRainflowService : Service :=
  (recCmd 4 (argEq 4))

/-- REC_CMD 4 (R618): clear the die rainflow matrix and residue in SRAM and FRAM. -/
def execRecCmdClearDieRainflow (t : Nat) (rx : Rx) (s : State) : Host.Outcome State Fault Refusal :=
  done ((s.at t).serve rx recCmdClearDieRainflowService)

/-- The service of `execRecCmdClearFramLastgasp`. -/
def recCmdClearFramLastgaspService : Service :=
  (recCmd 5 (argEq 5))

/-- REC_CMD 5 (R618): clear the FRAM copy of the last-gasp store. -/
def execRecCmdClearFramLastgasp (t : Nat) (rx : Rx) (s : State) : Host.Outcome State Fault Refusal :=
  done ((s.at t).serve rx recCmdClearFramLastgaspService)

/-- The log is cleared: each open record is staged again at a new position, as room allows (R618). -/
def State.clearLog (s : State) : State :=
  let r := s.recorder
  let opened := (r.folds.filter fun f => f.cond.flags.testBit 0).map FoldKey.cond
  let s : State := { s with recorder := { r with log := [], folds := [], damaged := [] } }
  let s := (s.set E.LOG_NEXT 0).set E.REC_LATCHES (clrBit (s.get E.REC_LATCHES) 0)
  opened.foldl (fun s c =>
    if s.recorder.staged.any fun x => x.cond.same c then s
    else if s.recorder.room c.key then
      { s with recorder := { s.recorder with
          staged := s.recorder.staged ++ [{ cond := c, isNew := true, ends := s.tick }] } }
    else s.condLost c) s

/-- A REC_CMD takes effect (R618). -/
def State.recEffect (s : State) (v : Nat) : State :=
  let r := s.recorder
  match v with
  | 1 => s.clearLog
  | 2 =>
    { s with recorder := { r with
        hists := r.hists.map fun p => (p.1, { p.2 with
          flags := 0, bins := [], min := f32NaN, max := f32NaN, minTick := 0, maxTick := 0, since := s.tick }) } }
  | 3 => { s with recorder := { r with extremes := [], rainflow := [], clearing := 3 } }
  | 4 =>
    { s with recorder := { r with dieRf := {}, clearing := 4 }, fram := { s.fram with dieRf := {} } }
  | _ =>
    let s : State := { s with fram := { s.fram with gasp := [] } }
    s.set E.LASTGASP_FRAM_COUNT 0

/-- What the recorder does at a tick boundary: histogram settings and commands that fall due (R596, R618). -/
def State.recorderTick (s : State) : State :=
  let r := s.recorder
  let due := r.histDue.filter fun x => decide (x.2.1 ≤ s.tick)
  let s : State :=
    { s with recorder := { r with
        histDue := r.histDue.filter fun x => decide (s.tick < x.2.1)
        hists := due.foldl (fun m x =>
          if x.1 < r.histCountNow && !r.logLost then m.set x.1 { x.2.2 with since := s.tick } else m) r.hists } }
  let now := s.recorder.cmds.filter fun c => decide (c.2 ≤ s.tick)
  let s : State := { s with recorder := { s.recorder with cmds := s.recorder.cmds.filter fun c => decide (s.tick < c.2) } }
  now.foldl (fun s c => s.recEffect c.1) s

/-- A new `HIST_COUNT` takes effect at a turn boundary (R592). -/
def State.recorderTurn (s : State) : State :=
  match s.recorder.histCountDue with
  | none => s
  | some n =>
    { s with recorder := { s.recorder with
        histCountDue := none, histCountNow := n, hists := s.recorder.hists.filter fun p => decide (p.1 < n) } }

/-- REC_CMD_COMPLETE (R618): a background clear completes. -/
def execRecCmdComplete (t : Nat) (s : State) : Host.Outcome State Fault Refusal :=
  let s := s.at t
  done <| s.when (s.recorder.clearing != 0) fun s =>
    let s : State := { s with recorder := { s.recorder with clearing := 0 } }
    s.set E.REC_CMD_STATE 0

end Sys2Proof.Machine
end

