-- ==== Sys2Proof/Machine/Caps.lean ====
section
/-! DEFINITION. Caps (chapter 5, R165 to R178, and R207): a guest's ceilings, the permitted cap, the class 0 and
class 2 queues and the bundles built from them. -/

namespace Sys2Proof.Machine

/-! ### Guests -/

/-- The guest that holds a slot. -/
def State.guest (s : State) (slot : Nat) : Option Guest := s.guests.get slot

/-- The present guest of a slot. -/
def State.presentGuest (s : State) (slot : Nat) : Option Guest :=
  match s.guest slot with
  | some g => if g.present then some g else none
  | none => none

/-- Put a guest into its slot. -/
def State.putGuest (s : State) (slot : Nat) (g : Guest) : State := { s with guests := s.guests.set slot g }

/-- Change the guest of a slot. -/
def State.mapGuest (s : State) (slot : Nat) (f : Guest → Guest) : State :=
  { s with guests := s.guests.adjust slot f }

/-- Apply `f` to the present guest of a slot, if there is one. -/
def State.withGuest (s : State) (slot : Nat) (f : State → Guest → State) : State :=
  match s.presentGuest slot with
  | some g => f s g
  | none => s

/-- `KEY` of a guest slot and of a class (R603). -/
def guestKey (slot : Nat) : Nat := condKey 1 slot
def classKey (c : Nat) : Nat := condKey 13 c

/-- The present guests. -/
def State.presents (s : State) : List (Nat × Guest) := s.guests.filter fun p => p.2.present

/-- `DESK_PRESENT`, `DESK_RESERVED` and each class's `CLASS_GUESTS` follow the register. -/
def State.refreshDesk (s : State) : State :=
  (s.set E.DESK_PRESENT s.presents.length).set E.DESK_RESERVED (s.guests.length - s.presents.length)

/-- `CLASS_GUESTS` of a class, and its state 1 or 2 where it is neither fenced nor on its image model (R417). -/
def State.refreshClass (s : State) (c : Nat) : State :=
  let n := (s.presents.filter fun p => p.2.pp.cls == c).length
  let s := s.setU E.CLASS_GUESTS c n
  let st := s.getU E.CLASS_STATE c
  if st = 1 || st = 2 then s.setU E.CLASS_STATE c (if n = 0 then 1 else 2) else s

/-- A ceiling rounded down and kept between floor and maximum cap (R170). -/
def Passport.bound (p : Passport) (c : Nat) : Nat := max p.floor (min p.maxCap c)

/-- The per-guest ceiling in force (R172, R175): the last sent while its hold has not lapsed, else `ORPHAN_CAP`. -/
def Guest.perGuest (g : Guest) (tick : Nat) : Nat :=
  match g.lastCap with
  | some r => if r.kind = 5 || r.lapse < tick then g.pp.orphan else r.ceiling
  | none => g.pp.orphan

/-- The cap destination of a guest (R142). -/
def Guest.dest (g : Guest) : Nat × Nat := (if g.capAddr = 0 then g.src else g.capAddr, g.capPort)

/-! ### Row cuts on a guest (R168, R174, R175, R207) -/

/-- The scope number of a class, of a branch and of the row (R168), 17 bits. -/
def scopeClass (c : Nat) : Nat := c
def scopeBranch (b : Nat) : Nat := 0x8000 + b
def scopeRow : Nat := 0x10000

/-- Whether a scope covers a guest. -/
def Passport.covered (p : Passport) (scope : Nat) : Bool :=
  scope == scopeClass p.cls || scope == scopeBranch p.branch || scope == scopeRow

/-- The newest row cut of each scope that covers the guest and binds it in tick `t` (R207): its bundle is two ticks
old, it left after the guest was last served, and its hold runs. -/
def State.rowsAt (s : State) (g : Guest) (t : Nat) : List RowSent :=
  let c := s.desk.rowSent.filter fun r =>
    g.pp.covered r.scope && decide (r.tick + 2 ≤ t) && decide (g.servedAt < r.sentAt)
  let newest := c.filter fun r => c.all fun q => q.scope != r.scope || decide (q.sentAt ≤ r.sentAt)
  newest.filter fun r => decide (t ≤ r.tick + r.hold)

/-- The row cut in force of a scope in tick `t`, as the module sends it. -/
def State.rowInForce (s : State) (scope t : Nat) : Option RowSent :=
  match (s.desk.rowSent.filter fun r => r.scope == scope).reverse.head? with
  | some r => if t ≤ r.tick + r.hold then some r else none
  | none => none

/-! ### The permitted cap (R207) -/

/-- One tick of a ramp (R174): no rise above `slew` W, one step when it is 0, falls at once. -/
def rampTo (cur target slew : Nat) : Nat :=
  if target ≤ cur || slew = 0 then target else min target (cur + 8 * slew)

/-- The permitted cap of the next tick `t`. -/
def Emul.next (e : Emul) (p : Passport) (rows : List RowSent) (t : Nat) : Emul :=
  let due := e.queue.filter fun r => decide (r.tick + 2 ≤ t)
  let e := { e with queue := e.queue.filter fun r => decide (t < r.tick + 2) }
  let e := due.foldl (fun e r =>
    { e with any := true, current := some r, slew := r.slew, target := if r.kind = 5 then p.orphan else r.ceiling }) e
  let e := match e.current with
    | some r => if r.lapse + 2 ≤ t then { e with target := p.orphan, current := none } else e
    | none => e
  if !e.any then { e with target := p.orphan, pg := p.orphan, cap := p.orphan }
  else
    let pg := rampTo e.pg e.target e.slew
    let tightest := minBy RowSent.ceiling rows
    let free := max p.floor (min pg p.maxCap)
    match tightest with
    | some r =>
      if r.ceiling < free then
        let base := max p.floor r.ceiling
        { e with pg := pg, rowSlew := some r.slew, cap := rampTo e.cap base (e.rowSlew.getD r.slew) }
      else
        let cap := rampTo e.cap free (e.rowSlew.getD 0)
        { e with pg := pg, cap := cap, rowSlew := if cap < free then e.rowSlew else none }
    | none =>
      let cap := rampTo e.cap free (e.rowSlew.getD 0)
      { e with pg := pg, cap := cap, rowSlew := if cap < free then e.rowSlew else none }

/-- P(t + k) of a guest, `t` the tick in progress (R207). -/
def State.permittedEmul (s : State) (g : Guest) : Nat → Emul
  | 0 => g.emul
  | k + 1 => (s.permittedEmul g k).next g.pp (s.rowsAt g (s.tick + k + 1)) (s.tick + k + 1)

def State.permitted (s : State) (g : Guest) (k : Nat) : Nat := (s.permittedEmul g k).cap

/-- At a tick boundary every present guest's permitted cap moves on; `pHist` keeps those since the allocation period
started, newest first. -/
def State.emulTick (s : State) : State :=
  let gs := s.guests.mapVals fun _ g =>
    if g.present then
      let e := g.emul.next g.pp (s.rowsAt g s.tick) s.tick
      { g with emul := e, pHist := e.cap :: g.pHist }
    else g
  { s with guests := gs }

/-! ### The class 0 queue (R234 to R238) -/

/-- Whether a per-guest record has left for the guest in the tick in progress (R169). -/
def Guest.sentIn (g : Guest) (tick : Nat) : Bool :=
  match g.lastCap with
  | some r => r.tick == tick
  | none => false

/-- Whether a class row cut is built or in force (R238). -/
def State.classRow (s : State) (c : Nat) : Option Nat :=
  match s.desk.rowOut.find? fun r => r.scope == scopeClass c with
  | some r => some r.ceiling
  | none => (s.rowInForce (scopeClass c) s.tick).map RowSent.ceiling

/-- Enter a cut into the queue, or update the one the guest has there (R234); its ceiling never rises. -/
def Desk.enqueue (d : Desk) (c : CutRec) : Desk :=
  if d.class0.any fun x => x.slot == c.slot then
    { d with class0 := d.class0.map fun x =>
        if x.slot = c.slot then { x with ceiling := min x.ceiling c.ceiling, what := x.what ||| c.what } else x }
  else { d with class0 := d.class0 ++ [c] }

/-- Defer a cut (R236, R238). -/
def Desk.defer (d : Desk) (c : CutRec) : Desk :=
  if d.deferred.any fun x => x.slot == c.slot then
    { d with deferred := d.deferred.map fun x =>
        if x.slot = c.slot then { x with ceiling := min x.ceiling c.ceiling, what := x.what ||| c.what } else x }
  else { d with deferred := d.deferred ++ [c] }

/-- A cut of a guest leaves queue and deferral. -/
def State.dropCut (s : State) (slot : Nat) : State :=
  { s with desk := { s.desk with
      class0 := s.desk.class0.filter fun c => c.slot != slot
      deferred := s.desk.deferred.filter fun c => c.slot != slot } }

/-- Build row cuts when the queue is deeper than `GUARD_ROWCUT_DEPTH` (R236, R237). -/
def State.buildRowCuts (s : State) : State :=
  let q := s.desk.class0
  if q.length ≤ s.eff E.GUARD_ROWCUT_DEPTH then s
  else
    let clsOf (c : CutRec) : Nat := match s.guest c.slot with | some g => g.pp.cls | none => 256
    let counts : AMap Nat := q.foldl (fun m c => m.set (clsOf c) (m.getD (clsOf c) 0 + 1)) []
    let picked := (counts.filter fun p => decide (s.eff E.GUARD_ROWCUT_CLASS_MIN ≤ p.2) && decide (p.1 < 256)).map Prod.fst
    picked.foldl (fun s c =>
      let mine := s.desk.class0.filter fun x => clsOf x == c
      let least := match minBy CutRec.ceiling mine with | some x => x.ceiling | none => 0
      let ceiling := match s.classRow c with | some r => min r least | none => least
      let rec_ : RowRec :=
        { scope := scopeClass c, ceiling := ceiling, slew := s.eff E.GUARD_RELEASE_SLEW
          hold := s.eff E.GUARD_ROWCUT_HOLD }
      let d := { s.desk with
        class0 := s.desk.class0.filter fun x => clsOf x != c
        rowOut := (s.desk.rowOut.filter fun r => r.scope != scopeClass c) ++ [rec_] }
      let s : State := { s with desk := mine.foldl Desk.defer d }
      let s := mine.foldl (fun s x => s.mapGuest x.slot fun g =>
        { g with cut := g.cut.map fun k => { k with deferred := true } }) s
      ((s.add E.GUARD_DEFERRED mine.length).inc E.ROW_CUTS_CLASS).latch E.GUARD_LATCHES 4 (classKey c)) s

/-- A guard cut enters class 0 or is deferred under a class row cut in force (R238); while the link is down nothing is
queued (R94). -/
def State.queueCut (s : State) (g : Guest) (c : CutRec) : State :=
  if !s.linkUp then s
  else
    let hold := match s.classRow g.pp.cls with | some r => decide (r ≤ c.ceiling) | none => false
    if hold && !(s.desk.class0.any fun x => x.slot == c.slot) then
      let s : State := { s with desk := s.desk.defer c }
      (s.mapGuest c.slot fun g => { g with cut := g.cut.map fun k => { k with deferred := true } }).inc E.GUARD_DEFERRED
    else
      let was := s.desk.class0.length
      let s : State := { s with desk := s.desk.enqueue c }
      let n := s.desk.class0.length
      let s : State := { s with guard := { s.guard with queueMax := max s.guard.queueMax n } }
      let deep := decide (was ≤ s.eff E.GUARD_ROWCUT_DEPTH) && decide (s.eff E.GUARD_ROWCUT_DEPTH < n)
      (s.when deep fun s => s.latch E.GUARD_LATCHES 2).buildRowCuts

/-- DEFERRED_CUT_REQUEUE (R238): below a quarter of the depth, deferred cuts go back into the queue in their order, at
most 1,024 in a tick. -/
def execDeferredCutRequeue (t : Nat) (s : State) : Host.Outcome State Fault Refusal :=
  let s := s.at t
  let used := if s.desk.requeueTick = s.tick then s.desk.requeued else 0
  let n := 1024 - used
  done <| s.when (s.linkUp && decide (4 * s.desk.class0.length < s.eff E.GUARD_ROWCUT_DEPTH) && decide (0 < n)
      && !s.desk.deferred.isEmpty) fun s =>
    let go := s.desk.deferred.take n
    let d := { s.desk with deferred := s.desk.deferred.drop n, requeued := used + go.length, requeueTick := s.tick }
    let s : State := { s with desk := go.foldl Desk.enqueue d }
    go.foldl (fun s x => s.mapGuest x.slot fun g =>
      { g with cut := g.cut.map fun k => { k with deferred := false } }) s

/-! ### The class 2 queue (R165 to R171) -/

/-- The rank of a kind in the order of R169. -/
def kindRank (k : Nat) : Nat :=
  match k with
  | 5 => 0 | 1 => 1 | 3 => 2 | 4 => 3 | _ => 4

/-- A per-guest record falls due; a record of its kind that already waits is brought up to date. -/
def State.queueCap (s : State) (c : CapDue) : State :=
  if !s.linkUp then s
  else
    let q := s.desk.class2
    let q' := if q.any fun x => x.slot == c.slot && x.kind == c.kind then
        q.map fun x => if x.slot = c.slot && x.kind = c.kind then c else x
      else q ++ [c]
    { s with desk := { s.desk with class2 := q' } }

/-- A guest's waiting records of one kind are withdrawn. -/
def State.dropCaps (s : State) (slot : Nat) (kinds : List Nat) : State :=
  { s with desk := { s.desk with
      class2 := s.desk.class2.filter fun x => !(x.slot == slot && kinds.contains x.kind) } }

/-! ### Bundles (R158, R165, R166, R683) -/

/-- A cap record's 8 bytes (R166). -/
def capRecord (slot kind ceiling slew hold : Nat) : Bytes :=
  beBytes 8 (slot * 2 ^ 47 + kind * 2 ^ 44 + ceiling % 65536 * 2 ^ 28 + slew % 256 * 2 ^ 20 + hold % 256 * 2 ^ 12)

/-- The header of R158. -/
def bundleHeader (ty count seq tick : Nat) : Bytes :=
  [1] ++ beBytes 1 ty ++ beBytes 2 count ++ beBytes 4 seq ++ beBytes 8 tick

/-- The next `BUNDLE_SEQ` toward a destination. -/
def State.nextSeq (s : State) (ty addr port : Nat) : Nat × State :=
  let same (x : Nat × Nat × Nat × Nat) : Bool := x.1 == ty && x.2.1 == addr && x.2.2.1 == port
  match s.desk.seqs.find? same with
  | some x =>
    (x.2.2.2, { s with desk := { s.desk with
      seqs := s.desk.seqs.map fun y => if same y then (ty, addr, port, (y.2.2.2 + 1) % 2 ^ 32) else y } })
  | none => (0, { s with desk := { s.desk with seqs := s.desk.seqs ++ [(ty, addr, port, 1)] } })

/-- Records a cap bundle holds at most (R232). -/
def State.bundleMax (s : State) : Nat := (s.eff E.PORT_MTU - 64) / 8

/-- A bundle goes to the port in its class (R683). -/
def State.sendBundle (s : State) (cls ty addr port count : Nat) (records : Bytes) : State :=
  let (seq, s) := s.nextSeq ty addr port
  s.send { cls := cls, dst := addr, sport := s.eff E.UDP_PORT_CAPS, dport := port, tag := 4
           bytes := bundleHeader ty count seq s.tick ++ records }

/-- A per-guest record leaves in the tick in progress: it becomes the cap last sent and enters the permitted cap two
ticks on (R171, R207). A RELEASE carries on the hold of the cut it ends. -/
def State.recordSent (s : State) (slot kind ceiling slew hold : Nat) : State :=
  s.mapGuest slot fun g =>
    let lapse := if kind = 4 then (match g.lastCap with | some r => r.lapse | none => s.tick) else s.tick + hold
    let r : CapRec := { kind := kind, ceiling := ceiling, slew := slew, hold := hold, tick := s.tick, lapse := lapse }
    let g := { g with lastCap := some r, emul := { g.emul with queue := g.emul.queue ++ [r] } }
    if kind = 1 then
      { g with staleCap := false, cut := g.cut.map fun k => { k with tc := some (k.tc.getD s.tick), deferred := false } }
    else if kind = 3 then { g with staleCap := true, staleDue := false }
    else if kind = 4 then
      let ramp := if slew = 0 then none
        else g.rampFrom.map fun k => s.tick + 2 + ceilDiv (ceiling - k) (8 * slew)
      { g with staleCap := false, rampFrom := none, rampEnd := ramp }
    else { g with staleCap := false }

/-- A first cut's latency at the first bit of its bundle (R233). -/
def State.latency (s : State) (c : CutRec) (firstBit : Nat) : State :=
  match c.first with
  | none => s
  | some from_ =>
    let ps := firstBit - from_
    let ns := ceilDiv ps 1000
    let s := s.histValue 7 0 (f32Int ns)
    if !c.clean then s
    else
      let g := s.guard
      let s : State :=
        { s with guard := { g with latMax := max g.latMax ns, latSum := g.latSum + ns, latN := g.latN + 1 } }
      s.when (decide (us < ps)) fun s => (s.inc E.GUARD_LATE_CUTS).latch E.GUARD_LATCHES 6 (guestKey c.slot)

/-- One cut of a bundle that leaves: its counters and latches (R248, R250). -/
def State.cutSent (s : State) (c : CutRec) (firstBit : Nat) : State :=
  let s := s.recordSent c.slot 1 c.ceiling 0 (s.eff E.GUARD_HOLD_TICKS)
  let s := s.when (c.what.testBit 0) fun s => (s.inc E.GUARD_CUTS).latch E.GUARD_LATCHES 0 (guestKey c.slot)
  let s := s.when (c.what.testBit 1) fun s => s.inc E.GUARD_RECUTS
  let s := s.when (c.what.testBit 2) fun s => (s.inc E.GUARD_DEEP_CUTS).latch E.GUARD_LATCHES 3 (guestKey c.slot)
  s.latency c firstBit

/-- Whether a datagram of a class below `cls` waits (R89). -/
def State.higherWaits (s : State) (cls : Nat) : Bool :=
  (s.port.egress.any fun d => decide (d.cls < cls))
    || (decide (0 < cls) && !(s.desk.class0.isEmpty && s.desk.rowOut.isEmpty))

/-- CAP_BUNDLE_BUILD (R683): the scheduler takes up class `cls`, 0 or 2, and the desk builds one bundle from the
records queued. In class 0 row cuts stand at the head (R235) and cuts of one inbound bundle and destination travel
together (R232); in class 2 a record waits for a tick in which none has left for its guest (R169). `firstBit` is the
instant at which the bundle's first bit leaves the cage. -/
def execCapBundleBuild (t cls firstBit : Nat) (s : State) : Host.Outcome State Fault Refusal :=
  let s := s.at t
  done <| s.when (s.linkUp && s.port.sending && s.elec.power == 1 && !s.higherWaits cls) fun s =>
    if cls = 0 then
      if !s.desk.rowOut.isEmpty then
        let go := s.desk.rowOut.take s.bundleMax
        let bytes := go.flatMap fun r => capRecord r.scope 2 r.ceiling r.slew r.hold
        let s : State := { s with desk := { s.desk with
          rowOut := s.desk.rowOut.drop s.bundleMax
          rowSent := (s.desk.rowSent.filter fun r => decide (s.tick ≤ r.tick + r.hold + 4)) ++ go.map fun r =>
            { scope := r.scope, ceiling := r.ceiling, slew := r.slew, hold := r.hold, tick := s.tick, sentAt := s.now } } }
        s.sendBundle 0 0x31 (s.eff E.ROW_GROUP) (s.eff E.UDP_PORT_CAPS) go.length bytes
      else
        match s.desk.class0 with
        | [] => s
        | c :: _ =>
          let dest (x : CutRec) : Option (Nat × Nat) := (s.guest x.slot).map Guest.dest
          let go := (s.desk.class0.filter fun x => x.bundle == c.bundle && dest x == dest c).take s.bundleMax
          let bytes := go.flatMap fun x => capRecord x.slot 1 x.ceiling 0 (s.eff E.GUARD_HOLD_TICKS)
          let s : State := { s with desk := { s.desk with class0 := s.desk.class0.filter fun x => !go.contains x } }
          match dest c with
          | none => s
          | some (a, p) => (go.foldl (fun s x => s.cutSent x firstBit) s).sendBundle 0 0x30 a p go.length bytes
    else
      let mayGo (x : CapDue) : Bool :=
        (match s.guest x.slot with | some g => !g.sentIn s.tick | none => false)
          && s.desk.class2.all fun y => y.slot != x.slot || decide (kindRank x.kind ≤ kindRank y.kind)
      let ready := s.desk.class2.filter mayGo
      match ready with
      | [] => s
      | c :: _ =>
        let dest (x : CapDue) : Option (Nat × Nat) := (s.guest x.slot).map Guest.dest
        let go := (ready.filter fun x => dest x == dest c).take s.bundleMax
        let bytes := go.flatMap fun x => capRecord x.slot x.kind x.ceiling x.slew x.hold
        let s : State := { s with desk := { s.desk with class2 := s.desk.class2.filter fun x => !go.contains x } }
        match dest c with
        | none => s
        | some (a, p) =>
          (go.foldl (fun s x => s.recordSent x.slot x.kind x.ceiling x.slew x.hold) s).sendBundle 2 0x30 a p
            go.length bytes

end Sys2Proof.Machine
end

