-- ==== Sys2Proof/Machine/Guard.lean ====
section
/-! DEFINITION. The guard (chapter 7) and what it shares with the desk: reading a telemetry bundle, the compared
values, the ceilings, cuts, their release and the row cuts' refresh. -/

namespace Sys2Proof.Machine

/-! ### A bundle's records (R158 to R162) -/

/-- A telemetry record as read from a bundle (R159, R160). -/
structure TRec where
  slot : Nat
  count : Nat
  power : Bool
  fault : Bool
  seq : Nat
  powerW : Nat
  applied : Nat
  samples : List Nat
  raw : Bytes
  deriving DecidableEq, Repr

/-- The samples of a record, each two bytes. -/
def readSamples (bs : Bytes) : Nat → List Nat
  | 0 => []
  | n + 1 => beNat (bs.take 2) :: readSamples (bs.drop 2) n

/-- The length of a record by its header (R160). -/
def recLength (power : Bool) (count : Nat) : Nat := if power then (12 + 2 * count + 3) / 4 * 4 else 8

/-- The record at the start of `bs`, which holds at least its header. -/
def readRecord (bs : Bytes) : TRec :=
  let h := field bs 0 8
  let power := h.testBit 32
  let n := bits h 45 40
  { slot := bits h 63 47, count := n, power := power, fault := h.testBit 35, seq := h % 2 ^ 32
    powerW := if power then field bs 8 2 else 0, applied := if power then field bs 10 2 else 0
    samples := if power then readSamples (bs.drop 12) n else [], raw := bs.take (recLength power n) }

/-- The records of a bundle's body; none when their lengths do not add up to it. -/
def readRecords : Nat → Bytes → Option (List TRec)
  | 0, bs => if bs.isEmpty then some [] else none
  | fuel + 1, bs =>
    if bs.isEmpty then some []
    else if bs.length < 8 then none
    else
      let r := readRecord bs
      let n := recLength r.power r.count
      if bs.length < n then none else (readRecords fuel (bs.drop n)).map (r :: ·)

/-- The records of a telemetry datagram that passes R162 and R681. -/
def bundleRecords (bs : Bytes) : Option (List TRec) :=
  if bs.length < 16 then none
  else
    match readRecords bs.length (bs.drop 16) with
    | some l => if l.length = field bs 2 2 then some l else none
    | none => none

/-- Whether a record is malformed (R159, R160): samples without `POWER`, or a count that is neither 0 nor the
passport's. -/
def State.malformed (s : State) (r : TRec) : Bool :=
  (decide (0 < r.count) && !r.power) || decide (32 < r.count)
    || (match s.guest r.slot with
        | some g => decide (0 < r.count) && r.count != g.pp.sensors.length
        | none => false)

/-- The records in order, each with the mark of case 2 of R191: malformed, or of a slot that an earlier well-formed
record named. -/
def State.markRecords (s : State) : List TRec → List Nat → List (TRec × Bool)
  | [], _ => []
  | r :: rs, seen =>
    let bad := s.malformed r || seen.contains r.slot
    (r, bad) :: s.markRecords rs (if bad then seen else r.slot :: seen)

/-! ### Compared values (R201, R205, R223) -/

/-- A sample's value when it reads valid. -/
def validSample (samples : List Nat) (i : Nat) : Option Nat :=
  match samples[i]? with
  | some v => if v = 0x8000 then none else some v
  | none => none

/-- The higher of two samples, the first on a tie, with its sensor. -/
def hotter (a va b vb : Nat) : Nat × Nat := if s16 va < s16 vb then (b, vb) else (a, va)

/-- What a pair's hot spot compares, and whether a quarantined member stands in (R205). -/
def Guest.pairValue (g : Guest) (p : PairDef) (samples : List Nat) : Option (Nat × Nat) × Bool :=
  let va := validSample samples p.a
  let vb := validSample samples p.b
  let qa := g.quarantine.testBit p.a
  let qb := g.quarantine.testBit p.b
  match va, vb with
  | some x, some y =>
    if qa then (some (p.b, y), false) else if qb then (some (p.a, x), false) else (some (hotter p.a x p.b y), false)
  | some x, none => (some (p.a, x), qa)
  | none, some y => (some (p.b, y), qb)
  | none, none => (none, false)

/-- The compared values of a record, by sensor, and whether the guest is `DEGRADED` in it. -/
def Guest.comparedValues (g : Guest) (samples : List Nat) : List (Nat × Nat) × Bool :=
  let inPair (i : Nat) : Bool := g.pp.pairs.any fun p => p.a == i || p.b == i
  let alone := (List.range samples.length).filterMap fun i =>
    if inPair i then none else (validSample samples i).map fun v => (i, v)
  let pairs := g.pp.pairs.map fun p => g.pairValue p samples
  (sortBy Prod.fst (alone ++ pairs.filterMap Prod.fst), pairs.any Prod.snd)

/-! ### Ceilings (R217 to R220) -/

/-- The guard margin of the stance in force, in 1/64 °C (R32). -/
def State.guardMargin (s : State) : Int :=
  match s.get E.STANCE_ACTIVE with
  | 0 => 32
  | 1 => 64
  | 2 => 96
  | _ => 0

/-- The ceiling of a guest's sensor and whether it is a model ceiling. -/
def State.ceilingOf (s : State) (slot : Nat) (g : Guest) (i : Nat) : Nat × Bool :=
  let static := match g.pp.sensors[i]? with | some d => d.static | none => 0
  let model := match s.guard.live.get slot with
    | some l => match l[i]? with | some (some c) => some c | _ => none
    | none => none
  match model with
  | some u =>
    if s.inRest || g.staticOnly || s.getU E.CLASS_STATE g.pp.cls == 4 then (static, false)
    else
      let limit := match g.pp.sensors[i]? with | some d => s16 d.limit | none => u
      (code16 (min 0x7FFE (min u limit + s.guardMargin)), true)
  | none => (static, false)

/-- CEILING_SWITCH (R18, R218, R220): the leaves exchange roles; a guest without a bound falls to its static
ceilings. -/
def State.ceilingSwitch (s : State) : State :=
  let n := s.guard.standby.length
  let s' : State :=
    { s with guard := { s.guard with live := s.guard.standby, standby := s.guard.second, second := [], written := n } }
  s'.when (decide (n < s.guard.written)) fun s => s.latch E.GUARD_LATCHES 1

/-! ### Cuts (R224 to R230) -/

/-- One exceedance: the sensor, the value, its excess in 1/64 °C and whether the ceiling was a model's. -/
structure Exceed where
  sensor : Nat
  value : Nat
  excess : Nat
  model : Bool
  deriving DecidableEq, Repr

/-- Whether an exceedance is deep (R226). -/
def State.isDeep (s : State) (e : Exceed) : Bool :=
  e.value == 0x7FFF || decide (s.eff E.GUARD_DEEP_EXCESS ≤ e.excess)

/-- The cap basis of R225. -/
def State.capBasis (s : State) (g : Guest) : Nat :=
  let b := g.perGuest s.tick
  match g.applied with
  | some a => min b a
  | none => b

/-- The basis of a further cut (R227). -/
def Guest.recutBasis (g : Guest) (k : Nat) : Nat :=
  match g.applied with
  | some a => min k a
  | none => k

/-- A cut takes force on a guest: it is held without sending on a stale guest whose stale cap is lower (R197), sent
when its ceiling lies below the per-guest ceiling in force (R228), and has no effect otherwise. -/
def State.takeCut (s : State) (slot : Nat) (g : Guest) (ceiling what bundle : Nat) (first : Option Nat) (clean : Bool) :
    State × Bool :=
  let held := g.stale && g.staleCap && decide (g.perGuest s.tick ≤ ceiling)
  let pre := match g.cut with | some k => k.pre | none => g.perGuest s.tick
  let depth := match g.cut with | some k => min 255 (k.depth + 1) | none => 1
  let k : Cut := { ceiling := ceiling, tc := if held then some s.tick else none, depth := depth, pre := pre }
  if held then (s.putGuest slot { g with cut := some k }, false)
  else if ceiling < g.perGuest s.tick then
    let s := (s.putGuest slot { g with cut := some k }).dropCaps slot [0, 4]
    (s.queueCut g { slot := slot, ceiling := ceiling, bundle := bundle, what := what, first := first, clean := clean },
      true)
  else (s, false)

/-- GUARD_CUT and GUARD_AT_FLOOR (R226 to R228) for the exceedances of one record of tick `tick`. -/
def State.guardAct (s : State) (slot : Nat) (g : Guest) (es : List Exceed) (tick bundle : Nat) (first : Option Nat)
    (clean : Bool) : State × Bool :=
  let deep := es.any s.isDeep
  let basis := match g.cut with | some k => g.recutBasis k.ceiling | none => s.capBasis g
  if basis ≤ g.pp.floor then
    ((s.add E.GUARD_AT_FLOOR_EVENTS es.length).latch E.GUARD_LATCHES 5 (guestKey slot), false)
  else
    let cut := g.pp.bound (if deep then g.pp.floor else basis * s.eff E.GUARD_CUT_PCT / 100)
    let dbit := if deep then 4 else 0
    match g.cut with
    | none => s.takeCut slot g cut (1 + dbit) bundle first clean
    | some k =>
      let again := match k.tc with | some tc => decide (tc + s.eff E.GUARD_RECUT_TICKS ≤ tick) | none => false
      if deep || again then s.takeCut slot g cut (2 + dbit) bundle first clean else (s, false)

/-- GUARD_COMPARE (R221 to R224, R230): one record of a bundle against the ceilings in force. `used` tells that the
bundle's first cut has been made. -/
def State.guardRecord (s : State) (src sport tick count bundle : Nat) (clean : Bool) (r : TRec × Bool) (used : Bool) :
    State × Bool :=
  match s.presentGuest r.1.slot with
  | none => (s, used)
  | some g =>
    let ok := !r.2 && g.src == src && g.sport == sport && decide (g.firstTick ≤ tick) && decide (tick ≤ s.tick)
      && decide (count ≤ tick + s.eff E.LATE_LIMIT)
    if !ok then (s, used)
    else
      let slot := r.1.slot
      let vals := (g.comparedValues r.1.samples).1
      let judged := vals.map fun p => (p, s.ceilingOf slot g p.1)
      let margin : Int := s.eff E.GUARD_CLEAR_MARGIN
      let high := judged.any fun p => decide (s16 p.2.1 - margin < s16 p.1.2)
      let es : List Exceed := judged.filterMap fun p =>
        let d := s16 p.1.2 - s16 p.2.1
        if 0 < d then some { sensor := p.1.1, value := p.1.2, excess := d.toNat, model := p.2.2 } else none
      let models := (judged.filter fun p => p.2.2).length
      let misses := (es.filter Exceed.model).length
      let c := g.pp.cls
      let s := ((s.add E.GUARD_SAMPLES vals.length).add E.GUARD_STATIC_SAMPLES (vals.length - models)).add
        E.GUARD_EXCEEDANCES es.length
      let s : State :=
        { s with guard := { s.guard with
            compared := s.guard.compared.put c (s.guard.compared.getD c 0 + models) 0
            misses := s.guard.misses.put c (s.guard.misses.getD c 0 + misses) 0 } }
      let s := (s.addU E.CLASS_MISSES c misses).add E.ENCLOSURE_MISSES misses
      if vals.isEmpty then (s, used)
      else
        let g := { g with
          guarded := g.guarded.set count (high || g.guarded.getD count false)
          exceedTick := if es.isEmpty then g.exceedTick else some s.tick }
        let s := s.putGuest slot g
        if es.isEmpty then (s, used)
        else
          let (s, cut) := s.guardAct slot g es tick bundle (if used then none else some s.now) clean
          (s, used || cut)

/-- The guard reads a whole bundle (R221, R231, R232). -/
def State.guardBundle (s : State) (src sport tick count : Nat) (rs : List (TRec × Bool)) : State :=
  let clean := s.desk.class0.isEmpty && s.desk.rowOut.isEmpty
  let n := s.desk.bundles + 1
  let s : State := { s with desk := { s.desk with bundles := n } }
  (rs.foldl (fun p r => p.1.guardRecord src sport tick count n clean r p.2) (s, false)).1

/-! ### Release (R241 to R246) -/

/-- A guard cut ends without a record of its own. -/
def State.endCut (s : State) (slot : Nat) : State :=
  (s.dropCut slot).mapGuest slot fun g => { g with cut := none }

/-- Whether the release conditions of R241 hold. -/
def State.mayRelease (s : State) (k : Cut) : Bool :=
  decide (s.eff E.GUARD_CLEAR_TICKS ≤ k.clear)
    && (match k.tc, s.row.lastEnd with | some tc, some e => decide (tc + 2 < e) | _, _ => false)

/-- The value a RELEASE carries: the allocator's latest, else the ceiling before the episode (R242). -/
def Guest.releaseValue (g : Guest) (pre : Nat) : Nat := g.pp.bound (g.alloc.getD pre)

/-- GUARD_RELEASE (R241): the cut of a guest that is not stale ends and RELEASE falls due. -/
def execGuardRelease (t slot : Nat) (s : State) : Host.Outcome State Fault Refusal :=
  let s := s.at t
  done <| s.withGuest slot fun s g =>
    match g.cut with
    | none => s
    | some k =>
      s.when (!s.inRest && !g.stale && s.mayRelease k) fun s =>
        let s := s.endCut slot
        s.mapGuest slot fun g =>
          { g with releaseDue := some (g.releaseValue k.pre, s.eff E.GUARD_RELEASE_SLEW, true)
                   rampFrom := some k.ceiling }

/-- RELEASE_SEND (R242, R198): RELEASE enters class 2; a cut that took force meanwhile cancels it. -/
def execReleaseSend (t slot : Nat) (s : State) : Host.Outcome State Fault Refusal :=
  let s := s.at t
  done <| s.withGuest slot fun s g =>
    match g.releaseDue with
    | none => s
    | some (v, slew, guard) =>
      s.when (!s.inRest && s.linkUp && s.port.sending) fun s =>
        let s := s.mapGuest slot fun g => { g with releaseDue := none }
        if g.cut.isSome || g.stale then s
        else
          let s := s.queueCap { slot := slot, kind := 4, ceiling := g.releaseValue v, slew := slew, hold := 0 }
          s.when guard fun s => s.inc E.GUARD_RELEASES

/-- Whether the ramp that a RELEASE started is incomplete (R242). -/
def State.ramping (s : State) (g : Guest) : Bool :=
  match g.rampEnd with
  | some e => decide (s.tick < e)
  | none => false

/-- The slew of an ALLOCATE record (R242, R405). -/
def State.allocSlew (s : State) (g : Guest) : Nat :=
  s.eff (if s.ramping g then E.GUARD_RELEASE_SLEW else E.ALLOC_SLEW)

/-- Send the per-guest record in force again with a fresh hold (R171, R177, R198, R209); an ALLOCATE keeps its slew but
for a ramp in progress (R242). -/
def State.resend (s : State) (slot : Nat) (g : Guest) : State :=
  let sendCut (k : Cut) : State := s.queueCut g { slot := slot, ceiling := k.ceiling }
  let allocate : State :=
    match g.lastCap with
    | none => s
    | some r => s.queueCap
        { slot := slot, kind := 0, ceiling := g.pp.bound (if r.kind = 4 then g.alloc.getD r.ceiling else r.ceiling)
          slew := if r.kind = 4 || s.ramping g then s.allocSlew g else r.slew, hold := s.eff E.CAP_HOLD_TICKS }
  match g.lastCap with
  | none => match g.cut with | some k => sendCut k | none => s
  | some r =>
    match g.cut with
    | some k =>
      if g.stale && r.kind = 3 then
        s.queueCap { slot := slot, kind := 3, ceiling := r.ceiling, slew := 0, hold := s.eff E.CAP_HOLD_TICKS }
      else sendCut k
    | none =>
      match r.kind with
      | 3 => s.queueCap { slot := slot, kind := 3, ceiling := r.ceiling, slew := 0, hold := s.eff E.CAP_HOLD_TICKS }
      | 5 => s
      | 1 => s
      | _ => allocate

/-- The tick with which the allocation period in progress ends (R58). -/
def State.periodEnd (s : State) : Nat :=
  let p := max 1 s.row.period
  s.row.origin + ((s.tick - s.row.origin) / p + 1) * p - 1

/-- CAP_REFRESH (R171): a per-guest cap whose hold would lapse too soon is sent again. -/
def execCapRefresh (t slot : Nat) (s : State) : Host.Outcome State Fault Refusal :=
  let s := s.at t
  done <| s.withGuest slot fun s g =>
    match g.lastCap with
    | none => s
    | some r =>
      s.when (!s.inRest && s.linkUp && s.port.sending && r.kind != 5 && r.tick != s.tick
          && decide (r.lapse < s.periodEnd + 2)) fun s => s.resend slot g

/-! ### Row cut refresh (R239) -/

/-- ROW_CUT_REFRESH (R239): at the last tick in which a class row cut can be refreshed it is, when a guest of the class
exceeded lately or a deferred cut of it is unsent; the rest stance refreshes none (R40). -/
def execRowCutRefresh (t scope : Nat) (s : State) : Host.Outcome State Fault Refusal :=
  let s := s.at t
  done <| s.when (decide (scope < 256) && !s.inRest && s.linkUp && s.port.sending) fun s =>
    match s.rowInForce scope s.tick with
    | none => s
    | some r =>
      let mine (slot : Nat) : Bool := match s.guest slot with | some g => g.pp.cls == scope | none => false
      let hot := s.presents.any fun p => p.2.pp.cls == scope &&
        (match p.2.exceedTick with | some x => decide (s.tick < x + s.eff E.GUARD_CLEAR_TICKS) | none => false)
      s.when (s.tick == r.tick + r.hold - 1 && !(s.desk.rowOut.any fun x => x.scope == scope)
          && (hot || s.desk.deferred.any fun c => mine c.slot)) fun s =>
        { s with desk := { s.desk with rowOut := s.desk.rowOut ++
            [{ scope := scope, ceiling := r.ceiling, slew := r.slew, hold := s.eff E.GUARD_ROWCUT_HOLD }] } }

end Sys2Proof.Machine
end

