-- ==== Sys2Proof/Machine/Ingest.lean ====
section
/-! DEFINITION. Ingest and guest state (chapter 6): bundles and parser lanes, the fate of records, staleness and
absence, sensor pairs, echo checks, and the end of a counting tick. -/

namespace Sys2Proof.Machine

/-! ### Bundles and lanes (R141, R162, R182 to R184, R190, R681) -/

/-- The counting tick of an arrival at instant `x` of the tick in progress (R190). -/
def State.countingTick (s : State) (x : Nat) : Nat := if s.fracAt x * 10 < 6 * 65536 then s.tick else s.tick + 1

/-- The lane with the fewest records queued, the lowest number on a tie (R183). -/
def Desk.pickLane (d : Desk) (active : Nat) : Option Nat := minBy (fun i => (nth d.lanes i {}).queue.length) (List.range active)

/-- A bundle is discarded whole (R191, case 1). -/
def State.discardBundle (s : State) : State := (s.inc E.BUNDLES_DISCARDED).latch E.INGEST_LATCHES 1

/-- A datagram on a desk port that is no check-in and no check-out (R141, R681): what the desk does with it, its length
checked first; none for a telemetry bundle to be examined. -/
def State.deskDrop (s : State) (rx : Rx) : Option State :=
  if rx.bytes.length < 2 then some (s.inc E.DESK_MALFORMED)
  else if field rx.bytes 1 1 ≠ 0x20 then some (s.inc E.DROP_PORT)
  else if rx.bytes.length < 16 then some s.discardBundle
  else if rx.dport ≠ s.eff E.UDP_PORT_TELEMETRY then some (s.inc E.DROP_PORT)
  else none

/-- The lane records of a bundle. -/
def laneRecords (rx : Rx) (tick arr frac count : Nat) (rs : List (TRec × Bool)) : List LaneRec :=
  if rs.isEmpty then
    [{ src := rx.src, sport := rx.sport, keepAlive := true, tick := tick, arrTick := arr, frac := frac, count := count
       due := count, beyond := false, size := 16, bad := false, raw := [] }]
  else
    rs.mapIdx fun i r =>
      { src := rx.src, sport := rx.sport, keepAlive := false, tick := tick, arrTick := arr, frac := frac, count := count
        due := count, beyond := false, size := r.1.raw.length + (if i = 0 then 16 else 0), bad := r.2, raw := r.1.raw }

/-- TELEMETRY_BUNDLE (R162, R182 to R184, R221): at the bundle's last bit the guard compares it and the lane with the
fewest records queued takes it; without room it is withheld from the lanes alone. -/
def execTelemetryBundle (t : Nat) (rx : Rx) (s : State) : Host.Outcome State Fault Refusal :=
  let s := (s.at t).take rx
  done <| s.when s.fwRuns fun s =>
    match s.deskDrop rx with
    | some s => s
    | none =>
      if field rx.bytes 0 1 ≠ 1 then s
      else
        match bundleRecords rx.bytes with
        | none => s.discardBundle
        | some rs =>
          let tick := field rx.bytes 8 8
          let frac := s.fracAt s.now
          let count := s.countingTick s.now
          let marked := s.markRecords rs []
          let s := s.guardBundle rx.src rx.sport tick count marked
          let new := laneRecords rx tick s.tick frac count marked
          match s.desk.pickLane (min 16 (s.get E.LANES_ACTIVE)) with
          | none => (s.inc E.DROP_INGRESS).latch E.INGEST_LATCHES 8
          | some i =>
            let lane := nth s.desk.lanes i {}
            if 1048576 < sumOf LaneRec.size lane.queue + sumOf LaneRec.size new then
              (s.inc E.DROP_INGRESS).latch E.INGEST_LATCHES 8
            else
              { s with desk := { s.desk with
                  lanes := modAt s.desk.lanes i fun l => { l with queue := l.queue ++ new } } }

/-! ### Notices (R157) -/

/-- A desk notice leaves in class 3, at most one per guest slot and turn. -/
def State.notice (s : State) (kind slot dst port : Nat) : State :=
  if s.desk.notices.get slot = some s.turn then s
  else
    let s : State := { s with desk := { s.desk with notices := s.desk.notices.set slot s.turn } }
    s.send { cls := 3, dst := dst, sport := s.eff E.UDP_PORT_TELEMETRY, dport := port
             bytes := [1, 5] ++ beBytes 1 kind ++ [0] ++ beBytes 4 slot ++ beBytes 8 s.tick }

/-! ### Parsing a record (R163, R191 to R193, R202, R208, R211) -/

/-- Write a look-back entry; the ring is `LOOKBACK_TICKS` deep (R211, R332). -/
def State.writeLook (s : State) (slot count : Nat) (l : Look) : State :=
  let ring := (s.desk.look.getD slot []).set count l
  let ring := ring.filter fun p => decide (count < p.1 + s.get E.LOOKBACK_TICKS)
  { s with desk := { s.desk with look := s.desk.look.set slot ring } }

/-- ECHO_CHECK (R208, R209) of an on-time record with `POWER` set. -/
def State.echoCheck (s : State) (g : Guest) (power applied : Nat) : Guest :=
  let out := decide (g.emul.cap + s.eff E.ECHO_TOLERANCE < applied)
    || decide (applied * (100 + s.eff E.OVERPOWER_PCT) < power * 100)
  if out then
    { g with disobeyRun := satBytes 2 (g.disobeyRun + 1), inBounds := 0
             disobeyResend := if g.disobeyRun = 0 then some (s.tick + 1) else g.disobeyResend }
  else { g with disobeyRun := 0, inBounds := satBytes 4 (g.inBounds + 1) }

/-- Whether a pair disagrees in these samples (R202); a pair with a quarantined member is not judged. -/
def Guest.disagrees (g : Guest) (p : PairDef) (samples : List Nat) : Bool :=
  !g.quarantine.testBit p.a && !g.quarantine.testBit p.b &&
    (match validSample samples p.a, validSample samples p.b with
     | some x, some y => decide (p.tol < (s16 x - s16 y).natAbs)
     | _, _ => false)

/-- PAIR_DISAGREE (R202): an episode opens. -/
def State.openPair (s : State) (slot : Nat) (g : Guest) (samples : List Nat) : State :=
  (List.range g.pp.pairs.length).foldl (fun s j =>
    match s.guest slot, g.pp.pairs[j]? with
    | some g, some p =>
      if g.disagrees p samples && !(g.pairs.getD j {}).isOpen then
        let s := s.putGuest slot { g with pairs := g.pairs.set j { isOpen := true } }
        s.latchOpen E.INGEST_LATCHES 3 (guestKey slot)
      else s
    | _, _ => s) s

/-- An accepted record enters the guest's state, its standing record and the look-back ring (R191 to R193, R211,
R213, R332). -/
def State.accept (s : State) (slot : Nat) (g : Guest) (l : LaneRec) (r : TRec) : State :=
  let onTime := l.tick == l.count
  let gap := match g.lastSeq with
    | some q => let d := (r.seq + 2 ^ 33 - q - 1) % 2 ^ 32; if d < 2 ^ 31 then d else 0
    | none => 0
  let (vals, degraded) := g.comparedValues r.samples
  let anyValid := r.samples.any fun v => v != 0x8000
  let hot := maxBy (fun p : Nat × Nat => (s16 p.2 + 65536).toNat) vals
  let g := { g with
    lastSeq := some r.seq, lastPresence := max g.lastPresence l.count, lastRecTick := some l.tick
    lastCount := l.count, seqGaps := satBytes 4 (g.seqGaps + gap), lastLate := !onTime, lastFrac := l.frac
    fault := r.fault, degraded := degraded
    lateRecords := if onTime then g.lateRecords else satBytes 4 (g.lateRecords + 1) }
  let g := if anyValid then
      { g with lastSample := max g.lastSample l.count, lastSampleCount := l.count
               hottest := match hot with | some p => p.2 | none => g.hottest
               hottestSensor := match hot with | some p => p.1 | none => g.hottestSensor }
    else g
  let g := if r.power then
      { g with lastPower := max g.lastPower l.count, hasPower := some l.count, powerW := r.powerW
               applied := some r.applied }
    else g
  let g := if r.power && onTime then s.echoCheck g r.powerW r.applied else g
  let disp := if onTime then 1 else if l.beyond then 3 else 2
  let st : Standing :=
    { recTick := l.tick, frac := l.frac, disp := disp, raw := l.raw, samples := r.samples, values := vals
      power := if r.power then some (r.powerW, r.applied) else none, fault := r.fault }
  let g := { g with standing := g.standing.set l.count st }
  let s := (s.putGuest slot g).openPair slot g r.samples
  let s := s.writeLook slot l.count
    { frac := l.frac, disp := disp, age := satBytes 1 (l.count - l.tick), raw := l.raw }
  let s := (s.inc E.RECORDS_ACCEPTED).add E.SEQ_GAPS_ALL gap
  let s := if onTime then s else s.inc E.RECORDS_LATE
  let s := s.incU E.SCATTER_RECORDS g.stack
  if r.power then
    (s.histValue 2 g.pp.cls (f32Ratio r.powerW 8)).histValue 3 g.pp.cls (f32Ratio r.applied 8)
  else s

/-- A record's fate (R191, cases 2 to 9). -/
def State.recordFate (s : State) (l : LaneRec) : State :=
  if l.bad then s.inc E.RECORDS_MALFORMED
  else
    let r := readRecord l.raw
    match s.presentGuest r.slot with
    | none => (s.inc E.RECORDS_FOREIGN).notice 1 r.slot l.src l.sport
    | some g =>
      if g.src ≠ l.src || g.sport ≠ l.sport then (s.inc E.RECORDS_FOREIGN).notice 1 r.slot l.src l.sport
      else if l.tick < g.firstTick then s.inc E.RECORDS_FOREIGN
      else if l.arrTick < l.tick then (s.inc E.RECORDS_EARLY).latch E.INGEST_LATCHES 6 (guestKey r.slot)
      else if l.tick + s.eff E.LATE_LIMIT < l.count then s.inc E.RECORDS_TOO_OLD
      else if (match g.lastRecTick with | some x => decide (l.tick ≤ x) | none => false) then
        (s.putGuest r.slot { g with superseded := satBytes 4 (g.superseded + 1) }).inc E.RECORDS_SUPERSEDED
      else s.accept r.slot g l r

/-- KEEPALIVE (R163): the presence of every guest of the source is refreshed. -/
def State.keepAlive (s : State) (l : LaneRec) : State :=
  let s := s.inc E.KEEPALIVES
  { s with guests := s.guests.mapVals fun _ g =>
      if g.present && g.src == l.src && g.sport == l.sport then
        { g with lastPresence := max g.lastPresence l.count }
      else g }

/-- RECORD_PARSE (R183, R191): a parser lane parses its next record or keep-alive, one per 8.0 ns. -/
def execRecordParse (t lane : Nat) (s : State) : Host.Outcome State Fault Refusal :=
  let s := s.at t
  let ln := nth s.desk.lanes lane {}
  done <| s.when (s.fwRuns && decide (lane < s.get E.LANES_ACTIVE) && decide (ln.freeAt ≤ s.now)) fun s =>
    match ln.queue with
    | [] => s
    | l :: rest =>
      let s : State := { s with desk := { s.desk with
        lanes := modAt s.desk.lanes lane fun x => { x with queue := rest, freeAt := s.now + 8000 } } }
      if l.keepAlive then s.keepAlive l else s.recordFate l

/-! ### The end of a counting tick (R185, R186, R194, R203, R204, R212, R241) -/

/-- The counting tick that ended last. -/
def State.ended (s : State) : Nat := s.desk.counted - 1

/-- A guest's ages at the end of counting tick `c` (R194). -/
def Guest.presenceAge (g : Guest) (c : Nat) : Nat := c - g.lastPresence
def Guest.powerAge (g : Guest) (c : Nat) : Nat := c - g.lastPower
def Guest.sampleAge (g : Guest) (c : Nat) : Nat := c - g.lastSample

/-- Whether R195 holds at the end of counting tick `c`. -/
def State.isStale (s : State) (g : Guest) (c : Nat) : Bool :=
  decide (s.eff E.STALE_TICKS < g.powerAge c)
    || (!g.pp.sensors.isEmpty && decide (s.eff E.STALE_TICKS < g.sampleAge c))

/-- A sample's distance outside a bracket, in °C (R204). -/
def residual (v : Nat) (b : Br) : Dy :=
  if b.isOpen then Dy.zero
  else
    let x : Dy := ⟨s16 v, -6⟩
    if b.hi.lt x then x.sub b.hi else if x.lt b.lo then b.lo.sub x else Dy.zero

/-- One counting tick of a pair's episode (R203, R204). `pred` are the node brackets of the tick, by node. -/
def Guest.pairTick (g : Guest) (pred : Option (List Nat)) (p : PairDef) (q : PairSt) (samples : List Nat) :
    PairSt :=
  if !q.isOpen then q
  else
    match validSample samples p.a, validSample samples p.b with
    | some x, some y =>
      let node := match g.pp.sensors[p.a]? with | some d => d.node | none => 0
      let add (sum : Dy) (v : Nat) : Dy :=
        match pred with
        | some l => if node < l.length then sum.add (residual v (Br.of32 (nth l node 0))) else sum
        | none => sum
      if g.disagrees p samples then
        { q with ticks := q.ticks + 1, agree := 0, sumA := add q.sumA x, sumB := add q.sumB y }
      else { q with agree := q.agree + 1 }
    | _, _ => q

/-- The standing record of a counting tick enters the summary step (R212). -/
def Guest.foldIn (g : Guest) (f : Fold) (st : Option Standing) : Fold :=
  let flags := f.flags ||| ((if g.stale then 1 else 0) + (if g.disobedient then 2 else 0)
    + (if g.quarantine ≠ 0 then 8 else 0))
  match st with
  | none => { f with flags := flags }
  | some x =>
    let hot := (x.values.map fun p => s16 p.2).foldl (fun m v => match m with | some w => some (max w v) | none => some v)
      f.maxHot
    let sums := (List.range g.pp.sensors.length).map fun i =>
      let old := nth f.sums i (0, 0)
      match validSample x.samples i with
      | some v => (old.1 + s16 v, old.2 + 1)
      | none => old
    let f := { f with
      maxHot := hot, sums := sums, flags := flags ||| (if x.fault then 4 else 0)
      sampled := satBytes 1 (f.sampled + if x.samples.any (fun v => v != 0x8000) then 1 else 0) }
    match x.power with
    | some (p, c) => { f with powerSum := f.powerSum + p, powerN := f.powerN + 1, capSum := f.capSum + c }
    | none => f

/-- A guest's extremes take the standing record (R597). -/
def Extremes.fold (e : Extremes) (x : Standing) (c : Nat) : Extremes :=
  let e := x.values.foldl (fun e p =>
    let v := s16 p.2
    if !e.seen then { e with seen := true, hotMax := v, hotMin := v, hotMaxTick := c, hotMinTick := c }
    else
      let e := if e.hotMax < v then { e with hotMax := v, hotMaxTick := c } else e
      if v < e.hotMin then { e with hotMin := v, hotMinTick := c } else e) e
  match x.power with
  | some (p, _) =>
    if !e.powerSeen then { e with powerSeen := true, powerMax := p, powerMaxTick := c }
    else if e.powerMax < p then { e with powerMax := p, powerMaxTick := c } else e
  | none => e

/-- A guest at the end of counting tick `c`. -/
def Guest.endTick (g : Guest) (c : Nat) : Guest :=
  if !g.present then g
  else
    let st := g.standing.get c
    let pairs : AMap PairSt := match st with
      | some x => g.pairs.mapVals fun j q =>
          match g.pp.pairs[j]? with
          | some p => g.pairTick (g.preds.get c) p q x.samples
          | none => q
      | none => g.pairs
    let cut := match g.cut, g.guarded.get c with
      | some k, some high => some { k with clear := if high then 0 else k.clear + 1 }
      | k, _ => k
    { g with pairs := pairs, cut := cut, fold := g.foldIn g.fold st
             standing := g.standing.filter (fun p => decide (c ≤ p.1))
             guarded := g.guarded.filter (fun p => decide (c < p.1))
             preds := g.preds.filter (fun p => decide (c < p.1)) }

/-- The pairs of present guest and tick `c` that are covered (R642) enter the count of the turn, once. -/
def State.coverTick (s : State) (c : Nat) : State :=
  if c < s.start.coveredTo then s
  else
    let n := (s.presents.filter fun p => match p.2.standing.get c with | some x => x.disp == 1 | none => false).length
    { s with start := { s.start with
        covered := s.start.covered + n, pairsDue := s.start.pairsDue + s.presents.length, coveredTo := c + 1 } }

/-- COUNTING_TICK_END (R186, R192, R194, R597): the desk updates ages, moves records still queued on to the next
counting tick, and folds the standing records. -/
def execCountingTickEnd (t : Nat) (s : State) : Host.Outcome State Fault Refusal :=
  let s := s.at t
  let c := s.desk.counted
  done <| s.when (s.fwRuns && decide (c < s.tick)) fun s =>
    let s := s.coverTick c
    let late := s.desk.lanes.flatMap fun l => l.queue.filter fun r => r.count == c && !r.keepAlive
    let move (r : LaneRec) : LaneRec := if r.count = c then { r with count := c + 1, beyond := true } else r
    let s : State := { s with desk := { s.desk with
      counted := c + 1, lanes := s.desk.lanes.map fun l => { l with queue := l.queue.map move } } }
    let s := s.when (!late.isEmpty) fun s => (s.add E.LANE_OVERRUNS late.length).latch E.INGEST_LATCHES 0
    let values := s.presents.filterMap fun p =>
      match p.2.standing.get c with
      | some x => (maxBy (fun v : Nat × Nat => (s16 v.2 + 65536).toNat) x.values).map fun v => (p.2.pp.cls, v.2)
      | none => none
    let ex := s.presents.foldl (fun m p =>
      match p.2.standing.get c with
      | some x => m.set p.1 ((m.getD p.1 {}).fold x c)
      | none => m) s.recorder.extremes
    let s : State :=
      { s with recorder := { s.recorder with extremes := ex }
               guests := s.guests.mapVals fun _ g => g.endTick c }
    values.foldl (fun s v => s.histValue 1 v.1 (f32Ratio (s16 v.2) 64)) s

/-! ### Staleness and absence (R195 to R199) -/

/-- GUEST_STALE (R195, R196): a guest turns stale, and a STALE_CAP falls due when it has received a per-guest
record. The rest stance sends none (R40). -/
def execGuestStale (t slot : Nat) (s : State) : Host.Outcome State Fault Refusal :=
  let s := s.at t
  done <| s.withGuest slot fun s g =>
    s.when (!g.stale && s.isStale g s.ended) fun s =>
      let g := { g with stale := true, staleEpisodes := satBytes 4 (g.staleEpisodes + 1), releaseDue := none
                        preStale := g.perGuest s.tick, staleDue := g.lastCap.isSome }
      ((s.putGuest slot g).inc E.STALE_ENTRIES).latchOpen E.INGEST_LATCHES 2 (guestKey slot)

/-- STALE_CAP_SEND (R196): the STALE_CAP record enters class 2. -/
def execStaleCapSend (t slot : Nat) (s : State) : Host.Outcome State Fault Refusal :=
  let s := s.at t
  done <| s.withGuest slot fun s g =>
    s.when (g.stale && g.staleDue && !s.inRest && s.linkUp && s.port.sending) fun s =>
      let c := g.pp.bound (min g.pp.orphan (g.perGuest s.tick))
      let s := s.putGuest slot { g with staleDue := false }
      (s.dropCaps slot [0, 4]).queueCap
        { slot := slot, kind := 3, ceiling := c, slew := 0, hold := s.eff E.CAP_HOLD_TICKS }

/-- STALE_END (R198): staleness ends; RELEASE falls due, or a guard cut in force is sent again. -/
def execStaleEnd (t slot : Nat) (s : State) : Host.Outcome State Fault Refusal :=
  let s := s.at t
  done <| s.withGuest slot fun s g =>
    s.when (g.stale && !s.isStale g s.ended) fun s =>
      let capped := g.staleCap
      let waiting := g.staleDue
      let s := s.putGuest slot { g with stale := false, staleDue := false }
      let s := (s.dropCaps slot [3]).latchEnd E.INGEST_LATCHES 0 2 (guestKey slot)
      if s.inRest then s
      else
        match g.cut with
        | some k => s.queueCut g { slot := slot, ceiling := k.ceiling }
        | none =>
          if !capped || waiting then s
          else s.mapGuest slot fun g =>
            { g with releaseDue := some (g.releaseValue g.preStale, s.eff E.STALE_RELEASE_SLEW, false) }

/-- ABSENCE_TIMEOUT (R199): the presence age reaches `ABSENCE_TICKS`. -/
def execAbsenceTimeout (t slot : Nat) (s : State) : Host.Outcome State Fault Refusal :=
  let s := s.at t
  done <| s.withGuest slot fun s g =>
    s.when (g.lapseDue == none && decide (s.eff E.ABSENCE_TICKS ≤ g.presenceAge s.ended)) fun s =>
      s.putGuest slot { g with lapseDue := some (s.ended + 1) }

/-! ### Disobedient guests (R209) -/

/-- DISOBEY_RESEND (R209): the record in force is sent again in the tick after the first out-of-bounds record. -/
def execDisobeyResend (t slot : Nat) (s : State) : Host.Outcome State Fault Refusal :=
  let s := s.at t
  done <| s.withGuest slot fun s g =>
    match g.disobeyResend with
    | some x =>
      s.when (decide (x ≤ s.tick)) fun s =>
        let s := s.putGuest slot { g with disobeyResend := none }
        s.when (!s.inRest) fun s => s.resend slot g
    | none => s

/-- GUEST_DISOBEDIENT (R209). -/
def execGuestDisobedient (t slot : Nat) (s : State) : Host.Outcome State Fault Refusal :=
  let s := s.at t
  done <| s.withGuest slot fun s g =>
    s.when (!g.disobedient && decide (s.eff E.DISOBEY_TICKS ≤ g.disobeyRun)) fun s =>
      let g := { g with disobedient := true, disobeyEpisodes := satBytes 4 (g.disobeyEpisodes + 1) }
      ((s.putGuest slot g).inc E.DISOBEY_EVENTS).latchOpen E.INGEST_LATCHES 5 (guestKey slot)

/-- DISOBEY_CLEAR (R209). -/
def execDisobeyClear (t slot : Nat) (s : State) : Host.Outcome State Fault Refusal :=
  let s := s.at t
  done <| s.withGuest slot fun s g =>
    s.when (g.disobedient && decide (s.eff E.DISOBEY_TICKS ≤ g.inBounds)) fun s =>
      (s.putGuest slot { g with disobedient := false }).latchEnd E.INGEST_LATCHES 0 5 (guestKey slot)

/-! ### Pairs (R203, R204) -/

/-- A pair's episode closes; its record ends. -/
def State.closePair (s : State) (slot j : Nat) : State :=
  let s := s.mapGuest slot fun g => { g with pairs := g.pairs.erase j }
  let still := match s.guest slot with | some g => g.pairs.any fun p => p.2.isOpen | none => false
  if still then s else s.latchEnd E.INGEST_LATCHES 0 3 (guestKey slot)

/-- PAIR_EPISODE_END (R203). -/
def execPairEpisodeEnd (t slot pair : Nat) (s : State) : Host.Outcome State Fault Refusal :=
  let s := s.at t
  done <| s.withGuest slot fun s g =>
    let q := g.pairs.getD pair {}
    s.when (q.isOpen && decide (s.eff E.PAIR_AGREE_TICKS ≤ q.agree)) fun s => s.closePair slot pair

/-- PAIR_PERSIST_REACHED (R204): the sums are compared, and a member is quarantined or the case is logged. -/
def execPairPersistReached (t slot pair : Nat) (s : State) : Host.Outcome State Fault Refusal :=
  let s := s.at t
  done <| s.withGuest slot fun s g =>
    let q := g.pairs.getD pair {}
    let n := s.eff E.PAIR_PERSIST
    match g.pp.pairs[pair]? with
    | none => s
    | some p =>
      s.when (q.isOpen && n != 0 && decide (n ≤ q.ticks) && q.compared != q.ticks) fun s =>
        let tol : Dy := ⟨p.tol, -6⟩
        let bad := if tol.le (q.sumA.sub q.sumB) then some p.a
          else if tol.le (q.sumB.sub q.sumA) then some p.b else none
        match bad with
        | some k =>
          let s := s.putGuest slot { g with quarantine := setBit g.quarantine k }
          ((s.closePair slot pair).inc E.QUARANTINES).latch E.INGEST_LATCHES 4 (guestKey slot)
        | none =>
          let s := s.putGuest slot { g with pairs := g.pairs.set pair { q with compared := q.ticks } }
          s.cond { index := 0x9002, bit := 1, key := guestKey slot } false

/-! ### Summary steps (R212, R598, R600) -/

/-- A mean rounded toward +∞ as a 16-bit code; a mean of nothing is the free value given (notes/assumptions/40.md). -/
def meanCode (sum : Int) (n free : Nat) : Nat := if n = 0 then free % 65536 else code16 (-((-sum).fdiv n))

/-- The row of a summary step (R212); `free` numbers the free values of a step that held no such reading. -/
def Fold.row (f : Fold) (free : Nat) : Bytes :=
  let fv (i : Nat) : Nat := Config.freeValue (free + i)
  let mean (k : Nat) : Nat :=
    let a := nth f.sums k (0, 0)
    let b := nth f.sums (k + 16) (0, 0)
    let ma := meanCode a.1 a.2 (fv (3 + k))
    if b.2 = 0 then ma
    else if a.2 = 0 then meanCode b.1 b.2 0
    else if s16 ma < s16 (meanCode b.1 b.2 0) then meanCode b.1 b.2 0 else ma
  let hot := match f.maxHot with | some v => code16 v | none => fv 0 % 65536
  let avg (sum n i : Nat) : Nat := if n = 0 then fv i % 65536 else satBytes 2 (ceilDiv sum n)
  beBytes 2 hot ++ beBytes 2 (avg f.powerSum f.powerN 1) ++ beBytes 2 (avg f.capSum f.powerN 2)
    ++ beBytes 1 f.sampled ++ beBytes 1 f.flags ++ (List.range 16).flatMap fun k => beBytes 2 (mean k)

/-- One guest at the end of summary step `k`: its row enters the ring, its `MAX_HOT` the rainflow operation. -/
def State.summaryGuest (s : State) (k slot : Nat) (g : Guest) : State :=
  let ring := (s.desk.summary.getD slot []).set k (g.fold.row s.freeCtr)
  let ring := ring.filter fun p => decide (k < p.1 + s.get E.SUMMARY_STEPS)
  let s : State :=
    { s with freeCtr := s.freeCtr + 19, desk := { s.desk with summary := s.desk.summary.set slot ring } }
  let s := s.putGuest slot { g with fold := {} }
  match g.fold.maxHot with
  | some v =>
    if g.pp.sensors.isEmpty then s
    else
      let rf := (s.recorder.rainflow.getD slot {}).value (s.eff E.RF_GATE) (s.eff E.RF_RANGE_STEP)
        (s16 (s.eff E.RF_MEAN_LO)) (s.eff E.RF_MEAN_STEP) v
      let s := s.tallied g.stack 1 256 rf.cells
      let rf := { rf with cells := tallyClean 256 rf.cells }
      { s with recorder := { s.recorder with rainflow := s.recorder.rainflow.set slot rf } }
  | none => s

/-- SUMMARY_STEP_END (R212, R598, R600): the counting ticks of a step have ended; every present guest's row is
written and the rainflow matrices take their values. -/
def execSummaryStepEnd (t : Nat) (s : State) : Host.Outcome State Fault Refusal :=
  let s := s.at t
  let n := s.get E.SUMMARY_TICKS
  let k := s.desk.summaryFrom
  done <| s.when (s.fwRuns && n != 0 && decide ((k + 1) * n ≤ s.desk.counted)) fun s =>
    let s : State := { s with desk := { s.desk with summaryFrom := k + 1 } }
    let s := s.presents.foldl (fun s p => s.summaryGuest k p.1 p.2) s
    let rf := s.recorder.dieRf.value (s.eff E.DIE_RF_GATE) (s.eff E.DIE_RF_RANGE_STEP)
      (s16 (s.eff E.DIE_RF_MEAN_LO)) (s.eff E.DIE_RF_MEAN_STEP) (s16 (s.get E.COOL_DIE_T))
    { s with recorder := { s.recorder with dieRf := { rf with cells := tallyClean 256 rf.cells } } }

end Sys2Proof.Machine
end

