-- ==== Sys2Proof/Machine/Placement.lean ====
section
/-! DEFINITION. Where classes run and what the stacks host (R319, R373, R400): placement of classes on regions, guest
segments carved from the operator area, and programs that lose their storage to a carve. -/

namespace Sys2Proof.Machine

/-- The regions, and those that run: not fenced. -/
def State.runningRegions (s : State) : List Nat := (List.range 4).filter fun r => !(s.get E.REGIONS_FENCED).testBit r

/-- The work of a class: n² for each present guest (R400). -/
def State.classWork (s : State) (c : Nat) : Nat := s.getU E.CLASS_GUESTS c * s.getU E.CLASS_NODES c ^ 2

/-- The classes that a region runs. -/
def State.regionClasses (s : State) (r : Nat) : List Nat := (List.range 256).filter fun c => s.getU E.CLASS_REGION c == r

/-- The work of a region. -/
def State.regionWork (s : State) (r : Nat) : Nat := sumOf s.classWork (s.regionClasses r)

/-- `GUESTS_HOSTED` of the four stacks: the guests whose class runs in the region (R319). -/
def State.refreshHosted (s : State) : State :=
  (List.range 4).foldl (fun s k => s.setU E.GUESTS_HOSTED k (sumOf (s.getU E.CLASS_GUESTS) (s.regionClasses k))) s

/-- Bytes of one carved block: 1,024 guests (R319). -/
def carveBlock : Nat := 2392008 * 1024

/-- The blocks a stack needs beyond its 32,768 guests. -/
def State.carveNeed (s : State) (k : Nat) : Nat :=
  ceilDiv (s.getU E.GUESTS_HOSTED k - s.get E.STACK_GUEST_CAPACITY) 1024

/-- Operator area of one stack: a quarter of the module's (R318), none in a stack that is lost. -/
def State.stackArea (s : State) (k : Nat) : Nat := if s.getU E.STACK_STATE k = 3 then 0 else s.loader.area / 4

/-- Bytes a program slot holds: its storage, what waits to be returned, and its staging. -/
def State.progBytes (s : State) (p : Nat) (g : Prog) : Nat :=
  s.getU E.PROG_STORE p + g.storeBack
    + (match g.staging with | some x => x.length | none => 0)
    + (match g.fitting with | some b => b.length | none => 0)
    + (match g.install with | some i => i.store | none => 0)

/-- Bytes in use in the operator area of a stack. -/
def State.stackUsed (s : State) (k : Nat) : Nat :=
  sumOf (fun q : Nat × Prog => if q.2.stack = k then s.progBytes q.1 q.2 else 0) s.progs
    + (s.stackMap.getD k {}).carved * carveBlock

/-- `OPER_STORE_FREE` follows the use of the operator area (R381). -/
def State.refreshStore (s : State) : State :=
  s.set E.OPER_STORE_FREE (sumOf (fun k => s.stackArea k - s.stackUsed k) (List.range 4))

/-- The importance of a program: a larger value is less important (R344). -/
def State.progRank (s : State) (p : Nat) : Nat := 16 * s.effU E.PROG_PRIORITY p + p

/-- A program leaves its slot (R361, R360): its outputs and bindings end, its storage waits for the next turn
boundary. The slot's staging, if any, stays. -/
def State.unloadProg (s : State) (p result : Nat) : State :=
  let g := s.progs.getD p {}
  let back := s.getU E.PROG_STORE p
  let g' : Prog := { staging := g.staging, fitting := g.fitting, install := g.install, stack := g.stack
                     storeBack := g.storeBack + back }
  let s : State := { s with progs := s.progs.set p g', loader := { s.loader with replaceDue := true } }
  let s := (List.range 8).foldl (fun s k => s.setU E.HINGE_STATE (8 * p + k) 0) s
  let s := (((((s.setU E.PROG_STORE p 0).setU E.PROG_FACTOR p 0).setU E.PROG_DEMAND p 0).setU E.PROG_PERIOD p 0).setU
    E.PROG_FORM_VERSION p 0).setU E.PROG_DIGEST p 0
  let s := ((s.setU E.PROG_RESULT p result).setU E.PROG_FLAGS p 0).setU E.PROG_PHASE p 0
  let st := if g.fitting.isSome || g.install.isSome then 2 else if g.staging.isSome then 1 else 0
  (s.setU E.PROG_STATE p st).refreshStore

/-- PROG_EVICT (R373): while a stack holds more than its operator area, the least important program with storage in
it is moved to a stack with room, suspended during the move, or unloaded when none has room. -/
def State.evict (s : State) (k : Nat) : Nat → State
  | 0 => s
  | n + 1 =>
    if s.stackUsed k ≤ s.stackArea k then s
    else
      match maxBy (fun q : Nat × Prog => s.progRank q.1)
          (s.progs.filter fun q => q.2.stack == k && q.2.loaded && !q.2.moving) with
      | none => s
      | some (p, g) =>
        let bytes := s.progBytes p g
        let room := (List.range 4).filter fun j =>
          j != k && s.getU E.STACK_STATE j == 2 && decide (s.stackUsed j + bytes ≤ s.stackArea j)
        match room with
        | j :: _ =>
          let s : State := { s with progs := s.progs.set p { g with stack := j, moving := true, step := none } }
          (s.setU E.PROG_STATE p 4).refreshStore.evict k n
        | [] =>
          let s := s.unloadProg p 8
          let s : State := { s with progs := s.progs.adjust p fun g => { g with storeBack := 0 } }
          let s := s.setU E.PROG_FLAGS p 32
          ((s.latch E.LOADER_LATCHES 4 (condKey 14 p)).refreshStore).evict k n

/-- R319: carve the blocks that the stacks now need; fewer are returned at a turn boundary alone (`back`). -/
def State.carve (s : State) (back : Bool) : State :=
  let s := s.refreshHosted
  let s := (List.range 4).foldl (fun s k =>
    let x := s.stackMap.getD k {}
    let need := s.carveNeed k
    let n := if back then need else max x.carved need
    if n = x.carved then s
    else
      let s : State := { s with stackMap := s.stackMap.set k { x with carved := n } }
      s.evict k 16) s
  s.refreshStore

/-- CLASS_PLACE (R400): the region with the least work among the running regions whose stack hosts fewer than 32,768
guests, among all running regions when none does; the lowest number breaks a tie. Without a running region the class
stays unplaced. -/
def State.placeClass (s : State) (c : Nat) : State :=
  let run := s.runningRegions
  let roomy := run.filter fun r => decide (s.getU E.GUESTS_HOSTED r < 32768)
  match minBy s.regionWork (if roomy.isEmpty then run else roomy) with
  | none => s
  | some r =>
    let s := s.setU E.CLASS_REGION c r
    let s : State := { s with guests := s.guests.mapVals fun _ g => if g.pp.cls = c then { g with stack := r } else g }
    s.carve false

/-- Place several classes in descending order of work, the lower class first on a tie (R400). -/
def State.placeClasses (s : State) (cs : List Nat) : State :=
  (sortBy (fun c => 2 ^ 40 - s.classWork c) cs).foldl State.placeClass s

/-- A class has gained or lost a present guest: counts, and its placement once model ceilings have taken over. -/
def State.classChanged (s : State) (c : Nat) : State :=
  let s := s.refreshClass c
  if s.get E.MODEL_CEILINGS = 1 && s.getU E.CLASS_REGION c == 0xFF && decide (0 < s.getU E.CLASS_GUESTS c) then
    s.placeClass c
  else s.refreshHosted

end Sys2Proof.Machine
end

