-- ==== Sys2Proof/Machine/Desk.lean ====
section
/-! DEFINITION. The guest desk (chapter 5): check-in, rejoin, check-out, lapse and the lifting of classes. -/

namespace Sys2Proof.Machine

/-! ### Passports (R142 to R146) -/

/-- The sensor entries of a passport. -/
def readSensors (bs : Bytes) : Nat → List SensorDef
  | 0 => []
  | n + 1 => { node := field bs 0 1, limit := field bs 2 2, static := field bs 4 2 } :: readSensors (bs.drop 8) n

/-- The pair entries of a passport. -/
def readPairs (bs : Bytes) : Nat → List PairDef
  | 0 => []
  | n + 1 => { a := field bs 0 1, b := field bs 1 1, tol := field bs 2 2 } :: readPairs (bs.drop 4) n

/-- The passport of a check-in request; missing bytes read as zero and fail check 1. -/
def Passport.read (dgram : Bytes) : Passport :=
  let b := padTo 64 (dgram.drop 32)
  let ns := field b 21 1
  let np := field b 22 1
  { id := field b 0 16, vendor := field b 16 2, cls := field b 18 1, kind := field b 19 1, branch := field b 20 1
    floor := field b 24 2, orphan := field b 26 2, maxCap := field b 28 2
    hasFpr := (field b 23 1).testBit 0, fpr := field b 32 32
    sensors := readSensors (padTo (64 + 8 * ns) b |>.drop 64) ns
    pairs := readPairs (padTo (64 + 8 * ns + 4 * np) b |>.drop (64 + 8 * ns)) np }

/-- Check 6 of R146. -/
def Passport.pairsOk (p : Passport) : Bool :=
  let n := p.sensors.length
  let used := p.pairs.flatMap fun q => [q.a, q.b]
  p.pairs.all (fun q =>
    decide (q.a < n) && decide (q.b < n) && q.a != q.b && decide (1 ≤ q.tol) && decide (q.tol ≤ 1024) &&
      (match p.sensors[q.a]?, p.sensors[q.b]? with
       | some x, some y => x.node == y.node && x.limit == y.limit && x.static == y.static
       | _, _ => false))
    && used.all fun i => (used.filter fun j => j == i).length == 1

/-- The first check of R146 that a request fails, 0 for none. -/
def State.passportFault (s : State) (dgram : Bytes) : Nat :=
  let p := Passport.read dgram
  let len := field dgram 2 2
  let port := field dgram 24 2
  let known := s.getU E.CLASS_STATE p.cls != 0
  if len ≠ 64 + 8 * p.sensors.length + 4 * p.pairs.length || dgram.length ≠ 32 + len then 1
  else if 32 < p.sensors.length || 16 < p.pairs.length then 2
  else if p.kind < 1 || 6 < p.kind || 39 < p.branch then 3
  else if p.maxCap = 0 || p.orphan < p.floor || p.maxCap < p.orphan then 4
  else if p.sensors.any (fun x => decide (s16 x.limit < s16 x.static)
      || (known && decide (s.getU E.CLASS_NODES p.cls ≤ x.node))) then 5
  else if !p.pairsOk then 6
  else if (p.hasFpr && p.fpr == 0) || (!p.hasFpr && s.get E.DESK_FPR_MODE != 0) then 7
  else if port < 1024 || field dgram 8 1 = 0xFF then 8
  else 0

/-! ### Requests (R147, R681) -/

/-- A datagram of type `ty` that belongs to the desk (R141); none when the command does not serve it. -/
def State.deskMine (s : State) (rx : Rx) (ty : Nat) : Bool :=
  s.fwRuns && decide (2 ≤ rx.bytes.length) && field rx.bytes 1 1 == ty

/-- CHECK_IN_REQUEST (R141, R147, R681): a request is length-checked and queued, or dropped when the queue is full. -/
def execCheckInRequest (t : Nat) (rx : Rx) (s : State) : Host.Outcome State Fault Refusal :=
  let s := s.at t
  done <| s.when (s.deskMine rx 1) fun s =>
    let s := s.take rx
    if rx.bytes.length < 32 then s.inc E.DESK_MALFORMED
    else if rx.dport ≠ s.eff E.UDP_PORT_TELEMETRY then s.inc E.DROP_PORT
    else if 8192 ≤ s.desk.checkIns.length then
      ((s.inc E.DROP_INGRESS).inc E.CHECKIN_DROPPED).latch E.DESK_LATCHES 4
    else { s with desk := { s.desk with checkIns := s.desk.checkIns ++ [{ rx := rx }] } }

/-- A desk reply leaves in class 3; one that finds its queue full is dropped and counted (R93). -/
def State.deskReply (s : State) (dst port : Nat) (bytes : Bytes) : State :=
  let d : Dgram := { cls := 3, dst := dst, sport := s.eff E.UDP_PORT_TELEMETRY, dport := port, tag := 1, bytes := bytes }
  if s.linkUp && !s.port.room d then s.inc E.DROP_EGRESS else s.send d

/-- The check-in reply (R149). -/
def checkInReply (rx : Rx) (result reason slot retry detail first : Nat) : Bytes :=
  [1, 2] ++ beBytes 1 result ++ beBytes 1 reason ++ slice rx.bytes 4 4 ++ beBytes 4 slot ++ beBytes 2 retry
    ++ beBytes 2 detail ++ padTo 16 (slice rx.bytes 32 16) ++ beBytes 8 first ++ List.replicate 8 0

/-- A refusal with its counter and latch (R148, R179, R180). -/
def State.refuseCheckIn (s : State) (rx : Rx) (reason retry detail : Nat) : State :=
  let (e, b) : Ent × Option Nat := match reason with
    | 1 => (E.REFUSE_FULL_COUNT, some 0)
    | 2 => (E.REFUSE_FULL_RATE, some 0)
    | 3 => (E.REFUSE_UNKNOWN_CLASS, some 1)
    | 4 => (E.REFUSE_BAD_PASSPORT, some 1)
    | 5 => (E.REFUSE_NOT_OPEN, none)
    | 6 => (E.REFUSE_ID_CONFLICT, some 2)
    | 7 => (E.REFUSE_BAD_VERSION, none)
    | 8 => (E.REFUSE_NOT_HELD, none)
    | _ => (E.REFUSE_BRANCH_OFF, some 1)
  let s := s.inc e
  let s := match b with | some k => s.latch E.DESK_LATCHES k | none => s
  s.deskReply rx.src rx.sport (checkInReply rx 2 reason 0 retry detail 0)

/-- The lowest-numbered free guest slot at or above `n` (R150); the register lists its slots in order. -/
def lowestFree : List (Nat × Guest) → Nat → Option Nat
  | [], n => if n < 131072 then some n else none
  | (k, _) :: m, n => if k = n then lowestFree m (n + 1) else if n < 131072 then some n else none

/-- A guest slot becomes free. -/
def State.freeSlot (s : State) (slot : Nat) : State :=
  match s.guest slot with
  | none => s
  | some g =>
    let s := s.endCut slot
    let s := s.dropCaps slot [0, 3, 4, 5]
    let s := if g.stale then s.latchEnd E.INGEST_LATCHES 0 2 (guestKey slot) else s
    let s := if g.disobedient then s.latchEnd E.INGEST_LATCHES 0 5 (guestKey slot) else s
    let s := if g.pairs.any (fun p => p.2.isOpen) then s.latchEnd E.INGEST_LATCHES 0 3 (guestKey slot) else s
    let s : State :=
      { s with guests := s.guests.erase slot
               guard := { s.guard with
                 live := s.guard.live.erase slot, standby := s.guard.standby.erase slot
                 second := s.guard.second.erase slot } }
    s.refreshDesk.classChanged g.pp.cls

/-- The reservation whose guest lapsed earliest (R151). -/
def State.oldestReserved (s : State) : Option Nat :=
  (minBy (fun p : Nat × Guest => p.2.reservedTick)
    (s.guests.filter fun p => !p.2.present && p.2.newPp == none)).map Prod.fst

/-- Admission to a slot (R150, R389, R408, R597). -/
def State.takeIn (s : State) (rx : Rx) (slot : Nat) : State :=
  let p := Passport.read rx.bytes
  let first := s.tick + 2
  let region := s.getU E.CLASS_REGION p.cls
  let g : Guest :=
    { present := true, pp := p, src := rx.src, sport := rx.sport, capAddr := field rx.bytes 8 16
      capPort := field rx.bytes 24 2, servedAt := s.now, firstTick := first, joinTick := first, becamePresent := s.tick
      lastPresence := first, lastPower := first, lastSample := first
      stack := if region = 0xFF then 0 else region
      emul := { target := p.orphan, pg := p.orphan, cap := p.orphan } }
  let s := s.putGuest slot g
  let s : State :=
    { s with recorder := { s.recorder with
        extremes := s.recorder.extremes.erase slot, rainflow := s.recorder.rainflow.erase slot } }
  let s := (s.refreshDesk.classChanged p.cls).inc E.CHECKIN_ADMITTED
  s.deskReply rx.src rx.sport (checkInReply rx 0 0 slot 0 0 first)

/-- A rejoin (R152, R177, R220, R244). -/
def State.rejoin (s : State) (rx : Rx) (slot : Nat) (g : Guest) : State :=
  let p := Passport.read rx.bytes
  let first := s.tick + 2
  let moved := p.cls != g.pp.cls
  let s := if moved then s.endCut slot else s
  let g := match s.guest slot with | some g => g | none => g
  let g := { g with
    src := rx.src, sport := rx.sport, capAddr := field rx.bytes 8 16, capPort := field rx.bytes 24 2, servedAt := s.now
    firstTick := first, rejoined := true, newPp := some (p, s.tick + 1), staticOnly := g.staticOnly || moved
    lapseDue := none
    rejoinResend := if g.cut.isSome || g.staleCap then some (s.tick + 1) else none }
  let s := (s.putGuest slot g).inc E.CHECKIN_REJOINED
  s.deskReply rx.src rx.sport (checkInReply rx 1 0 slot 0 0 first)

/-- The guest with a `GUEST_ID`. -/
def State.byId (s : State) (id : Nat) : Option (Nat × Guest) := s.guests.find? fun p => p.2.pp.id == id

/-- Whether a fingerprint is held by one side alone or differs (R148, `ID_CONFLICT`). -/
def Passport.conflicts (p q : Passport) : Bool := p.hasFpr != q.hasFpr || (p.hasFpr && p.fpr != q.fpr)

/-- The reasons of R148 in their order, admission and rejoin. -/
def State.serveCheckIn (s : State) (rx : Rx) : State :=
  let p := Passport.read rx.bytes
  let found := s.byId p.id
  let fault := s.passportFault rx.bytes
  if s.get E.DESK_OPEN = 0 then s.refuseCheckIn rx 5 1 0
  else if field rx.bytes 0 1 ≠ 1 then s.refuseCheckIn rx 7 0xFFFF 0
  else if fault ≠ 0 then s.refuseCheckIn rx 4 0xFFFF fault
  else if s.getU E.CLASS_STATE p.cls = 0 then s.refuseCheckIn rx 3 0xFFFF 0
  else if s.getU E.BR_ENABLE p.branch = 0 then s.refuseCheckIn rx 9 64 0
  else if (match found with | some (_, g) => p.conflicts g.pp | none => false) then s.refuseCheckIn rx 6 0xFFFF 0
  else
    match found with
    | some (slot, g) => s.rejoin rx slot g
    | none =>
      let free := lowestFree s.guests 0
      let beyond := decide (s.get E.ADMIT_LIMIT ≤ s.get E.DESK_PRESENT + s.get E.DESK_RESERVED)
      if free.isSome && !beyond then s.takeIn rx (free.getD 0)
      else
        match s.oldestReserved with
        | some slot =>
          let s := ((s.freeSlot slot).inc E.RECLAIMS).latch E.DESK_LATCHES 3 (guestKey slot)
          s.takeIn rx slot
        | none => s.refuseCheckIn rx (if free.isSome then 2 else 1) 64 0

/-- CHECK_IN_SERVE (R147, R148): the oldest queued request is served, at most 2,048 in a tick. -/
def execCheckInServe (t : Nat) (s : State) : Host.Outcome State Fault Refusal :=
  let s := s.at t
  let n := if s.desk.servedTick = s.tick then s.desk.served else 0
  done <| s.when (s.fwRuns && decide (n < 2048)) fun s =>
    match s.desk.checkIns with
    | [] => s
    | c :: rest =>
      let s : State := { s with desk := { s.desk with checkIns := rest, served := n + 1, servedTick := s.tick } }
      s.serveCheckIn c.rx

/-- PASSPORT_TAKE_FORCE (R152, R194): at the tick boundary after a rejoin the new passport replaces the old one and
quarantine ends; a reserved guest is present again with its ages restarted. -/
def execPassportTakeForce (t slot : Nat) (s : State) : Host.Outcome State Fault Refusal :=
  let s := s.at t
  done <| match s.guest slot with
    | none => s
    | some g =>
      match g.newPp with
      | none => s
      | some (p, due) =>
        s.when (decide (due ≤ s.tick)) fun s =>
          let moved := p.cls != g.pp.cls
          let s := if g.pairs.any (fun q => q.2.isOpen) then s.latchEnd E.INGEST_LATCHES 0 3 (guestKey slot) else s
          let g := { g with pp := p, newPp := none, quarantine := 0, pairs := [], degraded := false }
          let g := if moved then { g with restartDue := true, x := [], preds := [] } else g
          let region := s.getU E.CLASS_REGION p.cls
          let g := if moved && region != 0xFF then { g with stack := region } else g
          let old := match s.guest slot with | some o => o.pp.cls | none => p.cls
          let g := if g.present then g
            else { g with present := true, becamePresent := s.tick, lastPresence := g.firstTick
                          lastPower := g.firstTick, lastSample := g.firstTick }
          ((s.putGuest slot g).refreshDesk.classChanged old).classChanged p.cls

/-- REJOIN_CUT_RESEND (R177, R40): in the tick after the reply, the cut or stale cap in force is sent again. -/
def execRejoinCutResend (t slot : Nat) (s : State) : Host.Outcome State Fault Refusal :=
  let s := s.at t
  done <| s.withGuest slot fun s g =>
    match g.rejoinResend with
    | none => s
    | some due =>
      s.when (decide (due ≤ s.tick)) fun s =>
        let s := s.putGuest slot { g with rejoinResend := none }
        s.when (!s.inRest && (g.cut.isSome || g.staleCap)) fun s => s.resend slot g

/-! ### Leaving (R155, R156) -/

/-- CHECK_OUT_REQUEST (R155, R681): answered at once; a held slot is freed at the next tick boundary. -/
def execCheckOutRequest (t : Nat) (rx : Rx) (s : State) : Host.Outcome State Fault Refusal :=
  let s := s.at t
  done <| s.when (s.deskMine rx 3) fun s =>
    let s := s.take rx
    let b := rx.bytes
    if b.length ≠ 32 then s.inc E.DESK_MALFORMED
    else if rx.dport ≠ s.eff E.UDP_PORT_TELEMETRY then s.inc E.DROP_PORT
    else if field b 0 1 ≠ 1 then s
    else
      let slot := field b 8 4
      let held := match s.guest slot with | some g => g.pp.id == field b 16 16 | none => false
      let reply (result reason : Nat) : Bytes :=
        [1, 4] ++ beBytes 1 result ++ beBytes 1 reason ++ slice b 4 8 ++ [0, 0, 0, 0] ++ slice b 16 16
      if held then
        let s := s.mapGuest slot fun g => { g with freeDue := some (s.tick + 1) }
        (s.inc E.CHECKOUTS).deskReply rx.src rx.sport (reply 0 0)
      else (s.inc E.REFUSE_NOT_HELD).deskReply rx.src rx.sport (reply 2 8)

/-- CHECK_OUT_FREE (R155). -/
def execCheckOutFree (t slot : Nat) (s : State) : Host.Outcome State Fault Refusal :=
  let s := s.at t
  done <| match s.guest slot with
    | none => s
    | some g =>
      match g.freeDue with
      | some due => s.when (decide (due ≤ s.tick)) fun s => s.freeSlot slot
      | none => s

/-- GUEST_LAPSE (R156): the slot is reserved, one ORPHAN record and one LAPSED notice leave. -/
def execGuestLapse (t slot : Nat) (s : State) : Host.Outcome State Fault Refusal :=
  let s := s.at t
  done <| s.withGuest slot fun s g =>
    match g.lapseDue with
    | none => s
    | some due =>
      s.when (decide (due ≤ s.tick)) fun s =>
        let s := s.endCut slot
        let s := if g.stale then s.latchEnd E.INGEST_LATCHES 0 2 (guestKey slot) else s
        let s := if g.disobedient then s.latchEnd E.INGEST_LATCHES 0 5 (guestKey slot) else s
        let s := s.mapGuest slot fun g =>
          { g with present := false, lapseDue := none, reservedTurn := s.turn, reservedTick := s.tick, stale := false
                   disobedient := false, disobeyRun := 0, inBounds := 0, staleCap := false, staleDue := false
                   releaseDue := none, rampEnd := none, rampFrom := none, standing := [], guarded := [], preds := []
                   disobeyResend := none, rejoinResend := none }
        let s := (s.dropCaps slot [0, 3, 4]).queueCap
          { slot := slot, kind := 5, ceiling := g.pp.bound g.pp.orphan, slew := 0, hold := 0 }
        ((s.inc E.LAPSES).notice 2 slot g.src g.sport).refreshDesk.classChanged g.pp.cls

/-- RESERVE_EXPIRY (R156, R199): after `RESERVE_TURNS` turns a reserved slot is free. -/
def execReserveExpiry (t slot : Nat) (s : State) : Host.Outcome State Fault Refusal :=
  let s := s.at t
  done <| match s.guest slot with
    | none => s
    | some g =>
      s.when (!g.present && g.newPp == none && decide (g.reservedTurn + s.eff E.RESERVE_TURNS ≤ s.turn)
          && !(s.desk.class2.any fun c => c.slot == slot)) fun s => s.freeSlot slot

/-! ### Lifting classes (R178) -/

/-- CLASS_LIFT (R178): at a turn boundary from the takeover of model ceilings on, `LIFT_GAP_TURNS` after the lift
before, the lowest class with present guests that is not lifted is lifted. -/
def execClassLift (t : Nat) (s : State) : Host.Outcome State Fault Refusal :=
  let s := s.at t
  let d := s.desk
  let first := s.tick - s.wheel.idx
  done <| s.when (s.get E.MODEL_CEILINGS == 1 && s.wheel.idx == 0
      && (d.lifted.isEmpty || decide (d.lastLift + s.eff E.LIFT_GAP_TURNS ≤ s.turn))) fun s =>
    let due := (List.range 256).filter fun c =>
      (d.lifted.get c).isNone && s.presents.any fun p => p.2.pp.cls == c && decide (p.2.becamePresent ≤ first)
    match due with
    | [] => s
    | c :: _ => { s with desk := { s.desk with lifted := d.lifted.set c s.tick, lastLift := s.turn } }

end Sys2Proof.Machine
end

