-- ==== Sys2Proof/Machine/Form.lean ====
section
/-! DEFINITION. The Stavrix form (R346 to R351, R355 to R357): reading its header and sections, the tests that find a
form malformed, its demand (R362), and what its nodes compute. -/

namespace Sys2Proof.Machine

/-! ### Header and sections -/


def formLength (f : Bytes) : Nat := field f 8 8
def formDigest (f : Bytes) : Nat := field f 16 32
def formPeriod (f : Bytes) : Nat := field f 48 2
def formMinRate (f : Bytes) : Nat := field f 52 4
def formStore (f : Bytes) : Nat := field f 56 8
def formTensors (f : Bytes) : Nat := field f 144 2
def formInputs (f : Bytes) : Nat := field f 146 2
def formOutputs (f : Bytes) : Nat := field f 148 2
def formHinges (f : Bytes) : Nat := field f 150 2
def formNodes (f : Bytes) : Nat := field f 152 4

/-- A tensor descriptor (R348). -/
structure TensorD where
  id : Nat
  fmt : Nat
  rank : Nat
  place : Nat
  dims : List Nat
  deriving DecidableEq, Repr

/-- An input binding (R355). -/
structure InBind where
  tensor : Nat
  source : Nat
  select : Nat
  deriving DecidableEq, Repr

/-- An output binding (R356). -/
structure OutBind where
  tensor : Nat
  sink : Nat
  select : Nat
  widen : Nat
  openAfter : Nat
  deriving DecidableEq, Repr

/-- A hinge declaration (R357). -/
structure HingeD where
  table : Nat
  resident : Bool
  tensor : Nat
  staleLimit : Nat
  period : Nat
  ageRate : Nat
  validate : Nat
  deriving DecidableEq, Repr

/-- A graph node (R349). -/
structure Node where
  op : Nat
  flags : Nat
  out : Nat
  a : Nat
  b : Nat
  deriving DecidableEq, Repr

/-- `n` records of `len` bytes each from offset `off` (R347). -/
def readAll {α : Type} (f : Bytes) (off len n : Nat) (read : Bytes → α) : List α :=
  (List.range n).map fun i => read (slice f (off + len * i) len)

def formTensorList (f : Bytes) : List TensorD :=
  readAll f 160 24 (formTensors f) fun b =>
    { id := field b 0 4, fmt := field b 4 1, rank := field b 5 1, place := field b 6 1
      dims := [field b 8 4, field b 12 4, field b 16 4, field b 20 4] }

def inputsAt (f : Bytes) : Nat := 160 + 24 * formTensors f
def outputsAt (f : Bytes) : Nat := inputsAt f + 16 * formInputs f
def hingesAt (f : Bytes) : Nat := outputsAt f + 16 * formOutputs f
def nodesAt (f : Bytes) : Nat := hingesAt f + 32 * formHinges f
def constantsAt (f : Bytes) : Nat := nodesAt f + 16 * formNodes f

def formInputList (f : Bytes) : List InBind :=
  readAll f (inputsAt f) 16 (formInputs f) fun b =>
    { tensor := field b 0 4, source := field b 4 1, select := field b 6 2 }

def formOutputList (f : Bytes) : List OutBind :=
  readAll f (outputsAt f) 16 (formOutputs f) fun b =>
    { tensor := field b 0 4, sink := field b 4 1, select := field b 6 2, widen := field b 8 4, openAfter := field b 12 4 }

def formHingeList (f : Bytes) : List HingeD :=
  readAll f (hingesAt f) 32 (formHinges f) fun b =>
    { table := field b 0 1, resident := (field b 1 1).testBit 0, tensor := field b 4 4, staleLimit := field b 8 4
      period := field b 12 4, ageRate := field b 16 4, validate := field b 20 4 }

def formNodeList (f : Bytes) : List Node :=
  readAll f (nodesAt f) 16 (formNodes f) fun b =>
    { op := field b 0 2, flags := field b 2 2, out := field b 4 4, a := field b 8 4, b := field b 12 4 }

/-- Bytes of one element of a format (R348), 0 for an unknown code. -/
def fmtBytes (c : Nat) : Nat :=
  match c with
  | 1 => 1 | 2 => 1 | 3 => 2 | 4 => 2 | 5 => 4 | 6 => 1 | 7 => 4 | 0x11 => 2 | 0x12 => 4 | 0x13 => 8 | _ => 0

/-- Whether a format is a bracket format. -/
def fmtBracket (c : Nat) : Bool := decide (0x11 ≤ c)

/-- Elements of a tensor. -/
def TensorD.size (d : TensorD) : Nat := d.dims.foldl (· * ·) 1

/-- Bytes of a tensor. -/
def TensorD.bytes (d : TensorD) : Nat := d.size * fmtBytes d.fmt

/-- The tensor of an id. -/
def findTensor (l : List TensorD) (id : Nat) : Option TensorD := l.find? fun d => d.id == id

/-- A size padded to 64 bytes. -/
def pad64 (n : Nat) : Nat := (n + 63) / 64 * 64

/-- The tensors with content in the constant section, in order of id (R348, R357). -/
def constTensors (l : List TensorD) : List TensorD := sortBy TensorD.id (l.filter fun d => d.place == 0 || d.place == 5)

/-- The elements of a tensor stored at offset `off`. -/
def readElems (f : Bytes) (off w n : Nat) : List Nat := (List.range n).map fun i => field f (off + w * i) w

/-- The stored contents, by tensor id. -/
def constContents (f : Bytes) : List TensorD → Nat → AMap (List Nat)
  | [], _ => []
  | d :: ds, off => (constContents f ds (off + pad64 d.bytes)).set d.id (readElems f off (fmtBytes d.fmt) d.size)

/-! ### The tests of R359 that look at the form alone -/

/-- Whether a code is a finite or infinite non-negative FP32 radius. -/
def radiusOk (c : Nat) : Bool := f32Finite c && decide (0 ≤ (f32Dy c).m)

/-- Shapes of one tensor descriptor. -/
def TensorD.ok (d : TensorD) : Bool :=
  fmtBytes d.fmt != 0 && decide (1 ≤ d.rank) && decide (d.rank ≤ 4) && decide (d.place ≤ 6)
    && d.dims.all (fun n => decide (1 ≤ n)) && (d.dims.drop d.rank).all fun n => n == 1

/-- Columns of a tensor: its last dimension in use; its rows are the rest. -/
def TensorD.cols (d : TensorD) : Nat := nth d.dims (d.rank - 1) 1
def TensorD.rows (d : TensorD) : Nat := d.size / max 1 d.cols

/-- Operations on two tensors. -/
def opBinary (op : Nat) : Bool := [1, 3, 4, 0x12, 0x13, 0x14, 0x15, 0x19, 0x1A, 0x1C, 0x1D].contains op

/-- Whether an operation code is defined in form version 1.0 (R350). -/
def opKnown (op : Nat) : Bool := (decide (1 ≤ op) && decide (op ≤ 6)) || (decide (0x10 ≤ op) && decide (op ≤ 0x1D))

/-- Whether a node's operands fit its operation. -/
def Node.ok (n : Node) (ts : List TensorD) (hinges : List HingeD) : Bool :=
  let sub := n.flags % 16
  match findTensor ts n.out, findTensor ts n.a with
  | some o, some a =>
    let b := findTensor ts n.b
    decide (sub ≤ 8) && (sub == 0 || hinges.any fun h => h.table + 1 == sub)
      && o.place != 0 && o.place != 3 && (!opBinary n.op || b.isSome)
      && (match n.op, b with
          | 1, some b => a.cols == b.rows && o.rows == a.rows && o.cols == b.cols
          | 2, _ => o.size == a.rows
          | 3, some b => o.size == b.size * (a.size / max 1 (nth a.dims 0 1)) && b.fmt == 7
          | 4, some b => a.size == b.size * (o.size / max 1 (nth o.dims 0 1)) && b.fmt == 7
          | 5, _ => o.size == a.size && (!fmtBracket a.fmt || fmtBracket o.fmt)
          | 6, _ => o.size == a.size && fmtBracket a.fmt && o.fmt == 5 && decide (bits n.flags 5 4 ≤ 2)
          | 0x1C, some b => o.size == a.size && (b.size == a.size || b.size == 1) && b.fmt == 5 && fmtBracket a.fmt
          | 0x1D, some b => o.size == a.size && b.size == a.size && fmtBracket a.fmt && fmtBracket b.fmt
          | op, some b => !opBinary op && o.size == a.size || o.size == a.size && b.size == a.size
          | _, none => o.size == a.size)
  | _, _ => false

/-- Whether a form is well made: `BAD_FORM` when not (R346 to R349, R355 to R357, R359). -/
def formOk (f : Bytes) : Bool :=
  decide (160 ≤ f.length) && field f 0 4 == 0x53545658 && formLength f == f.length && decide (f.length ≤ 1073741824)
    && Config.sm3 (f.take 16 ++ List.replicate 32 0 ++ f.drop 48) == formDigest f
    && decide (1 ≤ formPeriod f) && decide (formPeriod f ≤ 1000) && decide (1 ≤ formTensors f)
    && decide (formInputs f ≤ 64) && decide (1 ≤ formOutputs f) && decide (formOutputs f ≤ 64)
    && decide (formHinges f ≤ 8) && decide (1 ≤ formNodes f) && decide (constantsAt f ≤ f.length) &&
    (let ts := formTensorList f
     let hs := formHingeList f
     constantsAt f + sumOf (fun d => pad64 d.bytes) (constTensors ts) == f.length
       && ts.all TensorD.ok && decide ((ts.map TensorD.id).Nodup)
       && (formInputList f).all (fun i =>
            (match findTensor ts i.tensor with | some d => d.place == 3 | none => false)
              && (match i.source with
                  | 1 => decide (i.select % 256 ≤ 2) | 2 => decide (i.select ≤ 1) | 3 => decide (i.select ≤ 255)
                  | 4 => i.select == 0 | 5 => decide (i.select ≤ 15) | _ => true))
       && (formOutputList f).all (fun o =>
            (match findTensor ts o.tensor with
             | some d => d.place == 4 && (o.sink != 1 || d.fmt == 0x13)
             | none => false)
              && (o.sink != 1 || decide (o.select ≤ 15)) && radiusOk o.widen && decide (1 ≤ o.openAfter))
       && hs.all (fun h =>
            decide (h.table ≤ 7) && decide (1 ≤ h.staleLimit) && decide (1 ≤ h.period) && radiusOk h.ageRate
              && (match findTensor ts h.tensor with | some d => d.place == 5 && fmtBracket d.fmt | none => false)
              && (match findTensor ts h.validate with | some d => d.place == 6 | none => false))
       && decide ((hs.map HingeD.table).Nodup)
       && (formNodeList f).all fun n => !opKnown n.op || n.ok ts hs)

/-- R351 for a form version against `STAVRIX_FORM_MIN` and `STAVRIX_FORM_VERSION`. -/
def versionOk (v lowest known : Nat) : Bool :=
  decide (lowest / 256 ≤ v / 256) && decide (v / 256 ≤ known / 256)
    && (v / 256 != known / 256 || decide (v % 256 ≤ known % 256))

/-- Whether every operation, source and sink is defined (R350, R355, R356). -/
def formKnown (f : Bytes) : Bool :=
  (formNodeList f).all (fun n => opKnown n.op)
    && (formInputList f).all (fun i => decide (1 ≤ i.source) && decide (i.source ≤ 5))
    && (formOutputList f).all fun o => o.sink == 1 || o.sink == 2

/-! ### Demand (R362) -/

/-- Array-clocks of a step, as an exact rational. -/
def formCompute (f : Bytes) : Rat :=
  let g (o : Nat) : Rat := (field f o 8 : Nat)
  (g 64 + g 72) / (36864 / 5) + (g 80 + g 88) / (18432 / 5) + g 96 / (9216 / 5) + g 104 / (4608 / 5)
    + g 112 / (304 / 5) + g 120 / (152 / 5) + g 128 / (38 / 5)

/-- The demand at factor 1 in 1/1,000 array, for a number of ticks per turn. -/
def formDemand (f : Bytes) (ticks : Nat) : Nat :=
  let k := 1500000000 / (ticks * 65)
  let c := (max (formCompute f) ((field f 136 8 : Nat) / 256)).ceil.toNat
  ceilDiv (1000 * c) (k * formPeriod f)

/-- Bytes of storage: what the form declares and two leaves of every hinge table (R359). -/
def formStorage (f : Bytes) : Nat :=
  let ts := formTensorList f
  formStore f + sumOf (fun h : HingeD => match findTensor ts h.tensor with | some d => 2 * d.bytes | none => 0)
    (formHingeList f)

/-! ### What a node computes (R350) -/

/-- The format of a plain code, none for an integer format. -/
def plainFmt (c : Nat) : Option Fmt :=
  match c with
  | 1 => some Fmt.e4m3 | 2 => some Fmt.e5m2 | 3 => some Fmt.f16 | 4 => some Fmt.bf16 | 5 => some Fmt.f32 | _ => none

/-- The value of a plain code. -/
def plainVal (c v : Nat) : FV :=
  match plainFmt c with
  | some f => f.decode v
  | none => .ofDy (Dy.int (toSigned (fmtBytes c) v))

/-- A value rounded to an integer format: nearest, ties to even, saturating; NaN becomes 0 (R255). -/
def intCode (bytes : Nat) (v : FV) : Nat :=
  let top : Int := (256 ^ bytes / 2 : Nat)
  match v with
  | .nan => 0
  | .inf neg => ofSigned bytes (if neg then -top else top - 1)
  | .fin _ d =>
    let x2 := d.mul (Dy.int 2)
    let fl := d.floor
    let twice := x2.floor - 2 * fl
    let odd := decide (x2.ceil ≠ x2.floor)
    let up := decide (twice = 1) && (odd || decide (fl % 2 ≠ 0))
    ofSigned bytes (max (-top) (min (top - 1) (if up then fl + 1 else fl)))

/-- A value as a plain code, rounded to nearest (R253, R255). -/
def plainCode (c : Nat) (v : FV) : Nat :=
  match plainFmt c with
  | some f => f.encode .near v
  | none => intCode (fmtBytes c) v

/-- The bracket-FP32 value of an element (R271). -/
def elemBr (c v : Nat) : BrM Br :=
  match c with
  | 0x11 => pure (Br.of8 v)
  | 0x12 => pure (Br.of16 v)
  | 0x13 => pure (Br.of32 v)
  | _ => Br.ofPlain (plainVal c v)

/-- A bracket as an element of a format (R271). -/
def brElem (c : Nat) (b : Br) : BrM Nat :=
  match c with
  | 0x11 => do return (← b.to8).code8
  | 0x12 => do return (← b.to16).code16
  | 0x13 => pure b.code32
  | _ => pure b.midCode

/-- Plain quotient, root and reciprocal root, correctly rounded to the result's format. -/
def plainDiv (f : Fmt) (x y : FV) : FV :=
  match x, y with
  | .nan, _ => .nan
  | _, .nan => .nan
  | .inf _, .inf _ => .nan
  | .inf a, .fin b _ => .inf (a != b)
  | .fin a _, .inf b => .fin (a != b) Dy.zero
  | .fin a u, .fin b v =>
    if v.m = 0 then (if u.m = 0 then .nan else .inf (a != b))
    else if u.m = 0 then .fin (a != b) Dy.zero else .ofDy (f.div .near u v)

def plainSqrt (f : Fmt) : FV → FV
  | .nan => .nan
  | .inf neg => if neg then .nan else .inf false
  | .fin neg d => if d.m = 0 then .fin neg d else if d.m < 0 then .nan else .ofDy (f.sqrt .near d)

def plainRsqrt (f : Fmt) : FV → FV
  | .nan => .nan
  | .inf neg => if neg then .nan else .fin false Dy.zero
  | .fin neg d => if d.m = 0 then .inf neg else if d.m < 0 then .nan else .ofDy (f.rsqrt .near d)

/-- Whether a plain value is below another; false with NaN. -/
def fvLt : FV → FV → Bool
  | .nan, _ => false
  | _, .nan => false
  | .inf a, .inf b => a && !b
  | .inf a, .fin _ _ => a
  | .fin _ _, .inf b => !b
  | .fin _ x, .fin _ y => x.lt y

def fvMax (x y : FV) : FV := if x = .nan || y = .nan then .nan else if fvLt x y then y else x
def fvMin (x y : FV) : FV := if x = .nan || y = .nan then .nan else if fvLt y x then y else x
def fvAbs : FV → FV
  | .nan => .nan
  | .inf _ => .inf false
  | .fin _ d => .fin false d.abs

/-- An element operation on plain values. -/
def plainOp (f : Fmt) (op k : Nat) (x y : FV) : FV :=
  match op with
  | 0x10 => x.neg
  | 0x11 => fvAbs x
  | 0x12 => x.add y
  | 0x13 => x.add y.neg
  | 0x14 => x.mul y
  | 0x15 => plainDiv f x y
  | 0x16 => plainDiv f (.fin false (Dy.int 1)) x
  | 0x17 => plainSqrt f x
  | 0x18 => plainRsqrt f x
  | 0x19 => fvMax x y
  | 0x1A => fvMin x y
  | 0x1B => x.mul (.fin false (Dy.pow2 (toSigned 1 k)))
  | _ => x

/-- An element operation on brackets; `w` is WIDEN's plain operand. -/
def bracketOp (op k : Nat) (x y : Br) (w : FV) : BrM Br :=
  match op with
  | 0x10 => x.neg
  | 0x11 => x.abs
  | 0x12 => x.add y
  | 0x13 => x.sub y
  | 0x14 => x.mul y
  | 0x15 => x.div y
  | 0x16 => x.rcp
  | 0x17 => x.sqrt
  | 0x18 => x.rsqrt
  | 0x19 => x.max y
  | 0x1A => x.min y
  | 0x1B => x.scale (toSigned 1 k)
  | 0x1C => x.widen w
  | 0x1D => x.hull y
  | _ => pure x

/-- The elements of tensors while a subgraph runs. -/
abbrev Env := AMap (List Nat)

/-- What a tensor reads before anything was written to it: free values (notes/assumptions/41.md). -/
def freeElems (free : Nat) (d : TensorD) : List Nat :=
  (List.range d.size).map fun i => Config.freeValue (free + 65536 * i + d.id) % 256 ^ fmtBytes d.fmt

/-- The elements of a tensor. -/
def Env.read (e : Env) (free : Nat) (d : TensorD) : List Nat := AMap.getD e d.id (freeElems free d)

/-- Element `i`, a single element standing for all. -/
def elemAt (l : List Nat) (i : Nat) : Nat := if l.length = 1 then nth l 0 0 else nth l i 0

/-- The order of a long sum: the module's choice (R270, R276). -/
def sumOrder (free n : Nat) : List Nat := sortBy (Config.macOrder free) (List.range n)

/-- One element of MATMUL (R254, R266). -/
def macElem (o a b : TensorD) (la lb : List Nat) (acc0 free i j : Nat) : BrM Nat :=
  let ks := sumOrder free a.cols
  let ai (k : Nat) : Nat := nth la (i * a.cols + k) 0
  let bj (k : Nat) : Nat := nth lb (k * b.cols + j) 0
  if fmtBracket o.fmt then do
    let acc ← elemBr o.fmt acc0
    let r ← ks.foldlM (fun acc k => do
      let x ← elemBr a.fmt (ai k)
      let y ← elemBr b.fmt (bj k)
      acc.mac x y) acc
    brElem o.fmt r
  else if o.fmt = 7 then
    pure (ofSigned 4 (ks.foldl (fun acc k => intMac acc (toSigned 1 (ai k)) (toSigned 1 (bj k))) (toSigned 4 acc0)))
  else
    let r := ks.foldl (fun acc k =>
      f32Enc ((f32Val acc).add ((plainVal a.fmt (ai k)).mul (plainVal b.fmt (bj k))))) (f32Enc (plainVal o.fmt acc0))
    pure (plainCode o.fmt (f32Val r))

/-- One element of REDUCE_SUM: an ADD tree (R270). -/
def sumElem (o a : TensorD) (la : List Nat) (free i : Nat) : BrM Nat :=
  let xs := (sumOrder free a.cols).map fun k => nth la (i * a.cols + k) 0
  match xs with
  | [] => pure 0
  | x :: xs =>
    if fmtBracket o.fmt then do
      let x ← elemBr a.fmt x
      let r ← xs.foldlM (fun acc y => do acc.add (← elemBr a.fmt y)) x
      brElem o.fmt r
    else
      let f := (plainFmt o.fmt).getD Fmt.f32
      pure (plainCode o.fmt (xs.foldl (fun acc y => f32Val (f32Enc (plainOp f 0x12 0 acc (plainVal a.fmt y))))
        (plainVal a.fmt x)))

/-- The elements a node writes. -/
def Node.run (n : Node) (ts : List TensorD) (e : Env) (free : Nat) : BrM Env :=
  match findTensor ts n.out, findTensor ts n.a with
  | some o, some a =>
    let b := (findTensor ts n.b).getD a
    let la := e.read free a
    let lb := e.read free b
    let lo := e.read free o
    match n.op with
    | 1 => do
      let l ← (List.range o.size).mapM fun i => macElem o a b la lb (nth lo i 0) free (i / max 1 o.cols) (i % max 1 o.cols)
      return e.set o.id l
    | 2 => do
      let l ← (List.range o.size).mapM fun i => sumElem o a la free i
      return e.set o.id l
    | 3 =>
      let w := a.size / max 1 (nth a.dims 0 1)
      pure (e.set o.id ((List.range o.size).map fun i =>
        let r := toSigned 4 (nth lb (i / max 1 w) 0)
        if 0 ≤ r && decide (r.toNat * w + i % max 1 w < la.length) then nth la (r.toNat * w + i % max 1 w) 0
        else Config.freeValue (free + i) % 256 ^ fmtBytes o.fmt))
    | 4 =>
      let w := o.size / max 1 (nth o.dims 0 1)
      do
        let l ← (List.range la.length).foldlM (fun l i => do
          let r := toSigned 4 (nth lb (i / max 1 w) 0)
          let p := r.toNat * w + i % max 1 w
          if 0 ≤ r && decide (p < l.length) then
            let v ← if fmtBracket o.fmt then do
                let m ← (← elemBr o.fmt (nth l p 0)).max (← elemBr a.fmt (nth la i 0))
                brElem o.fmt m
              else pure (plainCode o.fmt (fvMax (plainVal o.fmt (nth l p 0)) (plainVal a.fmt (nth la i 0))))
            return l.set p v
          else return l) lo
        return e.set o.id l
    | 5 => do
      let l ← la.mapM fun v =>
        if fmtBracket o.fmt then do brElem o.fmt (← elemBr a.fmt v) else pure (plainCode o.fmt (plainVal a.fmt v))
      return e.set o.id l
    | 6 => do
      let l ← la.mapM fun v => do
        let x ← elemBr a.fmt v
        return match bits n.flags 5 4 with
          | 0 => x.lower
          | 1 => x.upper
          | _ => x.midCode
      return e.set o.id l
    | op =>
      let k := bits n.flags 15 8
      do
        let l ← (List.range o.size).mapM fun i =>
          let va := elemAt la i
          let vb := elemAt lb i
          if fmtBracket o.fmt then do
            let x ← elemBr a.fmt va
            let y ← if op = 0x1C then pure x else elemBr b.fmt vb
            brElem o.fmt (← bracketOp op k x y (plainVal b.fmt vb))
          else
            pure (plainCode o.fmt (plainOp ((plainFmt o.fmt).getD Fmt.f32) op k (plainVal a.fmt va) (plainVal b.fmt vb)))
        return e.set o.id l
  | _, _ => pure e

/-- Run a subgraph: 0 the foreground step, k the rebuild of hinge table k − 1 (R349). -/
def runGraph (f : Bytes) (sub : Nat) (e : Env) (free : Nat) : Env × BrCnt :=
  let ts := formTensorList f
  let nodes := (formNodeList f).filter fun n => n.flags % 16 == sub
  (nodes.foldlM (fun (e : Env) (n : Node) => n.run ts e free) e : BrM Env).run {}

end Sys2Proof.Machine
end

