-- ==== Sys2Proof/Machine/Programs.lean ====
section
/-! DEFINITION. Program slots and the loader (chapter 11): upload, fitting, installation, steps and publication,
re-placement, feeds, and hinge tables. -/

namespace Sys2Proof.Machine

/-- `KEY` of a program slot. -/
def progKey (p : Nat) : Nat := condKey 14 p

/-- A program slot. -/
def State.prog (s : State) (p : Nat) : Prog := s.progs.getD p {}

/-- Replace a program slot. -/
def State.putProg (s : State) (p : Nat) (g : Prog) : State := { s with progs := s.progs.set p g }

/-- Openings of bracket results are counted (R277). -/
def State.countBr (s : State) (k : BrCnt) : State :=
  let n := k.input + k.domain + k.mid + k.rad
  if n = 0 then s
  else
    ((((s.add E.BRK_OPENED n).add E.BRK_OPEN_INPUT k.input).add E.BRK_OPEN_DOMAIN k.domain).add E.BRK_OPEN_MID_OVF
      k.mid).add E.BRK_OPEN_RAD_OVF k.rad

/-- The total factor S of a program (R370). -/
def State.totalFactor (s : State) (g : Prog) : Nat := g.factor * (s.get E.OPER_POWER_STRETCH + 1)

/-- Whether a program is suspended. -/
def Prog.suspended (g : Prog) : Bool := g.suspendFit || g.suspendRate || g.moving

/-- The loaded operator programs. -/
def State.loadedProgs (s : State) : List (Nat × Prog) := s.progs.filter fun q => q.2.loaded && decide (1 ≤ q.1)

/-- The sum of demands at factors in force over programs that are not suspended (R363, R381). -/
def State.operDemand (s : State) (except_ : Nat) : Nat :=
  sumOf (fun q : Nat × Prog =>
    if q.2.suspended || q.1 = except_ then 0 else ceilDiv (s.getU E.PROG_DEMAND q.1) q.2.factor) s.loadedProgs

/-- `PROG_STATE`, `PROG_FACTOR`, `PROG_FLAGS` and `OPER_DEMAND` follow the slot (R381 to R383). -/
def State.refreshProg (s : State) (p : Nat) : State :=
  let g := s.prog p
  let st := if g.fitting.isSome || g.install.isSome then 2
    else if g.loaded then (if g.suspended then 4 else 3) else if g.staging.isSome then 1 else 0
  let flags := (if g.loadFactor = 2 then 1 else 0) + (if g.loadFactor < g.factor then 2 else 0)
    + (if 0 < s.get E.OPER_POWER_STRETCH then 4 else 0) + (if g.suspendFit then 8 else 0)
    + (if g.suspendRate then 16 else 0)
  let s := s.setU E.PROG_STATE p st
  let s := if g.loaded then
      (s.setU E.PROG_FACTOR p (s.totalFactor g)).setU E.PROG_FLAGS p (flags + bits (s.getU E.PROG_FLAGS p) 5 5 * 32)
    else s
  s.set E.OPER_DEMAND (s.operDemand 16)

/-! ### Upload (R358, R359, R361) -/

/-- The service of one `UP_OP` of `PROG_UPLOAD`. -/
def progUpload (arg : Bytes → Bool) (codes : Nat → Bytes → State → List Nat) (run : Nat → Bytes → State → State) :
    Service :=
  cmdService E.PROG_UPLOAD 16 true none arg (fun _ => false)
    (fun p b s => codeIf (p == 0) St.readOnly ++ codeIf (decide (b.length < 8)) St.badLength
      ++ (if b.length < 8 then [] else codes p b s))
    (fun p b s => ([], run p b s))

def upOp (b : Bytes) : Nat := field b 0 1
def upOffset (b : Bytes) : Nat := field b 4 4

/-- The service of `execProgUploadBegin`. -/
def progUploadBeginService : Service :=
  progUpload (fun b => b.length < 8 || !([1, 2, 3].contains (upOp b)))
    (fun p b s =>
      let mine := match (s.prog p).staging with | some x => x.length | none => 0
      codeIf (b.length != 8) St.badLength ++ codeIf (upOp b != 0 || decide (1073741824 < upOffset b)
        || decide (s.get E.OPER_STORE_FREE + mine < upOffset b)) St.outOfRange)
    (fun p b s =>
      let room := maxBy (fun k => s.stackArea k - s.stackUsed k) (List.range 4)
      let g := s.prog p
      let g := { g with staging := some { length := upOffset b, bytes := [] }
                        stack := if g.loaded then g.stack else room.getD 0 }
      (s.putProg p g).refreshStore.refreshProg p)

/-- PROG_UPLOAD BEGIN (R358): staging space is reserved; staging in progress on the slot is discarded. Blocks too short
and unknown `UP_OP` values are refused here. -/
def execProgUploadBegin (t : Nat) (rx : Rx) (s : State) : Host.Outcome State Fault Refusal :=
  done ((s.at t).serve rx progUploadBeginService)

/-- The service of `execProgUploadChunk`. -/
def progUploadChunkService : Service :=
  progUpload (fun b => decide (8 ≤ b.length) && upOp b == 1)
    (fun p b s =>
      let n := b.length - 8
      codeIf (n == 0 || decide (8192 < n)) St.badLength ++ codeIf (match (s.prog p).staging with
        | some x => upOffset b != x.bytes.length || decide (x.length < x.bytes.length + n)
        | none => true) St.outOfRange)
    (fun p b s =>
      let g := s.prog p
      s.putProg p { g with staging := g.staging.map fun x => { x with bytes := x.bytes ++ b.drop 8 } })

/-- PROG_UPLOAD CHUNK (R358): data are staged at the offset where the previous chunk ended. -/
def execProgUploadChunk (t : Nat) (rx : Rx) (s : State) : Host.Outcome State Fault Refusal :=
  done ((s.at t).serve rx progUploadChunkService)

/-- The service of `execProgUploadCommit`. -/
def progUploadCommitService : Service :=
  progUpload (fun b => decide (8 ≤ b.length) && upOp b == 2)
    (fun p b s =>
      codeIf (b.length != 8) St.badLength ++ codeIf (upOffset b != 0) St.outOfRange
        ++ codeIf ((s.prog p).fitting.isSome || (s.prog p).install.isSome) St.busy)
    (fun p _ s =>
      let g := s.prog p
      let full := match g.staging with | some x => x.bytes.length == x.length | none => false
      let bytes := match g.staging with | some x => x.bytes | none => []
      (s.putProg p { g with fitting := some (if full then bytes else []), staging := none }).refreshProg p)

/-- PROG_UPLOAD COMMIT (R359): the loader starts on the staged form; a commit while one is fitted is `BUSY`. -/
def execProgUploadCommit (t : Nat) (rx : Rx) (s : State) : Host.Outcome State Fault Refusal :=
  done ((s.at t).serve rx progUploadCommitService)

/-- The service of `execProgUploadUnload`. -/
def progUploadUnloadService : Service :=
  progUpload (fun b => decide (8 ≤ b.length) && upOp b == 3)
    (fun _ b _ => codeIf (b.length != 8) St.badLength ++ codeIf (upOffset b != 0) St.outOfRange)
    (fun p _ s => s.putProg p { s.prog p with stopFrom := some s.tick })

/-- PROG_UPLOAD UNLOAD (R361): the program is to stop at the next tick boundary. -/
def execProgUploadUnload (t : Nat) (rx : Rx) (s : State) : Host.Outcome State Fault Refusal :=
  done ((s.at t).serve rx progUploadUnloadService)

/-! ### Fitting (R351 to R354, R359, R362, R363) -/

/-- Whether another loaded program binds a forecast input, or the form binds one twice, or a class it names has no
model (R356, R359, `BINDING`). -/
def State.bindingFault (s : State) (p : Nat) (f : Bytes) : Bool :=
  let mine := ((formOutputList f).filter fun o => o.sink == 1).map OutBind.select
  let taken := (s.loadedProgs.filter fun q => q.1 != p).flatMap fun q =>
    (q.2.outs.filter fun o => o.sink == 1).map ProgOut.select
  let waiting := (s.progs.filter fun q => q.1 != p).flatMap fun q =>
    match q.2.install with
    | some i => ((formOutputList i.form).filter fun o => o.sink == 1).map OutBind.select
    | none => []
  mine.any (fun n => taken.contains n || waiting.contains n) || !decide mine.Nodup
    || (formInputList f).any fun i =>
        (i.source == 1 && s.getU E.CLASS_STATE (i.select / 256 % 256) == 0)
          || (i.source == 3 && s.getU E.CLASS_STATE (i.select % 256) == 0)

/-- The loader's verdict on a form: the first cause of R359 that applies, 0 with the load factor when none does. -/
def State.fitForm (s : State) (p : Nat) (f : Bytes) : Nat × Nat :=
  let ticks := s.ticksPerTurn
  let hz := s.get E.WHEEL_NOMINAL_HZ
  let demand := formDemand f ticks
  let free : Int := 1000 * (s.get E.ARRAYS_OPER : Int) - (s.operDemand p : Int)
  let lf := if (demand : Int) ≤ free then 1 else 2
  if f.isEmpty then (1, 1)
  else if !formOk f then (2, 1)
  else if !versionOk (field f 4 2) (s.get E.STAVRIX_FORM_MIN) (s.get E.STAVRIX_FORM_VERSION) then (3, 1)
  else if field f 6 1 ≠ 2 then (4, 1)
  else if !formKnown f then (5, 1)
  else if s.bindingFault p f then (6, 1)
  else if s.inRest then (7, 1)
  else if s.get E.OPER_STORE_FREE + f.length < formStorage f then (8, 1)
  else if free ≤ 0 || 9 * free < 8 * (demand : Int) then (9, 1)
  else if ticks * hz * 1000 < formMinRate f * (formPeriod f * lf) then (0xA, 1)
  else (0, lf)

/-- PROG_FIT_COMPLETE (R359, R360, R363): the loader finishes with the staged form: refused, the slot stays as it was;
accepted, the program waits for its placement and preload. Staging space is freed. -/
def execProgFitComplete (t slot : Nat) (s : State) : Host.Outcome State Fault Refusal :=
  let s := s.at t
  let g := s.prog slot
  done <| match g.fitting with
    | none => s
    | some f =>
      let (result, lf) := s.fitForm slot f
      let s := s.setU E.PROG_RESULT slot result
      if result ≠ 0 then
        let s := ((s.putProg slot { g with fitting := none }).inc E.PROG_REFUSALS).latch E.LOADER_LATCHES 0 (progKey slot)
        s.refreshStore.refreshProg slot
      else
        let i : Install := { form := f, factor := lf, demand := formDemand f s.ticksPerTurn, store := formStorage f
                             from_ := s.tick }
        let s := s.putProg slot { g with fitting := none, install := some i }
        let s := s.when (lf == 2) fun s => s.latch E.LOADER_LATCHES 1 (progKey slot)
        s.refreshStore.refreshProg slot

/-! ### Re-placement (R369, R370, R372) -/

/-- The factors a stretch may take. -/
def ladder : List Nat := [1, 2, 3, 4, 6, 8, 12, 16]

/-- The next factor above `f`. -/
def nextFactor (f : Nat) : Nat := (ladder.find? fun x => decide (f < x)).getD 16

/-- R369: raise factors and suspend, least important first, until the demands fit. -/
def State.fitLoop (s : State) : Nat → State
  | 0 => s
  | n + 1 =>
    if s.operDemand 16 ≤ 1000 * s.get E.ARRAYS_OPER then s
    else
      let live := s.loadedProgs.filter fun q => !q.2.suspendFit
      match maxBy (fun q : Nat × Prog => s.progRank q.1) (live.filter fun q => decide (q.2.factor < 16)) with
      | some (p, g) => (s.putProg p { g with factor := nextFactor g.factor }).fitLoop n
      | none =>
        match maxBy (fun q : Nat × Prog => s.progRank q.1) live with
        | some (p, g) => (s.putProg p { g with suspendFit := true }).fitLoop n
        | none => s

/-- A step in progress is abandoned (R372). -/
def State.loseStep (s : State) (p : Nat) : State :=
  let g := s.prog p
  match g.step with
  | some x =>
    if x.doneTick.isSome then s
    else ((s.putProg p { g with step := none }).incU E.PROG_STEPS_LOST p).inc E.STEPS_LOST_ALL
  | none => s

/-- R379: rebuilds that lose arrays start again from their beginning, and a preload that is lost is made again. -/
def restartHinges (base : Nat) (hs : AMap Hinge) (s : State) : State :=
  hs.foldl (fun s h =>
    let u := base + h.1
    match s.getU E.HINGE_STATE u with
    | 2 => s.incU E.HINGE_RESTARTS u
    | 4 => if h.2.resident then s.setU E.HINGE_STATE u 3 else s
    | _ => s) s

/-- The loader re-places the operator programs (R369, R372, R379). Which arrays a program runs on is the loader's own
choice: whether a step in progress loses arrays is a free value (notes/assumptions/42.md), and a program that is
suspended or stretched further loses its step. -/
def State.replace (s : State) : State :=
  let before := s.progs
  let s := (s.releaseHeld 4).inc E.REPLACEMENTS
  let s := s.loadedProgs.foldl (fun s q =>
    s.putProg q.1 { q.2 with factor := q.2.loadFactor, suspendFit := false }) s
  let s := s.fitLoop 160
  let raised := s.loadedProgs.any fun q => decide (q.2.loadFactor < q.2.factor)
  let s := s.loadedProgs.foldl (fun s q =>
    let old := before.getD q.1 {}
    let moved := decide (old.factor < q.2.factor) || q.2.suspendFit || s.freeVal % 2 == 1
    let s := s.drawn
    let s := s.when (q.2.suspendFit && !old.suspendFit) fun s => s.latch E.LOADER_LATCHES 3 (progKey q.1)
    let s := s.when moved fun s => restartHinges (8 * q.1) q.2.hinges (s.loseStep q.1)
    s.refreshProg q.1) s
  s.when raised fun s => s.latch E.LOADER_LATCHES 2

/-- R370 at a turn boundary: suspend a program whose rate falls below `MIN_RATE`, and resume it. At a stretch of 16, or
with a hot die, every operator program is suspended (R307, R578). -/
def State.rateTest (s : State) : State :=
  let rate := s.ticksPerTurn * s.get E.WHEEL_NOMINAL_HZ * 1000
  s.loadedProgs.foldl (fun s q =>
    let g := q.2
    let p := formPeriod g.form
    let low := s.get E.OPER_POWER_STRETCH == 16 || s.plant.dieHot
      || (formMinRate g.form != 0 && decide (rate < formMinRate g.form * (p * s.totalFactor g)))
    let s := s.putProg q.1 { g with suspendRate := low }
    let s := s.when (low && !g.suspendRate) fun s => s.latch E.LOADER_LATCHES 3 (progKey q.1)
    s.refreshProg q.1) s

/-! ### Installing and stopping (R360, R361) -/

/-- The hinge tables a form declares, at their initial content. -/
def State.formHingeTables (s : State) (f : Bytes) : AMap Hinge :=
  let contents := constContents f (constTensors (formTensorList f)) (constantsAt f)
  (formHingeList f).foldl (fun m h =>
    m.set h.table
      { tensor := h.tensor, resident := h.resident, staleLimit := h.staleLimit, period := h.period, ageRate := h.ageRate
        validate := h.validate, leaf0 := contents.getD h.tensor [], leaf1 := contents.getD h.tensor []
        liveTick := s.tick, nextStart := s.tick + h.period }) []

/-- The entries of a slot's hinge tables start from the load (R385). -/
def State.resetHingeEntries (s : State) (base : Nat) (hs : AMap Hinge) : State :=
  (List.range 8).foldl (fun s k =>
    let u := base + k
    let s := (((s.setU E.HINGE_LIVE_LEAF u 0).setU E.HINGE_SWAPS u 0).setU E.HINGE_FAILS u 0).setU E.HINGE_RESTARTS u 0
    match hs.get k with
    | some h => (s.setU E.HINGE_STATE u 1).setU E.HINGE_STALE_LIMIT u h.staleLimit
    | none => (s.setU E.HINGE_STATE u 0).setU E.HINGE_STALE_LIMIT u 0) s

/-- PROG_INSTALL (R360): at a tick boundary with placement and preload complete, the program replaces what the slot
held. `PROG_PHASE` is the loader's choice, a free value. -/
def execProgInstall (t slot : Nat) (s : State) : Host.Outcome State Fault Refusal :=
  let s := s.at t
  let g := s.prog slot
  done <| match g.install with
    | none => s
    | some i =>
      s.when (decide (i.from_ < s.tick)) fun s =>
        let f := i.form
        let period := formPeriod f
        let outs : List ProgOut := (formOutputList f).map fun o =>
          { tensor := o.tensor, sink := o.sink, select := o.select, widen := o.widen, openAfter := o.openAfter }
        let room := (maxBy (fun k => s.stackArea k - s.stackUsed k) (List.range 4)).getD 0
        let g' : Prog := { form := f, loaded := true, loadFactor := i.factor, factor := i.factor, stack := room
                           staging := g.staging, outs := outs, storeBack := g.storeBack + s.getU E.PROG_STORE slot
                           hinges := s.formHingeTables f }
        let phase := s.freeVal % min 65536 (period * i.factor)
        let s := s.drawn.putProg slot g'
        let s := ((s.setU E.PROG_FORM_VERSION slot (field f 4 2)).setU E.PROG_PERIOD slot period).setU E.PROG_PHASE slot
          phase
        let s := ((s.setU E.PROG_DEMAND slot i.demand).setU E.PROG_STORE slot i.store).setU E.PROG_DIGEST slot
          (formDigest f)
        let s := (((s.setU E.PROG_STEPS slot 0).setU E.PROG_OVERRUNS slot 0).setU E.PROG_STEPS_LOST slot 0).setU
          E.PROG_POISON_STEPS slot 0
        let s := ((s.setU E.PROG_LAST_PUBLISH slot 0).setU E.PROG_PROBE slot 0).setU E.PROG_FLAGS slot 0
        let s := s.resetHingeEntries (8 * slot) g'.hinges
        ((s.inc E.PROG_LOADS).refreshStore.refreshProg slot).replace

/-- PROG_STOP (R361): at the next tick boundary the program stops. -/
def execProgStop (t slot : Nat) (s : State) : Host.Outcome State Fault Refusal :=
  let s := s.at t
  let g := s.prog slot
  done <| match g.stopFrom with
    | none => s
    | some x =>
      s.when (decide (x < s.tick)) fun s =>
        if g.loaded then
          let s := s.unloadProg slot (s.getU E.PROG_RESULT slot)
          ((s.refreshProg slot).set E.OPER_DEMAND (s.operDemand 16)).replace
        else s.putProg slot { g with stopFrom := none }

/-- PROG_STORAGE_MOVE_DONE (R373): a program whose storage moved to another stack may resume. -/
def execProgStorageMoveDone (t slot : Nat) (s : State) : Host.Outcome State Fault Refusal :=
  let s := s.at t
  let g := s.prog slot
  done <| s.when g.moving fun s => (s.putProg slot { g with moving := false }).refreshProg slot

/-! ### Feeds (R365) -/

/-- The service of `execProgFeed`. -/
def progFeedService : Service :=
  cmdService E.PROG_FEED 16 false none (fun _ => true) (fun _ => false)
    (fun _ b _ =>
      let n := field b 0 2
      codeIf (decide (b.length < 8) || b.length != 8 + 4 * n) St.badLength
        ++ codeIf (n == 0 || decide (2048 < n) || decide (2048 < field b 4 4 + n)) St.outOfRange)
    (fun p b s =>
      let g := s.prog p
      let vals := readElems b 8 4 (field b 0 2)
      ([], s.putProg p { g with feeds := g.feeds ++ [(s.tick + 1, field b 4 4, vals)] }))

/-- PROG_FEED (R365). -/
def execProgFeed (t : Nat) (rx : Rx) (s : State) : Host.Outcome State Fault Refusal :=
  done ((s.at t).serve rx progFeedService)

/-- PROG_FEED_APPLY (R365): pending feeds enter the buffer at the tick boundary, in arrival order. -/
def execProgFeedApply (t slot : Nat) (s : State) : Host.Outcome State Fault Refusal :=
  let s := s.at t
  let g := s.prog slot
  let due := g.feeds.filter fun x => decide (x.1 ≤ s.tick)
  done <| s.when (!due.isEmpty) fun s =>
    let buf := due.foldl (fun m x => (x.2.2.mapIdx fun i v => (x.2.1 + i, v)).foldl (fun m p => AMap.put m p.1 p.2 0) m)
      g.feed
    s.putProg slot { g with feed := buf, feeds := g.feeds.filter fun x => decide (s.tick < x.1) }

/-! ### Forecasts (R356, R368) -/

/-- The brackets of forecast input `n` as a consumer reads them now (R368); empty when nothing is bound or
published. -/
def State.forecast (s : State) (n : Nat) : BrM (List Br) :=
  match s.loadedProgs.findSome? fun q => (q.2.outs.find? fun o => o.sink == 1 && o.select == n).map fun o => (q.2, o) with
  | none => pure []
  | some (g, o) =>
    match o.value with
    | none => pure []
    | some l =>
      let age := s.tick - o.tick
      let beyond := age - formPeriod g.form * s.totalFactor g
      if o.openAfter < age then pure (l.map fun _ => Br.opened)
      else if beyond = 0 then pure (l.map Br.of32)
      else
        let w := FV.ofDy ((f32Dy o.widen).mul (Dy.int beyond))
        l.mapM fun c => (Br.of32 c).widen w

/-! ### Steps (R355, R364, R366, R367, R374, R377, R378) -/

/-- Whether a guest's state is complete for counting tick `c` (R185). -/
def State.complete (s : State) (g : Guest) (c : Nat) : Bool :=
  (match g.standing.get c with | some x => x.recTick == c | none => false)
    || !(s.desk.lanes.any fun l => l.queue.any fun r => decide (r.due ≤ c))

/-- One guest state field as bracket-FP32 (R355, source 1); open while the guest is stale or incomplete. -/
def State.guestField (s : State) (g : Guest) (fld : Nat) : BrM Br :=
  if g.stale || !s.complete g (s.tick - 1) then pure Br.opened
  else
    match fld with
    | 0 => if g.hasPower.isSome then Br.ofPower g.powerW else pure Br.opened
    | 1 => pure (match g.applied with | some a => Br.ofCap a | none => Br.opened)
    | _ => do return (← Br.ofTemp (if g.lastSampleCount = 0 then 0x7FFF else g.hottest)).getD Br.opened

/-- The upper edge of a guest's hottest node (R355, source 3), as an FP32 code. -/
def Guest.hottestUpper (g : Guest) : Nat :=
  (g.x.map fun w => (Br.of16 w).upper).foldl f32Max 0xFF800000

/-- The elements of an input tensor at a step's start tick (R355). -/
def State.inputElems (s : State) (g : Prog) (i : InBind) : BrM (List Nat) :=
  match i.source with
  | 1 => (s.presents.filter fun p => p.2.pp.cls == i.select / 256 % 256).mapM fun p => do
      return (← s.guestField p.2 (i.select % 256)).code32
  | 2 => pure ((List.range 40).map fun b => s.plant.quant.getD (4 * b + i.select) Br.opened.code32)
  | 3 => pure ((s.presents.filter fun p => p.2.pp.cls == i.select % 256).map fun p =>
      if p.2.x.isEmpty then 0x7F800000 else p.2.hottestUpper)
  | 4 => pure ((List.range 2048).map fun k => g.feed.getD k 0)
  | _ => pure [if s.getU E.PHASE_VALID i.select = 1 then s.getU E.PHASE_BIN i.select else 0xFFFFFFFF]

/-- A hinge table as the foreground reads it: each bracket of the live leaf widened by its age (R378). -/
def State.liveLeaf (s : State) (p k fmt : Nat) (h : Hinge) : BrM (List Nat) :=
  let leaf := if s.getU E.HINGE_LIVE_LEAF (8 * p + k) = 0 then h.leaf0 else h.leaf1
  let age := s.tick - h.liveTick
  if age ≤ h.staleLimit then pure leaf
  else
    let w := FV.ofDy ((f32Dy h.ageRate).mul (Dy.int (age - h.staleLimit)))
    leaf.mapM fun v => do brElem fmt (← (← elemBr fmt v).widen w)

/-- What a subgraph reads besides constants and states: the inputs and the live leaves. -/
def State.stepTensors (s : State) (p : Nat) (g : Prog) : BrM Env := do
  let ts := formTensorList g.form
  let e ← (formInputList g.form).foldlM (fun (e : Env) i => do
    return AMap.set e i.tensor (← s.inputElems g i)) ([] : Env)
  g.hinges.foldlM (fun (e : Env) (q : Nat × Hinge) => do
    let fmt := match findTensor ts q.2.tensor with | some d => d.fmt | none => 0x13
    return AMap.set e q.2.tensor (← s.liveLeaf p q.1 fmt q.2)) e

/-- Constants and saved states (R285, R348). -/
def Prog.env (g : Prog) (step : Env) : Env :=
  let consts := constContents g.form ((constTensors (formTensorList g.form)).filter fun d => d.place == 0)
    (constantsAt g.form)
  let full := constContents g.form (constTensors (formTensorList g.form)) (constantsAt g.form)
  let e := consts.foldl (fun m d => AMap.set m d.1 (full.getD d.1 [])) ([] : Env)
  let e := g.states.foldl (fun m d => AMap.set m d.1 d.2) e
  step.foldl (fun m d => AMap.set m d.1 d.2) e

/-- Publish a completed step (R364, R366, R374). -/
def State.publish (s : State) (p : Nat) (x : Step) : State :=
  let g := s.prog p
  let ts := formTensorList g.form
  let total := s.totalFactor g
  let ((outs, probe), k) : (List ProgOut × Option Nat) × BrCnt := (show BrM (List ProgOut × Option Nat) from do
    let outs ← (g.outs.zip x.results).mapM fun q => do
      let o := q.1
      let fmt := match findTensor ts o.tensor with | some d => d.fmt | none => 0x13
      let l ← q.2.mapM fun v => do
        if !fmtBracket fmt then return v
        else
          let b ← elemBr fmt v
          let b ← if x.poisoned then pure Br.opened
            else if 1 < total then
              b.widen (FV.ofDy ((f32Dy o.widen).mul (Dy.int ((total - 1) * formPeriod g.form))))
            else pure b
          return b.code32
      return ({ o with value := some l, tick := s.tick }, fmt)
    let probe := (outs.find? fun q => q.1.sink == 2).map fun q =>
      beNat ((List.range 16).flatMap fun i =>
        let v := nth (q.1.value.getD []) i 0
        beBytes 4 (if fmtBracket q.2 then (Br.of32 v).midCode else f32Enc (plainVal q.2 v)))
    return (outs.map Prod.fst, probe)).run {}
  let s := (s.countBr k).putProg p { g with outs := outs, step := none }
  let s := s.setU E.PROG_LAST_PUBLISH p s.tick
  match probe with
  | some v => s.setU E.PROG_PROBE p v
  | none => s

/-- PROG_PUBLISH (R366): at the first tick boundary after a step completes its outputs are published. -/
def execProgPublish (t slot : Nat) (s : State) : Host.Outcome State Fault Refusal :=
  let s := s.at t
  done <| match (s.prog slot).step with
    | some x =>
      match x.doneTick with
      | some d => s.when (decide (d < s.tick)) fun s => s.publish slot x
      | none => s
    | none => s

/-- PROG_STEP_START (R355, R366, R367, R371): a due start takes the inputs and leaves of its tick, or is skipped while
a step still runs. A completed step is published first. -/
def execProgStepStart (t slot : Nat) (s : State) : Host.Outcome State Fault Refusal :=
  let s := s.at t
  let s := match (s.prog slot).step with
    | some x => (match x.doneTick with | some d => if d < s.tick then s.publish slot x else s | none => s)
    | none => s
  let g := s.prog slot
  let cycle := max 1 (formPeriod g.form * s.totalFactor g)
  let due := (s.tick + cycle * 65536 - s.getU E.PROG_PHASE slot) % cycle == 0
  done <| s.when (g.loaded && !g.suspended && due && g.lastStart != some s.tick) fun s =>
    let g := { g with lastStart := some s.tick }
    if g.step.isSome then ((s.putProg slot g).incU E.PROG_OVERRUNS slot).latch E.LOADER_LATCHES 8 (progKey slot)
    else
      let (e, k) := (s.stepTensors slot g).run {}
      (s.countBr k).putProg slot { g with step := some { start := s.tick, tensors := e } }

/-- The elements of one 64-byte line of a tensor read as zeros. -/
def zeroLine (width line : Nat) (l : List Nat) : List Nat :=
  let n := 64 / max 1 width
  l.mapIdx fun i v => if i / n = line then 0 else v

/-- PROG_STEP_COMPLETE (R366, R374, R285): the step's nodes have run; its states are written to their home copies.
`poison` lists the poisoned lines it read, by tensor and 64-byte line. -/
def execProgStepComplete (t slot : Nat) (poison : List (Nat × Nat)) (s : State) : Host.Outcome State Fault Refusal :=
  let s := s.at t
  let g := s.prog slot
  done <| match g.step with
    | none => s
    | some x =>
      s.when (x.doneTick == none && s.fabric.clampTick != some s.tick) fun s =>
        let ts := formTensorList g.form
        let width (id : Nat) : Nat := match findTensor ts id with | some d => fmtBytes d.fmt | none => 1
        let zap (e : Env) : Env := poison.foldl (fun e q => AMap.adjust e q.1 (zeroLine (width q.1) q.2)) e
        let g := { g with states := zap g.states }
        let (e, k) := runGraph g.form 0 (g.env (zap x.tensors)) s.freeCtr
        let states := (ts.filter fun d => d.place == 1).foldl (fun m d =>
          AMap.set m d.id (Env.read e s.freeCtr d)) ([] : Env)
        let results := g.outs.map fun o =>
          match findTensor ts o.tensor with | some d => Env.read e s.freeCtr d | none => []
        let poisoned := !poison.isEmpty
        let x := { x with doneTick := some s.tick, results := results, poisoned := poisoned }
        let s := ((s.countBr k).drawn.putProg slot { g with states := states, step := some x }).incU E.PROG_STEPS slot
        s.when poisoned fun s =>
          ((s.add E.BRK_OPENED 0).incU E.PROG_POISON_STEPS slot).latch E.LOADER_LATCHES 7 (progKey slot)

/-! ### Hinge tables (R375 to R379) -/

/-- The hinge table k of a slot. -/
def State.hinge (s : State) (p k : Nat) : Option Hinge := if p = 0 then s.row.hinges.get k else (s.prog p).hinges.get k

/-- Replace a hinge table. -/
def State.putHinge (s : State) (p k : Nat) (h : Hinge) : State :=
  if p = 0 then { s with row := { s.row with hinges := s.row.hinges.set k h } }
  else s.putProg p { s.prog p with hinges := (s.prog p).hinges.set k h }

/-- HINGE_REBUILD_START (R375): the period has passed or a request is held, and no foreground step reads the standby
leaf. -/
def execHingeRebuildStart (t slot k : Nat) (s : State) : Host.Outcome State Fault Refusal :=
  let s := s.at t
  let u := 8 * slot + k
  done <| match s.hinge slot k with
    | none => s
    | some h =>
      let reading := match (s.prog slot).step with
        | some x => x.doneTick == none && decide (x.start < h.liveTick)
        | none => false
      s.when (s.fwRuns && s.getU E.HINGE_STATE u == 1 && (h.requested || decide (h.nextStart ≤ s.tick)) && !reading)
        fun s => (s.putHinge slot k { h with requested := false, nextStart := s.tick + h.period }).setU E.HINGE_STATE u 2

/-- The service of `execHingeRebuild`. -/
def hingeRebuildService : Service :=
  cmdService E.HINGE_REBUILD 128 false (some 1) (fun _ => true) (fun _ => false)
    (fun _ b _ => codeIf (beNat b != 1) St.outOfRange)
    (fun u _ s =>
      match s.hinge (u / 8) (u % 8) with
      | some h => ([], s.putHinge (u / 8) (u % 8) { h with requested := true })
      | none => ([], s))

/-- HINGE_REBUILD (R375, R385): the argument 1 requests a rebuild; at most one request is held. -/
def execHingeRebuild (t : Nat) (rx : Rx) (s : State) : Host.Outcome State Fault Refusal :=
  done ((s.at t).serve rx hingeRebuildService)

/-- A failed rebuild (R376). -/
def State.hingeFail (s : State) (slot k : Nat) : State :=
  let u := 8 * slot + k
  (((s.setU E.HINGE_STATE u 1).incU E.HINGE_FAILS u).inc E.HINGE_FAILS_ALL).latch E.LOADER_LATCHES 6 (progKey slot)

/-- A passed rebuild: a `RESIDENT` table is preloaded, another awaits its swap (R376). -/
def State.hingePass (s : State) (slot k : Nat) (h : Hinge) : State :=
  (s.putHinge slot k { h with swapFrom := s.tick }).setU E.HINGE_STATE (8 * slot + k) (if h.resident then 3 else 4)

/-- Whether a validation scalar of a plain or bracket format passes (R376): at least 0 and not NaN. -/
def scalarOk (fmt v : Nat) : Bool :=
  match (if fmtBracket fmt then f32Val ((elemBr fmt v).run {}).1.midCode else plainVal fmt v) with
  | .nan => false
  | .inf neg => !neg
  | .fin _ d => decide (0 ≤ d.m)

/-- The rebuild of an operator program's table ends: its subgraph has written the standby leaf and the scalar. -/
def State.validateProg (s : State) (slot k : Nat) (h : Hinge) : State :=
  let g := s.prog slot
  let ts := formTensorList g.form
  let live := s.getU E.HINGE_LIVE_LEAF (8 * slot + k)
  let (e0, k1) := (s.stepTensors slot g).run {}
  let (e, k2) := runGraph g.form (k + 1) (g.env e0) s.freeCtr
  let content := AMap.getD e h.tensor []
  let ok := match findTensor ts h.validate with
    | some d => scalarOk d.fmt (nth (Env.read e s.freeCtr d) 0 0)
    | none => false
  let s := ((s.countBr k1).countBr k2).drawn
  if ok then s.hingePass slot k (if live = 0 then { h with leaf1 := content } else { h with leaf0 := content })
  else s.hingeFail slot k

/-- HINGE_PRELOAD_DONE (R376). -/
def execHingePreloadDone (t slot k : Nat) (s : State) : Host.Outcome State Fault Refusal :=
  let s := s.at t
  let u := 8 * slot + k
  done <| match s.hinge slot k with
    | none => s
    | some h => s.when (s.getU E.HINGE_STATE u == 3) fun s =>
        (s.putHinge slot k { h with swapFrom := s.tick }).setU E.HINGE_STATE u 4

/-- HINGE_STALE (R378): the age exceeds the limit; the latch sets once per episode. -/
def execHingeStale (t slot k : Nat) (s : State) : Host.Outcome State Fault Refusal :=
  let s := s.at t
  done <| match s.hinge slot k with
    | none => s
    | some h =>
      s.when (s.getU E.HINGE_STATE (8 * slot + k) != 0 && !h.staleSeen && decide (h.staleLimit < s.tick - h.liveTick))
        fun s => (s.putHinge slot k { h with staleSeen := true }).latch E.LOADER_LATCHES 5 (progKey slot)

end Sys2Proof.Machine
end

