-- ==== Sys2Proof/Machine/WearOps.lean ====
section
/-! DEFINITION. The spared units and their wear ledger (chapter 20): the units of each kind, their roles, fencing,
promotion, tests and retirement. -/

namespace Sys2Proof.Machine

/-- First ledger row, number of units and active count of a kind (R646, R658). -/
def kindRow (k : Nat) : Nat :=
  match k with
  | 2 => 0 | 15 => 144 | 3 => 162 | 4 => 418 | 5 => 474 | 6 => 502 | 12 => 508 | 16 => 580 | _ => 594
def kindUnits (k : Nat) : Nat :=
  match k with
  | 2 => 144 | 15 => 18 | 3 => 256 | 4 => 56 | 5 => 28 | 6 => 6 | 12 => 72 | 16 => 14 | 8 => 80 | _ => 0
def kindActive (k : Nat) : Nat :=
  match k with
  | 2 => 128 | 15 => 16 | 3 => 240 | 4 => 48 | 5 => 24 | 6 => 5 | 12 => 64 | 16 => 12 | 8 => 64 | _ => 0

/-- The kinds of spared unit (R646). -/
def kinds : List Nat := [2, 15, 3, 4, 5, 6, 12, 16, 8]

/-- The kind a ledger row belongs to. -/
def kindOf (row : Nat) : Nat :=
  if row < 144 then 2 else if row < 162 then 15 else if row < 418 then 3 else if row < 474 then 4
  else if row < 502 then 5 else if row < 508 then 6 else if row < 580 then 12 else if row < 594 then 16 else 8

/-- BIST time of a kind in ps (R646); a test may take twice this (R650). -/
def bistTime (k : Nat) : Nat :=
  match k with
  | 2 => 12 * ms | 15 => 5 * ms | 3 => 500 * us | 4 => 20 * ms | 5 => 50 * ms | 6 => 3 * sec | _ => 10 * ms

/-- A unit as it stands at a first start (R646, R647): the lowest-numbered units are active, per region for arrays
and per stack for stack channels, and the others are tested spares. -/
def unit0 (row : Nat) : LedgerUnit :=
  let k := kindOf row
  let n := row - kindRow k
  let active :=
    if k = 2 then decide (n % 36 < 32) else if k = 12 then decide (n % 18 < 16) else decide (n < kindActive k)
  let serves :=
    if !active then 0xFFFF
    else if k = 12 then n % 18
    else if k = 4 || k = 5 || k = 8 || k = 3 then n
    else 0xFFFF
  { role := if active then 0 else 1, tested := !active, serves := serves }

/-- A unit of the ledger. -/
def State.unit (s : State) (row : Nat) : LedgerUnit := s.wear.units.getD row (unit0 row)

/-- The rows of a kind. -/
def kindRows (k : Nat) : List Nat := (List.range (kindUnits k)).map (kindRow k + ·)

/-- The counts of R661 for a kind, and `SPARES_OUT` when the tested spares run out (R662). -/
def State.refreshKind (s : State) (k : Nat) : State :=
  let us := (kindRows k).map s.unit
  let spare := (us.filter fun u => u.role == 1 && u.tested).length
  let was := s.getU E.UNITS_SPARE k
  let s := s.setU E.UNITS_ACTIVE k (us.filter fun u => u.role == 0).length
  let s := s.setU E.UNITS_SPARE k spare
  let s := s.setU E.UNITS_RETIRED k (us.filter fun u => u.role == 4).length
  if spare = 0 && 0 < was then s.latch E.WEAR_LATCHES 4 (condKey k 0) else s

/-- Replace a unit's ledger row. -/
def State.putUnit (s : State) (row : Nat) (u : LedgerUnit) : State :=
  { s with wear := { s.wear with units := s.wear.units.set row u } }

/-- `USE_TURNS` of a unit now (R658). -/
def State.useTurns (s : State) (u : LedgerUnit) : Nat :=
  u.useTurns + (if u.role = 0 then s.turn - u.roleTurn else 0)

/-- A unit takes a role at the present tick and turn (R658). -/
def State.setRole (s : State) (row role serves : Nat) : State :=
  let u := s.unit row
  let s := s.putUnit row
    { u with
      role := role, serves := serves, useTurns := s.useTurns u, roleTurn := s.turn, since := s.tick
      changes := satBytes 4 (u.changes + 1), tested := u.tested && role == 1 }
  s.refreshKind (kindOf row)

/-- The unit's number within its kind, and its `KEY` (R603). -/
def unitKey (row : Nat) : Nat := condKey (kindOf row) (row - kindRow (kindOf row))

/-- FRAM's life record of a unit is written (R659). -/
def State.writeLife (s : State) (row : Nat) : State :=
  let u := s.unit row
  let l : Life :=
    { useTurns := s.useTurns u, errs := u.errs, passes := u.passes, fails := u.fails, retired := u.role == 4
      cause := u.cause }
  { s with fram := { s.fram with life := s.fram.life.set row l } }

/-- A unit is retired for a cause (R655, R658): it holds no role again. -/
def State.retire (s : State) (row cause : Nat) : State :=
  let s := s.setRole row 4 0xFFFF
  let s := s.putUnit row { s.unit row with cause := cause, testFrom := none, outcome := none }
  (s.refreshKind (kindOf row)).writeLife row |>.latch E.WEAR_LATCHES 2 (unitKey row)

/-- A stack channel or IOC link lane has failed, in a start or in the run after it (R655): the diary shows it, and one
that had failed before it was left out at the previous start is retired. -/
def State.noteFailure (s : State) (row : Nat) : State :=
  let k := kindOf row
  let n := row - kindRow k
  let s := s.putDiary (s.start.diary.fail k n)
  let step := if k = 12 then 9 else 5
  match s.prevDiaries with
  | d1 :: d2 :: _ => if d1.alt.testBit step && (d2.failed k).testBit n then s.retire row 3 else s
  | _ => s

/-- Whether the errors of a unit reach the retirement count (R655). -/
def State.errorsReached (s : State) (u : LedgerUnit) : Bool :=
  decide (s.get E.WEAR_RETIRE_ERRORS ≤
    (u.errTurns.filter fun t => decide (s.turn < t + s.get E.WEAR_RETIRE_TURNS)).length)

/-- A block error of a unit is entered in the ledger and the unit is fenced (R646, R655). -/
def State.fenceUnit (s : State) (row : Nat) : State :=
  let u := s.unit row
  let s := s.putUnit row { u with errs := satBytes 4 (u.errs + 1), errTurns := (s.turn :: u.errTurns).take 255 }
  let s := s.setRole row 2 u.serves
  if s.errorsReached (s.unit row) then s.retire row 2 else s

/-- The tested spares of a kind among `rows`, by `USE_TURNS` and number (R654). -/
def State.bestSpare (s : State) (rows : List Nat) : Option Nat :=
  minBy (fun r => s.useTurns (s.unit r)) (rows.filter fun r => (s.unit r).role == 1 && (s.unit r).tested)

/-- The tested spare with the most turns in the spare role, the lowest number breaking a tie (R652). -/
def State.longestSpare (s : State) (rows : List Nat) : Option Nat :=
  maxBy (fun r => s.turn - (s.unit r).roleTurn)
    (rows.filter fun r => (s.unit r).role == 1 && (s.unit r).tested)

/-- A spare takes a role after an error (R654, R662). -/
def State.promote (s : State) (row serves : Nat) : State :=
  let s := s.setRole row 0 serves
  (s.incU E.KIND_TAKEOVERS (kindOf row)).latch E.WEAR_LATCHES 0 (unitKey row)

/-- A unit begins its test (R648). -/
def State.startTest (s : State) (row : Nat) (planned : Bool) : State :=
  let s := s.setRole row 3 0xFFFF
  let s := s.putUnit row { s.unit row with testFrom := some s.now, outcome := none, planned := planned, tested := false }
  s.inc E.BIST_RUNS

end Sys2Proof.Machine
end

