-- ==== Sys2Proof/Machine/Arrays.lean ====
section
/-! DEFINITION. Arrays and regions (chapter 9): roles, cell and block errors, migration, rotation, region fences and
the row program's reservation. The ledger row of an array holds whether it is active, spare, fenced, in test or
retired; `Arr.isRow` tells the two active roles apart. -/

namespace Sys2Proof.Machine

/-! ### Roles (R290 to R292) -/

def arrKey (a : Nat) : Nat := condKey 2 a

/-- The arrays of a region (R311). -/
def regionArrays (r : Nat) : List Nat := (List.range 36).map (36 * r + ·)

/-- An array. -/
def State.arr (s : State) (a : Nat) : Arr := s.fabric.arrays.getD a {}

/-- Replace an array. -/
def State.putArr (s : State) (a : Nat) (x : Arr) : State :=
  { s with fabric := { s.fabric with arrays := s.fabric.arrays.set a x } }

/-- `ROLE` of R312: 0 spare, 1 row program, 2 operator, 3 fenced, 4 test, 5 retired. -/
def State.arrRole (s : State) (a : Nat) : Nat :=
  match (s.unit a).role with
  | 0 => if (s.arr a).isRow then 1 else 2
  | 1 => 0
  | 2 => 3
  | 3 => 4
  | _ => 5

/-- `ARRAY_STATE` (R312). -/
def State.arrayState (s : State) (a : Nat) : Nat :=
  let x := s.arr a
  s.arrRole a * 256 + (if (s.unit a).role = 1 && (s.unit a).tested then 128 else 0)
    + (if x.preloadFor.isSome then 64 else 0) + (if x.borrowed then 32 else 0) + a / 36

/-- The arrays of a role. -/
def State.arraysIn (s : State) (role : Nat) (among : List Nat) : List Nat := among.filter fun a => s.arrRole a == role

/-- The counts of R310 follow the roles; operator programs are placed again when their arrays change (R369). -/
def State.refreshArrays (s : State) : State :=
  let n (role : Nat) : Nat := (s.arraysIn role (List.range 144)).length
  let was := s.get E.ARRAYS_OPER
  let s := (((s.set E.ARRAYS_ROW (n 1)).set E.ARRAYS_OPER (n 2)).set E.ARRAYS_ACTIVE (n 1 + n 2)).set E.ARRAYS_SPARE (n 0)
  let s := s.set E.ARRAYS_RETIRED (n 5)
  if s.get E.ARRAYS_OPER = was then s else { s with loader := { s.loader with replaceDue := true } }

/-- An array takes an active role (R290); the ledger records the change (R292). -/
def State.giveRole (s : State) (a : Nat) (isRow borrowed : Bool) : State :=
  let x := s.arr a
  let spare := (s.unit a).role == 1
  let s := s.setRole a 0 0xFFFF
  s.putArr a { x with
    isRow := isRow, borrowed := borrowed, preloadFor := none, handOver := 0
    heldSpare := if spare then s.turn else x.heldSpare }

/-- Take `n` of the candidates; which ones, the spec leaves open (notes/assumptions/43.md). -/
def pickSome (draw n : Nat) (l : List Nat) : List Nat := (sortBy (Config.choice draw) l).take n

/-- The row program holds `q` arrays of region `r`, or all its active ones when there are fewer. -/
def State.rowTo (s : State) (r q : Nat) : State :=
  let row := s.arraysIn 1 (regionArrays r)
  let oper := s.arraysIn 2 (regionArrays r)
  let s' := s.drawn
  if row.length < q then
    (pickSome s.freeCtr (q - row.length) oper).foldl (fun s a => s.giveRole a true false) s'
  else (pickSome s.freeCtr (row.length - q) row).foldl (fun s a => s.giveRole a false false) s'

/-- The reservation of a stance (R32). -/
def reservation (stance : Nat) : Nat := match stance with | 0 => 64 | 2 => 80 | _ => 48

/-- R290, R291, R306: the row program's arrays are taken again, a quarter from each region, and what a region cannot
give from the operator arrays of the others in ascending order. When the arrays that remain fall short of the
reservation, the module enters the rest stance. -/
def State.reserve (s : State) (n : Nat) : State :=
  let s : State := { s with fabric := { s.fabric with reserved := n } }
  let s := (List.range 4).foldl (fun s r => s.rowTo r (n / 4)) s
  let s := (List.range 4).foldl (fun s r =>
    let row := (s.arraysIn 1 (List.range 144)).length
    let mine := (s.arraysIn 1 (regionArrays r)).length
    if row < n then s.rowTo r (mine + (n - row)) else s) s
  let s := s.refreshArrays
  if s.get E.ARRAYS_ROW < n then s.enterRest 1 else s

/-! ### What a lost array costs (R293 to R297, R372, R379) -/

/-- The row program's array that steps a guest: one of its class's region, or of any region when that has none. Which
one, the spec leaves open. -/
def State.guestArray (s : State) (slot : Nat) (g : Guest) : Option Nat :=
  let here := s.arraysIn 1 (regionArrays g.stack)
  let all := if here.isEmpty then s.arraysIn 1 (List.range 144) else here
  if all.isEmpty then none else some (nth all (Config.choice 0 slot % all.length) 0)

/-- Arrays were taken from rebuilds and operator steps (R372, R379); whether from a given program is the loader's
placement, which the spec leaves open (notes/assumptions/42.md). -/
def State.arraysTaken (s : State) (isRow : Bool) : State :=
  if isRow then
    let hit := s.freeVal % 2 == 1
    s.drawn.when hit fun s => restartHinges 0 s.row.hinges s
  else
    s.loadedProgs.foldl (fun s q =>
      let hit := s.freeVal % 2 == 1
      s.drawn.when hit fun s => restartHinges (8 * q.1) q.2.hinges (s.loseStep q.1)) s

/-- ALLOCATION_ABANDON (R297): an allocation in progress is given up. -/
def State.abandonAlloc (s : State) : State :=
  match s.row.alloc with
  | some _ =>
    let s : State := { s with row := { s.row with alloc := none } }
    s.inc E.ALLOC_ABANDONED
  | none => s

/-- The step of this tick writes no results for the guests of an array (R294, R296): their state returns to what it was
before the step, and their bounds for the next tick are missing. -/
def State.noResults (s : State) (a : Nat) : State :=
  if s.fabric.noResult.contains a then s
  else
    let s : State := { s with fabric := { s.fabric with noResult := a :: s.fabric.noResult } }
    if s.arrRole a ≠ 1 then s
    else
      s.presents.foldl (fun s p =>
        if s.guestArray p.1 p.2 = some a && p.2.stepTick == some s.tick then
          let s := s.putGuest p.1 { p.2 with
            x := p.2.xBefore, settle := p.2.settleBefore, stepTick := p.2.stepBefore
            preds := p.2.preds.filter fun q => decide (q.1 ≤ s.tick) }
          { s with guard := { s.guard with standby := s.guard.standby.erase p.1, second := s.guard.second.erase p.1 } }
        else s) s

/-- A block error of an array (R295 to R297): it is fenced, and what it ran is lost. During its test it counts as a
mismatch (R650). -/
def State.arrayError (s : State) (a : Nat) : State :=
  let role := s.arrRole a
  if role = 4 then s.putUnit a { s.unit a with outcome := some (1, s.tick) }
  else if role = 3 || role = 5 then s
  else
    let s := if role = 1 || role = 2 then s.noResults a else s
    let s := if role = 1 then s.abandonAlloc else s
    let x := s.arr a
    let s := s.putArr a { x with
      handOver := if role = 1 || role = 2 then role else 0, fenceTick := s.tick, overruns := 0, preloadFor := none
      borrowed := false }
    let s := (s.fenceUnit a).refreshArrays
    let s := (s.inc E.ARRAY_FENCES).latch E.FABRIC_LATCHES 2 (arrKey a)
    if role = 1 || role = 2 then s.arraysTaken (role == 1) else s

/-- PARITY_ERROR (R282, R293): the step runs again once; a second error in the same step is a block error. -/
def execParityError (t array : Nat) (s : State) : Host.Outcome State Fault Refusal :=
  let s := s.at t
  let s := s.incU E.CELL_PARITY_ERRORS array
  let x := s.arr array
  done <|
    if s.arrRole array ≠ 1 && s.arrRole array ≠ 2 then
      (if s.arrRole array = 4 then s.arrayError array else s)
    else if x.parityTick = some s.tick then s.arrayError array
    else
      let s := s.putArr array { x with parityTick := some s.tick }
      ((s.incU E.STEP_RERUNS array).inc E.STEP_RERUNS_ALL).latch E.FABRIC_LATCHES 0 (arrKey array)

/-- STEP_OVERRUN (R294, R295): the step writes no results; four ticks in a row without a parity error are a block
error. -/
def execStepOverrun (t array : Nat) (s : State) : Host.Outcome State Fault Refusal :=
  let s := s.at t
  done <| s.when (s.arrRole array == 1 || s.arrRole array == 2) fun s =>
    let x := s.arr array
    let n := if x.parityTick = some s.tick then 0 else if x.overrunTick + 1 = s.tick then x.overruns + 1 else 1
    let s := s.noResults array
    let s := s.putArr array { s.arr array with overruns := n, overrunTick := s.tick }
    let s := (s.inc E.STEP_OVERRUNS).latch E.FABRIC_LATCHES 1 (arrKey array)
    if 4 ≤ n then s.arrayError array else s

/-- ARRAY_BLOCK_ERROR (R295, R296): a sequencer or porter fault, or a double-bit SRAM error (`sram`). -/
def execArrayBlockError (t array : Nat) (sram : Bool) (s : State) : Host.Outcome State Fault Refusal :=
  let s := s.at t
  done <| (s.when sram fun s => s.inc E.SRAM_UNCORRECTABLE).arrayError array

/-! ### Region fences (R304 to R306) -/

/-- A region is fenced (R304): its arrays stop, and its allocation, if any, is abandoned. -/
def State.fenceRegion (s : State) (r : Nat) : State :=
  if (s.get E.REGIONS_FENCED).testBit r then s
  else
    let s := s.set E.REGIONS_FENCED (setBit (s.get E.REGIONS_FENCED) r)
    let s := s.putDiary { s.start.diary with regions := setBit s.start.diary.regions r }
    let s := if (s.arraysIn 1 (regionArrays r)).isEmpty then s else s.abandonAlloc
    let s := (regionArrays r).foldl (fun s a =>
      let role := (s.unit a).role
      let s := if s.arrRole a = 1 then s.noResults a else s
      let s := s.putArr a { s.arr a with handOver := 0, preloadFor := none, borrowed := false }
      if role = 4 || role = 2 then s
      else
        let s := s.setRole a 2 0xFFFF
        s.putUnit a { s.unit a with testFrom := none, outcome := none, retest := false, planned := false }) s
    let s := s.refreshArrays
    let s := (s.arraysTaken true).arraysTaken false
    let s : State := { s with fabric := { s.fabric with
      fences := s.fabric.fences ++ [(r, s.tick)]
      deferredRotation := s.fabric.deferredRotation.filter fun q => q != r } }
    s.latch E.FABRIC_LATCHES 4

/-- REGION_FENCE (R304): an uncorrectable error in the region's switch. -/
def execRegionFence (t region : Nat) (s : State) : Host.Outcome State Fault Refusal :=
  let s := s.at t
  done <| s.when (decide (region < 4)) fun s => s.fenceRegion region

/-- REGION_RECONFIGURE (R305, R306, R397, R400): at the next tick boundary the row program's share is made up elsewhere,
and the region's classes are placed again in descending order of work; their guests restart and are stepped every
second tick. -/
def execRegionReconfigure (t region : Nat) (s : State) : Host.Outcome State Fault Refusal :=
  let s := s.at t
  done <| s.when (s.fabric.fences.any fun f => f.1 == region && decide (f.2 < s.tick)) fun s =>
    let s : State := { s with fabric := { s.fabric with fences := s.fabric.fences.filter fun f => f.1 != region } }
    let s := s.reserve s.fabric.reserved
    let cs := s.regionClasses region
    let s := cs.foldl (fun s c => s.setU E.CLASS_REGION c 0xFF) s
    let gs := s.guests.mapVals fun _ g =>
      if cs.contains g.pp.cls then { g with restartDue := true, staticOnly := true, halved := true, lost := false }
      else g
    let s : State := { s with guests := gs }
    let s := (s.placeClasses (cs.filter fun c => decide (0 < s.getU E.CLASS_GUESTS c))).carve false
    { s with loader := { s.loader with replaceDue := true } }

/-! ### Migration (R296, R298 to R300, R651) -/

/-- MIGRATION (R296, R298, R299): from the next tick boundary a tested spare of the region takes the fenced array's
role; for the row program an operator array is borrowed when there is none, and else the region is fenced. While a
spare of the region is under its retest, a row program array waits for it. -/
def execMigration (t array : Nat) (s : State) : Host.Outcome State Fault Refusal :=
  let s := s.at t
  let x := s.arr array
  let mine := regionArrays (array / 36)
  done <| s.when (x.handOver != 0 && decide (x.fenceTick < s.tick)) fun s =>
    let isRow := x.handOver == 1
    let s' := s.putArr array { x with handOver := 0 }
    match s.bestSpare mine with
    | some a =>
      let s := ((s'.promote a 0xFFFF).putArr a { s.arr a with heldSpare := s.turn, isRow := isRow, preloadFor := none })
      (s.inc E.MIGRATIONS).refreshArrays
    | none =>
      if !isRow then
        { s' with loader := { s'.loader with replaceDue := true } }
      else if mine.any fun a => (s.unit a).role == 3 && (s.unit a).retest then s
      else
        match minBy (fun a => s.useTurns (s.unit a)) (s.arraysIn 2 mine) with
        | some a =>
          let s := (s'.giveRole a true true).refreshArrays
          ((s.arraysTaken false).latch E.FABRIC_LATCHES 3 (arrKey a))
        | none => s'.fenceRegion (array / 36)

/-! ### Rotation (R301 to R303) -/

/-- The array of a region that leaves service, and the spare that comes in (R301). -/
def State.rotationPair (s : State) (r : Nat) : Option Nat × Option Nat :=
  let active := (s.arraysIn 1 (regionArrays r) ++ s.arraysIn 2 (regionArrays r))
  (maxBy (fun a => s.turn - (s.arr a).heldSpare) (sortBy id active), s.longestSpare (regionArrays r))

/-- Whether turn `n` starts with a rotation boundary of region `r` (R301, R302). -/
def State.rotationTurn (s : State) (r n : Nat) : Bool :=
  s.eff E.ROTATE_ENABLE == 1 && decide (0 < n) && (n % 4096 == 1024 * r || s.fabric.deferredRotation.contains r)
    && !(s.get E.REGIONS_FENCED).testBit r && !s.inRest

/-- `ROTATE_NEXT_TURN` (R310): the next rotation boundary of a region that is not fenced. -/
def State.rotateNext (s : State) : Nat :=
  if !s.fabric.deferredRotation.isEmpty then s.turn + 1
  else
    let next := (s.runningRegions.map fun r =>
      let n := s.turn / 4096 * 4096 + 1024 * r
      if n ≤ s.turn then n + 4096 else n)
    (minBy id next).getD 0

/-- ROTATION_PRELOAD (R302): in the last tick before the boundary the incoming spare is loaded from the outgoing
array's home copies. -/
def execRotationPreload (t region : Nat) (s : State) : Host.Outcome State Fault Refusal :=
  let s := s.at t
  done <| s.when (s.rotationTurn region (s.turn + 1) && s.wheel.idx + 1 == s.ticksPerTurn) fun s =>
    match s.rotationPair region with
    | (some o, some i) => s.putArr i { s.arr i with preloadFor := some o }
    | _ => s

/-- ROTATION (R301 to R303): the spare takes the role and the outgoing array is fenced for its planned test; without a
tested spare, with the preload unfinished, or at a stance change the rotation is deferred by one turn. -/
def execRotation (t region : Nat) (s : State) : Host.Outcome State Fault Refusal :=
  let s := s.at t
  done <| s.when (s.rotationTurn region s.turn && s.wheel.idx == 0 && s.fabric.rotated.get region != some s.turn) fun s =>
    let s : State := { s with fabric := { s.fabric with
      rotated := s.fabric.rotated.set region s.turn
      deferredRotation := s.fabric.deferredRotation.filter fun q => q != region } }
    let defer (s : State) : State :=
      let s : State := { s with fabric := { s.fabric with
        deferredRotation := s.fabric.deferredRotation ++ [region] } }
      (s.inc E.ROTATIONS_DEFERRED).latch E.FABRIC_LATCHES 5
    match s.rotationPair region with
    | (some o, some i) =>
      if (s.arr i).preloadFor ≠ some o || s.fabric.stanceTurn = some s.turn then defer s
      else
        let isRow := (s.arr o).isRow
        let s := s.giveRole i isRow false
        let s := s.setRole o 2 0xFFFF
        let s := s.putUnit o { s.unit o with planned := true }
        let s := s.putArr o { s.arr o with handOver := 0, fenceTick := s.tick, borrowed := false }
        ((s.inc E.ROTATIONS).refreshArrays).arraysTaken isRow
    | _ => defer s

end Sys2Proof.Machine
end

