-- ==== Sys2Proof/Machine/Stacks.lean ====
section
/-! DEFINITION. The memory stacks (chapter 10): poisoned lines, row and page sparing, channel loss and sparing, the
loss of a stack. Where the areas of R318 lie within a stack the spec leaves open (`Config.layout`). -/

namespace Sys2Proof.Machine

/-- A stack. -/
def State.stack (s : State) (k : Nat) : Stack := s.stackMap.getD k {}

/-- Replace a stack. -/
def State.putStack (s : State) (k : Nat) (x : Stack) : State := { s with stackMap := s.stackMap.set k x }

/-- Unit number and ledger row of a channel (R341, R658). -/
def chanUnit (k c : Nat) : Nat := 18 * k + c
def chanRow (k c : Nat) : Nat := 508 + chanUnit k c

/-- The channel that serves a slot, and the map with it replaced (R316). -/
def State.slotChan (s : State) (k slot : Nat) : Nat := bits (s.getU E.STACK_CHANNEL_MAP k) (8 * (15 - slot) + 7) (8 * (15 - slot))
def State.setSlotChan (s : State) (k slot c : Nat) : State :=
  let m := s.getU E.STACK_CHANNEL_MAP k
  s.setU E.STACK_CHANNEL_MAP k (m + c * 256 ^ (15 - slot) - s.slotChan k slot * 256 ^ (15 - slot))

/-- The slot of a line (R316): address bits [18:15], a line being 64 bytes. -/
def lineSlot (line : Nat) : Nat := line / 512 % 16

/-- The first line of a guest's state area, and whether a line lies in it. -/
def stateLine (slot : Nat) : Nat := Config.layout 0 slot 0 / 512 * 512
def inStateArea (slot line : Nat) : Bool := line / 512 == stateLine slot / 512

/-- Lines of a stack turn poisoned (R324 to R326): guests whose state areas hold one lose their state at its next read;
rows of the rings read as zeros; tally counters restart at their next increment. -/
def State.poison (s : State) (k : Nat) (lost : Nat → Bool) : State :=
  let gs := s.guests.mapVals fun slot g =>
    if g.stack = k && (List.range 512).any (fun i => lost (stateLine slot + i)) then { g with lost := true } else g
  let here (slot : Nat) : Bool := match s.guests.get slot with | some g => g.stack == k | none => false
  let look := s.desk.look.mapVals fun slot m => if here slot then m.filter fun p => !lost (Config.layout 1 slot p.1) else m
  let sum := s.desk.summary.mapVals fun slot m =>
    if here slot then m.filter fun p => !lost (Config.layout 2 slot p.1) else m
  let cells (size kind unit : Nat) (m : AMap Nat) : AMap Nat :=
    (m.filter fun p => decide (p.1 < size) && lost (Config.layout kind unit p.1)).foldl
      (fun m p => tallyPoison size m p.1) m
  let hists := if s.get E.LOG_STACK = k then
      s.recorder.hists.mapVals fun n h => { h with bins := cells 64 3 n h.bins }
    else s.recorder.hists
  let rain := s.recorder.rainflow.mapVals fun slot f =>
    if here slot then { f with cells := cells 256 4 slot f.cells } else f
  let ext := s.recorder.extremes.mapVals fun slot e => if here slot && lost (Config.layout 5 slot 0) then {} else e
  { s with
    guests := gs, desk := { s.desk with look := look, summary := sum }
    recorder := { s.recorder with hists := hists, rainflow := rain, extremes := ext } }

/-- LINE_UNCORRECTABLE (R324): the line is marked poisoned. -/
def execLineUncorrectable (t stack line : Nat) (s : State) : Host.Outcome State Fault Refusal :=
  let s := s.at t
  let x := s.stack stack
  done <| s.when (s.getU E.STACK_STATE stack == 2 && !x.poisoned.contains line) fun s =>
    let c := s.slotChan stack (lineSlot line)
    let s := s.putStack stack { x with poisoned := line :: x.poisoned }
    let s := (s.incU E.ECC_UNCORRECTABLE stack).incU E.CHAN_UNCORRECTABLE (chanUnit stack c)
    (s.poison stack fun l => l == line).latch E.STACK_LATCHES 0 (condKey 12 (chanUnit stack c))

/-- ROW_SPARE (R315, R322): a row moves to one of its bank's 32 spare rows; poisoned lines stay so. -/
def execRowSpare (t stack bank _row : Nat) (s : State) : Host.Outcome State Fault Refusal :=
  let s := s.at t
  let x := s.stack stack
  let n := x.sparedRows.getD bank 0
  done <| s.when (s.getU E.STACK_STATE stack == 2 && decide (n < 32)) fun s =>
    (s.putStack stack { x with sparedRows := x.sparedRows.set bank (n + 1) }).incU E.ROWS_SPARED stack

/-- PAGE_RETIRE (R323): a page is remapped to a reserve page; without one the row stays in service. -/
def execPageRetire (t stack page : Nat) (s : State) : Host.Outcome State Fault Refusal :=
  let s := s.at t
  let x := s.stack stack
  let free := s.getU E.RESERVE_PAGES_FREE stack
  done <| s.when (s.getU E.STACK_STATE stack == 2) fun s =>
    if free = 0 then s.latch E.STACK_LATCHES 3
    else
      let s := s.putStack stack { x with pages := x.pages.set page (3584 - free) }
      (s.setU E.RESERVE_PAGES_FREE stack (free - 1)).incU E.PAGES_RETIRED stack

/-- Corrected lines are counted by stack and channel, and in the ledger (R320, R658). -/
def State.eccCorrected (s : State) (k c n : Nat) : State :=
  let row := chanRow k c
  let u := s.unit row
  let s := (s.addU E.ECC_CORRECTED k n).addU E.CHAN_CORRECTED (chanUnit k c) n
  s.putUnit row { u with corrected := satBytes 4 (u.corrected + n) }

/-- PATROL_SCRUB_PASS (R321): a pass over every line ends; `corrected` lists channels and the lines it corrected. -/
def execPatrolScrubPass (t stack : Nat) (corrected : List (Nat × Nat)) (s : State) : Host.Outcome State Fault Refusal :=
  let s := s.at t
  let x := s.stack stack
  done <| s.when (s.getU E.STACK_STATE stack == 2 && decide (x.scrubTurn + s.eff E.SCRUB_PERIOD_TURNS ≤ s.turn)) fun s =>
    corrected.foldl (fun s p => s.eccCorrected stack p.1 p.2) (s.putStack stack { x with scrubTurn := s.turn })

/-! ### Channels and stacks (R327 to R331) -/

/-- The loss of the log stack (R611): the histograms and the log are lost until the next start. -/
def State.loseLog (s : State) : State :=
  let s : State := { s with recorder := { s.recorder with logLost := true, hists := [], log := [] } }
  (s.latch E.REC_LATCHES 3).latch E.REC_LATCHES 6

/-- The loss of a stack (R330): its content is lost and its region is fenced. -/
def State.loseStack (s : State) (k : Nat) : State :=
  if s.getU E.STACK_STATE k ≠ 2 then s
  else
    let s := (s.setU E.STACK_STATE k 3).set E.STACKS_ACTIVE (s.get E.STACKS_ACTIVE - 1)
    let s := s.putStack k { s.stack k with poisoned := [], lostSlots := [], fills := [] }
    let s := (List.range 18).foldl (fun s c =>
      (s.setU E.CHAN_STATE (chanUnit k c) 3).setU E.CHAN_SLOT (chanUnit k c) 0xFF) s
    let s := s.poison k fun _ => true
    let s := if s.get E.LOG_STACK = k && s.recorder.running then s.loseLog else s
    ((s.latch E.STACK_LATCHES 6).fenceRegion k).refreshStore

/-- STACK_LOSS (R330): a fatal fault of the logic die, or loss of the stack's supply. -/
def execStackLoss (t stack : Nat) (s : State) : Host.Outcome State Fault Refusal :=
  done <| (s.at t).loseStack stack

/-- CHANNEL_LOSS (R327): from now on reads of the channel's slot return poison and writes are discarded. -/
def execChannelLoss (t stack channel : Nat) (s : State) : Host.Outcome State Fault Refusal :=
  let s := s.at t
  let u := chanUnit stack channel
  let st := s.getU E.CHAN_STATE u
  let slot := s.getU E.CHAN_SLOT u
  done <| s.when (s.getU E.STACK_STATE stack == 2 && st != 3) fun s =>
    let s := (s.setU E.CHAN_STATE u 3).setU E.CHAN_SLOT u 0xFF
    let s := s.fenceUnit (chanRow stack channel)
    let s := s.noteFailure (chanRow stack channel)
    if st = 0 then s
    else
      let x := s.stack stack
      let s := s.putStack stack { x with
        lostSlots := x.lostSlots ++ [(slot, s.tick)], fills := x.fills.filter fun c => c != channel }
      s.poison stack fun l => lineSlot l == slot

/-- The channels of a stack that may still be promoted, lowest number first. -/
def State.spareChannels (s : State) (k : Nat) : List Nat :=
  (List.range 18).filter fun c => s.getU E.CHAN_STATE (chanUnit k c) == 0 && (s.unit (chanRow k c)).role == 1

/-- CHANNEL_SPARE (R328, R329): at the next tick boundary the lowest spare channel takes the lost slot with every line
poisoned; of two losses the lower-numbered channel takes the first spare; without a spare the stack is lost. -/
def execChannelSpare (t stack slot : Nat) (s : State) : Host.Outcome State Fault Refusal :=
  let s := s.at t
  let x := s.stack stack
  let waiting := sortBy (fun q => s.slotChan stack q) (x.lostSlots.map Prod.fst)
  let due := x.lostSlots.any fun q => q.1 == slot && decide (q.2 < s.tick)
  done <| s.when (s.getU E.STACK_STATE stack == 2 && due) fun s =>
    match (s.spareChannels stack)[waiting.idxOf slot]? with
    | none => s.loseStack stack
    | some c =>
      let u := chanUnit stack c
      let s := s.putStack stack { x with
        lostSlots := x.lostSlots.filter fun q => q.1 != slot, fills := x.fills ++ [c] }
      let s := (s.promote (chanRow stack c) slot).setSlotChan stack slot c
      ((s.setU E.CHAN_STATE u 2).setU E.CHAN_SLOT u slot).latch E.STACK_LATCHES 2 (condKey 12 u)

/-- ZERO_FILL_DONE (R328): the promoted channel holds zeros wherever nothing was written since. -/
def execZeroFillDone (t stack channel : Nat) (s : State) : Host.Outcome State Fault Refusal :=
  let s := s.at t
  let x := s.stack stack
  done <| s.when (x.fills.contains channel) fun s =>
    let s := s.putStack stack { x with
      fills := x.fills.filter fun c => c != channel
      poisoned := x.poisoned.filter fun l => s.slotChan stack (lineSlot l) != channel }
    s.setU E.CHAN_STATE (chanUnit stack channel) 1

/-- STACK_HOT (R330, R331): the hottest die reads `temp`: refresh doubles from 85 °C, background traffic stops from
95 °C, and from 105 °C the stack is lost. -/
def execStackHot (t stack temp : Nat) (s : State) : Host.Outcome State Fault Refusal :=
  let s := s.at t
  let x := s.stack stack
  let v := s16 temp
  done <| s.when (s.getU E.STACK_STATE stack == 2) fun s =>
    let s := s.setU E.STACK_TEMP stack temp
    let hot := decide (95 * 64 ≤ v)
    let s := s.putStack stack { x with fastRefresh := decide (85 * 64 ≤ v), background := !hot }
    let s := if hot && x.background then s.latchOpen E.STACK_LATCHES 5
      else if !hot && !x.background then s.latchEnd E.STACK_LATCHES 0 5 0 else s
    if 105 * 64 ≤ v then s.loseStack stack else s

/-- Whether a guest's state area cannot be read whole in this tick (R324, R327): its slot is lost, or it holds a line
that turned poisoned. -/
def State.areaPoisoned (s : State) (slot : Nat) (g : Guest) : Bool :=
  g.lost || (s.stack g.stack).lostSlots.any fun q => q.1 == lineSlot (stateLine slot)

/-- A guest's state area is written whole again: its lines are no longer poisoned (R324). -/
def State.areaWritten (s : State) (slot : Nat) (g : Guest) : State :=
  let x := s.stack g.stack
  s.putStack g.stack { x with poisoned := x.poisoned.filter fun l => !inStateArea slot l }

end Sys2Proof.Machine
end

