-- ==== Sys2Proof/Machine/RowModel.lean ====
section
/-! DEFINITION. The row program's class models and the step of one guest (chapter 12, R387 to R397). A class model's
words come from the firmware image or from a refit (`Config.imageClass`, `Config.refit`); parameter numbers below are
the model's own. -/

namespace Sys2Proof.Machine

/-! ### Class models (R387, R388) -/

/-- Parameter numbers of the items of R387. -/
def pA (i j : Nat) : Nat := 0x10000 + 128 * i + j
def pB (i k : Nat) : Nat := 0x20000 + 16 * i + k
def pK (i : Nat) : Nat := 0x30000 + i
/-- The reduced models: base 0x40000 with 16 nodes and 0x90000 with 8 (R387). -/
def pP (base r i : Nat) : Nat := base + 128 * r + i
def pAr (base r q : Nat) : Nat := base + 0x10000 + 16 * r + q
def pBr (base r k : Nat) : Nat := base + 0x20000 + 16 * r + k
def pC (base i r : Nat) : Nat := base + 0x30000 + 16 * i + r
def pE (base i : Nat) : Nat := base + 0x40000 + i

/-- A word of class `c`'s model in force (R385, R398): that of the live leaf, or of the image during a fallback. -/
def State.classWord (s : State) (c p : Nat) : Nat :=
  let h := s.row.hinges.getD (c / 32) {}
  let ver := if s.getU E.HINGE_LIVE_LEAF (c / 32) = 0 then h.ver0 else h.ver1
  let v := if s.getU E.CLASS_STATE c = 3 then 0 else ver.getD c 0
  (if v = 0 then Config.imageClass s.start.image c p else Config.refit v c p) % 2 ^ 32

/-- Ticks by which the class's hinge table is over its stale limit (R378). -/
def State.classOverAge (s : State) (c : Nat) : Nat :=
  let h := s.row.hinges.getD (c / 32) {}
  if s.getU E.CLASS_STATE c = 3 then 0 else (s.tick - h.liveTick) - h.staleLimit

/-- The exact ⟨0, 0⟩ of a model word (R390). -/
def isZeroBr (w : Nat) : Bool := let b := Br.of16 w; !b.isOpen && b.mid.m == 0 && b.rad.m == 0

/-- A coefficient as the foreground reads it, widened by the age of its table (R378). -/
def State.classBr (s : State) (c p : Nat) : BrM Br :=
  let b := Br.of16 (s.classWord c p)
  let beyond := s.classOverAge c
  if beyond = 0 then pure b
  else do
    let rate := f32Dy ((s.row.hinges.getD (c / 32) {}).ageRate)
    (← b.widen (FV.ofDy (rate.mul (Dy.int beyond)))).to16

/-- Kind and select of input `k` of class `c` (R388). -/
def State.classInput (s : State) (c k : Nat) : Nat × Nat :=
  (Config.imageClass s.start.image c (16 + 2 * k) % 7 + 1, Config.imageClass s.start.image c (17 + 2 * k) % 16)

/-! ### Own power and the branch inputs (R388, R392) -/

/-- The value of R209 at which a disobedient guest's power stands, in 1/8 W. -/
def Guest.fixedPower (g : Guest) : Nat :=
  let a := match g.applied with | some v => v | none => 0
  if g.powerW = 0xFFFF then a else max a g.powerW

/-- Lower and upper edge of a guest's own power, its permitted cap at the next tick being `p`; none when open. -/
def State.ownEdges (s : State) (g : Guest) (p : Nat) : Option (Dy × Dy) :=
  if g.disobedient then some (⟨g.fixedPower, -3⟩, ⟨g.fixedPower, -3⟩)
  else if g.hasPower.isSome && decide (s.tick ≤ g.lastPower + s.eff E.STALE_TICKS) then
    if g.powerW = 0xFFFF then none
    else
      let hi := Nat.max g.powerW p
      some (Dy.min ⟨(g.powerW : Int) - 1, -3⟩ ⟨hi, -3⟩, ⟨hi, -3⟩)
  else some (Dy.zero, ⟨p, -3⟩)

/-- HULL of two exact values, or open. -/
def hullOf (e : Option (Dy × Dy)) : BrM Br :=
  match e with
  | some (lo, hi) => (Br.exact lo).hull (Br.exact hi)
  | none => pure Br.opened

/-- Sum of edges. -/
def sumEdges (l : List (Option (Dy × Dy))) : Option (Dy × Dy) :=
  l.foldl (fun a e => match a, e with
    | some (x, y), some (u, v) => some (x.add u, y.add v)
    | _, _ => none) (some (Dy.zero, Dy.zero))

/-- Watts to kW, rounded outward. -/
def toKw (e : Option (Dy × Dy)) : Option (Dy × Dy) :=
  e.map fun p => (Fmt.f32.div .down p.1 (Dy.int 1000), Fmt.f32.div .up p.2 (Dy.int 1000))

/-- Power of the present guests of a branch, of one kind or of all, in kW (R388). -/
def State.branchPower (s : State) (b : Nat) (kind : Option Nat) : BrM Br :=
  let gs := s.presents.filter fun p => p.2.pp.branch == b && (match kind with | some k => p.2.pp.kind == k | none => true)
  hullOf (toKw (sumEdges (gs.map fun p => s.ownEdges p.2 (s.permitted p.2 1))))

/-- A plant quantity of R553. -/
def State.quantity (s : State) (n : Nat) : Br := Br.of32 (s.plant.quant.getD n Br.opened.code32)

/-- The coolant offset d1 is added when it is not exactly ⟨0, 0⟩ (notes/assumptions/44.md). -/
def withOffset (g : Guest) (b : Br) : BrM Br :=
  if isZeroBr (nth g.d 1 0) then pure b else b.add (Br.of16 (nth g.d 1 0))

/-- Input `k` of a guest (R388): kinds 2 to 5 read open on a branch outside the plant map (R557). -/
def State.guestInput (s : State) (slot : Nat) (g : Guest) (k : Nat) : BrM Br :=
  let (kind, sel) := s.classInput g.pp.cls k
  let b := g.pp.branch
  let isOn := s.effU E.BR_ENABLE b == 1
  match kind with
  | 1 => hullOf (s.ownEdges g (s.permitted g 1))
  | 2 => if isOn then withOffset g (s.quantity (4 * b)) else pure Br.opened
  | 3 => if isOn then withOffset g (s.quantity (4 * b + 1)) else pure Br.opened
  | 4 => if isOn then s.branchPower b none else pure Br.opened
  | 5 => if isOn then s.branchPower b (some g.pp.kind) else pure Br.opened
  | 6 => do
    let l ← s.forecast sel
    let cls := s.presents.filter fun p => p.2.pp.cls == g.pp.cls
    if l.length = 1 then return nth l 0 Br.opened
    else if l.length = cls.length then return nth l (cls.findIdx fun p => p.1 == slot) Br.opened
    else return Br.opened
  | _ => pure (Br.exact (Dy.int 1))

/-! ### The advance (R390) -/

/-- A sum of products in an order the module chooses (R270, R276), each product a coefficient and an operand. -/
def macSum (free : Nat) (terms : List (Br × Br)) : BrM Br :=
  (sumOrder free terms.length).foldlM (fun acc k =>
    let t := nth terms k (Br.opened, Br.opened)
    acc.mac t.1 t.2) (Br.exact Dy.zero)

/-- One row of the advance: x ← A x + B′ u + d2, terms with a coefficient of ⟨0, 0⟩ left out. -/
def State.advanceRow (s : State) (g : Guest) (x u : List Br) (i : Nat) : BrM Br := do
  let c := g.pp.cls
  let as := (List.range x.length).filter fun j => !isZeroBr (s.classWord c (pA i j))
  let ta ← as.mapM fun j => do return (← s.classBr c (pA i j), nth x j Br.opened)
  let bs := (List.range u.length).filter fun k => !isZeroBr (s.classWord c (pB i k))
  let tb ← bs.mapM fun k => do
    let b ← s.classBr c (pB i k)
    let own := (s.classInput c k).1 == 1 && !isZeroBr (nth g.d 0 0)
    let b ← if own then do (← b.mul (← (Br.exact (Dy.int 1)).add (Br.of16 (nth g.d 0 0)))).to16 else pure b
    return (b, nth u k Br.opened)
  let y ← macSum s.freeCtr (ta ++ tb)
  if isZeroBr (nth g.d 2 0) then return y else y.add (Br.of16 (nth g.d 2 0))

/-- The widening of one advance, in °C: `CLASS_WIDEN`, and 0.25 °C under a region fence (R397). -/
def State.stepWiden (s : State) (g : Guest) : Dy :=
  (Dy.mk (s.getU E.CLASS_WIDEN g.pp.cls) (-6)).add (if g.halved then ⟨1, -2⟩ else Dy.zero)

/-- One model step: the node brackets after step 2, and the state after steps 3 and 5 (R389: bracket-FP16). -/
def State.advance (s : State) (g : Guest) (u : List Br) (x : List Br) : BrM (List Br × List Br) := do
  let y ← (List.range x.length).mapM (s.advanceRow g x u)
  let z ← y.mapM fun b => do (← b.widen (FV.ofDy (s.stepWiden g))).to16
  return (y, z)

/-- `k` model steps without step 1. -/
def State.advances (s : State) (g : Guest) (u : List Br) : Nat → List Br → BrM (List Br)
  | 0, x => pure x
  | k + 1, x => do s.advances g u k (← s.advance g u x).2

/-! ### Measurement and restart (R390, R396) -/

/-- The compared value of a node: the highest of those of its sensors. -/
def Guest.nodeValue (g : Guest) (values : List (Nat × Nat)) (node : Nat) : Option Nat :=
  let l := values.filter fun v => match g.pp.sensors[v.1]? with | some d => d.node == node | none => false
  (maxBy (fun v : Nat × Nat => (s16 v.2 + 32768).toNat) l).map Prod.snd

/-- Step 1 of R390. -/
def State.measure (s : State) (g : Guest) (values : List (Nat × Nat)) (x : List Br) : BrM (List Br) :=
  (List.range x.length).mapM fun i => do
    let xi := nth x i Br.opened
    match g.nodeValue values i with
    | none => return xi
    | some v =>
      match ← Br.ofTemp v with
      | none => return xi
      | some y =>
        let k ← s.classBr g.pp.cls (pK i)
        (← xi.add (← k.mul (← y.sub xi))).to16

/-- The state of a restart. -/
def State.restartState (s : State) (g : Guest) (values : List (Nat × Nat)) : BrM (List Br) := do
  let limit := g.pp.sensors.foldl (fun m d => max m (s16 d.limit)) (-32768)
  let supply := if s.effU E.BR_ENABLE g.pp.branch = 1 then s.quantity (4 * g.pp.branch) else Br.opened
  let base ← if supply.isOpen then pure Br.opened else (Br.exact supply.lo).hull (Br.exact ⟨limit, -6⟩)
  (List.range (s.getU E.CLASS_NODES g.pp.cls)).mapM fun i => do
    let b ← match g.nodeValue values i with
      | some v => do return (← Br.ofTemp v).getD base
      | none => pure base
    b.to16

/-! ### The step of one guest (R390 to R397) -/

/-- What a step gives: whether it restarted, the catch-up steps it made, the new state, and the node brackets and state
of each bound it writes. -/
structure StepOut where
  restarted : Bool
  caught : Nat
  x : List Br
  bounds : List (List Br × List Br)
  deriving DecidableEq, Repr

/-- The computation of one guest's step in the tick in progress; `values` are its compared values, none without a
measurement. -/
def State.computeStep (s : State) (slot : Nat) (g : Guest) (values : List (Nat × Nat)) : BrM StepOut := do
  let u ← (List.range (s.getU E.CLASS_INPUTS g.pp.cls)).mapM fun k => do
    let b ← s.guestInput slot g k
    if (s.classInput g.pp.cls k).1 = 7 then return b else b.to16
  let every := if g.halved then 2 else 1
  let gap := match g.stepTick with | some p => (s.tick - p) - every | none => 0
  let restart := g.restartDue || g.x.isEmpty || decide (s.eff E.CATCHUP_MAX < gap)
  let x ← if restart then s.restartState g values
    else do s.measure g values (← s.advances g u gap (g.x.map Br.of16))
  let a ← s.advance g u x
  if g.halved then
    let b ← s.advance g u a.2
    return { restarted := restart, caught := if restart then 0 else gap, x := b.2, bounds := [a, b] }
  else return { restarted := restart, caught := if restart then 0 else gap, x := a.2, bounds := [a] }

/-- The predicted upper edges of the sensors in 1/64 °C, rounded up; an open node gives none (R217, R219). -/
def Guest.upperEdges (g : Guest) (x : List Br) : List (Option Int) :=
  g.pp.sensors.map fun d =>
    let b := nth x d.node Br.opened
    if b.isOpen then none else some ((b.hi.mul (Dy.int 64)).ceil)

/-- The step of a guest with a class model and sensors. Bounds are written once model ceilings have taken over and the
guest has settled (R396, R642). -/
def State.stepModel (s : State) (slot : Nat) (g : Guest) (values : List (Nat × Nat)) : State :=
  let (o, k) := (s.computeStep slot g values).run {}
  let s := s.countBr k
  let s := s.when (0 < o.caught) fun s => (s.inc E.GUESTS_CATCHUP).latch E.RP_LATCHES 0 (guestKey slot)
  let s := s.when o.restarted fun s => (s.inc E.GUEST_RESTARTS).latch E.RP_LATCHES 1 (guestKey slot)
  let settle := if o.restarted then s.eff E.SETTLE_TICKS else g.settle
  let settling := o.restarted || g.settling
  let bound := !settling && s.get E.MODEL_CEILINGS == 1
  let words := o.x.map Br.code16
  let g' := { g with
    x := words, xBefore := g.x, settleBefore := g.settle, stepBefore := g.stepTick, stepTick := some s.tick
    settle := settle - 1, settling := settling, restartDue := false, lost := false
    staticOnly := g.staticOnly && !bound
    preds := if bound then
        (o.bounds.zipIdx).foldl (fun m p => m.set (s.tick + 1 + p.2) (p.1.1.map Br.code32)) g.preds
      else g.preds }
  let s := s.putGuest slot g'
  let s := match s.row.alloc with
    | some a => if a.t0 = s.tick then
        { s with row := { s.row with alloc := some { a with states := a.states.set slot words } } } else s
    | none => s
  if !bound then s
  else
    match o.bounds with
    | [a] => { s with guard := { s.guard with standby := s.guard.standby.set slot (g.upperEdges a.2) } }
    | a :: b :: _ =>
      { s with guard := { s.guard with
          standby := s.guard.standby.set slot (g.upperEdges a.2), second := s.guard.second.set slot (g.upperEdges b.2) } }
    | [] => s

/-- The row program's step of one present guest (R325, R390, R394, R395): a power-only guest carries its power alone; a
guest whose array or region has failed gets no result; a state area read poisoned is lost. -/
def State.stepGuest (s : State) (slot : Nat) (g : Guest) (meas : Bool) : State :=
  let failed := (match s.guestArray slot g with | some a => s.fabric.noResult.contains a | none => true)
    || (s.get E.REGIONS_FENCED).testBit g.stack
  if failed || g.stepTick == some s.tick then s
  else if s.getU E.CLASS_STATE g.pp.cls = 0 || g.pp.sensors.isEmpty then
    s.putGuest slot { g with stepTick := some s.tick, stepBefore := g.stepTick }
  else if g.halved && g.stepTick == some (s.tick - 1) then s
  else
    let values := if meas then (match g.standing.get s.tick with | some x => x.values | none => []) else []
    if s.areaPoisoned slot g then
      let lines := if g.lost then 1 else 512
      let s := (s.addU E.POISON_READS g.stack lines).latch E.STACK_LATCHES 1 (guestKey slot)
      let g := { g with restartDue := true, staticOnly := true, x := [], preds := [], settling := true }
      if (s.stack g.stack).lostSlots.any fun q => q.1 == lineSlot (stateLine slot) then
        s.putGuest slot { g with lost := true }
      else (s.areaWritten slot g).stepModel slot g values
    else s.stepModel slot g values

end Sys2Proof.Machine
end

