-- ==== Sys2Proof/Machine/RowProgram.lean ====
section
/-! DEFINITION. The row program's tick (R390, R393, R396), class fallback and widening (R398, R399), the leak localiser
(R415) and the period detectors (R414). -/

namespace Sys2Proof.Machine

/-- Entry `i` subindices further on, where a chapter numbers units by subindex (R419). -/
def Ent.up (e : Ent) (i : Nat) : Ent := { e with key := e.key + i }

def branchKey (b : Nat) : Nat := condKey 10 b

/-! ### The step (R390, R393) -/

/-- The guests the step of this tick serves (R390). -/
def State.stepGuests (s : State) : List (Nat × Guest) := s.presents.filter fun p => decide (p.2.joinTick ≤ s.tick)

/-- Step the guests for which `f` answers, with a measurement where their state is complete. -/
def State.stepAll (s : State) (f : Guest → Option Bool) : State :=
  s.stepGuests.foldl (fun s p => match f p.2 with | some m => s.stepGuest p.1 p.2 m | none => s) s

/-- LEAK_LOCALISE (R415): each branch's mass imbalance, and the ticks for which its lower edge exceeds the limit. A
branch stays a suspect while it does. -/
def State.leakTick (s : State) : State :=
  (List.range 40).foldl (fun s b =>
    let (d, k) := ((s.quantity (4 * b + 2)).sub (s.quantity (4 * b + 3))).run {}
    let (d16, k2) := d.to16.run {}
    let s := (s.countBr k).countBr k2
    let s := s.set (E.BRANCH_IMBALANCE.up b) d16.code16
    let above := !d.isOpen && (Dy.mk (s.eff E.LEAK_IMBALANCE) (-6)).lt d.lo
    let run := if above then s.row.leakRun.getD b 0 + 1 else 0
    let s : State := { s with row := { s.row with leakRun := s.row.leakRun.put b run 0 } }
    if above then s else s.set E.LEAK_SUSPECTS (clrBit (s.get E.LEAK_SUSPECTS) b)) s

/-- Whether the instant has reached `n` hundredths of the tick in progress (R57). -/
def State.pastSlot (s : State) (n : Nat) : Bool := decide (n * s.wheel.tickLen ≤ 100 * (s.now - s.wheel.tickStart))

/-- ROW_PROGRAM_STEP (R190, R390): at 0.6 tick, the telemetry deadline, the guests whose state is complete are stepped, and
the localiser runs; the records still queued in the lanes are counted. -/
def execRowProgramStep (t : Nat) (s : State) : Host.Outcome State Fault Refusal :=
  let s := s.at t
  done <| s.when (s.fwRuns && s.pastSlot 60 && s.row.stepDone != some s.tick) fun s =>
    let queued := sumOf (fun l : Lane => l.queue.length) s.desk.lanes
    let s : State := { s with
      row := { s.row with stepDone := some s.tick }, desk := { s.desk with backlog := max s.desk.backlog queued } }
    (s.stepAll fun g => if s.complete g s.tick then some true else none).leakTick

/-- MEASUREMENT_CUTOFF (R393): at 0.85 tick the guests not yet stepped are, those still incomplete without step 1. -/
def execMeasurementCutoff (t : Nat) (s : State) : Host.Outcome State Fault Refusal :=
  let s := s.at t
  done <| s.when (s.fwRuns && s.pastSlot 85 && s.row.stepDone == some s.tick && s.row.cutoffDone != some s.tick) fun s =>
    let s : State := { s with row := { s.row with cutoffDone := some s.tick } }
    let late := s.stepGuests.filter fun p => p.2.stepTick != some s.tick && !s.complete p.2 s.tick
    (s.add E.STEPS_NO_MEAS late.length).stepAll fun g => some (s.complete g s.tick)

/-- SETTLE_END (R396): after `SETTLE_TICKS` steps the guest has settled; its bounds are written from the next step. -/
def execSettleEnd (t slot : Nat) (s : State) : Host.Outcome State Fault Refusal :=
  let s := s.at t
  done <| s.withGuest slot fun s g => s.when (g.settling && g.settle == 0 && !g.restartDue) fun s =>
    s.putGuest slot { g with settling := false }

/-! ### Classes (R398, R399) -/

/-- CLASS_FALLBACK (R398): both home copies of a model line are poisoned, so the class runs on the image's model. -/
def execClassFallback (t cls : Nat) (s : State) : Host.Outcome State Fault Refusal :=
  let s := s.at t
  done <| s.when (s.getU E.CLASS_STATE cls == 1 || s.getU E.CLASS_STATE cls == 2) fun s =>
    (s.setU E.CLASS_STATE cls 3).latch E.RP_LATCHES 5 (classKey cls)

/-- R399 at a turn boundary: the turn's misses and compared values of each class, and CLASS_WIDEN_RAISE. -/
def State.classTurn (s : State) : State :=
  let s := (List.range 256).foldl (fun s c =>
    if s.getU E.CLASS_STATE c = 0 then s
    else
      let misses := s.guard.misses.getD c 0
      let compared := s.guard.compared.getD c 0
      let s := (s.setU E.CLASS_MISSES_TURN c (satBytes 4 misses)).setU E.CLASS_COMPARED_TURN c compared
      let clear := if misses = 0 then s.row.clearTurns.getD c 0 + 1 else 0
      let s : State := { s with row := { s.row with clearTurns := s.row.clearTurns.put c clear 0 } }
      if s.eff E.MISS_RATIO_HI * compared < misses * 1000000 then
        let s := s.setU E.CLASS_WIDEN c
          (max (s.getU E.CLASS_WIDEN c) (min (s.eff E.MISS_WIDEN_MAX) (s.getU E.CLASS_WIDEN c + s.eff E.MISS_WIDEN_STEP)))
        let s : State := { s with row := { s.row with
          hinges := s.row.hinges.adjust (c / 32) fun h => { h with requested := true } } }
        s.latch E.RP_LATCHES 4 (classKey c)
      else s) s
  { s with guard := { s.guard with misses := [], compared := [] } }

/-- CLASS_WIDEN_LOWER (R399): `MISS_CLEAR_TURNS` turns without a miss lower the widening by a step. -/
def execClassWidenLower (t cls : Nat) (s : State) : Host.Outcome State Fault Refusal :=
  let s := s.at t
  done <| s.when (decide (s.eff E.MISS_CLEAR_TURNS ≤ s.row.clearTurns.getD cls 0)) fun s =>
    let s : State := { s with row := { s.row with clearTurns := s.row.clearTurns.erase cls } }
    s.setU E.CLASS_WIDEN cls (s.getU E.CLASS_WIDEN cls - s.eff E.MISS_WIDEN_STEP)

/-! ### Leak suspects (R415) -/

/-- LEAK_SUSPECT (R415): the branch becomes a suspect; `transient` is the arrival tick of its pressure transient. Among
the suspects of its manifold within the window, the one with the earliest transient is published. -/
def execLeakSuspect (t branch transient : Nat) (s : State) : Host.Outcome State Fault Refusal :=
  let s := s.at t
  let due := decide (s.eff E.LEAK_PERSIST ≤ s.row.leakRun.getD branch 0)
  done <| s.when (decide (branch < 40) && due && !(s.get E.LEAK_SUSPECTS).testBit branch) fun s =>
    let s := (s.set E.LEAK_SUSPECTS (setBit (s.get E.LEAK_SUSPECTS) branch)).latch E.RP_LATCHES 6 (branchKey branch)
    let row := { s.row with
      transient := s.row.transient.set branch transient, leakTick := s.row.leakTick.set branch s.tick }
    let set := s.getU E.BR_PUMP_SET branch
    let peers := (List.range 40).filter fun b =>
      (s.get E.LEAK_SUSPECTS).testBit b && (b == branch || (set != 0xFF && s.getU E.BR_PUMP_SET b == set))
        && (match row.leakTick.get b with | some x => decide (s.tick ≤ x + s.eff E.LEAK_PERSIST) | none => false)
    let first := (minBy (fun b => row.transient.getD b 0) peers).getD branch
    let s : State := { s with row := { row with published := row.published ++ [first] } }
    s.set E.LEAK_FIRST_BRANCH first

/-! ### Period detectors (R414) -/

/-- Sum of the reported powers of present guests, in 1/8 W. -/
def State.powerSum (s : State) (f : Guest → Bool) : Nat :=
  sumOf (fun p : Nat × Guest => if p.2.hasPower.isSome && p.2.powerW != 0xFFFF then p.2.powerW else 0)
    (s.presents.filter fun p => f p.2)

/-- Each detector takes the tick's value of its signal. -/
def State.detectorTick (s : State) : State :=
  let dets := s.row.dets.mapIdx fun n d =>
    let sel := s.effU E.PD_SELECT n
    let v := match s.effU E.PD_SOURCE n with
      | 1 => some (s.powerSum fun g => g.pp.cls == sel)
      | 2 => some (s.powerSum fun g => g.pp.branch == sel)
      | 3 => some (s.powerSum fun _ => true)
      | _ => none
    match v with
    | some x => { d with signal := (x :: d.signal).take (4 * s.effU E.PD_MAX n) }
    | none => d
  { s with row := { s.row with dets := dets } }

/-- The autocorrelation sum of a centred signal at a lag. -/
def autoSum (x : List Int) (lag : Nat) : Int := sumInt (fun p : Int × Int => p.1 * p.2) (x.zip (x.drop lag))

/-- The peak of the normalised autocorrelation over the lags: lag, its sum, and the sum at lag 0. The samples are
scaled by their number so that the mean leaves no fraction. -/
def peakOf (signal : List Nat) (lo hi : Nat) : Nat × Int × Int × List Int :=
  let n := signal.length
  let total := sumOf id signal
  let x := signal.map fun (v : Nat) => ((n * v : Nat) : Int) - total
  let lags := (List.range (hi + 1 - lo)).map (lo + ·)
  let best := maxBy (fun k => (autoSum x k + autoSum x 0).toNat) lags
  let k := best.getD lo
  (k, autoSum x k, autoSum x 0, x)

/-- The lag of the peak in 1/256 tick, by parabolic interpolation, to nearest. -/
def refineLag (x : List Int) (k : Nat) : Nat :=
  let a := autoSum x (k - 1)
  let b := autoSum x k
  let c := autoSum x (k + 1)
  let den := 2 * (a - 2 * b + c)
  if den = 0 then 256 * k else (256 * (k : Int) + Int.fdiv (2 * 256 * (a - c) + den) (2 * den)).toNat

/-- PERIOD_DETECT (R414) of one detector at a turn boundary; until its signal spans 4 × `PD_MAX` ticks its strength
is 0. -/
def State.detect (s : State) (n : Nat) : State :=
  let d := nth s.row.dets n {}
  if s.effU E.PD_SOURCE n = 0 then s
  else
    let full := d.signal.length == 4 * s.effU E.PD_MAX n
    let (k, r, r0, x) := peakOf d.signal (s.effU E.PD_MIN n) (s.effU E.PD_MAX n)
    let live := full && decide (0 < r0) && decide (0 < r)
    let milli := if live then (r * 1000 / r0).toNat else 0
    let strong := live && decide (600 * r0 ≤ 1000 * r)
    let weak := !(live && decide (400 * r0 ≤ 1000 * r))
    let d := { d with
      strong := if strong then d.strong + 1 else 0, weak := if weak then d.weak + 1 else 0
      estimate := if live then refineLag x k else d.estimate }
    let s : State := { s with row := { s.row with dets := modAt s.row.dets n fun _ => d } }
    let s := s.setU E.PD_STRENGTH n (min 1000 milli)
    if d.publishing then s.setU E.PD_PERIOD n d.estimate else s

/-- A written detector starts again (R418). -/
def State.restartDetector (s : State) (n : Nat) : State :=
  let s : State := { s with row := { s.row with dets := modAt s.row.dets n fun _ => {} } }
  (s.setU E.PD_PERIOD n 0).setU E.PD_STRENGTH n 0

/-- PERIOD_PUBLISH (R414). -/
def execPeriodPublish (t n : Nat) (s : State) : Host.Outcome State Fault Refusal :=
  let s := s.at t
  let d := nth s.row.dets n {}
  done <| s.when (decide (8 ≤ d.strong) && !d.publishing) fun s =>
    let s : State := { s with row := { s.row with dets := modAt s.row.dets n fun d => { d with publishing := true } } }
    s.setU E.PD_PERIOD n d.estimate

/-- PERIOD_WITHDRAW (R414). -/
def execPeriodWithdraw (t n : Nat) (s : State) : Host.Outcome State Fault Refusal :=
  let s := s.at t
  let d := nth s.row.dets n {}
  done <| s.when (decide (8 ≤ d.weak) && d.publishing) fun s =>
    let s : State := { s with row := { s.row with dets := modAt s.row.dets n fun d => { d with publishing := false } } }
    s.setU E.PD_PERIOD n 0

end Sys2Proof.Machine
end

