-- ==== Sys2Proof/Machine/Allocator.lean ====
section
/-! DEFINITION. The allocator (R401 to R408, R22, R556, R566): the horizon projection, the three constraints, the
iterations, the feasibility pass, and the egress of the caps. Caps within a computation are exact rationals in W. -/

namespace Sys2Proof.Machine

/-- The exact value of a dyadic. -/
def Dy.rat (x : Dy) : Rat := (x.m : Rat) * (2 : Rat) ^ x.e

/-- A code in 1/8 W as watts. -/
def capW (c : Nat) : Rat := (c : Rat) / 8

/-! ### The projection (R401) -/

/-- Horizon and size of the reduced model of the stance (R32, R387). -/
def State.horizon (s : State) : Nat := match s.get E.STANCE_ACTIVE with | 0 => 32 | 2 => 256 | _ => 64
def State.reducedSize (s : State) : Nat := if s.get E.STANCE_ACTIVE = 2 then 8 else 16
def State.reducedBase (s : State) : Nat := if s.get E.STANCE_ACTIVE = 2 then 0x90000 else 0x40000

/-- Whether a class runs on its full model over the horizon. -/
def State.wholeModel (s : State) (c : Nat) : Bool := decide (s.getU E.CLASS_NODES c ≤ s.reducedSize)

/-- Sum of model coefficients times operands, zero coefficients left out. -/
def State.coefSum (s : State) (c : Nat) (param : Nat → Nat) (xs : List Br) : BrM Br := do
  let js := (List.range xs.length).filter fun j => !isZeroBr (s.classWord c (param j))
  macSum s.freeCtr (← js.mapM fun j => do return (← s.classBr c (param j), nth xs j Br.opened))

/-- z = P x. -/
def State.reduce (s : State) (c : Nat) (x : List Br) : BrM (List Br) :=
  if s.wholeModel c then pure x
  else (List.range s.reducedSize).mapM fun r => do (← s.coefSum c (pP s.reducedBase r) x).to16

/-- What an allocation takes as fixed over its horizon for one guest: the tick it is made in, the guest's power in
1/8 W by tick up to e + 1, the branch and kind powers in kW by tick up to e + 1 and afterwards at the candidate caps. -/
structure Outlook where
  made : Nat
  powers : AMap Nat
  branch : Nat → Br
  kind : Nat → Br

/-- Input `k` for the advance into tick `τ`. -/
def State.horizonInput (s : State) (slot : Nat) (g : Guest) (o : Outlook) (cap : Nat) (k τ : Nat) : BrM Br := do
  let (kind, _) := s.classInput g.pp.cls k
  let b := g.pp.branch
  let isOn := s.effU E.BR_ENABLE b == 1
  let ahead := (τ - 1) - o.made
  let slewed (q : Br) : BrM Br :=
    if ahead = 0 then pure q else q.widen (FV.ofDy ((Dy.mk (s.eff E.SUPPLY_SLEW) (-16)).mul (Dy.int ahead)))
  match kind with
  | 1 =>
    let p := if g.disobedient then g.fixedPower else o.powers.getD τ cap
    (Br.ofCap p).to16
  | 2 => if isOn then do (← withOffset g (← slewed (s.quantity (4 * b)))).to16 else pure Br.opened
  | 3 => if isOn then do (← withOffset g (← slewed (s.quantity (4 * b + 1)))).to16 else pure Br.opened
  | 4 => if isOn then (o.branch τ).to16 else pure Br.opened
  | 5 => if isOn then (o.kind τ).to16 else pure Br.opened
  | 7 => pure (Br.exact (Dy.int 1))
  | _ => do (← s.guestInput slot g k).to16

/-- One advance of the reduced state into tick `τ`. -/
def State.reducedStep (s : State) (slot : Nat) (g : Guest) (o : Outlook) (cap τ : Nat) (z : List Br) : BrM (List Br) := do
  let c := g.pp.cls
  let whole := s.wholeModel c
  let u ← (List.range (s.getU E.CLASS_INPUTS c)).mapM fun k => s.horizonInput slot g o cap k τ
  (List.range z.length).mapM fun r => do
    if whole then (← s.advanceRow g z u r).to16
    else
      let a ← s.coefSum c (pAr s.reducedBase r) z
      let bs := (List.range u.length).filter fun k => !isZeroBr (s.classWord c (pBr s.reducedBase r k))
      let tb ← bs.mapM fun k => do
        let w ← s.classBr c (pBr s.reducedBase r k)
        let own := (s.classInput c k).1 == 1 && !isZeroBr (nth g.d 0 0)
        let w ← if own then do (← w.mul (← (Br.exact (Dy.int 1)).add (Br.of16 (nth g.d 0 0)))).to16 else pure w
        return (w, nth u k Br.opened)
      let y ← a.add (← macSum s.freeCtr tb)
      let y ← if isZeroBr (nth g.d 2 0) then pure y
        else do
          let one := (List.range (s.getU E.CLASS_NODES c)).map fun _ => Br.of16 (nth g.d 2 0)
          y.add (← s.coefSum c (pP s.reducedBase r) one)
      y.to16

/-- Whether constraint 1 of R402 holds at a reduced state, for every sensor. -/
def State.within (s : State) (g : Guest) (z : List Br) : BrM Bool :=
  g.pp.sensors.foldlM (fun ok d => do
    if !ok then return false
    let c := g.pp.cls
    let node ← if s.wholeModel c then pure (nth z d.node Br.opened)
      else do
        let e := Br.of16 (s.classWord c (pE s.reducedBase d.node))
        let y ← s.coefSum c (pC s.reducedBase d.node) z
        if e.isOpen then pure Br.opened else y.widen (FV.ofDy (Fmt.f32.round .up e.hi))
    let node ← node.widen (FV.ofDy ⟨s.getU E.CLASS_WIDEN c, -6⟩)
    return !node.isOpen && node.hi.le ⟨s16 d.limit, -6⟩) true

/-- Constraint 1 over the horizon: `n` ticks from `τ` on, those past `first` checked. -/
def State.holdsFrom (s : State) (slot : Nat) (g : Guest) (o : Outlook) (cap first : Nat) :
    Nat → Nat → List Br → BrM Bool
  | 0, _, _ => pure true
  | n + 1, τ, z => do
    let z ← s.reducedStep slot g o cap τ z
    if τ < first then s.holdsFrom slot g o cap first n (τ + 1) z
    else if ← s.within g z then s.holdsFrom slot g o cap first n (τ + 1) z
    else return false

/-- Constraint 1 of R402 for one guest at cap code `cap`, from its state after the step of tick `t0`. -/
def State.capHolds (s : State) (slot : Nat) (g : Guest) (a : Alloc) (o : Outlook) (cap : Nat) : Bool :=
  let e := a.t0 + a.period
  let x := (a.states.getD slot []).map Br.of16
  ((do
    let z ← s.reduce g.pp.cls x
    s.holdsFrom slot g o cap (e + 1) (e + s.horizon - (a.t0 + 1)) (a.t0 + 2) z : BrM Bool).run {}).1

/-- The largest code in [lo, lo + 2^n) for which `f` holds, `f` being monotone. -/
def largest (f : Nat → Bool) : Nat → Nat → Nat
  | 0, lo => lo
  | n + 1, lo => if f (lo + 2 ^ n) then largest f n (lo + 2 ^ n) else largest f n lo

/-! ### Powers (R401, R402) -/

/-- A guest of the allocation as it is solved: its cap in W, P(e) and P(e + 1). -/
structure Share where
  slot : Nat
  g : Guest
  c : Rat
  hasState : Bool
  held : Nat
  next : Nat
  demand : Option Rat

/-- The demand forecast of a guest's class in W: the upper edge, when not open (R402). -/
def State.demandOf (s : State) (slot : Nat) (g : Guest) : Option Rat :=
  let n := s.getU E.CLASS_DEMAND_INPUT g.pp.cls
  if n = 0xFF then none
  else
    let l := ((s.forecast n).run {}).1
    let cls := s.presents.filter fun p => p.2.pp.cls == g.pp.cls
    let b := if l.length = 1 then nth l 0 Br.opened
      else if l.length = cls.length then nth l (cls.findIdx fun p => p.1 == slot) Br.opened
      else Br.opened
    if b.isOpen then none else some b.hi.rat

/-- A guest's power in W under the rule of R402, its own power being `c`. -/
def Share.power (h : Share) (c : Rat) : Rat :=
  if h.g.disobedient then capW h.g.fixedPower
  else if !h.g.present || h.g.lastCap.isNone then capW h.g.pp.orphan
  else match h.demand with | some d => min c (max 0 d) | none => c

/-- The power of a guest in tick `τ` up to e + 1 (R401), in 1/8 W. -/
def State.pastPowers (s : State) (a : Alloc) (g : Guest) : AMap Nat :=
  let m : AMap Nat := (g.pHist.zipIdx.filter fun p => decide (a.t0 + 1 ≤ s.tick - p.2)).foldl
    (fun m p => AMap.set m (s.tick - p.2) p.1) []
  AMap.set (AMap.set m (s.tick + 1) (s.permitted g 1)) (s.tick + 2) (s.permitted g 2)

/-- kW as a bracket, rounded outward. -/
def kwBr (w : Rat) : Br :=
  let q := w / 1000
  (((Br.exact (Fmt.f32.roundRatio .down q.num q.den)).hull (Br.exact (Fmt.f32.roundRatio .up q.num q.den))).run {}).1

/-- The power of the shares that `f` picks: by tick up to e + 1, then at the candidate caps. -/
def powerOf (past : List (Share × AMap Nat)) (e : Nat) (f : Guest → Bool) (τ : Nat) : Br :=
  let mine := past.filter fun p => f p.1.g
  kwBr (mine.foldl (fun w p =>
    w + p.1.power (if τ ≤ e + 1 then capW (p.2.getD τ 0) else p.1.c)) 0)

/-- The largest cap in W that meets constraint 1 for a share (R403), on the 1/8 W grid of R170; none when even 0 W
breaks it. A guest without a state of tick `t0`, or without sensors, has no such bound. -/
def State.ownMax (s : State) (a : Alloc) (past : List (Share × AMap Nat)) (h : Share) : Option Rat :=
  if !h.hasState || h.g.pp.sensors.isEmpty then some (capW h.g.pp.maxCap)
  else
    let e := a.t0 + a.period
    let o : Outlook :=
      { made := s.tick, powers := s.pastPowers a h.g
        branch := powerOf past e fun g => g.pp.branch == h.g.pp.branch
        kind := powerOf past e fun g => g.pp.branch == h.g.pp.branch && g.pp.kind == h.g.pp.kind }
    let f := s.capHolds h.slot h.g a o
    if f 0 then some (capW (largest f 16 0)) else none

/-! ### The solution (R403, R404) -/

/-- Power of a branch and of the row at the shares' caps, in W. -/
def branchW (hs : List Share) (b : Nat) : Rat :=
  (hs.filter fun h => h.g.pp.branch == b).foldl (fun w h => w + h.power h.c) 0
def rowW (hs : List Share) : Rat := hs.foldl (fun w h => w + h.power h.c) 0

/-- ΔT of R554 in °C at heat `q` kW and flow `f` L/min. -/
def State.deltaT (s : State) (q f : Rat) : Rat := 60000000 * q / ((s.eff E.COOLANT_RHO * s.eff E.COOLANT_CP : Nat) * f)

/-- The predicted return of a branch over its limit (R402, R554), none for +∞: the greater of horizon tick e + 1, with
the powers at P(e + 1), and of the last, at the candidate caps (R401). -/
def State.excessReturn (s : State) (e : Nat) (hs : List Share) (b : Nat) : Option Rat :=
  let supply := s.quantity (4 * b)
  let flow := s.quantity (4 * b + 2)
  if supply.isOpen || flow.isOpen || decide (flow.lo.m ≤ 0) then none
  else
    let held := (hs.filter fun h => h.g.pp.branch == b).foldl (fun w h => w + h.power (capW h.next)) 0
    let at_ (q : Rat) (ahead : Nat) : Rat :=
      (s.eff E.SUPPLY_SLEW * ahead : Nat) / 65536 + s.deltaT (q / 1000) flow.lo.rat
    let rise := max (at_ held (e + 1 - s.tick)) (at_ (branchW hs b) (e + s.horizon - s.tick))
    some (supply.hi.rat + rise - (s16 (s.effU E.BR_RETURN_LIMIT b) : Rat) / 64)

/-- The limit minus the supply's upper edge, at least 1/64 °C. -/
def State.returnSpan (s : State) (b : Nat) : Rat :=
  let supply := s.quantity (4 * b)
  if supply.isOpen then 1 / 64
  else max (1 / 64) ((s16 (s.effU E.BR_RETURN_LIMIT b) : Rat) / 64 - supply.hi.rat)

/-- The branches constraint 2 applies to (R557). -/
def State.branchesOn (s : State) : List Nat := (List.range 40).filter fun b => s.effU E.BR_ENABLE b == 1

/-- The bounds of a share besides constraint 1: floor and ceiling in W (R403, R405, R557, R567). -/
def State.shareBounds (s : State) (h : Share) : Rat × Rat :=
  let g := h.g
  let lo := capW g.pp.floor
  let br := s.plant.branches.getD g.pp.branch {}
  let hi := min (capW g.pp.maxCap) (if g.operMaxNow = 0xFFFF then capW g.pp.maxCap else capW g.operMaxNow)
  let hi := if g.settling || g.restartDue || (s.desk.lifted.get g.pp.cls).isNone then min hi (capW h.held) else hi
  let hi := if 2 ≤ br.stop && !br.lifted.contains g.pp.cls then min hi (capW br.bound) else hi
  if g.weightNow = 0 || s.effU E.BR_ENABLE g.pp.branch ≠ 1 then (lo, lo) else (lo, max lo hi)

/-- One iteration of R403 over the shares and the multipliers. -/
def State.iterate (s : State) (a : Alloc) (hs : List Share) (lamB : AMap Rat) (lamR : Rat) :
    List Share × AMap Rat × Rat :=
  let e := a.t0 + a.period
  let past := hs.map fun h => (h, s.pastPowers a h.g)
  let hs' := hs.map fun h =>
    if !h.hasState || !h.g.present then h
    else
      let (lo, hi) := s.shareBounds h
      let own := (s.ownMax a past h).getD 0
      let step : Rat := (s.eff E.ALLOC_STEP : Rat) / 8
      let c := h.c + step * ((h.g.weightNow : Rat) / 1024 - lamB.getD h.g.pp.branch 0 - lamR)
      { h with c := max lo (min (min own hi) c) }
  let lamB := s.branchesOn.foldl (fun m b =>
    let d := match s.excessReturn e hs' b with | some x => x / s.returnSpan b | none => 1
    m.put b (max 0 (m.getD b 0 + d)) 0) lamB
  let budget : Rat := s.get E.ROW_BUDGET
  let row := rowW hs' / 1000
  let d := if budget = 0 then (if 0 < row then 1 else 0) else (row - budget) / budget
  (hs', lamB, max 0 (lamR + d))

/-- `n` iterations. -/
def State.iterations (s : State) (a : Alloc) : Nat → List Share → AMap Rat → Rat → List Share × AMap Rat × Rat
  | 0, hs, b, r => (hs, b, r)
  | n + 1, hs, b, r =>
    let (hs, b, r) := s.iterate a hs b r
    s.iterations a n hs b r

/-- Caps moved toward their floors: floor + f × (c − floor) for the shares `pick` takes (R404). -/
def scaled (pick : Share → Bool) (f : Rat) (hs : List Share) : List Share :=
  hs.map fun h =>
    if pick h && h.g.present then { h with c := capW h.g.pp.floor + f * (h.c - capW h.g.pp.floor) } else h

/-- The largest f in [0, 1] that meets the constraint, by 8 halvings (R404). -/
def halvings (ok : Rat → Bool) : Nat → Rat → Rat → Rat
  | 0, lo, _ => lo
  | n + 1, lo, hi => let m := (lo + hi) / 2; if ok m then halvings ok n m hi else halvings ok n lo m

/-- The feasibility pass of R404: the shares, whether constraint 3 was broken, and the guests whose floor breaks
constraint 1. -/
def State.feasible (s : State) (a : Alloc) (hs : List Share) : List Share × Bool × List Nat :=
  let e := a.t0 + a.period
  let past := hs.map fun h => (h, s.pastPowers a h.g)
  let tagged := hs.map fun h =>
    if !h.hasState || !h.g.present then (h, false)
    else
      let own := s.ownMax a past h
      let floor := capW h.g.pp.floor
      match own with
      | some m => if m < floor then ({ h with c := floor }, true) else ({ h with c := min h.c m }, false)
      | none => ({ h with c := floor }, true)
  let hs := tagged.map Prod.fst
  let hs := s.branchesOn.foldl (fun hs b =>
    let mine (h : Share) : Bool := h.g.pp.branch == b
    let ok (l : List Share) : Bool := match s.excessReturn e l b with | some x => decide (x ≤ 0) | none => false
    if ok hs then hs else scaled mine (halvings (fun f => ok (scaled mine f hs)) 8 0 1) hs) hs
  let budget : Rat := s.get E.ROW_BUDGET
  let fits (l : List Share) : Bool := decide (rowW l / 1000 ≤ budget)
  let broken := !fits hs
  let hs := if broken then scaled (fun _ => true) (halvings (fun f => fits (scaled (fun _ => true) f hs)) 8 0 1) hs
    else hs
  (hs, broken, (tagged.filter fun p => p.2).map fun p => p.1.slot)

/-! ### The commands -/

/-- ALLOCATION_PERIOD_START (R401, R406, R408, R556): the weights take effect and `ROW_BUDGET` is fixed. -/
def execAllocationPeriodStart (t : Nat) (s : State) : Host.Outcome State Fault Refusal :=
  let s := s.at t
  let p := max 1 s.row.period
  let due := decide (s.row.origin ≤ s.tick) && (s.tick - s.row.origin) % p == 0
  let fresh := match s.row.alloc with | some a => a.t0 != s.tick | none => true
  done <| s.when (s.fwRuns && due && fresh) fun s =>
    let s := s.releaseHeld 5
    let gs := s.guests.mapVals fun _ g => { g with weightNow := g.weight, operMaxNow := g.operMax, pHist := [] }
    let cap := s.get E.PLANT_CAPACITY
    let slew := s.eff E.BUDGET_SLEW
    let cap := match s.plant.capSlewed with
      | some v => let base := v - s.plant.capDrop; clampNat (base - slew) (base + slew) cap
      | none => cap
    let engine := s.eff E.ROW_BUDGET_ENGINE
    let out := s.getU E.LOOP_OUTPUT engine
    let bound : Option Nat :=
      if engine = 0xFFFF then none
      else match f32Val out with
        | .fin _ d => if d.m ≤ 0 then some 0 else some d.floor.toNat
        | .inf neg => if neg then some 0 else none
        | .nan => some 0
    let least := min (s.eff E.ROW_BUDGET_MAX) cap
    let stopped := bound == some 0 && (match f32Val out with | .fin _ d => decide (d.m ≤ 0) | _ => true)
    let s : State := { s with
      guests := gs
      plant := { s.plant with capSlewed := some cap, capDrop := 0 }
      row := { s.row with
        alloc := some { t0 := s.tick, period := p, states := [] }, budgetBound := stopped } }
    s.set E.ROW_BUDGET (match bound with | some b => min b least | none => least)

/-- The shares an allocation starts from (R402, R403, R405). -/
def State.shares (s : State) (a : Alloc) : List Share :=
  s.guests.map fun p =>
    let g := p.2
    let held := s.permitted g 1
    let hasState := (a.states.get p.1).isSome || (g.pp.sensors.isEmpty && g.stepTick.isSome)
    { slot := p.1, g := g, hasState := hasState, held := held, next := s.permitted g 2, demand := s.demandOf p.1 g
      c := if !hasState then capW (min (g.perGuest s.tick) held)
        else match g.alloc with | some v => capW v | none => capW held }

/-- BRANCH_HEAT_PUBLISH (R407): the predicted heat of each branch over the first 8 horizon ticks, in kW as FP32. -/
def publishHeat (hs : List Share) : AMap (List Nat) :=
  (List.range 40).foldl (fun m b =>
    let mine := hs.filter fun h => h.g.pp.branch == b
    let now := mine.foldl (fun w h => w + h.power (capW h.next)) 0 / 1000
    let later := branchW hs b / 1000
    let code (w : Rat) : Nat := f32RatioR .up w.num w.den
    AMap.set m b (code now :: List.replicate 7 (code later))) []

/-- ALLOCATION_PERIOD_END (R403 to R405, R407): in the last tick of the period the caps are ready. -/
def execAllocationPeriodEnd (t : Nat) (s : State) : Host.Outcome State Fault Refusal :=
  let s := s.at t
  done <| match s.row.alloc with
    | none => s
    | some a =>
      s.when (s.tick + 1 == a.t0 + a.period) fun s =>
        let (hs, lamB, lamR) := s.iterations a (s.eff E.ALLOC_ITERS) (s.shares a) s.row.lamBranch s.row.lamRow
        let (hs, broken, floors) := s.feasible a hs
        let code (h : Share) : Nat := h.g.pp.bound (h.c * 8).floor.toNat
        let mine := hs.filter fun h => h.g.present
        let ready : AMap Nat := mine.foldl (fun m h => AMap.set m h.slot (code h)) []
        let heat := publishHeat hs
        let s := s.drawn
        let s : State := { s with
          guests := s.guests.mapVals fun slot g => match AMap.get ready slot with
            | some v => { g with alloc := some v }
            | none => g
          row := { s.row with
            alloc := none, lastEnd := some s.tick, ready := ready, readyFor := some (s.tick + 1), lamBranch := lamB
            lamRow := lamR, heat := heat } }
        let s := (List.range 256).foldl (fun s c =>
          let l := mine.filter fun h => h.g.pp.cls == c
          if l.isEmpty then s else s.setU E.CLASS_CAP_MEAN c (sumOf code l / l.length)) s
        let s := (s.set E.ROW_POWER_PRED (rowW hs / 1000).ceil.toNat).inc E.ALLOC_PERIODS
        let s := floors.foldl (fun s slot =>
          (s.inc E.ALLOC_INFEASIBLE_COUNT).latch E.RP_LATCHES 2 (guestKey slot)) s
        if broken || s.row.budgetBound then (s.inc E.ALLOC_BUDGET_BOUND).latch E.RP_LATCHES 3 else s

/-- One guest's ALLOCATE record in the egress tick (R169, R178, R197, R243, R405): the first after the lift of its
class, then only a value that differs from the cap last sent (R171). -/
def State.sendAlloc (s : State) (slot value : Nat) : State :=
  s.withGuest slot fun s g =>
    let lifted := match s.desk.lifted.get g.pp.cls, s.row.lastEnd with
      | some l, some e => decide (l ≤ e)
      | _, _ => false
    if g.stale || !lifted then s
    else
      let slew := if g.firstAllocSent then s.allocSlew g else s.eff E.LIFT_SLEW
      let rec_ : CapDue := { slot := slot, kind := 0, ceiling := value, slew := slew, hold := s.eff E.CAP_HOLD_TICKS }
      let s' := s.mapGuest slot fun g => { g with firstAllocSent := true }
      match g.cut with
      | none =>
        let same := match g.lastCap with | some r => r.ceiling == value | none => false
        if g.firstAllocSent && same then s else s'.queueCap rec_
      | some k =>
        if value ≤ k.ceiling then ((s'.endCut slot).inc E.GUARD_TAKEOVERS).queueCap rec_ else s

/-- A recovering branch whose caps have been allocated lets its row cut lapse (R566), unless a leak or the plant map
holds it too (R574, R557). -/
def State.egressBranches (s : State) : State :=
  let bs := s.plant.branches.mapVals fun b x =>
    if x.stop = 2 && decide (x.recoverTick < s.tick) && x.leak = 0 && !x.off then
      let last := match s.rowInForce (scopeBranch b) s.tick with | some r => r.tick + r.hold | none => s.tick
      { x with stop := 3, lapse := some last, liftTick := last, lifted := [] }
    else x
  { s with plant := { s.plant with branches := bs } }

/-- ALLOCATE_EGRESS_TICK (R22, R40): the ALLOCATE records enter class 2, or are discarded while the link is down or in
the rest stance. -/
def execAllocateEgressTick (t : Nat) (s : State) : Host.Outcome State Fault Refusal :=
  let s := s.at t
  done <| s.when (s.row.readyFor == some s.tick) fun s =>
    let ready := s.row.ready
    let s : State := { s with row := { s.row with readyFor := none } }
    let s := s.egressBranches
    if s.inRest || !s.linkUp || !s.port.sending || s.get E.MODEL_CEILINGS = 0 then s
    else ready.foldl (fun s p => s.sendAlloc p.1 p.2) s

end Sys2Proof.Machine
end

