-- ==== Sys2Proof/Machine/RowBack.lean ====
section
/-! DEFINITION. The row program's hinge tables and refit (R409 to R413), and the two hinge commands that slot 0 and the
operator programs share. -/

namespace Sys2Proof.Machine

/-- The hinge tables of slot 0 at the start of firmware (R409): `AGE_RATE` is 2^-30 as FP32. -/
def rowHinges (tick : Nat) : AMap Hinge :=
  (List.range 8).map fun k =>
    (k, { resident := true, staleLimit := 1440000, period := 360000, ageRate := 0x30800000, liveTick := tick
          nextStart := 45000 * (k + 1) })

/-- The classes of table `k` that a rebuild fits: those with present guests (R410). -/
def State.refitClasses (s : State) (k : Nat) : List Nat :=
  ((List.range 32).map (32 * k + ·)).filter fun c => s.getU E.CLASS_STATE c != 0 && decide (0 < s.getU E.CLASS_GUESTS c)

/-- Edges of a refitted word. -/
def refitBr (v c p : Nat) : Br := Br.of16 (Config.refit v c p % 2 ^ 32)

/-- The first two conditions of R412 on refit `v` of class `c`. -/
def State.refitSound (s : State) (v c : Nat) : Bool :=
  let n := s.getU E.CLASS_NODES c
  let m := s.getU E.CLASS_INPUTS c
  let nonNeg (b : Br) : Bool := !b.isOpen && decide (0 ≤ b.lo.m)
  let judged := (List.range m).filter fun k => [1, 2, 3, 4, 5].contains (s.classInput c k).1
  (List.range n).all fun i =>
    let row := (List.range n).map fun j => refitBr v c (pA i j)
    row.all nonNeg && (judged.all fun k => nonNeg (refitBr v c (pB i k)))
      && (row.foldl (fun a b => a.add b.hi) Dy.zero).le ((Dy.int 1).sub (Dy.pow2 (-10)))

/-- The rebuild of a table of slot 0 ends (R410 to R412). What the refit finds is free, and whether its replay gives no
more misses and no wider brackets is a free value. -/
def State.validateRow (s : State) (k : Nat) (h : Hinge) : State :=
  let v := s.row.refits + 1
  let cs := s.refitClasses k
  let live := s.getU E.HINGE_LIVE_LEAF k
  let old := if live = 0 then h.ver0 else h.ver1
  let new := cs.foldl (fun m c => AMap.set m c v) old
  let replay := s.freeVal % 2 == 1
  let s : State := { s.drawn with row := { s.row with refits := v } }
  if cs.all (s.refitSound v) && replay then
    s.hingePass 0 k (if live = 0 then { h with ver1 := new } else { h with ver0 := new })
  else s.hingeFail 0 k

/-- HINGE_VALIDATE (R376, R412): a rebuild ends and passes or fails. -/
def execHingeValidate (t slot k : Nat) (s : State) : Host.Outcome State Fault Refusal :=
  let s := s.at t
  done <| match s.hinge slot k with
    | none => s
    | some h => s.when (s.getU E.HINGE_STATE (8 * slot + k) == 2) fun s =>
        if slot = 0 then s.validateRow k h else s.validateProg slot k h

/-- What the swap of a table of slot 0 brings (R398, R411): the refit's delta vectors, and the end of a fallback. -/
def State.swapRow (s : State) (k : Nat) (h : Hinge) : State :=
  let (ver, old) := if s.getU E.HINGE_LIVE_LEAF k = 0 then (h.ver0, h.ver1) else (h.ver1, h.ver0)
  let mine (c : Nat) : Bool := c / 32 == k && ver.getD c 0 != old.getD c 0
  let gs := s.guests.mapVals fun slot g =>
    if g.present && mine g.pp.cls then
      let v := ver.getD g.pp.cls 0
      { g with d := (List.range 3).map (fun i => Config.refit v slot (0xF0000 + i) % 2 ^ 32) ++ [0] }
    else g
  let s : State := { s with guests := gs }
  ((List.range 32).map (32 * k + ·)).foldl (fun s c =>
    if s.getU E.CLASS_STATE c = 3 && mine c then
      s.setU E.CLASS_STATE c (if s.getU E.CLASS_GUESTS c = 0 then 1 else 2)
    else s) s

/-- HINGE_SWAP (R376, R413): at the first tick boundary after the pass, and after the preload, the standby leaf becomes
live with age 0. -/
def execHingeSwap (t slot k : Nat) (s : State) : Host.Outcome State Fault Refusal :=
  let s := s.at t
  let u := 8 * slot + k
  done <| match s.hinge slot k with
    | none => s
    | some h => s.when (s.getU E.HINGE_STATE u == 4 && decide (h.swapFrom < s.tick)) fun s =>
        let s := s.putHinge slot k { h with liveTick := s.tick, staleSeen := false }
        let s := s.setU E.HINGE_LIVE_LEAF u (1 - s.getU E.HINGE_LIVE_LEAF u)
        let s := ((s.setU E.HINGE_STATE u 1).incU E.HINGE_SWAPS u).inc E.HINGE_SWAPS_ALL
        if slot = 0 then s.swapRow k h else s

end Sys2Proof.Machine
end

