-- ==== Sys2Proof/Machine/IocOps.lean ====
section
/-! DEFINITION. What the chapters on loop engines, valves, fans, the field bus and the plant share: binding
descriptors, field bus values, the parts of the IOC, and the sinks a loop engine binds (R426 to R428). -/

namespace Sys2Proof.Machine

/-! ### Binding descriptors (R426) -/

def bKind (b : Nat) : Nat := bits b 63 56
def bFormat (b : Nat) : Nat := bits b 55 48
def bByte (b : Nat) : Nat := bits b 47 40
def bPort (b : Nat) : Nat := bits b 31 24
def bSel (b : Nat) : Nat := bits b 15 0

/-- A descriptor with another `SELECT`. -/
def bWithSel (b n : Nat) : Nat := b - bSel b + n

/-- Bytes of a field bus format. -/
def formatLen (f : Nat) : Nat := match f with | 1 => 1 | 2 => 2 | 3 => 2 | _ => 4

/-- The nearest integer, ties to even. -/
def Dy.rint (x : Dy) : Int :=
  let f := x.floor
  let twice := (x.sub (Dy.int f)).mul (Dy.int 2)
  if twice.lt (Dy.int 1) then f
  else if (Dy.int 1).lt twice then f + 1
  else if f % 2 = 0 then f else f + 1

/-- The value of a field of a frame as F32 (R427, R520); none when the data ends before its last byte. -/
def readField (f byte : Nat) (data : Bytes) : Option Nat :=
  if data.length < byte + formatLen f then none
  else
    let v := field data byte (formatLen f)
    some (match f with
      | 3 => f32Int (toSigned 2 v)
      | 5 => f32Int (toSigned 4 v)
      | 6 => v
      | _ => f32Int v)

/-- The octets of a value written in a format: rounded to nearest and saturated (R428). -/
def fieldBytes (f v : Nat) : Bytes :=
  let lim (lo hi : Int) : Int :=
    match f32Val v with
    | .fin _ d => max lo (min hi d.rint)
    | .inf neg => if neg then lo else hi
    | .nan => 0
  match f with
  | 1 => beBytes 1 (lim 0 255).toNat
  | 2 => beBytes 2 (lim 0 65535).toNat
  | 3 => beBytes 2 (ofSigned 2 (lim (-32768) 32767))
  | 4 => beBytes 4 (lim 0 4294967295).toNat
  | 5 => beBytes 4 (ofSigned 4 (lim (-2147483648) 2147483647))
  | _ => beBytes 4 v

/-- `bs` with `new` written at offset `off`. -/
def putBytes (bs : Bytes) (off : Nat) (new : Bytes) : Bytes :=
  bs.take off ++ new ++ bs.drop (off + new.length)

/-! ### Parts of the IOC -/

def State.eng (s : State) (n : Nat) : Eng := s.ioc.engines.getD n {}
def State.putEng (s : State) (n : Nat) (x : Eng) : State :=
  { s with ioc := { s.ioc with engines := s.ioc.engines.set n x } }

def State.valve (s : State) (c : Nat) : Valve := s.ioc.valves.getD c {}
def State.putValve (s : State) (c : Nat) (x : Valve) : State :=
  { s with ioc := { s.ioc with valves := s.ioc.valves.set c x } }

def State.bank (s : State) (b : Nat) : Bank := s.ioc.banks.getD b {}
def State.putBank (s : State) (b : Nat) (x : Bank) : State :=
  { s with ioc := { s.ioc with banks := s.ioc.banks.set b x } }

def State.fan (s : State) (c : Nat) : Fan := s.ioc.fans.getD c {}
def State.putFan (s : State) (c : Nat) (x : Fan) : State :=
  { s with ioc := { s.ioc with fans := s.ioc.fans.set c x } }

/-- Objects are numbered 256 × port + object. -/
def State.rxObj (s : State) (k : Nat) : RxObj := s.ioc.rx.getD k {}
def State.putRx (s : State) (k : Nat) (x : RxObj) : State :=
  { s with ioc := { s.ioc with rx := s.ioc.rx.set k x } }

def State.txObj (s : State) (k : Nat) : TxObj := s.ioc.tx.getD k {}
def State.putTx (s : State) (k : Nat) (x : TxObj) : State :=
  { s with ioc := { s.ioc with tx := s.ioc.tx.set k x } }

def State.fbPort (s : State) (p : Nat) : FbPort := s.ioc.ports.getD p {}
def State.putPort (s : State) (p : Nat) (x : FbPort) : State :=
  { s with ioc := { s.ioc with ports := s.ioc.ports.set p x } }

def State.ain (s : State) (n : Nat) : Ain := s.plant.ains.getD n {}
def State.putAin (s : State) (n : Nat) (x : Ain) : State :=
  { s with plant := { s.plant with ains := s.plant.ains.set n x } }

def State.angle (s : State) (n : Nat) : Angle := s.plant.angles.getD n {}
def State.putAngle (s : State) (n : Nat) (x : Angle) : State :=
  { s with plant := { s.plant with angles := s.plant.angles.set n x } }

def State.branch (s : State) (b : Nat) : Branch := s.plant.branches.getD b {}
def State.putBranch (s : State) (b : Nat) (x : Branch) : State :=
  { s with plant := { s.plant with branches := s.plant.branches.set b x } }

/-- An entry numbered by object: unit `k / 256`, subindex `k % 256` (R542). -/
def State.getObj (s : State) (e : Ent) (k : Nat) : Nat := s.getU (e.up (k % 256)) (k / 256)
def State.setObj (s : State) (e : Ent) (k v : Nat) : State := s.setU (e.up (k % 256)) (k / 256) v

/-- The units of a per-unit entry that are listed as written. -/
def State.listedUnits (s : State) (e : Ent) (units : Nat) : List Nat :=
  (s.regs.filter fun p => decide (e.key ≤ p.1) && decide (p.1 < e.key + 256 * units) && p.1 % 256 == e.key % 256).map
    fun p => (p.1 - e.key) / 256

/-- Whether the entry at a key is kept in FRAM (R10). -/
def framKept (key : Nat) : Bool :=
  dictRows.any fun r => r.fram && decide (r.ent.key / 256 ≤ key / 256) && decide (key / 256 < r.ent.key / 256 + r.units)
    && decide (r.ent.key % 256 ≤ key % 256) && decide (key % 256 ≤ r.lastSub)

/-- A key takes a value, or its default when `v` is none, in force and, where the entry is kept there, in FRAM. -/
def State.putKey (s : State) (key : Nat) (v : Option Nat) : State :=
  let put (m : AMap Nat) : AMap Nat := match v with | some x => AMap.set m key x | none => AMap.erase m key
  { s with
    regs := put s.regs
    fram := if framKept key then { s.fram with entries := put s.fram.entries } else s.fram }

/-- The value of one key is carried over to another. -/
def State.copyKey (s : State) (src dst : Nat) : State := s.putKey dst (s.regs.get src)

/-- The condition keys of R603. -/
def engKey (n : Nat) : Nat := condKey 3 n
def valveKey (c : Nat) : Nat := condKey 4 c
def fanKey (c : Nat) : Nat := if c < 28 then condKey 5 c else condKey 6 (c - 28)
def fbKey (p : Nat) : Nat := condKey 7 p
def ainKey (n : Nat) : Nat := condKey 8 n

/-- Whether the unit in a ledger row is active. -/
def State.isActive (s : State) (row : Nat) : Bool := (s.unit row).role == 0

/-- The active engine whose output binding names a sink (R428). -/
def State.sinkEngine (s : State) (kind sel port : Nat) : Option Nat :=
  (s.listedUnits E.OUT_BIND 256).find? fun n =>
    let b := s.getU E.OUT_BIND n
    bKind b == kind && bSel b == sel && (kind != 3 || bPort b == port) && s.getU E.LOOP_MOVED_TO n == 0xFF

/-- A spared unit's take-over finds no tested spare while one of its kind is under its retest (R651). -/
def State.spareInTest (s : State) (rows : List Nat) : Bool := rows.any fun r => (s.unit r).role == 3 && (s.unit r).retest

/-- The instant has passed `n` hundredths of a tick but not `m`: within a ledger slot (R57). -/
def State.inSlot (s : State) (n m : Nat) : Bool := s.pastSlot n && !s.pastSlot m

end Sys2Proof.Machine
end

