-- ==== Sys2Proof/Machine/Loops.lean ====
section
/-! DEFINITION. Loop engines (chapter 13, R422 to R455). Engine arithmetic is plain FP32 (R253), sums of more than two
terms being added from left to right. -/

namespace Sys2Proof.Machine

/-! ### Sources (R427) -/

/-- A source's value as F32 and its sample tick; none for a source that has no value. -/
def State.loopSource (s : State) (b : Nat) : Option (Nat × Nat) :=
  let sel := bSel b
  match bKind b with
  | 1 => (s.ain sel).hub
  | 2 =>
    let q := s.quantity sel
    if q.isOpen then none else some (q.midCode, s.plant.quantTick.getD sel 0)
  | 3 =>
    match (s.rxObj (256 * bPort b + sel)).hub with
    | some (tick, data) => (readField (bFormat b) (bByte b) data).map fun v => (v, tick)
    | none => none
  | 4 => (s.fan sel).hub.map fun p => (f32Int p.1, p.2)
  | 5 => (s.angle sel).hub
  | 6 => (s.eng sel).lastRun.map fun tick => (s.getU E.LOOP_OUTPUT sel, tick)
  | 7 =>
    match s.row.lastEnd, s.row.heat.get (sel % 256) with
    | some tick, some l => (l[sel / 256 - 1]?).map fun v => (v, tick)
    | _, _ => none
  | _ => none

/-- A source's value unless it is lost (R440). -/
def State.liveSource (s : State) (n b : Nat) : Option Nat :=
  match s.loopSource b with
  | some (v, tick) => if s.tick ≤ tick + s.getU E.FB_MAX_AGE n then some v else none
  | none => none

/-- The measurement of R427, none when it is lost. -/
def State.loopMeas (s : State) (n : Nat) : Option Nat :=
  (s.liveSource n (s.getU E.MEAS_BIND n)).map fun v =>
    f32Add (f32Mul v (s.getU E.MEAS_SCALE n)) (s.getU E.MEAS_OFFSET n)

/-! ### Configuration of an engine -/

def State.onOff (s : State) (n : Nat) : Bool := (s.getU E.LOOP_CONFIG n).testBit 1

/-- Whether the engine runs in loop B (R423). -/
def State.slotB (s : State) (n : Nat) : Bool :=
  bKind (s.getU E.SP_BIND n) == 6 || bKind (s.getU E.FF_BIND n) == 6 || bKind (s.getU E.FOLLOW_BIND n) == 6

/-- Whether the engine is due in the tick in progress (R422). -/
def State.engDue (s : State) (n : Nat) : Bool :=
  let p := max 1 (s.getU E.LOOP_PERIOD n)
  s.tick % p == s.getU E.LOOP_PHASE n % p

/-- One half. -/
abbrev f32Half : Nat := 0x3F000000
abbrev f32One : Nat := 0x3F800000

def f32Clamp (x lo hi : Nat) : Nat := f32Max lo (f32Min hi x)

/-- The output limits: 0 and 1 with `ONOFF` (R431). -/
def State.uMin (s : State) (n : Nat) : Nat := if s.onOff n then 0 else s.getU E.UMIN n
def State.uMax (s : State) (n : Nat) : Nat := if s.onOff n then f32One else s.getU E.UMAX n

/-- The lower limit of the law: a pump set's speed engine keeps to `PS_TREND_FLOOR` while a branch of the set is in
trend (R564). -/
def State.lawMin (s : State) (n : Nat) : Nat :=
  let sets := (s.listedUnits E.PS_ENGINE 8).filter fun k =>
    s.getU E.PS_ENGINE k == n &&
      s.plant.branches.any fun p => p.2.trend && s.effU E.BR_PUMP_SET p.1 == k
  sets.foldl (fun u k => f32Max u (f32Ratio (s.effU E.PS_TREND_FLOOR k) 10)) (s.uMin n)

/-- The relay as entry to a mode sets it (R433). -/
def State.relayFor (s : State) (n out : Nat) : Bool :=
  f32Le (f32Div (f32Add (s.uMin n) (s.uMax n)) 0x40000000) out

/-! ### The law (R429 to R432, R437, R442) -/

/-- A setpoint or feed-forward value: the source's, or the last good one while it is lost (R445). -/
def heldValue (live good : Option Nat) : Option Nat := match live with | some v => some v | none => good

/-- The bin of the engine's phase source while it is valid (R429, R432). -/
def State.loopBin (s : State) (n : Nat) : Option Nat :=
  let src := s.getU E.PHASE_SOURCE n
  if (s.getU E.LOOP_CONFIG n).testBit 2 && decide (src < 16) && s.getU E.PHASE_VALID src == 1 && !s.onOff n then
    some (s.getU E.PHASE_BIN src)
  else none

/-- The output of a run and what goes with every run. -/
def State.putOutput (s : State) (n : Nat) (x : Eng) (out : Nat) : State :=
  s.setU E.LOOP_OUTPUT n out |>.putEng n { x with send := true, outs := (out :: x.outs).take 1000 }

/-- The law of R429 with measurement `m`. At LOOP entry the internal setpoint starts at the measured value and the
relay stands as R433 sets it; at entry and at the end of a hold the trim is preset so that the output goes on. -/
def State.loopLaw (s : State) (n m : Nat) (entry preset : Bool) : State :=
  let x := s.eng n
  let onoff := s.onOff n
  let old := s.getU E.LOOP_OUTPUT n
  let p := f32Int (s.getU E.LOOP_PERIOD n)
  let spBind := s.getU E.SP_BIND n
  let ffBind := s.getU E.FF_BIND n
  let spLive := if bKind spBind = 0 then some (s.getU E.SETPOINT n) else s.liveSource n spBind
  let ffLive := if bKind ffBind = 0 || onoff then some 0
    else (s.liveSource n ffBind).map fun v => f32Mul (s.getU E.FF_GAIN n) v
  let sp0 := s.getU E.LOOP_SP_INTERNAL n
  let target := (heldValue spLive x.spGood).getD sp0
  let rate := f32Mul (s.getU E.SP_RATE n) p
  let sp := if entry then m else f32Add sp0 (f32Clamp (f32Sub target sp0) (f32Neg rate) rate)
  let e := if (s.getU E.LOOP_CONFIG n).testBit 0 then f32Neg (f32Sub sp m) else f32Sub sp m
  let hyst := s.getU E.HYST n
  let relay := if entry then s.relayFor n old
    else if f32Lt hyst e then true else if f32Lt e (f32Neg hyst) then false else x.relay
  let bin := s.loopBin n
  let tab := match bin with | some b => x.table.getD b 0 | none => 0
  let ff := (heldValue ffLive x.ffGood).getD 0
  let swing := if onoff then f32Half else s.getU E.SWING n
  let signed := if relay then swing else f32Neg swing
  let trim := if onoff then f32Half
    else if entry || preset then f32Sub (f32Sub (f32Sub old signed) tab) ff else s.getU E.LOOP_TRIM n
  let raw := f32Add (f32Add (f32Add trim signed) tab) ff
  let lo := s.lawMin n
  let hi := s.uMax n
  let u := f32Clamp raw lo hi
  let sat := (f32Lt hi raw && f32Lt 0 e) || (f32Lt raw lo && f32Lt e 0)
  let trim' := if sat || onoff then trim else f32Add trim (f32Mul (f32Mul (s.getU E.KI n) e) p)
  let table := match bin with
    | some b =>
      if sat then x.table
      else x.table.put b (f32Add (f32Mul (s.getU E.TABLE_FORGET n) tab) (f32Mul (s.getU E.TABLE_GAIN n) e)) 0
    | none => x.table
  let soft := (entry || x.soft) && sp != target
  let timer := if soft || x.soft || entry then x.timer
    else if f32Lt (s.getU E.FOLLOW_ERR_LIMIT n) (f32Abs e) then x.timer + s.getU E.LOOP_PERIOD n else 0
  let x := { x with
    relay := relay, table := table, soft := soft, timer := timer, sat := sat, tabUsed := bin.isSome
    spGood := heldValue spLive x.spGood, ffGood := heldValue ffLive x.ffGood
    spHeld := spLive.isNone, ffHeld := ffLive.isNone, holdFrom := none, preset := false, entry := false }
  let s := ((s.setU E.LOOP_SP_INTERNAL n sp).setU E.LOOP_ERROR n e).setU E.LOOP_TRIM n trim'
  (s.putOutput n x (f32Clamp (f32Add u x.offset) lo hi)).histValue 6 n e

/-! ### Hand-overs (R438) -/

/-- The offset of a run of a hand-over: it falls by d × p / `HANDOVER_TICKS` toward 0. -/
def State.fallOffset (s : State) (n : Nat) (x : Eng) : Nat :=
  let h := s.getU E.HANDOVER_TICKS n
  if h = 0 || f32Abs x.offset = 0 then 0
  else
    let step := f32Div (f32Mul x.handD (f32Int (s.getU E.LOOP_PERIOD n))) (f32Int h)
    let o := f32Add x.offset step
    if (f32Lt x.offset 0 && f32Lt o 0) || (f32Lt 0 x.offset && f32Lt 0 o) then o else 0

/-- Whether a hand-over to output `u` must wait. -/
def State.jumps (s : State) (n u : Nat) : Bool :=
  !(s.eng n).accept && f32Lt (s.getU E.JUMP_LIMIT n) (f32Abs (f32Sub u (s.getU E.LOOP_OUTPUT n)))

/-- A hand-over begins: the output of this run stays where it was. -/
def State.startHand (s : State) (n u : Nat) : Eng :=
  let x := s.eng n
  let d := f32Sub u (s.getU E.LOOP_OUTPUT n)
  { x with
    handD := d, offset := if s.getU E.HANDOVER_TICKS n = 0 then 0 else f32Neg d, accept := false, wait := 0 }

/-- A mode change begins to wait, for its jump (1) or for a lost source (2) (R438, R445). -/
def State.startWait (s : State) (n why : Nat) : State :=
  let x := s.eng n
  let s' := s.putEng n { x with wait := why, waitMode := s.getU E.LOOP_MODE n }
  if x.wait = why then s'
  else if why = 1 then s'.latchU E.LOOP_LATCHES n 4 (engKey n)
  else s'.latchU E.LOOP_LATCHES n 1 (engKey n)

/-- The value of FOLLOW; none while its source is lost. Without a source it is 0. -/
def State.followValue (s : State) (n : Nat) : Option Nat :=
  let b := s.getU E.FOLLOW_BIND n
  let v := if bKind b = 0 then some 0 else s.liveSource n b
  v.map fun v =>
    f32Clamp (f32Add (f32Mul (s.getU E.FOLLOW_GAIN n) v) (s.getU E.FOLLOW_OFFSET n)) (s.uMin n) (s.uMax n)

/-! ### Runs in the modes (R433 to R445) -/

/-- What MANUAL, FOLLOW and REST do beside the output (R433). -/
def State.trackMeas (s : State) (n : Nat) (m : Option Nat) : State :=
  let s := match m with | some v => s.setU E.LOOP_SP_INTERNAL n v | none => s
  s.putEng n { s.eng n with relay := s.relayFor n (s.getU E.LOOP_OUTPUT n), sat := false, tabUsed := false, soft := false }

/-- A run of MANUAL or FOLLOW with mode output `u`, the offset falling or freshly set. -/
def State.plainRun (s : State) (n u : Nat) (x : Eng) (m : Option Nat) : State :=
  (s.putOutput n { x with holdFrom := none } (f32Clamp (f32Add u x.offset) (s.uMin n) (s.uMax n))).trackMeas n m

/-- A feedback hold starts or goes on (R442, R445): nothing is computed and the output stays. -/
def State.holdRun (s : State) (n cause : Nat) : State :=
  let x := s.eng n
  let s' := s.putEng n { x with holdFrom := some (x.holdFrom.getD s.tick), holdCause := cause }
  if x.holdFrom.isSome && x.holdCause = cause then s'
  else s'.latchU E.LOOP_LATCHES n (if cause = 3 then 2 else 1) (engKey n)

/-- The engine is in REST from this run on (R437): the output steps and a pending hand-over is cancelled. -/
def State.toRest (s : State) (n : Nat) (m : Option Nat) : State :=
  let x := { s.eng n with offset := 0, handD := 0, wait := 0, accept := false, holdFrom := none, timer := 0, entry := false }
  ((s.setU E.LOOP_MODE_ACTIVE n 3).putOutput n x (s.getU E.REST_VALUE n)).trackMeas n m

/-- Whether the measurement is frozen (R441): unchanged for `FREEZE_COUNT` runs in which the outputs moved. -/
def State.frozen (s : State) (n same : Nat) : Bool :=
  let k := s.getU E.FREEZE_COUNT n
  let outs := (s.eng n).outs.take k
  let hi := outs.foldl f32Max (outs.headD 0)
  let lo := outs.foldl f32Min (outs.headD 0)
  decide (0 < k) && decide (k ≤ same) && f32Lt (s.getU E.FREEZE_MOVE n) (f32Sub hi lo)

/-- A run in LOOP that is not its entry. -/
def State.runLoop (s : State) (n : Nat) (m : Option Nat) : State :=
  match m with
  | none => s.holdRun n 2
  | some v =>
    let x := s.eng n
    let same := if x.lastMeas = some v then x.same + 1 else 0
    let s := s.putEng n { x with same := same, lastMeas := some v }
    if s.frozen n same then s.holdRun n 3
    else
      let s := s.putEng n { s.eng n with offset := s.fallOffset n x }
      s.loopLaw n v x.entry (x.holdFrom.isSome || x.preset)

/-- A run in MANUAL: a new `MANUAL_VALUE` is a hand-over (R439). -/
def State.runManual (s : State) (n : Nat) (m : Option Nat) : State :=
  let x := s.eng n
  let v := s.getU E.MANUAL_VALUE n
  if v = x.manual || x.wait = 2 then s.plainRun n x.manual { x with offset := s.fallOffset n x } m
  else if s.jumps n v then
    let s := s.startWait n 1
    s.plainRun n x.manual { s.eng n with offset := s.fallOffset n x } m
  else s.plainRun n v { s.startHand n v with manual := v } m

/-- A run in FOLLOW. -/
def State.runFollow (s : State) (n : Nat) (m : Option Nat) : State :=
  match s.followValue n with
  | none => s.holdRun n 4
  | some u => let x := s.eng n; s.plainRun n u { x with offset := s.fallOffset n x } m

/-- A run in the mode in force. -/
def State.runActive (s : State) (n : Nat) (m : Option Nat) : State :=
  match s.getU E.LOOP_MODE_ACTIVE n with
  | 0 => s.runManual n m
  | 1 => s.runLoop n m
  | 2 => s.runFollow n m
  | _ => (s.putOutput n (s.eng n) (s.getU E.REST_VALUE n)).trackMeas n m

/-- MODE_CHANGE (R437): the first run after another mode was requested. -/
def State.changeMode (s : State) (n mode : Nat) (m : Option Nat) : State :=
  let fresh (s : State) : State := s.putEng n { s.eng n with same := 0, lastMeas := m, outs := [], timer := 0, entry := false }
  match mode with
  | 0 =>
    let v := s.getU E.MANUAL_VALUE n
    if s.jumps n v then (s.startWait n 1).runActive n m
    else
      let x := { s.startHand n v with manual := v }
      (fresh (s.setU E.LOOP_MODE_ACTIVE n 0)).plainRun n v { x with same := 0, lastMeas := m, outs := [] } m
  | 1 =>
    match m with
    | none => (s.startWait n 2).runActive n m
    | some v =>
      let s := fresh (s.setU E.LOOP_MODE_ACTIVE n 1)
      (s.putEng n { s.eng n with offset := 0, handD := 0, wait := 0, accept := false, soft := true }).loopLaw n v true true
  | 2 =>
    match s.followValue n with
    | none => (s.startWait n 2).runActive n m
    | some u =>
      if s.jumps n u then (s.startWait n 1).runActive n m
      else
        let x := s.startHand n u
        (fresh (s.setU E.LOOP_MODE_ACTIVE n 2)).plainRun n u { x with same := 0, lastMeas := m, outs := [] } m
  | _ => (fresh s).toRest n m

/-- LOOP_RUN (R422 to R445): one run of an active engine, in its slot of a tick it is due in. -/
def execLoopRun (t engine : Nat) (s : State) : Host.Outcome State Fault Refusal :=
  let s := s.at t
  let x := s.eng engine
  let slot := if s.slotB engine then s.inSlot 25 40 else s.inSlot 10 25
  done <| s.when (s.fwRuns && decide (engine < 256) && s.isActive (kindRow 3 + engine) && !x.down && s.engDue engine
      && slot && x.lastRun != some s.tick) fun s =>
    let m := s.loopMeas engine
    let x := if x.clearTable then { x with clearTable := false, table := [] } else x
    let req := if s.inRest then 3 else s.getU E.LOOP_MODE engine
    let x := if x.wait != 0 && (req != x.waitMode || (req == s.getU E.LOOP_MODE_ACTIVE engine && req != 0)
        || (req == 0 && s.getU E.LOOP_MODE_ACTIVE engine == 0 && s.getU E.MANUAL_VALUE engine == x.manual))
      then { x with wait := 0, accept := false } else x
    let s := s.putEng engine { x with lastRun := some s.tick }
    let s := match m with | some v => s.setU E.LOOP_MEAS engine v | none => s
    let s := (s.setU E.LOOP_MISSES engine 0).incU E.LOOP_RUNS engine
    if req = s.getU E.LOOP_MODE_ACTIVE engine then s.runActive engine m else s.changeMode engine req m

/-- `LOOP_STATUS` (R454). -/
def State.loopStatus (s : State) (n : Nat) : Nat :=
  let x := s.eng n
  let b (c : Bool) (k : Nat) : Nat := if c then 2 ^ k else 0
  (s.unit (kindRow 3 + n)).role * 8192 + b (s.slotB n) 12 + b (x.wait != 0) 11 + b (f32Abs x.offset != 0) 10
    + b x.soft 9 + b x.holdFrom.isSome 8 + b x.relay 7 + b x.sat 6 + b x.tabUsed 5 + b x.ffHeld 4 + b x.spHeld 3
    + b (x.timer != 0) 2 + b (s.getU E.LOOP_MOVED_TO n != 0xFF) 1

/-! ### Loop faults (R443) -/

/-- LOOP_FAULT (R443): REST at once, and 3 in `LOOP_MODE`. -/
def State.loopFault (s : State) (n cause : Nat) : State :=
  let s := ((s.setU E.LOOP_MODE n 3).setU E.LOOP_FAULT_CAUSE n cause).incU E.LOOP_FAULTS n
  (s.toRest n (s.loopMeas n)).latchU E.LOOP_LATCHES n 0 (engKey n)

/-- FEEDBACK_HOLD_TIMEOUT (R442, R445): at a run, a hold has lasted `FREEZE_HOLD` ticks. -/
def execFeedbackHoldTimeout (t engine : Nat) (s : State) : Host.Outcome State Fault Refusal :=
  let s := s.at t
  let x := s.eng engine
  done <| match x.holdFrom with
    | none => s
    | some from_ =>
      s.when (x.lastRun == some s.tick && decide (from_ + s.getU E.FREEZE_HOLD engine ≤ s.tick)) fun s =>
        s.loopFault engine x.holdCause

/-- FOLLOWING_ERROR_FAULT (R444): at a run, the following timer exceeds `FOLLOW_ERR_TIME`. -/
def execFollowingErrorFault (t engine : Nat) (s : State) : Host.Outcome State Fault Refusal :=
  let s := s.at t
  let x := s.eng engine
  done <| s.when (x.lastRun == some s.tick && decide (s.getU E.FOLLOW_ERR_TIME engine < x.timer)
      && s.getU E.LOOP_MODE_ACTIVE engine == 1) fun s =>
    (s.loopFault engine 1).latchU E.LOOP_LATCHES engine 3 (engKey engine)

/-! ### Missed slots, block errors and spares (R446 to R450) -/

/-- A block error of an engine (R447): it is fenced and issues no further output. During its test it counts as a
mismatch (R650). -/
def State.engError (s : State) (n : Nat) : State :=
  let row := kindRow 3 + n
  match (s.unit row).role with
  | 3 => (s.putUnit row { s.unit row with outcome := some (1, s.tick) }).latchU E.LOOP_LATCHES n 8 (engKey n)
  | 0 =>
    let s := s.putEng n { s.eng n with fenceTick := some s.tick, send := false }
    (s.fenceUnit row).latchU E.LOOP_LATCHES n 8 (engKey n)
  | 1 => (s.fenceUnit row).latchU E.LOOP_LATCHES n 8 (engKey n)
  | _ => s

/-- LOOP_SLOT_MISSED (R446, R447): the output was not final by the end of the slot. -/
def execLoopSlotMissed (t engine : Nat) (s : State) : Host.Outcome State Fault Refusal :=
  let s := s.at t
  let x := s.eng engine
  let beyond := if s.slotB engine then s.pastSlot 40 else s.pastSlot 25
  done <| s.when (s.fwRuns && decide (engine < 256) && s.isActive (kindRow 3 + engine) && !x.down && s.engDue engine
      && beyond && x.lastRun != some s.tick && x.missTick != some s.tick) fun s =>
    let n := satBytes 1 (s.getU E.LOOP_MISSES engine + 1)
    let s := s.putEng engine { x with missTick := some s.tick }
    let s := ((s.setU E.LOOP_MISSES engine n).incU E.LOOP_MISSES_TOTAL engine).latchU E.LOOP_LATCHES engine 5 (engKey engine)
    if s.getU E.MISS_LIMIT engine ≤ n then s.engError engine else s

/-- ENGINE_BLOCK_ERROR (R447). -/
def execEngineBlockError (t engine : Nat) (s : State) : Host.Outcome State Fault Refusal :=
  let s := s.at t
  done <| s.when (decide (engine < 256)) fun s => s.engError engine

/-- A binding of kind 6 that names `n` names `a` instead. -/
def State.rebindEngine (s : State) (e : Ent) (n a : Nat) : State :=
  (s.listedUnits e 256).foldl (fun s k =>
    let b := s.getU e k
    if bKind b = 6 && bSel b = n then s.setU e k (bWithSel b a) else s) s

/-- Spare `a` takes the loop of engine `n`: configuration, saved state, and every reference (R448). When the saved state
cannot be read, it starts as at LOOP entry with a cleared table (R449). -/
def State.moveLoop (s : State) (n a : Nat) (saved : Bool) : State :=
  let subs := (List.range 0x25).map (· + 1) ++ [0x2A] ++ (if saved then [0x2B, 0x2C, 0x2D, 0x2E] else [])
  let base (k : Nat) : Nat := (0x6000 + k) * 256
  let s := subs.foldl (fun s i => s.copyKey (base n + i) (base a + i)) s
  let x := s.eng n
  let y : Eng := if saved then { x with fenceTick := none, send := false, missTick := none }
    else { manual := x.manual, lastRun := x.lastRun, entry := true, preset := true }
  let s := s.putEng a y
  let s := s.putEng n { fenceTick := none }
  let s := ((s.rebindEngine E.SP_BIND n a).rebindEngine E.FF_BIND n a).rebindEngine E.FOLLOW_BIND n a
  let s := if s.get E.ROW_BUDGET_ENGINE = n then s.set E.ROW_BUDGET_ENGINE a else s
  let s := (s.setU E.LOOP_MOVED_TO a 0xFF).setU E.LOOP_MOVED_TO n a
  if saved then s else s.latchU E.LOOP_LATCHES a 6 (engKey a)

/-- What the IOC drives for a loop without a spare (R450): the rest value of its sink. -/
def State.restSink (s : State) (n : Nat) : State :=
  let b := s.getU E.OUT_BIND n
  match bKind b with
  | 1 =>
    let c := bSel b
    let v := s.valve c
    s.putValve c { v with eng := some (s.getU E.VALVE_REST c), fresh := 2 :: v.fresh }
  | 2 => s.putFan (bSel b) { s.fan (bSel b) with engFull := true }
  | 3 =>
    let k := 256 * bPort b + bSel b
    let new := fieldBytes (bFormat b) (f32Mul (s.getU E.REST_VALUE n) (s.getU E.OUT_SCALE n))
    let data := beNat (putBytes (beBytes 64 (s.getObj E.TX_DATA k)) (bByte b) new)
    (s.setObj E.TX_DATA k data).putTx k { s.txObj k with written := true }
  | _ => s

/-- ENGINE_TAKEOVER (R448 to R450, R651): at the next tick boundary a tested spare takes the loop; `saved` is false when
the saved state cannot be read. -/
def execEngineTakeover (t engine : Nat) (saved : Bool) (s : State) : Host.Outcome State Fault Refusal :=
  let s := s.at t
  done <| match (s.eng engine).fenceTick with
    | none => s
    | some f =>
      s.when (decide (f < s.tick)) fun s =>
        match s.bestSpare (kindRows 3) with
        | some row =>
          let a := row - kindRow 3
          (s.promote row a).moveLoop engine a saved
        | none =>
          if s.spareInTest (kindRows 3) then s
          else
            let s := s.putEng engine { s.eng engine with fenceTick := none, down := true }
            let s := s.setU E.LOOP_FAULT_CAUSE engine 5
            (s.restSink engine).latchU E.LOOP_LATCHES engine 7 (engKey engine)

/-! ### Commands (R438, R432) -/

/-- The service of one value of `LOOP_CMD`: refused on an engine that is not active (R454). -/
def loopCmd (v : Nat) (mine : Bytes → Bool) (run : Eng → Eng) : Service :=
  cmdService E.LOOP_CMD 256 false (some 1) mine (fun _ => false)
    (fun n b s => codeIf (beNat b != v) St.outOfRange ++ codeIf (!s.isActive (kindRow 3 + n)) St.conflict)
    (fun n _ s => ([], s.putEng n (run (s.eng n))))

/-- The service of `execLoopCmdAccept`. -/
def loopCmdAcceptService : Service :=
  (loopCmd 1 (argFirst [2]) fun x => { x with accept := x.wait == 1 })

/-- LOOP_CMD 1 (R438): a waiting hand-over takes effect at the next run. Blocks of another length and values without a
row of their own are refused here. -/
def execLoopCmdAccept (t : Nat) (rx : Rx) (s : State) : Host.Outcome State Fault Refusal :=
  done ((s.at t).serve rx loopCmdAcceptService)

/-- The service of `execLoopCmdClearTable`. -/
def loopCmdClearTableService : Service :=
  (loopCmd 2 (argEq 2) fun x => { x with clearTable := true })

/-- LOOP_CMD 2 (R432): the table is cleared at the engine's next run (R452). -/
def execLoopCmdClearTable (t : Nat) (rx : Rx) (s : State) : Host.Outcome State Fault Refusal :=
  done ((s.at t).serve rx loopCmdClearTableService)

end Sys2Proof.Machine
end

