-- ==== Sys2Proof/Machine/Valves.lean ====
section
/-! DEFINITION. Valve and solenoid drivers (chapter 14, R456 to R487), and what a seating result does to the isolation of
a branch (R571, R572). Currents are in mA, temperatures in °C, voltages in mV. -/

namespace Sys2Proof.Machine

/-! ### Channels and banks -/

def valveRow (c : Nat) : Nat := kindRow 4 + c
def bankChans (b : Nat) : List Nat := [4 * b, 4 * b + 1, 4 * b + 2, 4 * b + 3]
def State.phase (s : State) (c : Nat) : Nat := s.getU E.VALVE_PHASE c

/-- The phase a channel's low side is in: what it keeps while it queues. -/
def State.lowSide (s : State) (c : Nat) : Nat := if s.phase c = 1 then (s.valve c).under else s.phase c

/-- Whether channel `c` leads a paralleled pair, and whether it follows in one (R467). -/
def State.paired (s : State) (c : Nat) : Bool := c % 2 == 0 && (s.getU E.VALVE_CONFIG c).testBit 0
def State.follower (s : State) (c : Nat) : Bool := c % 2 == 1 && (s.getU E.VALVE_CONFIG (c - 1)).testBit 0

/-- The rail of a bank (R468, R487). -/
def State.bankRail (s : State) (b : Nat) : Nat :=
  let ps := (bankChans b).map s.lowSide
  if (s.bank b).fault then 3
  else if ps.any fun p => decide (2 ≤ p) && decide (p ≤ 4) then 2
  else if ps.any fun p => p == 5 then 1
  else 0

/-- A channel enters a phase now. -/
def State.setPhase (s : State) (c ph : Nat) : State :=
  let s := (s.setU E.VALVE_PHASE c ph).putValve c { s.valve c with phaseFrom := s.now }
  s.setU E.BANK_RAIL (c / 4) (s.bankRail (c / 4))

/-- What counts against a bank's boost budget (R469). -/
def State.budgetUsed (s : State) (b : Nat) : Nat :=
  sumOf (s.getU E.PEAK_A) ((bankChans b).filter fun c => s.phase c == 2 || s.phase c == 3)

/-- Whether a bank admits the boost of a channel (R469). -/
def State.admits (s : State) (c : Nat) : Bool :=
  decide (s.budgetUsed (c / 4) + s.getU E.PEAK_A c ≤ 16000)
    || (bankChans (c / 4)).all fun d => s.phase d != 2 && s.phase d != 3

/-- A channel leaves its bank's queue. -/
def State.leaveQueue (s : State) (c : Nat) : State :=
  let k := s.bank (c / 4)
  if k.queue.contains c then
    s.putBank (c / 4) { k with
      queue := k.queue.filter fun d => d != c, long := k.long && k.queue.head? != some c
      waitMax := max k.waitMax (s.now - (s.valve c).queuedAt) }
  else s

/-! ### Seating windows (R472 to R475) -/

/-- The open window of a channel ends. -/
def State.endSeat (s : State) (c result tick delay : Nat) : State :=
  let v := s.valve c
  match v.seat with
  | none => s
  | some (event, start) =>
    s.putValve c { v with
      seat := none
      seatEnd := some { result := result, event := event, tick := tick, delay := delay, ended := s.tick, start := start } }

/-- A demand that changes the phase abandons the window (R475). -/
def State.abandonSeat (s : State) (c : Nat) : State := s.endSeat c 3 s.tick 0

/-- A window opens now. -/
def State.openSeat (s : State) (c event : Nat) : State := s.putValve c { s.valve c with seat := some (event, s.now) }

/-! ### The profile (R462 to R470) -/

/-- Boost starts. -/
def State.startBoost (s : State) (c : Nat) : State :=
  (((s.leaveQueue c).abandonSeat c).setPhase c 2).incU E.ENERGISE_COUNT c

/-- An energise demand takes effect: boost at once, or a place in the bank's queue (R462, R465, R469). -/
def State.energise (s : State) (c : Nat) : State :=
  let ph := s.phase c
  if ph = 1 then s
  else if ph = 2 || ph = 3 || ((s.bank (c / 4)).queue.isEmpty && s.admits c) then s.startBoost c
  else
    let s := s.abandonSeat c
    let s := s.setPhase c 1
    let s := s.putValve c { s.valve c with under := if ph = 7 then 0 else ph, queuedAt := s.now }
    let k := s.bank (c / 4)
    let s := s.putBank (c / 4) { k with queue := k.queue ++ [c] }
    (s.incU E.BOOST_WAITS c).latch E.VALVE_LATCHES 0 (valveKey c)

/-- A de-energise demand takes effect at once from any phase (R466); it opens the release window (R472). -/
def State.deenergise (s : State) (c : Nat) : State :=
  let low := s.lowSide c
  let ph := s.phase c
  let s := s.leaveQueue c
  if ph = 0 || ph = 6 || ph = 7 then s
  else if low = 0 || low = 7 then (s.abandonSeat c).setPhase c 0
  else ((s.abandonSeat c).setPhase c 6).openSeat c 1

/-- A channel goes from peak to descent, where the energise window opens (R462, R472). -/
def State.toDescent (s : State) (c : Nat) (cut : Bool) : State :=
  let s := (s.setPhase c 4).openSeat c 0
  let s := s.putValve c { s.valve c with peakCut := cut }
  if cut then s.latch E.VALVE_LATCHES 2 (valveKey c) else s

/-- Peaks are cut short until the head of the queue fits, in the order of their start (R470). -/
def State.cutPeaks (s : State) (b : Nat) : State :=
  match (s.bank b).queue with
  | [] => s
  | head :: _ =>
    let peaks := sortBy (fun c => (s.valve c).phaseFrom) ((bankChans b).filter fun c => s.phase c == 3)
    peaks.foldl (fun s c => if s.admits head then s else s.toDescent c true) s

/-- A channel goes from boost to peak. -/
def State.toPeak (s : State) (c : Nat) (short : Bool) : State :=
  let s := s.setPhase c 3
  let s := s.putValve c { s.valve c with peakShort := short }
  if (s.bank (c / 4)).long then s.cutPeaks (c / 4) else s

/-- BOOST_ADMIT (R469): the head of a bank's queue is admitted. -/
def execBoostAdmit (t bank : Nat) (s : State) : Host.Outcome State Fault Refusal :=
  let s := s.at t
  done <| match (s.bank bank).queue with
    | [] => s
    | c :: _ => s.when (decide (bank < 14) && s.admits c) fun s => s.startBoost c

/-- BOOST_END (R462): the current reaches `PEAK_A`. -/
def execBoostEnd (t ch current : Nat) (s : State) : Host.Outcome State Fault Refusal :=
  let s := s.at t
  done <| s.when (s.phase ch == 2 && decide (s.getU E.PEAK_A ch ≤ current)) fun s => s.toPeak ch false

/-- BOOST_TIMEOUT (R464): `BOOST_MAX_US` has passed. -/
def execBoostTimeout (t ch : Nat) (s : State) : Host.Outcome State Fault Refusal :=
  let s := s.at t
  done <| s.when (s.phase ch == 2 && decide ((s.valve ch).phaseFrom + s.getU E.BOOST_MAX_US ch * us ≤ s.now)) fun s =>
    (s.toPeak ch true).latch E.VALVE_LATCHES 3 (valveKey ch)

/-- PEAK_END (R462): `PEAK_US` has passed. -/
def execPeakEnd (t ch : Nat) (s : State) : Host.Outcome State Fault Refusal :=
  let s := s.at t
  done <| s.when (s.phase ch == 3 && decide ((s.valve ch).phaseFrom + s.getU E.PEAK_US ch * us ≤ s.now)) fun s =>
    s.toDescent ch false

/-- BOOST_WAIT_LONG (R470): the head of the queue has waited 2.0 ms. -/
def execBoostWaitLong (t bank : Nat) (s : State) : Host.Outcome State Fault Refusal :=
  let s := s.at t
  let k := s.bank bank
  done <| match k.queue with
    | [] => s
    | c :: _ =>
      s.when (decide (bank < 14) && !k.long && decide ((s.valve c).queuedAt + 2 * ms ≤ s.now)) fun s =>
        ((s.putBank bank { k with long := true }).latch E.VALVE_LATCHES 1 (valveKey c)).cutPeaks bank

/-- DESCENT_END (R462): the current falls to `HOLD_A`; a channel that queues holds meanwhile (R465). -/
def execDescentEnd (t ch current : Nat) (s : State) : Host.Outcome State Fault Refusal :=
  let s := s.at t
  done <| s.when (decide (current ≤ s.getU E.HOLD_A ch) && s.lowSide ch == 4) fun s =>
    if s.phase ch = 1 then
      let s := s.putValve ch { s.valve ch with under := 5 }
      s.setU E.BANK_RAIL (ch / 4) (s.bankRail (ch / 4))
    else s.setPhase ch 5

/-- RELEASE_END (R462): the current falls below 0.05 A. -/
def execReleaseEnd (t ch current : Nat) (s : State) : Host.Outcome State Fault Refusal :=
  let s := s.at t
  done <| s.when (decide (current < 50) && s.lowSide ch == 6) fun s =>
    if s.phase ch = 1 then s.putValve ch { s.valve ch with under := 0 } else s.setPhase ch 0

/-! ### Seating results -/

/-- SEAT_KINK (R473): a change of slope above `SEAT_KINK` in an open window. -/
def execSeatKink (t ch kink : Nat) (s : State) : Host.Outcome State Fault Refusal :=
  let s := s.at t
  let v := s.valve ch
  done <| match v.seat with
    | none => s
    | some (_, start) =>
      s.when (decide (s.getU E.SEAT_KINK ch < kink) && decide (s.now ≤ start + s.getU E.SEAT_WINDOW_MS ch * ms)) fun s =>
        s.endSeat ch 1 s.tick ((s.now - v.latchedAt) / 250000)

/-- SEAT_WINDOW_END (R473): `SEAT_WINDOW_MS` has passed without a kink. -/
def execSeatWindowEnd (t ch : Nat) (s : State) : Host.Outcome State Fault Refusal :=
  let s := s.at t
  done <| match (s.valve ch).seat with
    | none => s
    | some (_, start) =>
      s.when (decide (start + s.getU E.SEAT_WINDOW_MS ch * ms ≤ s.now)) fun s => s.endSeat ch 2 s.tick 0

/-- The channel that drives a branch's isolation valve (R571). -/
def State.isoChannel (s : State) (b : Nat) : Option Nat :=
  let out := s.getU E.BR_ISO_VALVE b
  if out = 0xFF then none else (s.listedUnits E.VALVE_OUTPUT 56).find? fun c => s.getU E.VALVE_OUTPUT c == out

/-- The plant demands a state of a channel it holds. -/
def State.plantValve (s : State) (c d : Nat) : State :=
  let v := s.valve c
  s.putValve c { v with plant := some d, fresh := 1 :: v.fresh }

/-- The supervisor demands closing of a branch's isolation valve (R571, R572). -/
def State.demandClose (s : State) (b c : Nat) : State :=
  let s := s.plantValve c (s.getU E.BR_ISO_CLOSE b)
  s.putBranch b { s.branch b with closeSeen := s.now, oppositeFrom := none }

/-- ISOLATION_CONFIRM (R571, R572): the seating result of a closing demand. -/
def State.isolationConfirm (s : State) (c : Nat) (r : SeatEnd) : State :=
  (s.plant.branches.filter fun p => p.2.leak == 2).foldl (fun s p =>
    let b := p.1
    let x := p.2
    let event := if s.getU E.BR_ISO_CLOSE b = 1 then 0 else 1
    if s.isoChannel b = some c && r.event == event && decide (x.closeSeen ≤ r.start) && x.oppositeFrom.isNone then
      if r.result = 1 then
        (s.putBranch b { x with leak := 3 }).latch E.PLANT_LATCHES 6 (branchKey b)
      else if !x.retried then
        (s.plantValve c (1 - s.getU E.BR_ISO_CLOSE b)).putBranch b { x with retried := true, oppositeFrom := some s.now }
      else (s.putBranch b { x with leak := 4 }).latch E.PLANT_LATCHES 7 (branchKey b)
    else s) s

/-- SEAT_RESULT_PUBLISH (R474, R475): at the tick boundary after a window ends, its result is shown. -/
def execSeatResultPublish (t ch : Nat) (s : State) : Host.Outcome State Fault Refusal :=
  let s := s.at t
  let v := s.valve ch
  done <| match v.seatEnd with
    | none => s
    | some r =>
      s.when (decide (r.ended < s.tick)) fun s =>
        let s := s.putValve ch { v with seatEnd := none }
        let s := (s.setU E.SEAT_RESULT ch r.result).setU E.SEAT_EVENT ch r.event
        let s := (s.setU E.SEAT_TICK ch r.tick).setU E.SEAT_DELAY ch r.delay
        let want := (s.getU E.VALVE_CONFIG ch).testBit (1 + r.event)
        let s := if r.result = 2 && want then s.latch E.VALVE_LATCHES 4 (valveKey ch) else s
        s.isolationConfirm ch r

/-! ### Demands and owners (R459 to R461, R463) -/

/-- The owner in force: 0 rest, 1 plant, 2 engine, 3 host. -/
def State.valveOwner (s : State) (c : Nat) : Nat :=
  if s.inRest then 0
  else if (s.valve c).plant.isSome then 1
  else if (s.sinkEngine 1 c 0).isSome then 2
  else 3

/-- The demand of the owner in force. An engine that has handed nothing off yet leaves the demand as it is. -/
def State.ownerDemand (s : State) (c : Nat) : Nat :=
  let v := s.valve c
  match s.valveOwner c with
  | 0 => s.getU E.VALVE_REST c
  | 1 => v.plant.getD 0
  | 2 => v.eng.getD (s.getU E.VALVE_DEMAND c)
  | _ => v.host

/-- The fault bits of R485. -/
def State.valveFaultBit (s : State) (c b : Nat) : Bool := (s.getU E.VALVE_FAULT c).testBit b
def State.clearValveFault (s : State) (c b : Nat) : State := s.setU E.VALVE_FAULT c (clrBit (s.getU E.VALVE_FAULT c) b)

/-- A channel with an energise demand starts, unless a fault or the feed keeps it off (R471, R476): a hot channel starts
once its switch is below 125 °C. -/
def State.tryEnergise (s : State) (c : Nat) : State :=
  if s.ioc.valvesLow || s.valveFaultBit c 2 || s.valveFaultBit c 3 then s
  else if s.valveFaultBit c 4 then
    (if (s.valve c).temp < 125 then (s.clearValveFault c 4).energise c else s)
  else s.energise c

/-- VALVE_DEMAND_LATCH (R463): the IOC latches a changed demand at the actuator update. -/
def State.latchValve (s : State) (c : Nat) : State :=
  if !s.isActive (valveRow c) || s.follower c || (s.valve c).switching.isSome || s.getU E.VALVE_OUTPUT c = 0xFF then s
  else
    let v := s.valve c
    let o := s.valveOwner c
    let d := s.ownerDemand c
    let changed := d != s.getU E.VALVE_DEMAND c || v.fresh.contains o
    let s := (s.setU E.VALVE_OWNER c o).setU E.VALVE_DEMAND c d
    let s := s.putValve c { v with fresh := [], restart := false }
    if changed then
      let s := s.putValve c { s.valve c with latchedAt := s.now, shorts := 0, retryAt := none }
      if d = 1 then s.tryEnergise c else s.deenergise c
    else if v.restart && d == 1 && (s.phase c == 0 || s.phase c == 7) then s.tryEnergise c
    else s

/-- The valves' part of an actuator update, in ascending channel number (R469). -/
def State.latchValves (s : State) : State := (List.range 56).foldl State.latchValve s

/-- The service of one value of `VALVE_CMD` (R460, R477). -/
def valveCmd (v : Nat) (mine : Bytes → Bool) (run : Nat → State → State) : Service :=
  cmdService E.VALVE_CMD 56 false (some 1) mine (fun _ => false)
    (fun c b s =>
      codeIf (beNat b != v) St.outOfRange
        ++ codeIf (v != 2 && (s.valveOwner c != 3 || !s.isActive (valveRow c) || s.follower c)) St.conflict)
    (fun c _ s => ([], run c s))

/-- The host demands a state. -/
def State.hostValve (s : State) (c d : Nat) : State :=
  let v := s.valve c
  s.putValve c { v with host := d, fresh := 3 :: v.fresh }

/-- The service of `execValveCmdDeenergise`. -/
def valveCmdDeenergiseService : Service :=
  (valveCmd 0 (argFirst [1, 2]) fun c s => s.hostValve c 0)

/-- VALVE_CMD 0 (R460). Blocks of another length and values without a row of their own are refused here. -/
def execValveCmdDeenergise (t : Nat) (rx : Rx) (s : State) : Host.Outcome State Fault Refusal :=
  done ((s.at t).serve rx valveCmdDeenergiseService)

/-- The service of `execValveCmdEnergise`. -/
def valveCmdEnergiseService : Service :=
  (valveCmd 1 (argEq 1) fun c s => s.hostValve c 1)

/-- VALVE_CMD 1 (R460). -/
def execValveCmdEnergise (t : Nat) (rx : Rx) (s : State) : Host.Outcome State Fault Refusal :=
  done ((s.at t).serve rx valveCmdEnergiseService)

/-! ### Faults (R476, R477) -/

/-- A fault of a channel: its bit, its count, its latch and record (R476). -/
def State.valveFault (s : State) (c b : Nat) : State :=
  ((s.setU E.VALVE_FAULT c (setBit (s.getU E.VALVE_FAULT c) b)).inc E.VALVE_FAULTS).latch E.VALVE_LATCHES 6 (valveKey c)

/-- A channel goes to fault-off. -/
def State.faultOff (s : State) (c : Nat) : State := (s.leaveQueue c).setPhase c 7

/-- VALVE_OPEN_ON (R476): less than 0.1 A 500 µs into boost. -/
def execValveOpenOn (t ch current : Nat) (s : State) : Host.Outcome State Fault Refusal :=
  let s := s.at t
  done <| s.when (s.phase ch == 2 && decide (current < 100)
      && decide ((s.valve ch).phaseFrom + 500 * us ≤ s.now)) fun s => (s.valveFault ch 0).faultOff ch

/-- VALVE_SHORT (R476): the first short in a demand is retried after 10 ms, a second gives fault-off. -/
def execValveShort (t ch : Nat) (s : State) : Host.Outcome State Fault Refusal :=
  let s := s.at t
  let low := s.lowSide ch
  done <| s.when (low == 2 || low == 3 || low == 5) fun s =>
    let s := (s.valveFault ch 2).faultOff ch
    let v := s.valve ch
    s.putValve ch { v with shorts := v.shorts + 1, retryAt := if v.shorts = 0 then some (s.now + 10 * ms) else none }

/-- VALVE_SHORT_RETRY (R476). -/
def execValveShortRetry (t ch : Nat) (s : State) : Host.Outcome State Fault Refusal :=
  let s := s.at t
  let v := s.valve ch
  done <| match v.retryAt with
    | none => s
    | some due =>
      s.when (decide (due ≤ s.now)) fun s =>
        let s := s.putValve ch { v with retryAt := none }
        if s.getU E.VALVE_DEMAND ch = 1 && s.isActive (valveRow ch) && !s.ioc.valvesLow && !s.valveFaultBit ch 3
          then s.energise ch else s

/-- BANK_OVERCURRENT (R476): the high-side current exceeds 40 A. -/
def execBankOvercurrent (t bank current : Nat) (s : State) : Host.Outcome State Fault Refusal :=
  let s := s.at t
  done <| s.when (decide (bank < 14) && decide (40000 < current)) fun s =>
    let s := s.putBank bank { s.bank bank with fault := true }
    (bankChans bank).foldl (fun s c => (s.valveFault c 3).faultOff c) s

/-- VALVE_HOT (R476): the switch's temperature; at 150 °C the channel goes to fault-off. -/
def execValveHot (t ch temp : Nat) (s : State) : Host.Outcome State Fault Refusal :=
  let s := s.at t
  done <| s.when (decide (ch < 56)) fun s =>
    let s := s.putValve ch { s.valve ch with temp := temp }
    if 150 ≤ temp && !s.valveFaultBit ch 4 then (s.valveFault ch 4).faultOff ch else s

/-- The service of `execValveCmdClear`. -/
def valveCmdClearService : Service :=
  (valveCmd 2 (argEq 2) fun c s =>
    let beyond := s.valveFaultBit c 3
    let s := if beyond then
        let s := s.putBank (c / 4) { s.bank (c / 4) with fault := false }
        let s := (bankChans (c / 4)).foldl (fun s d =>
          (s.clearValveFault d 3).putValve d { s.valve d with restart := !s.valveFaultBit d 2 || d == c }) s
        s.setU E.BANK_RAIL (c / 4) (s.bankRail (c / 4))
      else s
    let s := if s.valveFaultBit c 2 then s.putValve c { s.valve c with restart := true, shorts := 0, retryAt := none } else s
    let hot := if s.valveFaultBit c 4 && decide (125 ≤ (s.valve c).temp) then 16 else 0
    let driver := if s.valveFaultBit c 5 && !s.isActive (valveRow c) then 32 else 0
    s.setU E.VALVE_FAULT c (hot + driver))

/-- VALVE_CMD 2 (R477): every bit whose cause has ended clears; a bank over-current clears on all four channels. A fault
that ends so lets a channel with an energise demand start at the next update. -/
def execValveCmdClear (t : Nat) (rx : Rx) (s : State) : Host.Outcome State Fault Refusal :=
  done ((s.at t).serve rx valveCmdClearService)

/-- The open test of channels that are off, at tick index 0 (R476): `noCoil` are those whose coil was not found. -/
def State.valveOffCheck (s : State) (noCoil : List Nat) : State :=
  (List.range 56).foldl (fun s c =>
    if s.isActive (valveRow c) && (s.getU E.VALVE_CONFIG c).testBit 3 && s.phase c == 0 then
      if !noCoil.contains c then s.clearValveFault c 1
      else if s.valveFaultBit c 1 then s
      else s.valveFault c 1
    else s) s

/-! ### Take-over (R478 to R480) -/

/-- A driver fault fences a channel with its low side open. -/
def State.fenceValve (s : State) (c : Nat) : State :=
  let row := valveRow c
  match (s.unit row).role with
  | 0 =>
    let s := (s.valveFault c 5).faultOff c
    let s := s.putValve c { s.valve c with seat := none, fenceTick := some s.tick, retryAt := none, fresh := [] }
    s.fenceUnit row
  | 1 => (s.valveFault c 5).fenceUnit row
  | 3 => s.putUnit row { s.unit row with outcome := some (1, s.tick) }
  | _ => s

/-- VALVE_DRIVER_FAULT (R476, R478): a switch, the current sense or, for all four channels, the bank's high side. A pair
is fenced as one. -/
def execValveDriverFault (t ch : Nat) (highSide : Bool) (s : State) : Host.Outcome State Fault Refusal :=
  let s := s.at t
  let l := if highSide then bankChans (ch / 4)
    else if s.paired ch then [ch, ch + 1] else if s.follower ch then [ch - 1, ch] else [ch]
  done <| s.when (decide (ch < 56)) fun s => l.foldl State.fenceValve s

/-- The spare pair with the lowest use, for a paralleled pair (R479). -/
def State.sparePair (s : State) : Option Nat :=
  let ok (c : Nat) : Bool := (s.unit (valveRow c)).role == 1 && (s.unit (valveRow c)).tested
  minBy (fun c => s.useTurns (s.unit (valveRow c)) + s.useTurns (s.unit (valveRow (c + 1))))
    ((List.range 28).map (2 * ·) |>.filter fun c => ok c && ok (c + 1))

/-- Every engine binding of a sink names spare `a` instead (R479, R448). -/
def State.rebindSink (s : State) (kind n a : Nat) : State :=
  (s.listedUnits E.OUT_BIND 256).foldl (fun s k =>
    let b := s.getU E.OUT_BIND k
    if bKind b = kind && bSel b = n then s.setU E.OUT_BIND k (bWithSel b a) else s) s

/-- Spare `a` takes channel `c`'s configuration, owner and demand, and its switch begins to move. -/
def State.moveValve (s : State) (c a : Nat) : State :=
  let out := s.getU E.VALVE_OUTPUT c
  let s := [4, 5, 6, 7, 8, 9, 10, 11, 2, 3].foldl (fun s i =>
    s.copyKey (E.VALVE_CMD.key - 1 + 256 * c + i) (E.VALVE_CMD.key - 1 + 256 * a + i)) s
  let v := s.valve c
  let s := s.putValve a { host := v.host, eng := v.eng, plant := v.plant, switching := some (out, s.now), temp := (s.valve a).temp }
  let s := s.putValve c { v with fenceTick := none, plant := none, eng := none, fresh := [] }
  let s := ((s.setU E.VALVE_OUTPUT c 0xFF).setU E.VALVE_MOVED_TO c a).rebindSink 1 c a
  (s.inc E.VALVE_TAKEOVERS).latch E.VALVE_LATCHES 7 (valveKey c)

/-- VALVE_TAKEOVER (R478 to R480): at the next tick boundary a spare takes the output; a pair takes two spares of one
bank. -/
def execValveTakeover (t ch : Nat) (s : State) : Host.Outcome State Fault Refusal :=
  let s := s.at t
  let none_ (s : State) : State :=
    if s.spareInTest (kindRows 4) then s
    else
      let s := s.putValve ch { s.valve ch with fenceTick := none }
      (s.setU E.VALVE_OUTPUT ch 0xFF).latch E.VALVE_LATCHES 8 (valveKey ch)
  done <| match (s.valve ch).fenceTick with
    | none => s
    | some f =>
      s.when (decide (f < s.tick)) fun s =>
        let out := s.getU E.VALVE_OUTPUT ch
        if s.follower ch || out = 0xFF then s.putValve ch { s.valve ch with fenceTick := none }
        else if s.paired ch then
          match s.sparePair with
          | some a => ((s.promote (valveRow a) out).promote (valveRow (a + 1)) out).moveValve ch a
          | none => none_ s
        else
          match s.bestSpare (kindRows 4) with
          | some row => (s.promote row out).moveValve ch (row - kindRow 4)
          | none => none_ s

/-- VALVE_SWITCH_DONE (R478): the spare is connected and takes the demand. -/
def execValveSwitchDone (t ch : Nat) (s : State) : Host.Outcome State Fault Refusal :=
  let s := s.at t
  let v := s.valve ch
  done <| match v.switching with
    | none => s
    | some (out, _) =>
      let s := (s.putValve ch { v with switching := none, latchedAt := s.now }).setU E.VALVE_OUTPUT ch out
      if s.getU E.VALVE_DEMAND ch = 1 then s.tryEnergise ch else s

/-! ### The actuator feed (R471), the boost rail (R481), and what is shown -/

/-- Every channel is off (R458, R471); demands are kept. -/
def State.valvesOff (s : State) : State :=
  (List.range 56).foldl (fun s c =>
    if s.phase c = 0 || s.phase c = 7 then s else (s.leaveQueue c).setPhase c 0) s

/-- The valve channels lose their feed (R471, R672). -/
def State.valvesLose (s : State) : State :=
  if s.ioc.valvesLow then s
  else
    let s : State := { s with ioc := { s.ioc with valvesLow := true } }
    s.valvesOff.latch E.VALVE_LATCHES 5

/-- The valve channels have their feed again (R471, R672): those whose demand is energise start at the next update. -/
def State.valvesRegain (s : State) : State :=
  if !s.ioc.valvesLow then s
  else
    let s : State := { s with ioc := { s.ioc with valvesLow := false } }
    (List.range 56).foldl (fun s c =>
      if s.getU E.VALVE_DEMAND c = 1 then s.putValve c { s.valve c with restart := true } else s) s

/-- VALVE_FEED_LOW (R471): the feed falls below 22.0 V. -/
def execValveFeedLow (t volts : Nat) (s : State) : Host.Outcome State Fault Refusal :=
  let s := s.at t
  done <| s.when (decide (volts < 22000)) fun s =>
    let s : State := { s with ioc := { s.ioc with feed := volts } }
    s.valvesLose

/-- VALVE_FEED_RESTORE (R471): the feed rises above 23.0 V; with the fuse open the channels stay without it (R672). -/
def execValveFeedRestore (t volts : Nat) (s : State) : Host.Outcome State Fault Refusal :=
  let s := s.at t
  done <| s.when (decide (23000 < volts)) fun s =>
    let s : State := { s with ioc := { s.ioc with feed := volts } }
    if s.get E.ACT_FUSE_STATE = 0 then s.valvesRegain else s

/-- BOOST_V_APPLY (R481): at the first tick boundary with no channel in boost, peak or descent. -/
def execBoostVApply (t : Nat) (s : State) : Host.Outcome State Fault Refusal :=
  let s := s.at t
  let free := (List.range 56).all fun c => s.lowSide c < 2 || 4 < s.lowSide c
  done <| match s.dict.held.get E.BOOST_V.key with
    | some (_, _, due) =>
      s.when (decide (due ≤ s.tick) && free) fun s =>
        { s with dict := { s.dict with held := s.dict.held.erase E.BOOST_V.key } }
    | none => s

/-- What the banks and channels show at a tick boundary (R481, R482, R487). -/
def State.valveTick (s : State) (coils : List (Nat × Nat)) (banks : List Nat) (rail : Nat) : State :=
  let s := coils.foldl (fun s p => s.setU E.VALVE_CURRENT p.1 p.2) (s.set E.BOOST_RAIL_V rail)
  (List.range 14).foldl (fun s b =>
    let s := (s.setU E.BANK_BUDGET_USED b (s.budgetUsed b)).setU E.BANK_QUEUE b (s.bank b).queue.length
    s.setU E.BANK_CURRENT b (nth banks b 0)) s

/-- `BANK_WAIT_MAX` of the turn that ends (R470). -/
def State.valveTurn (s : State) : State :=
  (List.range 14).foldl (fun s b =>
    let k := s.bank b
    (s.setU E.BANK_WAIT_MAX b (ceilDiv k.waitMax us)).when (k.waitMax != 0) fun s => s.putBank b { k with waitMax := 0 }) s

/-- `VALVE_STATUS` (R484). -/
def State.valveStatus (s : State) (c : Nat) : Nat :=
  let b (x : Bool) (k : Nat) : Nat := if x then 2 ^ k else 0
  (s.unit (valveRow c)).role * 8192 + b (s.follower c) 12 + b (s.phase c == 1) 11 + b (s.valve c).peakCut 10
    + b (s.valve c).peakShort 9 + b (s.bankRail (c / 4) == 2) 8

end Sys2Proof.Machine
end

