-- ==== Sys2Proof/Machine/Fans.lean ====
section
/-! DEFINITION. Fan channels (chapter 15, R488 to R512) and the cooling law (R577). Fans 0 to 27 are the customer
channels; fans 28 to 33 stand for the internal fans 0 to 5, which run the same loop on fixed constants (R505). -/

namespace Sys2Proof.Machine

/-! ### The two kinds of fan -/

def fanRow (c : Nat) : Nat := if c < 28 then kindRow 5 + c else kindRow 6 + (c - 28)

/-- A constant of a fan: an entry of R507, or a fixed one of R505. -/
def State.fanParam (s : State) (c : Nat) (e : Ent) : Nat :=
  if c < 28 then s.getU e c
  else if e.key = E.FAN_PPR.key then 2
  else if e.key = E.FAN_RPM_MAX.key then 9000
  else if e.key = E.FAN_START_MS.key then 1000
  else if e.key = E.FAN_KICKS.key then 3
  else Config.ifanConst e.key

/-- The entry of a customer channel `e` or of an internal fan `i` that shows a value of fan `c`. -/
def State.fanGet (s : State) (c : Nat) (e i : Ent) : Nat := if c < 28 then s.getU e c else s.getU i (c - 28)
def State.fanSet (s : State) (c : Nat) (e i : Ent) (v : Nat) : State :=
  if c < 28 then s.setU e c v else s.setU i (c - 28) v

def State.fanState (s : State) (c : Nat) : Nat := s.fanGet c E.FAN_STATE E.IFAN_STATE
def State.setFanState (s : State) (c v : Nat) : State := s.fanSet c E.FAN_STATE E.IFAN_STATE v
def State.fanFault (s : State) (c : Nat) : Nat := s.fanGet c E.FAN_FAULT E.IFAN_FAULT
def State.setFanFault (s : State) (c v : Nat) : State := s.fanSet c E.FAN_FAULT E.IFAN_FAULT v
def State.fanSpeed (s : State) (c : Nat) : Nat := s.fanGet c E.FAN_SPEED E.IFAN_SPEED

/-- Whether a fan runs: it is active, or it is the spare of a planned test that has to run first (R652). -/
def State.fanActive (s : State) (c : Nat) : Bool :=
  s.isActive (fanRow c) || (decide (28 ≤ c) && s.wear.ifanSwap.map Prod.snd == some (c - 28))

/-- The fans a staggered order takes: customer channels in ascending number, then internal fans (R496). -/
def State.allFans (s : State) : List Nat := (List.range 34).filter s.fanActive

/-- The instant of the actuator update of the tick in progress, at which speed loops run (R493). -/
def State.runInstant (s : State) : Nat := s.wheel.tickStart + s.wheel.tickLen / 2

/-! ### Owners and targets (R491, R492, R495) -/

/-- `FAN_OWNER`; internal fans obey rest, watchdog and else the cooling law. -/
def State.fanOwner (s : State) (c : Nat) : Nat :=
  if s.inRest then 0
  else if s.ioc.watchdog.isSome then 1
  else if c < 28 then
    if s.plant.fanHeld.contains c then 2 else if (s.sinkEngine 2 c 0).isSome then 3 else 4
  else 4

/-- The resonance bands of a channel that are enabled: lower and upper edge. -/
def State.bands (s : State) (c : Nat) : List (Nat × Nat) :=
  if c < 28 then
    ([E.FAN_BAND_0, E.FAN_BAND_1, E.FAN_BAND_2, E.FAN_BAND_3].map fun e =>
      (bits (s.getU e c) 31 16, bits (s.getU e c) 15 0)).filter fun b => b.1 != 0 || b.2 != 0
  else []

/-- The band a speed in rpm, as F32, lies strictly inside. -/
def State.bandAt (s : State) (c x : Nat) : Option (Nat × Nat) :=
  (s.bands c).find? fun b => f32Lt (f32Int b.1) x && f32Lt x (f32Int b.2)

/-- Step 4 of R492. -/
def State.offBand (s : State) (c x : Nat) : Nat :=
  match s.bandAt c x with
  | some (lo, hi) => if f32Lt (f32Add x x) (f32Int (lo + hi)) then f32Int lo else f32Int hi
  | none => x

/-- The working target as F32, none for full speed (R491, R492). A channel whose engine has handed nothing off keeps its
working target; while an internal fan is replaced the others run at full speed (R506). -/
def State.fanTarget (s : State) (c : Nat) : Option Nat :=
  let x := s.fan c
  let o := s.fanOwner c
  if o ≤ 1 then none
  else if 28 ≤ c && (s.ioc.ifanNone || (s.ioc.ifanWait.isSome && s.ioc.ifanWait != some (c - 28))) then none
  else if o = 3 && x.engFull then none
  else
    let t := if 28 ≤ c then f32Int (s.get E.IFAN_LAW_TARGET)
      else if o = 2 then f32Int (s.getU E.FAN_RPM_MAX c)
      else if o = 3 then (match x.eng with | some v => v | none => f32Int (s.getU E.FAN_TARGET_ACTIVE c))
      else f32Int (s.getU E.FAN_TARGET c)
    if f32Le t 0 then some 0
    else
      let lo := if c < 28 then s.getU E.FAN_RPM_MIN c else 0
      let t := f32Clamp t (f32Int lo) (f32Int (s.fanParam c E.FAN_RPM_MAX))
      if x.raised && s.getU E.FAN_RAISE_RPM c = 0 then none
      else
        let t := if x.raised then f32Max t (f32Int (s.getU E.FAN_RAISE_RPM c)) else t
        some (s.offBand c t)

/-- `FAN_TARGET_ACTIVE`. -/
def targetShown (t : Option Nat) : Nat := match t with | some v => satBytes 2 ((f32Dy v).rint).toNat | none => 0xFFFF

/-! ### Supply -/

/-- The supply in force, as F32 mV, shown in the converter's steps of 50 mV (R488). -/
def State.setVolts (s : State) (c v : Nat) : State :=
  let s := s.putFan c { s.fan c with v := v }
  if c < 28 then s.setU E.FAN_VOLTAGE c ((f32Floor v).toNat / 50 * 50) else s

/-- Whether tach is absent (R493). -/
def State.tachAbsent (s : State) (c : Nat) : Bool :=
  match (s.fan c).lastEdge with
  | some e => decide (e + s.fanParam c E.FAN_TACH_TIMEOUT * ms ≤ s.runInstant)
  | none => true

/-- The speed of a run in rpm, rounded down (R493), from the edges since the previous run. -/
def State.measureSpeed (s : State) (c : Nat) (edges : List Nat) : Nat :=
  let x := s.fan c
  let ppr := max 1 (s.fanParam c E.FAN_PPR)
  let times := (match x.lastEdge with | some e => [e] | none => []) ++ edges
  match times, edges with
  | _, [] =>
    match x.lastEdge with
    | some e => if s.runInstant ≤ e then 0 else 60 * sec / (ppr * (s.runInstant - e))
    | none => 0
  | t0 :: rest, _ =>
    let last := rest.getLastD t0
    if last ≤ t0 then 0 else 60 * sec * rest.length / (ppr * (last - t0))
  | [], _ => 0

/-- The measurement at a run: speed, current, and how long the converter has limited. -/
def State.measureFan (s : State) (c : Nat) (i : FanIn) : State :=
  let speed := s.measureSpeed c i.edges
  let x := s.fan c
  let s := s.putFan c { x with
    lastEdge := match i.edges.getLast? with | some e => some e | none => x.lastEdge
    edgeRuns := if i.edges.isEmpty then 0 else x.edgeRuns + 1
    limFrom := if i.limiting then some (x.limFrom.getD s.now) else none
    lastRun := some s.tick }
  let speed := if s.tachAbsent c then 0 else speed
  (s.fanSet c E.FAN_SPEED E.IFAN_SPEED (satBytes 2 speed)).fanSet c E.FAN_CURRENT E.IFAN_CURRENT (satBytes 2 i.current)

/-! ### States (R494, R498, R499) -/

/-- The feed-forward voltage of R494. -/
def State.fanFf (s : State) (c tInt : Nat) : Nat :=
  f32Div (f32Mul (f32Int (s.fanParam c E.FAN_VMAX)) tInt) (f32Int (s.fanParam c E.FAN_RPM_MAX))

/-- A group's raise ends when no channel of it has a stall, open or overload fault (R499). -/
def State.endRaise (s : State) (c : Nat) : State :=
  let g := s.getU E.FAN_GROUP c
  if 28 ≤ c || g = 0 then s
  else
    let mine := (List.range 28).filter fun d => s.getU E.FAN_GROUP d == g
    if mine.any fun d => s.fanActive d && (s.fanFault d &&& 0xD) != 0 then s
    else mine.foldl (fun s d => if (s.fan d).raised then s.putFan d { s.fan d with raised := false } else s) s

/-- Every other active channel of the group takes the raise (R499). -/
def State.raiseGroup (s : State) (c : Nat) : State :=
  let g := s.getU E.FAN_GROUP c
  if 28 ≤ c || g = 0 then s
  else
    ((List.range 28).filter fun d => d != c && s.getU E.FAN_GROUP d == g && s.fanActive d).foldl
      (fun s d => s.putFan d { s.fan d with raised := true }) s

/-- A channel enters the running state from the voltage in force (R494), or full speed when its target is that. -/
def State.enterRunning (s : State) (c : Nat) : State :=
  let x := s.fan c
  let tInt := f32Int (s.fanSpeed c)
  let s := s.putFan c { x with tInt := tInt, integ := f32Sub x.v (s.fanFf c tInt), crossing := false, kicks := 0 }
  let s := s.setFanState c (if (s.fanTarget c).isNone then 6 else 4)
  let s := if (s.fanFault c &&& 0xD) = 0 then s else (s.setFanFault c (s.fanFault c &&& 0xFFF2)).endRaise c
  if 28 ≤ c && s.ioc.ifanWait = some (c - 28) then { s with ioc := { s.ioc with ifanWait := none } } else s

/-- A start begins (R498): `FAN_START_V`, or `FAN_VMAX` for full speed. -/
def State.startFan (s : State) (c : Nat) : State :=
  let volts := if (s.fanTarget c).isNone then s.fanParam c E.FAN_VMAX else s.fanParam c E.FAN_START_V
  let s := s.putFan c { s.fan c with phaseFrom := s.runInstant, kicks := 0 }
  let s := (s.setVolts c (f32Int volts)).setFanState c 1
  if c < 28 then s.incU E.FAN_STARTS c else s

/-- One run of the law of R494 toward a target. -/
def State.fanLaw (s : State) (c target : Nat) : State :=
  let x := s.fan c
  let ramp := f32Int (s.fanParam c E.FAN_RAMP)
  let speed := f32Int (s.fanSpeed c)
  let vmax := f32Int (s.fanParam c E.FAN_VMAX)
  let t := f32Add x.tInt (f32Clamp (f32Sub target x.tInt) (f32Neg ramp) ramp)
  let (t, jumped) := match s.bandAt c t with
    | some (lo, hi) => (if f32Lt x.tInt t then f32Int hi else f32Int lo, true)
    | none => (t, false)
  let crossing := jumped || (x.crossing && (s.bandAt c speed).isSome)
  let e := f32Sub t speed
  let raw := f32Add (f32Add (s.fanFf c t) (f32Mul (s.fanParam c E.FAN_KP) e)) x.integ
  let vNew := f32Clamp raw 0 vmax
  let sat := (f32Lt vmax raw && f32Lt 0 e) || (f32Lt raw 0 && f32Lt e 0)
  let integ := if sat then x.integ else f32Add x.integ (f32Mul (s.fanParam c E.FAN_KI) e)
  let slew := f32Int (s.fanParam c (if crossing then E.FAN_VSLEW_MAX else E.FAN_VSLEW))
  let v := f32Add x.v (f32Clamp (f32Sub vNew x.v) (f32Neg slew) slew)
  (s.putFan c { x with tInt := t, integ := integ, crossing := crossing, sat := sat }).setVolts c v

/-- The supply falls to 0 V at `FAN_VSLEW` per run (R492 step 1). -/
def State.fanFall (s : State) (c : Nat) : State :=
  s.setVolts c (f32Max 0 (f32Sub (s.fan c).v (f32Int (s.fanParam c E.FAN_VSLEW))))

/-- The supply rises to `FAN_VMAX` at `FAN_VSLEW_MAX` per run (R496). -/
def State.fanRise (s : State) (c : Nat) : State :=
  s.setVolts c (f32Min (f32Int (s.fanParam c E.FAN_VMAX)) (f32Add (s.fan c).v (f32Int (s.fanParam c E.FAN_VSLEW_MAX))))

/-- Whether a fan still waits for its place in a staggered order (R496): it keeps its supply meanwhile. -/
def State.waitsTurn (s : State) (c : Nat) : Bool := decide (s.fanOwner c ≤ 1) && !(s.fan c).started

/-- What a run does in the state in force. -/
def State.fanStep (s : State) (c : Nat) : State :=
  let st := s.fanState c
  match s.fanTarget c with
  | none =>
    if s.waitsTurn c then s
    else if st = 0 then s.startFan c
    else if st = 4 || st = 5 || st = 6 then (s.setFanState c 6).fanRise c
    else s
  | some target =>
    if f32Le target 0 then
      (if st = 7 || st = 8 || st = 5 then s else (s.setFanState c 0).fanFall c)
    else if st = 0 then s.startFan c
    else if st = 4 then s.fanLaw c target
    else if st = 5 then
      s.setVolts c (f32Min (f32Int (s.fanParam c E.FAN_VMAX))
        (f32Add (s.fan c).held (f32Int (s.fanParam c E.FAN_TACH_MARGIN))))
    else if st = 6 then (s.enterRunning c).fanLaw c target
    else s

/-! ### Cooling (R577) -/

/-- 120 × clamp((T − LO) / (HI − LO), 0, 1), rounded up: the steps of 50 rpm above 3,000; T in 1/64 °C. -/
def coolSteps (temp : Int) (lo hi : Nat) : Nat :=
  let num := (temp - 64 * lo).toNat
  let den := 64 * (hi - lo)
  if den ≤ num then 120 else ceilDiv (120 * num) den

/-- COOLING_LAW (R577). -/
def State.coolingLaw (s : State) : State :=
  let stack := (List.range 4).foldl (fun m k => max m (s16 (s.getU E.STACK_TEMP k))) (-32768)
  let steps := [coolSteps (s16 (s.get E.COOL_INLET_T)) 20 40, coolSteps (s16 (s.get E.COOL_DIE_T)) 70 95,
    coolSteps stack 70 90, coolSteps (s16 (s.get E.COOL_BOARD_T)) 60 95].foldl max 0
  s.set E.IFAN_LAW_TARGET (3000 + 50 * steps)

/-! ### The run -/

/-- A staggered order begins with its first fan (R496, R497). -/
def State.beginStagger (s : State) (l : List Nat) : State :=
  let s := l.foldl (fun s c => s.putFan c { s.fan c with started := false }) s
  match l with
  | [] => s
  | c :: rest =>
    let s := s.putFan c { s.fan c with started := true }
    { s with ioc := { s.ioc with stagger := rest, staggerAt := s.now } }

/-- WATCHDOG_RELEASE (R497): once the host is heard again the watchdog gives up its channels. The rest owner begins its
own order at the first run in the rest stance. -/
def State.fanOwners (s : State) : State :=
  let s := match s.ioc.watchdog with
    | some at_ =>
      if at_ < s.dict.hostHeard then
        let s : State := { s with ioc := { s.ioc with watchdog := none, stagger := if s.inRest then s.ioc.stagger else [] } }
        s
      else s
    | none => s
  if s.inRest && !s.ioc.restFans then
    let s : State := { s with ioc := { s.ioc with restFans := true } }
    s.beginStagger s.allFans
  else s

/-- SPEED_LOOP_RUN (R492 to R495, R577): one run of a fan's speed loop, at the actuator update of every tick whose index
is a multiple of an eighth of the turn. -/
def execSpeedLoopRun (t ch : Nat) (x : FanIn) (s : State) : Host.Outcome State Fault Refusal :=
  let s := s.at t
  let eighth := max 1 (s.ticksPerTurn / 8)
  done <| s.when (s.fwRuns && !s.ioc.linkLost && decide (ch < 34) && s.wheel.idx % eighth == 0 && s.pastSlot 50
      && (s.fan ch).lastRun != some s.tick && s.fanActive ch && (s.fan ch).switching.isNone) fun s =>
    let s := s.fanOwners.coolingLaw
    let s := (s.measureFan ch x).fanStep ch
    let s := if s.tachAbsent ch then s else s.putFan ch { s.fan ch with held := (s.fan ch).v }
    let s := if ch < 28 then s.setU E.FAN_OWNER ch (s.fanOwner ch) else s
    s.fanSet ch E.FAN_TARGET_ACTIVE E.IFAN_TARGET_ACTIVE (targetShown (s.fanTarget ch))

/-- FAN_WATCHDOG (R496): the host has been silent for `FAN_WATCHDOG_S`. -/
def execFanWatchdog (t : Nat) (s : State) : Host.Outcome State Fault Refusal :=
  let s := s.at t
  done <| s.when (s.fwRuns && s.ioc.watchdog.isNone
      && decide (s.dict.hostHeard + s.get E.FAN_WATCHDOG_S * sec ≤ s.now)) fun s =>
    let s : State := { s with ioc := { s.ioc with watchdog := some s.now } }
    (if s.inRest then s else s.beginStagger s.allFans).latch E.FAN_LATCHES 0

/-- FAN_STAGGER_START (R496, R503): the next fan of the order starts its ramp, or its restart after a low feed. -/
def execFanStaggerStart (t : Nat) (s : State) : Host.Outcome State Fault Refusal :=
  let s := s.at t
  done <| match s.ioc.stagger with
    | [] => s
    | c :: rest =>
      s.when (s.fwRuns && !s.ioc.linkLost && decide (s.ioc.staggerAt + s.get E.FAN_STAGGER_MS * ms ≤ s.now)) fun s =>
        let s : State := { s with ioc := { s.ioc with stagger := rest, staggerAt := s.now } }
        let s := s.putFan c { s.fan c with started := true }
        if s.fanState c = 8 then s.setFanState c 0 else s

/-! ### Start, kicks and stall (R498 to R502) -/

/-- A fault that takes the supply to 0 V, with the group's raise (R499, R502). -/
def State.fanFaultOff (s : State) (c bit : Nat) : State :=
  let s := (s.setFanFault c (setBit (s.fanFault c) bit)).setFanState c 7
  let s := (s.putFan c { s.fan c with faultAt := s.now, limFrom := none }).setVolts c 0
  let s := (s.inc E.FAN_FAULTS).latch E.FAN_LATCHES 3 (fanKey c)
  let s := if bit = 0 then s.latch E.FAN_LATCHES 1 (fanKey c) else s
  s.raiseGroup c

/-- A kick begins. -/
def State.kickFan (s : State) (c : Nat) : State :=
  let x := s.fan c
  let s := s.putFan c { x with phaseFrom := s.runInstant, kicks := x.kicks + 1 }
  let s := (s.setVolts c (f32Int (s.fanParam c E.FAN_KICK_V))).setFanState c 2
  if c < 28 then s.incU E.FAN_KICKS_TOTAL c else s

/-- Whether a phase of `n` ms has passed at this run. -/
def State.phasePassed (s : State) (c n : Nat) : Bool := decide ((s.fan c).phaseFrom + n * ms ≤ s.runInstant)

/-- Whether the fan turns at `FAN_RPM_MIN` or more. -/
def State.turning (s : State) (c : Nat) : Bool := decide (s.fanParam c E.FAN_RPM_MIN ≤ s.fanSpeed c) && !s.tachAbsent c

/-- FAN_START_END (R498): the fan turns, or the start phase has passed. -/
def execFanStartEnd (t ch : Nat) (s : State) : Host.Outcome State Fault Refusal :=
  let s := s.at t
  done <| s.when (s.fanState ch == 1 && (s.fan ch).lastRun == some s.tick) fun s =>
    if s.turning ch then s.enterRunning ch
    else if s.phasePassed ch (s.fanParam ch E.FAN_START_MS) then
      (if s.fanParam ch E.FAN_KICKS = 0 then s.fanFaultOff ch 0 else s.kickFan ch)
    else s

/-- FAN_KICK_END (R498): running, a pause, or a stall fault after the last kick. -/
def execFanKickEnd (t ch : Nat) (s : State) : Host.Outcome State Fault Refusal :=
  let s := s.at t
  done <| s.when (s.fanState ch == 2 && (s.fan ch).lastRun == some s.tick
      && s.phasePassed ch (s.fanParam ch E.FAN_KICK_MS)) fun s =>
    if s.turning ch then s.enterRunning ch
    else if s.fanParam ch E.FAN_KICKS ≤ (s.fan ch).kicks then s.fanFaultOff ch 0
    else
      let s := s.putFan ch { s.fan ch with phaseFrom := s.runInstant }
      (s.setVolts ch 0).setFanState ch 3

/-- FAN_PAUSE_END (R498): the next kick starts. -/
def execFanPauseEnd (t ch : Nat) (s : State) : Host.Outcome State Fault Refusal :=
  let s := s.at t
  done <| s.when (s.fanState ch == 3 && (s.fan ch).lastRun == some s.tick
      && s.phasePassed ch (s.fanParam ch E.FAN_KICK_MS)) fun s => s.kickFan ch

/-- FAN_STALL_RETRY (R499, R502): after `FAN_STALL_RETRY` s the channel starts again. -/
def execFanStallRetry (t ch : Nat) (s : State) : Host.Outcome State Fault Refusal :=
  let s := s.at t
  let n := s.fanParam ch E.FAN_STALL_RETRY
  done <| s.when (s.fanState ch == 7 && (s.fanFault ch &&& 0xD) != 0 && (s.fanFault ch &&& 0x30) == 0 && n != 0
      && decide ((s.fan ch).faultAt + n * sec ≤ s.now) && s.fanActive ch) fun s => s.setFanState ch 0

/-- TACH_ABSENT (R500): the current of the run sorts a running or open-loop fan whose tach is absent. -/
def execTachAbsent (t ch : Nat) (s : State) : Host.Outcome State Fault Refusal :=
  let s := s.at t
  let st := s.fanState ch
  let half := f32Lt (f32Int (s.fanParam ch E.FAN_START_V)) (f32Add (s.fan ch).v (s.fan ch).v)
  let cur := s.fanGet ch E.FAN_CURRENT E.IFAN_CURRENT
  let sorted := decide (cur < 20) || decide (s.fanParam ch E.FAN_STALL_I ≤ cur)
  done <| s.when ((s.fan ch).lastRun == some s.tick && s.tachAbsent ch
      && ((st == 4 && half) || (st == 5 && sorted))) fun s =>
    if s.fanParam ch E.FAN_STALL_I ≤ cur then s.fanFaultOff ch 0
    else if cur < 20 then s.fanFaultOff ch 2
    else
      let s := ((s.setFanFault ch (setBit (s.fanFault ch) 1)).setFanState ch 5).inc E.FAN_FAULTS
      ((s.latch E.FAN_LATCHES 3 (fanKey ch)).latch E.FAN_LATCHES 2 (fanKey ch)).setVolts ch
        (f32Min (f32Int (s.fanParam ch E.FAN_VMAX)) (f32Add (s.fan ch).held (f32Int (s.fanParam ch E.FAN_TACH_MARGIN))))

/-- TACH_RESTORED (R501). -/
def execTachRestored (t ch : Nat) (s : State) : Host.Outcome State Fault Refusal :=
  let s := s.at t
  done <| s.when (s.fanState ch == 5 && decide (8 ≤ (s.fan ch).edgeRuns)) fun s =>
    (s.setFanFault ch (clrBit (s.fanFault ch) 1)).enterRunning ch

/-- FAN_OVERLOAD (R502): the converter has limited for 2 s. -/
def execFanOverload (t ch : Nat) (s : State) : Host.Outcome State Fault Refusal :=
  let s := s.at t
  done <| match (s.fan ch).limFrom with
    | some from_ => s.when (decide (from_ + 2 * sec ≤ s.now) && s.fanState ch != 7) fun s => s.fanFaultOff ch 3
    | none => s

/-- FAN_HOT (R502): the converter's temperature; a hot channel starts again below 125 °C. -/
def execFanHot (t ch temp : Nat) (s : State) : Host.Outcome State Fault Refusal :=
  let s := s.at t
  let hot := (s.fanFault ch).testBit 4
  done <| s.when (decide (ch < 34)) fun s =>
    let s := s.putFan ch { s.fan ch with temp := temp }
    if 150 ≤ temp && !hot then s.fanFaultOff ch 4
    else if temp < 125 && hot then
      let s := (s.setFanFault ch (clrBit (s.fanFault ch) 4)).endRaise ch
      if s.fanState ch = 7 && (s.fanFault ch &&& 0x2D) = 0 then s.setFanState ch 0 else s
    else s

/-- The service of `execFanCmd`. -/
def fanCmdService : Service :=
  cmdService E.FAN_CMD 28 false (some 1) (argFirst []) (fun _ => false)
    (fun c b s => codeIf (beNat b != 1) St.outOfRange ++ codeIf (!s.fanActive c) St.conflict)
    (fun c _ s =>
      let f := s.fanFault c
      let left := (if f.testBit 4 && decide (125 ≤ (s.fan c).temp) then 16 else 0)
        + (if f.testBit 1 && s.tachAbsent c then 2 else 0)
      let s := (s.setFanFault c left).endRaise c
      ([], if s.fanState c = 7 && !left.testBit 4 then s.setFanState c 0 else s))

/-- FAN_CMD 1 (R502): every bit whose cause has ended clears, and the channel starts when its target is above 0. -/
def execFanCmd (t : Nat) (rx : Rx) (s : State) : Host.Outcome State Fault Refusal :=
  done ((s.at t).serve rx fanCmdService)

/-! ### The actuator feed (R503) -/

/-- The fan channels lose their feed (R503, R672). -/
def State.fansLose (s : State) : State :=
  if s.ioc.fansLow then s
  else
    let s : State := { s with ioc := { s.ioc with fansLow := true, stagger := s.ioc.stagger.filter fun c => decide (28 ≤ c) } }
    let s := (List.range 28).foldl (fun s c =>
      let s := if f32Le (s.fan c).v 0 then s else s.setVolts c 0
      if s.fanActive c && s.fanState c != 7 then s.setFanState c 8 else s) s
    s.latch E.FAN_LATCHES 4

/-- The fan channels have their feed again (R503, R672): those with a target start, `FAN_STAGGER_MS` apart; before
firmware runs the power board raises them in its own order (R490). -/
def State.fansRegain (s : State) : State :=
  if !s.ioc.fansLow then s
  else
    let s : State := { s with ioc := { s.ioc with fansLow := false } }
    let low := (List.range 28).filter fun c => s.fanState c == 8
    if !s.fwRuns then { s with ioc := { s.ioc with stagger := s.ioc.stagger ++ low } }
    else
      let stops (c : Nat) : Bool := match s.fanTarget c with | some v => f32Le v 0 | none => false
      let s := (low.filter stops).foldl (fun s c => s.setFanState c 0) s
      match low.filter fun c => !stops c with
      | [] => s
      | c :: rest =>
        let s := (s.setFanState c 0).putFan c { s.fan c with started := true }
        { s with ioc := { s.ioc with stagger := rest, staggerAt := s.now } }

/-- FAN_FEED_LOW (R503): the feed falls below 20.0 V. -/
def execFanFeedLow (t volts : Nat) (s : State) : Host.Outcome State Fault Refusal :=
  let s := s.at t
  done <| s.when (decide (volts < 20000)) fun s =>
    let s : State := { s with ioc := { s.ioc with feed := volts } }
    s.fansLose

/-- FAN_FEED_RESTORE (R503): the feed rises above 21.0 V; with the fuse open the channels stay without it (R672). -/
def execFanFeedRestore (t volts : Nat) (s : State) : Host.Outcome State Fault Refusal :=
  let s := s.at t
  done <| s.when (decide (21000 < volts)) fun s =>
    let s : State := { s with ioc := { s.ioc with feed := volts } }
    if s.get E.ACT_FUSE_STATE = 0 then s.fansRegain else s

/-! ### Driver faults and take-over (R504, R506) -/

/-- FAN_DRIVER_FAULT (R502, R504, R506): the fan is fenced with its supply off. -/
def execFanDriverFault (t ch : Nat) (s : State) : Host.Outcome State Fault Refusal :=
  let s := s.at t
  let row := fanRow ch
  done <| s.when (decide (ch < 34)) fun s =>
    match (s.unit row).role with
    | 0 =>
      let s := (s.setFanFault ch (setBit (s.fanFault ch) 5)).setFanState ch 7
      let s := (s.putFan ch { s.fan ch with fenceTick := some s.tick, limFrom := none }).setVolts ch 0
      ((s.inc E.FAN_FAULTS).latch E.FAN_LATCHES 3 (fanKey ch)).fenceUnit row
    | 1 => (((s.setFanFault ch (setBit (s.fanFault ch) 5)).inc E.FAN_FAULTS).latch E.FAN_LATCHES 3 (fanKey ch)).fenceUnit row
    | 3 => s.putUnit row { s.unit row with outcome := some (1, s.tick) }
    | _ => s

/-- Spare `a` takes channel `c`'s configuration, owner and target; plant sequences name it in its place (R504, R569). -/
def State.moveFan (s : State) (c a : Nat) : State :=
  let out := s.getU E.FAN_OUTPUT c
  let subs := [1, 2] ++ (List.range 24).map (· + 3)
  let s := subs.foldl (fun s i => s.copyKey (E.FAN_TARGET.key - 1 + 256 * c + i) (E.FAN_TARGET.key - 1 + 256 * a + i)) s
  let x := s.fan c
  let s := s.putFan a { eng := x.eng, engFull := x.engFull, raised := x.raised, started := x.started
                        lastEdge := x.lastEdge, switching := some (out, s.now) }
  let s := s.setU E.FAN_SPEED a (s.getU E.FAN_SPEED c)
  let s := s.putFan c { x with fenceTick := none, eng := none, engFull := false, raised := false }
  let s := ((s.setU E.FAN_OUTPUT c 0xFF).setU E.FAN_MOVED_TO c a).rebindSink 2 c a
  let s := (s.listedUnits E.HX_FANS 16).foldl (fun s h =>
    let m := s.getU E.HX_FANS h
    if m.testBit c then s.setU E.HX_FANS h (setBit (clrBit m c) a) else s) s
  let s : State := { s with plant := { s.plant with fanHeld := s.plant.fanHeld.map fun d => if d = c then a else d } }
  (s.inc E.FAN_TAKEOVERS).latch E.FAN_LATCHES 5 (fanKey c)

/-- FAN_TAKEOVER (R504): at the next tick boundary a spare takes the output. -/
def execFanTakeover (t ch : Nat) (s : State) : Host.Outcome State Fault Refusal :=
  let s := s.at t
  done <| match (s.fan ch).fenceTick with
    | none => s
    | some f =>
      s.when (decide (f < s.tick) && decide (ch < 28)) fun s =>
        match s.bestSpare (kindRows 5) with
        | some row => (s.promote row (s.getU E.FAN_OUTPUT ch)).moveFan ch (row - kindRow 5)
        | none =>
          if s.spareInTest (kindRows 5) then s
          else
            let s := s.putFan ch { s.fan ch with fenceTick := none }
            ((s.setU E.FAN_OUTPUT ch 0xFF).latch E.FAN_LATCHES 6 (fanKey ch)).raiseGroup ch

/-- FAN_SWITCH_DONE (R504): the spare runs when tach is present, and starts otherwise. -/
def execFanSwitchDone (t ch : Nat) (s : State) : Host.Outcome State Fault Refusal :=
  let s := s.at t
  let x := s.fan ch
  done <| match x.switching with
    | none => s
    | some (out, _) =>
      let s := (s.putFan ch { x with switching := none }).setU E.FAN_OUTPUT ch out
      let stops := match s.fanTarget ch with | some v => f32Le v 0 | none => false
      let live := match x.lastEdge with
        | some e => decide (s.now < e + s.fanParam ch E.FAN_TACH_TIMEOUT * ms)
        | none => false
      if s.ioc.fansLow then s.setFanState ch 8
      else if stops || !live then s.setFanState ch 0
      else s.enterRunning ch

/-- IFAN_TAKEOVER (R506): the spare internal fan starts in the place of a failed one, the others running at full speed
meanwhile; without a spare they do so until the next start, and the module is derated (R578). -/
def execIfanTakeover (t n : Nat) (s : State) : Host.Outcome State Fault Refusal :=
  let s := s.at t
  let c := 28 + n
  let row := fanRow c
  let bad := (s.fanFault c &&& 0x25) != 0
  let serving := (s.unit row).role == 0 || (s.fan c).fenceTick.isSome
  done <| s.when (decide (n < 6) && bad && serving) fun s =>
    let s := s.putFan c { s.fan c with fenceTick := none }
    let s := if (s.unit row).role = 0 then s.setRole row 2 0xFFFF else s
    match s.bestSpare (kindRows 6) with
    | some r =>
      let s := s.promote r 0xFFFF
      let s : State := { s with ioc := { s.ioc with ifanWait := some (r - kindRow 6) } }
      let s := s.putFan (28 + (r - kindRow 6)) { started := true }
      (s.setFanState (28 + (r - kindRow 6)) 0).latch E.FAN_LATCHES 7 (fanKey c)
    | none =>
      let s : State := { s with ioc := { s.ioc with ifanNone := true }, plant := { s.plant with derated := true } }
      (s.latch E.FAN_LATCHES 8 (fanKey c)).latch E.COOL_LATCHES 2

/-- `FAN_STATUS` (R508). -/
def State.fanStatus (s : State) (c : Nat) : Nat :=
  let x := s.fan c
  let b (v : Bool) (k : Nat) : Nat := if v then 2 ^ k else 0
  (s.unit (fanRow c)).role * 8192 + b x.crossing 12 + b x.raised 11 + b x.limFrom.isSome 10 + b x.sat 9

end Sys2Proof.Machine
end

