-- ==== Sys2Proof/Machine/FieldBus.lean ====
section
/-! DEFINITION. Field bus ports (chapter 16, R513 to R543). Objects are numbered 256 × port + object. The error counters
follow ISO 11898-1 (R532), which the spec names and does not restate (notes/assumptions/45.md). -/

namespace Sys2Proof.Machine

/-! ### Ports -/

def State.fbState (s : State) (p : Nat) : Nat := s.getU E.FB_STATE p
/-- Whether the port takes part on the bus: error active, error passive or alone. -/
def State.fbOn (s : State) (p : Nat) : Bool := let st := s.fbState p; decide (2 ≤ st) && decide (st ≤ 4)

/-- A nominal bit time in ps (R515). -/
def State.fbBit (s : State) (p : Nat) : Nat :=
  let v := s.getU E.FB_NOMINAL p
  bits v 31 26 * (1 + bits v 25 17 + bits v 16 9) * 12500

/-- An entry's value in force, by object (R522, R530). -/
def State.effObj (s : State) (e : Ent) (k : Nat) : Nat := s.effU (e.up (k % 256)) (k / 256)

/-- The objects of a port with a value listed, in force or about to be. -/
def State.objects (s : State) (e : Ent) (p : Nat) : List Nat :=
  let lo := e.key + 256 * p
  let mine (l : List Nat) : List Nat := (l.filter fun k => decide (lo ≤ k) && decide (k < lo + 256)).map fun k => 256 * p + (k - lo)
  let a := mine (s.regs.map Prod.fst)
  a ++ (mine (s.dict.held.map Prod.fst)).filter fun k => !a.contains k

/-- The error state that the counters give (R532). -/
def State.fbByCounters (s : State) (p : Nat) : Nat :=
  if 128 ≤ s.getU E.FB_TEC p || 128 ≤ s.getU E.FB_REC p then 3 else 2

/-- The state follows the counters; entry into error passive sets `FB_PASSIVE` (R532). The alone state goes on. -/
def State.fbRefresh (s : State) (p : Nat) : State :=
  let st := s.fbState p
  if st ≠ 2 && st ≠ 3 then s
  else
    let new := s.fbByCounters p
    let s := s.setU E.FB_STATE p new
    if st = 2 && new = 3 then s.latchU E.FB_LATCHES p 1 (fbKey p) else s

/-! ### Arbitration (R528, R530) -/

def txEnabled (cfg : Nat) : Bool := cfg.testBit 63
def txLow (cfg : Nat) : Bool := cfg.testBit 57
def txMode (cfg : Nat) : Nat := bits cfg 59 58
def txLen (cfg : Nat) : Nat := bits cfg 55 49

/-- The rank of an identifier in arbitration: the lower one wins, a base frame before the extended frames that begin
with its identifier. -/
def arbKey (cfg : Nat) : Nat :=
  let id := bits cfg 28 0
  if cfg.testBit 62 then (id / 2 ^ 18) * 2 ^ 19 + 2 ^ 18 + id % 2 ^ 18 else (id % 2 ^ 11) * 2 ^ 19

/-- A port's pending objects. -/
def State.pendingTx (s : State) (p : Nat) : List Nat :=
  (s.ioc.tx.filter fun q => q.1 / 256 == p && q.2.pending.isSome).map Prod.fst

/-- The port offers the pending frame that wins arbitration, when it has none on the bus (R528). -/
def State.offer (s : State) (p : Nat) : State :=
  let x := s.fbPort p
  let st := s.fbState p
  if x.bus.isSome || (st != 2 && st != 3) || s.eff (E.FB_MODE.up (256 * p)) != 1 then s
  else
    match minBy (fun k => arbKey (s.effObj E.TX_CONFIG k)) (s.pendingTx p) with
    | none => s
    | some k =>
      let s := s.putTx k { s.txObj k with again := false }
      s.putPort p { x with bus := some (k, (s.txObj k).pending.getD []) }

/-! ### Reception (R513, R514, R517 to R521) -/

/-- The tick and fraction of a stamp (R74). The latch that ends the tick in progress is taken from the tick's length. -/
def State.mapStamp (s : State) (c : Nat) : Nat × Nat :=
  let w := s.wheel
  let d := (c + 2 ^ 32 - w.iocLatch % 2 ^ 32) % 2 ^ 32
  if d < 2 ^ 31 then (s.tick, d * 65536 / max 1 (w.tickLen / 12500))
  else
    let span := (w.iocLatch + 2 ^ 32 - w.iocLatchPrev % 2 ^ 32) % 2 ^ 32
    (s.tick - 1, ((c + 2 ^ 32 - w.iocLatchPrev % 2 ^ 32) % 2 ^ 32) * 65536 / max 1 span)

/-- Whether an object's configuration admits a frame (R517). -/
def rxMatches (cfg : Nat) (f : CanFrame) : Bool :=
  cfg.testBit 63 && bits cfg 28 0 == f.id && cfg.testBit 62 == f.ext
    && (match bits cfg 61 60 with | 0 => true | 1 => !f.fdf | 2 => f.fdf | _ => false)

/-- The record of a frame (R527). -/
def rxRecord (f : CanFrame) (tick frac : Nat) : Bytes :=
  let b (x : Bool) (k : Nat) : Nat := if x then 2 ^ k else 0
  beBytes 4 f.stamp ++ beBytes 8 tick ++ beBytes 2 (min frac 65535)
    ++ beBytes 1 (b f.fdf 0 + b f.brs 1 + b f.esi 2 + b f.ext 3) ++ beBytes 1 (min 64 f.data.length) ++ beBytes 4 f.id
    ++ padTo 64 (f.data.take 64)

/-- A frame is stored in its object (R518). -/
def State.storeFrame (s : State) (k : Nat) (f : CanFrame) : State :=
  let p := k / 256
  let st := s.getObj E.RX_STATUS k
  let at_ := s.mapStamp f.stamp
  let lost := st.testBit 0
  let s := (s.setObj E.RX_RECORD k (beNat (rxRecord f at_.1 at_.2))).setObj E.RX_STATUS k
    (setBit (clrBit (if lost then setBit st 1 else st) 2) 0)
  let s := s.putRx k { s.rxObj k with seen := true, lastAt := s.now }
  if lost then (s.incU E.FB_RX_OVERWRITES p).latchU E.FB_LATCHES p 5 (fbKey p) else s

/-- A successful reception lowers the receive error counter (ISO 11898-1): from above 127 to a value from 119 to 127,
which the standard leaves open. -/
def State.rxSuccess (s : State) (p : Nat) : State :=
  let n := s.getU E.FB_REC p
  if n = 0 then s
  else if n < 128 then (s.setU E.FB_REC p (n - 1)).fbRefresh p
  else (s.drawn.setU E.FB_REC p (119 + s.freeVal % 9)).fbRefresh p

/-- CAN_FRAME_RECEIVE (R513, R514, R517, R518, R535): a frame received without error. A frame of ours that was on the bus
has lost arbitration to it and is offered again. -/
def execCanFrameReceive (t port : Nat) (f : CanFrame) (s : State) : Host.Outcome State Fault Refusal :=
  let s := s.at t
  done <| s.when (decide (port < 8) && s.fbOn port) fun s =>
    let x := s.fbPort port
    let s := s.putPort port { x with
      bus := if s.fbState port = 4 then x.bus else none
      probeNow := x.probeNow || s.fbState port == 4 }
    let s := (s.incU E.FB_RX_FRAMES port).rxSuccess port
    let hit := if f.remote then none
      else (s.objects E.RX_CONFIG port).find? fun k => rxMatches (s.effObj E.RX_CONFIG k) f
    let s := match hit with
      | some k => s.storeFrame k f
      | none => s.incU E.FB_RX_UNMATCHED port
    s.offer port

/-- RX_OBJECT_STALE (R521): no frame has matched for `RX_TIMEOUT` ms. -/
def execRxObjectStale (t obj : Nat) (s : State) : Host.Outcome State Fault Refusal :=
  let s := s.at t
  let cfg := s.effObj E.RX_CONFIG obj
  let n := bits cfg 47 32
  let st := s.getObj E.RX_STATUS obj
  done <| s.when (decide (obj < 2048) && cfg.testBit 63 && n != 0 && !st.testBit 2
      && decide ((s.rxObj obj).lastAt + n * ms ≤ s.now)) fun s =>
    (s.setObj E.RX_STATUS obj (setBit st 2)).latchU E.FB_LATCHES (obj / 256) 6 (fbKey (obj / 256))

/-- A written `RX_CONFIG` takes effect (R522). -/
def State.rxConfigApply (s : State) (k : Nat) : State :=
  ((s.setObj E.RX_RECORD k 0).setObj E.RX_STATUS k 0).putRx k { lastAt := s.now }

/-! ### Transmission (R525 to R531) -/

/-- The pump whose start holds a transmit object (R525, R561): 3 × set + position. -/
def State.pumpHolding (s : State) (k : Nat) : Option Nat :=
  (s.plant.pumps.find? fun q =>
    q.2.starting.isSome && 256 * s.getU E.PUMP_PORT q.1 + s.getU E.PUMP_TX q.1 == k).map Prod.fst

/-- The owner of a transmit object's data: 0 host, 1 engine, 2 plant (R525, R531). -/
def State.txOwner (s : State) (k : Nat) : Nat :=
  if (s.pumpHolding k).isSome then 2 else if (s.sinkEngine 3 (k % 256) (k / 256)).isSome then 1 else 0

/-- Whether a plant sequence holds suppression on a port (R561). -/
def State.plantHoldsPort (s : State) (p : Nat) : Bool :=
  s.plant.pumps.any fun q => q.2.starting.isSome && s.getU E.PUMP_PORT q.1 == p

/-- Bytes of a transmit object are written by a plant sequence or an engine; the object counts as written (R526). -/
def State.writeTx (s : State) (k off : Nat) (new : Bytes) : State :=
  let data := putBytes (beBytes 64 (s.getObj E.TX_DATA k)) off new
  (s.setObj E.TX_DATA k (beNat data)).putTx k { s.txObj k with written := true }

/-- A bit of a transmit object (R558). -/
def State.writeTxBit (s : State) (k pos : Nat) (v : Bool) : State :=
  let old := field (beBytes 64 (s.getObj E.TX_DATA k)) (pos / 8) 1
  s.writeTx k (pos / 8) (beBytes 1 (putBit old (pos % 8) v))

/-- A frame of an object is queued; one still pending takes the new data and keeps its place (R526, R528). -/
def State.queueTx (s : State) (k : Nat) (periodic : Bool) : State :=
  let x := s.txObj k
  let p := k / 256
  let data := (beBytes 64 (s.getObj E.TX_DATA k)).take (txLen (s.effObj E.TX_CONFIG k))
  if x.pending.isSome then
    let onBus := match (s.fbPort p).bus with | some (j, _) => j == k | none => false
    let s := s.putTx k { x with pending := some data, again := onBus, periodic := x.periodic && periodic }
    (s.incU E.FB_TX_LATE p).latchU E.FB_LATCHES p 0 (fbKey p)
  else s.putTx k { x with pending := some data, since := s.tick, periodic := periodic }

/-- TX_FRAME_QUEUE (R526, R537): the frames that are due or were written, and what suppression skips. -/
def State.queueDue (s : State) (k : Nat) : State :=
  let cfg := s.effObj E.TX_CONFIG k
  let p := k / 256
  let x := s.txObj k
  let tim := s.getObj E.TX_TIMING k
  let period := max 1 (bits tim 31 16)
  let due := txMode cfg != 0 && s.tick % period == bits tim 15 0 % period
  let write := x.written && txMode cfg != 1
  let s := if x.written then s.putTx k { x with written := false } else s
  if !txEnabled cfg then s
  else
    let skip := due && txLow cfg && (s.fbPort p).suppressed
    let s := if skip then
        let y := s.fbPort p
        (s.putPort p { y with skipped := y.skipped + x.time }).incU E.FB_TX_SUPPRESSED p
      else s
    if write then s.queueTx k false else if due && !skip then s.queueTx k true else s

/-- The field bus part of an actuator update; ports that are off, fenced or monitoring queue nothing. -/
def State.queuePorts (s : State) : State :=
  (List.range 8).foldl (fun s p =>
    let st := s.fbState p
    if st = 0 || st = 7 || s.eff (E.FB_MODE.up (256 * p)) != 1 then s
    else ((s.objects E.TX_CONFIG p).foldl State.queueDue s).offer p) s

/-- Leaving the alone state (R535): the held frames enter arbitration. -/
def State.leaveAlone (s : State) (p : Nat) : State :=
  if s.fbState p = 4 then s.setU E.FB_STATE p (s.fbByCounters p) else s

/-- CAN_TX_DONE (R529, R534, R535): the frame on the bus was acknowledged; `time` is its bus time in ps. -/
def execCanTxDone (t port time : Nat) (s : State) : Host.Outcome State Fault Refusal :=
  let s := s.at t
  let x := s.fbPort port
  done <| match x.bus with
    | none => s
    | some (k, data) =>
      s.when (decide (port < 8) && s.fbOn port) fun s =>
        let y := s.txObj k
        let s := s.putPort port { x with bus := none, probeNow := false }
        let s := s.putTx k { y with
          pending := if y.again then y.pending else none, again := false, since := if y.again then s.tick else y.since
          sent := true, aborted := false, last := some data, time := time }
        let s := (s.incU E.FB_TX_FRAMES port).setU E.FB_UNACKED port 0
        let s := (s.setU E.FB_TEC port (s.getU E.FB_TEC port - 1)).fbRefresh port
        (s.leaveAlone port).offer port

/-! ### Errors and bus-off (R532, R533) -/

/-- BUS_OFF (R533). -/
def State.busOff (s : State) (p : Nat) : State :=
  let s := s.putPort p { s.fbPort p with bus := none, probeNow := false }
  ((s.setU E.FB_STATE p 5).incU E.FB_BUS_OFFS p).latchU E.FB_LATCHES p 2 (fbKey p)

/-- The error counters after an error (ISO 11898-1): 8 for a transmitter, 1 for a receiver, 8 more for each further step
the standard asks for. -/
def State.countError (s : State) (p : Nat) (e : CanErr) : State :=
  let first := if e.exempt then 0 else if e.sending then 8 else 1
  let x := if e.sending then E.FB_TEC else E.FB_REC
  s.setU x p (satBytes 2 (s.getU x p + first + 8 * e.more))

/-- CAN_ERROR (R532 to R535): the error is counted by kind, the counters and states follow, and an attempt that nobody
acknowledged counts toward the alone state. In bus monitoring the counters stand. -/
def execCanError (t port : Nat) (e : CanErr) (s : State) : Host.Outcome State Fault Refusal :=
  let s := s.at t
  done <| s.when (decide (port < 8) && s.fbOn port) fun s =>
    let kindEnt := match e.kind with
      | 0 => E.FB_ERR_BIT | 1 => E.FB_ERR_STUFF | 2 => E.FB_ERR_FORM | 3 => E.FB_ERR_CRC | _ => E.FB_ERR_ACK
    let s := s.incU kindEnt port
    if s.eff (E.FB_MODE.up (256 * port)) = 2 then s
    else
      let s := s.countError port e
      let s := if e.sending && decide (4 ≤ e.kind) then
          s.setU E.FB_UNACKED port (satBytes 1 (s.getU E.FB_UNACKED port + 1))
        else s
      let s := s.putPort port { s.fbPort port with bus := none }
      if 256 ≤ s.getU E.FB_TEC port then s.busOff port else (s.fbRefresh port).offer port

/-- The service of one value of `FB_CMD`. -/
def fbCmd (v : Nat) (mine : Bytes → Bool) (codes : Nat → State → List Nat) (run : Nat → State → State) : Service :=
  cmdService E.FB_CMD 8 false (some 1) mine (fun _ => false)
    (fun p b s => codeIf (beNat b != v) St.outOfRange ++ codes p s) (fun p _ s => ([], run p s))

/-- The service of `execFbCmdRejoin`. -/
def fbCmdRejoinService : Service :=
  (fbCmd 1 (argFirst [2]) (fun p s => codeIf (s.fbState p != 5) St.conflict)
    fun p s => s.putPort p { s.fbPort p with rejoin := some (s.tick + 1) })

/-- FB_CMD 1 (R533): a bus-off port rejoins at the next tick boundary. Blocks of another length and values without a row
of their own are refused here. -/
def execFbCmdRejoin (t : Nat) (rx : Rx) (s : State) : Host.Outcome State Fault Refusal :=
  done ((s.at t).serve rx fbCmdRejoinService)

/-- The service of `execFbCmdProbe`. -/
def fbCmdProbeService : Service :=
  (fbCmd 2 (argEq 2) (fun _ _ => [])
    fun p s => if s.fbState p = 4 then s.putPort p { s.fbPort p with probeNow := true } else s)

/-- FB_CMD 2 (R535): the next probe comes at the next actuator update. -/
def execFbCmdProbe (t : Nat) (rx : Rx) (s : State) : Host.Outcome State Fault Refusal :=
  done ((s.at t).serve rx fbCmdProbeService)

/-- BUS_OFF_RECOVERY_DONE (R533): 128 sequences of 11 recessive bits have passed. -/
def execBusOffRecoveryDone (t port : Nat) (s : State) : Host.Outcome State Fault Refusal :=
  let s := s.at t
  done <| s.when (s.fbState port == 6 && decide ((s.fbPort port).since + 1408 * s.fbBit port ≤ s.now)) fun s =>
    (((s.setU E.FB_STATE port 2).setU E.FB_TEC port 0).setU E.FB_REC port 0).offer port

/-- FB_INTEGRATE_DONE (R541): 11 recessive bits have passed. -/
def execFbIntegrateDone (t port : Nat) (s : State) : Host.Outcome State Fault Refusal :=
  let s := s.at t
  done <| s.when (s.fbState port == 1 && decide ((s.fbPort port).since + 11 * s.fbBit port ≤ s.now)) fun s =>
    (s.setU E.FB_STATE port (s.fbByCounters port)).offer port

/-- A written `FB_MODE` takes effect (R541): a port that is turned off drops its pending frames. -/
def State.fbModeApply (s : State) (p : Nat) : State :=
  let mode := s.getU E.FB_MODE p
  let st := s.fbState p
  if st = 7 then s
  else if mode = 0 then
    let s := s.putPort p { s.fbPort p with bus := none, rejoin := none, probeNow := false }
    let s : State := { s with ioc := { s.ioc with tx := s.ioc.tx.mapVals fun k x =>
      if k / 256 = p then { x with pending := none, again := false } else x } }
    s.setU E.FB_STATE p 0
  else if st = 0 then (s.putPort p { s.fbPort p with since := s.now }).setU E.FB_STATE p 1
  else s

/-- A written `TX_CONFIG` takes effect (R530): enabling or disabling starts the object afresh. -/
def State.txConfigApply (s : State) (k old : Nat) : State :=
  if txEnabled old == txEnabled (s.getObj E.TX_CONFIG k) then s
  else s.putTx k { written := (s.txObj k).written }

/-- FB_PORT_FENCE (R540): a controller fault fences the port until the next start. -/
def State.fencePort (s : State) (p : Nat) : State :=
  if s.fbState p = 7 then s
  else
    let s := s.putPort p { s.fbPort p with bus := none, rejoin := none }
    (s.setU E.FB_STATE p 7).latchU E.FB_LATCHES p 7 (fbKey p)

def execFbPortFence (t port : Nat) (s : State) : Host.Outcome State Fault Refusal :=
  done <| (s.at t).when (decide (port < 8)) fun s => s.fencePort port

/-! ### The alone state (R534, R535) -/

/-- ALONE_ENTER (R534): 16 attempts in a row went without an acknowledgement. -/
def execAloneEnter (t port : Nat) (s : State) : Host.Outcome State Fault Refusal :=
  let s := s.at t
  let st := s.fbState port
  done <| s.when ((st == 2 || st == 3) && decide (16 ≤ s.getU E.FB_UNACKED port)) fun s =>
    let x := s.fbPort port
    let s := match x.bus with
      | some (k, _) => s.putTx k { s.txObj k with aborted := true }
      | none => s
    let s := s.putPort port { x with bus := none, aloneFrom := s.tick, probed := s.tick, probeNow := false }
    ((s.setU E.FB_STATE port 4).incU E.FB_ALONE_EVENTS port).latchU E.FB_LATCHES port 3 (fbKey port)

/-- ALONE_PROBE (R535): the frame, pending or last sent, of the enabled object that wins arbitration is sent once. -/
def execAloneProbe (t port : Nat) (s : State) : Host.Outcome State Fault Refusal :=
  let s := s.at t
  let x := s.fbPort port
  let every := max 1 (s.ticksPerTurn * s.get E.WHEEL_NOMINAL_HZ)
  let due := decide (x.probed < s.tick) && ((s.tick - x.aloneFrom) % every == 0 || (x.probeNow && s.pastSlot 50))
  done <| s.when (s.fbState port == 4 && due && x.bus.isNone) fun s =>
    let ready := (s.objects E.TX_CONFIG port).filter fun k =>
      txEnabled (s.effObj E.TX_CONFIG k) && ((s.txObj k).pending.isSome || (s.txObj k).last.isSome)
    match minBy (fun k => arbKey (s.effObj E.TX_CONFIG k)) ready with
    | none => s
    | some k =>
      let y := s.txObj k
      s.putPort port { x with
        bus := some (k, match y.pending with | some d => d | none => y.last.getD []), probed := s.tick, probeNow := false }

/-! ### Suppression (R536 to R538) -/

/-- Whether a frame of an object without `TX_LOW` has waited too long. -/
def State.longWait (s : State) (p : Nat) : Bool :=
  (s.pendingTx p).any fun k =>
    !txLow (s.effObj E.TX_CONFIG k) && decide (s.getU E.FB_WAIT_HI p < s.tick - (s.txObj k).since)

/-- Suppression begins (R537): frames of `TX_LOW` objects that wait for a periodic due alone are withdrawn. -/
def State.suppress (s : State) (p : Nat) : State :=
  let s := s.putPort p { s.fbPort p with suppressed := true, clearRun := 0 }
  let onBus := match (s.fbPort p).bus with | some (k, _) => some k | none => none
  let s := (s.pendingTx p).foldl (fun s k =>
    let x := s.txObj k
    if txLow (s.effObj E.TX_CONFIG k) && x.periodic && onBus != some k then s.putTx k { x with pending := none } else s) s
  s.latchOpenU E.FB_LATCHES p 4 (fbKey p)

/-- FB_LOAD_CHECK (R536, R538) of a port at a tick boundary; the tick that ended lasted `len` and its bus was busy for
`busy` ps. -/
def State.loadCheck (s : State) (p len busy : Nat) : State :=
  let x := s.fbPort p
  let w := ((len, busy, x.skipped) :: x.window).take (max 1 (s.ticksPerTurn / 8))
  let total := max 1 (sumOf (fun q : Nat × Nat × Nat => q.1) w)
  let used := sumOf (fun q : Nat × Nat × Nat => q.2.1) w
  let skip := sumOf (fun q : Nat × Nat × Nat => q.2.2) w
  let s := s.putPort p { x with
    window := w, skipped := 0, loadSum := x.loadSum + (used : Rat) / total, loadTicks := x.loadTicks + 1 }
  let wait := s.longWait p
  let held := s.plantHoldsPort p
  if !x.suppressed then
    if decide (s.getU E.FB_LOAD_HI p * total < 1000 * used) || wait || held then s.suppress p else s
  else
    let clear := decide (1000 * (used + skip) ≤ s.getU E.FB_LOAD_LO p * total) && !wait && !held
    let y := s.fbPort p
    s.putPort p { y with clearRun := if clear then y.clearRun + 1 else 0 }

/-- SUPPRESSION_END (R538). -/
def execSuppressionEnd (t port : Nat) (s : State) : Host.Outcome State Fault Refusal :=
  let s := s.at t
  let x := s.fbPort port
  done <| s.when (x.suppressed && decide (s.getU E.FB_SUPPRESS_HOLD port ≤ x.clearRun)) fun s =>
    (s.putPort port { x with suppressed := false, clearRun := 0 }).latchEnd E.FB_LATCHES port 4 (fbKey port)

/-- The ports at a tick boundary: rejoins that were ordered (R533), and the load check. -/
def State.fbTick (s : State) (len : Nat) (busy : List Nat) : State :=
  (List.range 8).foldl (fun s p =>
    let s := match (s.fbPort p).rejoin with
      | some due =>
        if due ≤ s.tick then
          let s := s.putPort p { s.fbPort p with rejoin := none, since := s.now }
          if s.fbState p = 5 then s.setU E.FB_STATE p 6 else s
        else s
      | none => s
    if s.fbState p = 0 || s.fbState p = 7 then s else s.loadCheck p len (nth busy p 0)) s

/-- `FB_BUS_LOAD` of the turn that ends (R541). -/
def State.fbTurn (s : State) : State :=
  (List.range 8).foldl (fun s p =>
    let x := s.fbPort p
    if x.loadTicks = 0 then s
    else
      let s := s.setU E.FB_BUS_LOAD p (x.loadSum * 1000 / x.loadTicks).ceil.toNat
      s.putPort p { x with loadSum := 0, loadTicks := 0 }) s

/-- `TX_STATUS` (R531). -/
def State.txStatus (s : State) (k : Nat) : Nat :=
  let x := s.txObj k
  let cfg := s.effObj E.TX_CONFIG k
  let st := s.fbState (k / 256)
  let b (v : Bool) (n : Nat) : Nat := if v then 2 ^ n else 0
  let offered := match (s.fbPort (k / 256)).bus with | some (j, _) => j == k | none => false
  64 * s.txOwner k + b ((s.fbPort (k / 256)).suppressed && txLow cfg && txMode cfg != 0) 4
    + b (x.pending.isSome && (st == 4 || st == 5 || st == 6) && !offered) 3 + b x.aborted 2 + b x.sent 1
    + b x.pending.isSome 0

end Sys2Proof.Machine
end

