-- ==== Sys2Proof/Machine/Sensors.lean ====
section
/-! DEFINITION. The sensor front end (R545 to R551), sensor delivery, output hand-off and actuator update (R57). -/

namespace Sys2Proof.Machine

/-- The nearest F32 to an exact value. -/
def ratCode (q : Rat) : Nat := f32Ratio q.num q.den

/-- The value of an F32 code, 0 when it is not finite. -/
def codeRat (c : Nat) : Rat := (f32Dy c).rat

/-! ### Analog inputs (R546 to R548) -/

/-- Resistance of a PT1000 in Ω at `t` °C by IEC 60751 (notes/assumptions/50.md). -/
def pt1000Ohm (t : Rat) : Rat :=
  1000 * (1 + 39083 / 10000000 * t - 5775 / 10000000000 * t * t
    - (if t < 0 then 4183 / 1000000000000000 * (t - 100) * t * t * t else 0))

/-- The largest temperature from `lo` on, in 2^-20 °C, whose resistance does not exceed `ohm`. -/
def pt1000Aux (ohm : Rat) : Nat → Int → Int
  | 0, lo => lo
  | n + 1, lo =>
    let m := lo + ((2 ^ n : Nat) : Int)
    if pt1000Ohm ((m : Rat) / 1048576) ≤ ohm then pt1000Aux ohm n m else pt1000Aux ohm n lo

/-- Temperature of a PT1000 of `mohm` mΩ in °C. -/
def pt1000Temp (mohm : Int) : Rat :=
  (pt1000Aux ((mohm : Rat) / 1000) 29 (-134217728) : Rat) / 1048576

/-- Whether a mean lies outside the limits of its mode: 1 below, 2 above, 0 within (R546). -/
def ainFault (mode : Nat) (x : Int) : Nat :=
  let lim (lo hi : Int) : Nat := if x < lo then 1 else if hi < x then 2 else 0
  match mode with
  | 1 => lim 780000 1800000
  | 2 => lim 3600000 21000000
  | _ => lim (-200000) 10500000

/-- The value of a mean (R546). -/
def State.ainScale (s : State) (n mode : Nat) (x : Int) : Rat :=
  let lo := codeRat (s.getU E.AIN_LO n)
  let span := codeRat (s.getU E.AIN_HI n) - lo
  match mode with
  | 1 => pt1000Temp x
  | 2 => lo + ((x : Rat) - 4000000) / 16000000 * span
  | _ => lo + (x : Rat) / 10000000 * span

/-- Whether a channel serves a terminal. -/
def State.ainServes (s : State) (n : Nat) : Bool :=
  s.isActive (kindRow 8 + n) && s.getU E.AIN_TERMINAL n != 0xFF

/-- The fault bits of a channel change (R547): the episode begins and ends with them. -/
def State.ainFaultTo (s : State) (n f : Nat) : State :=
  let was := s.getU E.AIN_STATUS n
  let s := s.setU E.AIN_STATUS n f
  if was = 0 && f != 0 then s.latchOpen E.SFE_LATCHES 0 (ainKey n)
  else if was != 0 && f = 0 then s.latchEnd E.SFE_LATCHES 0 0 (ainKey n)
  else s

/-- AIN_LATCH (R546, R547): at a tick boundary the IOC latches the mean of the tick just ended and filters it; the filter
starts from the first value. A channel in fault or off latches nothing. -/
def State.ainLatch (s : State) (n : Nat) (x : Int) : State :=
  let mode := s.getU E.AIN_MODE n
  let a := s.ain n
  let a := if a.mode = mode then a else { a with mode := mode, y := none, latch := none }
  if mode = 0 || !s.ainServes n then (s.putAin n { a with latch := none }).ainFaultTo n 0
  else
    let s := s.setU E.AIN_RAW n (ofSigned 4 x)
    let f := ainFault mode x
    let s := s.ainFaultTo n f
    if f != 0 then s.putAin n { a with latch := none }
    else
      let v := s.ainScale n mode x
      let y := match a.y with
        | some c => ratCode (codeRat c + (v - codeRat c) / ((1 + s.getU E.AIN_FILTER n : Nat) : Rat))
        | none => ratCode v
      s.putAin n { a with y := some y, latch := some (y, s.tick) }

/-- The analog inputs at a tick boundary; `xs` are the means by F3 terminal. -/
def State.ainTick (s : State) (xs : List Int) : State :=
  (List.range 80).foldl (fun s n => s.ainLatch n (nth xs (s.getU E.AIN_TERMINAL n) 0)) s

/-- `AIN_STATUS` (R580). -/
def State.ainStatus (s : State) (n : Nat) : Nat := (s.unit (kindRow 8 + n)).role * 32 + s.getU E.AIN_STATUS n

/-- AIN_REFERENCE_CHECK (R548): the active channels whose reference departs are fenced; a spare in its test counts it as
a mismatch (R650). -/
def State.ainReference (s : State) (bad : List Nat) : State :=
  (bad.filter fun n => decide (n < 80)).foldl (fun s n =>
    let row := kindRow 8 + n
    if s.isActive row then
      ((s.putAin n { s.ain n with latch := none, fenceTick := some s.tick }).ainFaultTo n 0).fenceUnit row
    else s) s

/-- Every binding of analog input `n` names `a` instead: engines, branches, heat exchangers (R548, R479). -/
def State.rebindAin (s : State) (n a : Nat) : State :=
  let swap (s : State) (e : Ent) (units : Nat) : State :=
    (s.listedUnits e units).foldl (fun s k =>
      let b := s.getU e k
      if bKind b = 1 && bSel b = n then s.setU e k (bWithSel b a) else s) s
  let s := [E.MEAS_BIND, E.SP_BIND, E.FF_BIND, E.FOLLOW_BIND].foldl (fun s e => swap s e 256) s
  let s := [E.BR_SUPPLY_T, E.BR_RETURN_T, E.BR_SUPPLY_FLOW, E.BR_RETURN_FLOW].foldl (fun s e => swap s e 40) s
  swap s E.HX_PRIMARY_T 16

/-- AIN_TAKEOVER (R548): at the next tick boundary a spare takes the terminal of a fenced channel with its configuration
and bindings. -/
def execAinTakeover (t ch : Nat) (s : State) : Host.Outcome State Fault Refusal :=
  let s := s.at t
  done <| match (s.ain ch).fenceTick with
    | none => s
    | some f =>
      s.when (decide (f < s.tick)) fun s =>
        let term := s.getU E.AIN_TERMINAL ch
        match s.bestSpare (kindRows 8) with
        | some row =>
          let a := row - kindRow 8
          let s := s.promote row term
          let s := [1, 2, 3, 4, 5].foldl (fun s i =>
            s.copyKey (E.AIN_MODE.key - 1 + 256 * ch + i) (E.AIN_MODE.key - 1 + 256 * a + i)) s
          let s := s.putAin a { switching := some (term, s.now) }
          let s := s.putAin ch { s.ain ch with fenceTick := none }
          let s := ((s.setU E.AIN_TERMINAL ch 0xFF).setU E.AIN_MOVED_TO ch a).rebindAin ch a
          s.latch E.SFE_LATCHES 1 (ainKey ch)
        | none =>
          if s.spareInTest (kindRows 8) then s
          else
            let s := s.putAin ch { s.ain ch with fenceTick := none }
            (s.setU E.AIN_TERMINAL ch 0xFF).latch E.SFE_LATCHES 2 (ainKey ch)

/-- AIN_SWITCH_DONE (R548): the spare serves the terminal. -/
def execAinSwitchDone (t ch : Nat) (s : State) : Host.Outcome State Fault Refusal :=
  let s := s.at t
  let a := s.ain ch
  done <| match a.switching with
    | none => s
    | some (term, _) => (s.putAin ch { a with switching := none }).setU E.AIN_TERMINAL ch term

/-! ### Angle inputs (R550) -/

/-- An angle input at a tick boundary: count, speed over the last eighth of a turn, fault. The window holds travel, so
that an index mark's reset of the count is no movement. `len` is the length of the tick just ended. -/
def State.angleLatch (s : State) (n len : Nat) (x : AngleIn) : State :=
  let a := s.angle n
  let was := s.getU E.ANGLE_FAULT_NOW n == 1
  if s.getU E.ANGLE_MODE n = 0 then
    let s := (s.putAngle n { a with window := [], clean := 0, latch := none }).setU E.ANGLE_FAULT_NOW n 0
    if was then s.latchEnd E.SFE_LATCHES 0 5 (condKey 0 0) else s
  else
    let clean := if x.fault then 0 else a.clean + 1
    let bad := x.fault || (was && decide (clean < 8))
    let window := ((x.travel, len) :: a.window).take (max 1 (s.ticksPerTurn / 8))
    let travel := sumInt Prod.fst window
    let time := sumOf Prod.snd window
    let cpr := max 1 (s.getU E.ANGLE_CPR n)
    let speed := f32Ratio (60 * travel * (sec : Int)) (cpr * max 1 time)
    let s := ((s.setU E.ANGLE_COUNT n (x.count % 2 ^ 32)).setU E.ANGLE_SPEED n speed).setU E.ANGLE_FAULT_NOW n
      (if bad then 1 else 0)
    let s := s.putAngle n { a with window := window, clean := clean, latch := if bad then none else some (speed, s.tick) }
    if bad && !was then s.latchOpen E.SFE_LATCHES 5
    else if was && !bad then s.latchEnd E.SFE_LATCHES 0 5 0 else s

/-- The angle inputs at a tick boundary. -/
def State.angleTick (s : State) (len : Nat) (xs : List AngleIn) : State :=
  (List.range 8).foldl (fun s n => s.angleLatch n len (nth xs n {})) s

/-! ### Leak ropes (R549) -/

def ropeKey (r : Nat) : Nat := condKey 9 r

/-- ROPE_MEASURE (R549, R570): eight times a turn a rope is measured and judged. A rope that turns wet declares a leak on
each of its branches, which the supervisor acts on in its window of this tick (R544). -/
def execRopeMeasure (t rope : Nat) (x : RopeIn) (s : State) : Host.Outcome State Fault Refusal :=
  let s := s.at t
  let eighth := max 1 (s.ticksPerTurn / 8)
  done <| s.when (decide (rope < 16) && s.fwRuns && s.wheel.idx % eighth == 0
      && s.plant.ropeAt.get rope != some s.tick) fun s =>
    let s : State := { s with plant := { s.plant with ropeAt := s.plant.ropeAt.set rope s.tick } }
    let was := s.getU E.ROPE_STATE rope
    if s.getU E.ROPE_ENABLE rope = 0 then
      let s : State := { s with plant := { s.plant with ropeWet := s.plant.ropeWet.erase rope } }
      s.setU E.ROPE_STATE rope 0
    else
      let low := decide (x.kohm < s.getU E.ROPE_WET_KOHM rope)
      let run := if low then s.plant.ropeWet.getD rope 0 + 1 else 0
      let state := if 1000 < x.loop then 3 else if s.getU E.ROPE_PERSIST rope ≤ run then 2 else 1
      let s : State := { s with plant := { s.plant with ropeWet := s.plant.ropeWet.set rope run } }
      let s := (s.setU E.ROPE_KOHM rope (satBytes 4 x.kohm)).setU E.ROPE_STATE rope state
      if state = 3 && was != 3 then s.latch E.SFE_LATCHES 4 (ropeKey rope)
      else if state = 2 && was != 2 then
        let s := s.latch E.SFE_LATCHES 3 (ropeKey rope)
        let bs := (List.range 40).filter fun b => (s.getU E.ROPE_BRANCHES rope).testBit b
        { s with plant := { s.plant with leakDue := s.plant.leakDue ++ bs } }
      else s

/-! ### Mains sense (R551) -/

/-- The rms values of the turn that ended; a phase below half the mean of the other two sets `MAINS_PHASE_LOSS`. -/
def State.mainsTurn (s : State) (v : List Nat) (rotation : Nat) : State :=
  let x (k : Nat) : Nat := nth v k 0
  let s := [(E.MAINS_VRMS_L1, 0), (E.MAINS_VRMS_L2, 1), (E.MAINS_VRMS_L3, 2)].foldl (fun s p =>
    s.set p.1 (f32Ratio (x p.2) 1000)) s
  let s := s.set E.MAINS_ROTATION rotation
  if (List.range 3).any fun k => decide (4 * x k < x ((k + 1) % 3) + x ((k + 2) % 3)) then s.latch E.SFE_LATCHES 6 else s

/-! ### Sensor delivery, output hand-off, actuator update (R57) -/

/-- The sources and objects that reach the hub. -/
def State.deliver (s : State) (late : List Nat) : State :=
  let ok (kind sel : Nat) : Bool := !late.contains (65536 * kind + sel)
  let s := s.plant.ains.foldl (fun s p =>
    match p.2.latch with
    | some (v, tick) =>
      if ok 1 p.1 && tick = s.tick then
        (((s.putAin p.1 { p.2 with hub := some (v, tick) }).setU E.AIN_VALUE p.1 v).setU E.AIN_TICK p.1 tick).histValue 5 p.1 v
      else s
    | none => s) s
  let s := s.plant.angles.foldl (fun s p =>
    match p.2.latch with
    | some (v, tick) => if ok 5 p.1 && tick = s.tick then s.putAngle p.1 { p.2 with hub := some (v, tick) } else s
    | none => s) s
  let s := (List.range 34).foldl (fun s c =>
    match (s.fan c).lastRun with
    | some tick => if ok 4 c then s.putFan c { s.fan c with hub := some (f32Int (s.fanSpeed c), tick) } else s
    | none => s) s
  s.ioc.rx.foldl (fun s p =>
    let st := s.getObj E.RX_STATUS p.1
    if p.2.seen && st.testBit 0 && ok 3 p.1 then
      let rec_ := beBytes 84 (s.getObj E.RX_RECORD p.1)
      let s := s.putRx p.1 { p.2 with hub := some (field rec_ 4 8, (rec_.drop 20).take (field rec_ 15 1)) }
      s.setObj E.RX_STATUS p.1 (clrBit st 0)
    else s) s

/-- SENSOR_DELIVERY (R57, R519, R520): once a tick the IOC delivers what it latched at the boundary, the fan speeds, and
the receive objects with a new frame. Late sources keep their earlier sample tick (R25). -/
def execSensorDelivery (t : Nat) (x : SensorIn) (s : State) : Host.Outcome State Fault Refusal :=
  let s := s.at t
  done <| s.when (s.fwRuns && !s.ioc.linkLost && s.ioc.delivered != some s.tick) fun s =>
    let s : State := { s with ioc := { s.ioc with delivered := some s.tick } }
    s.deliver x.late

/-- The octets an engine's output puts into the object it binds (R428). -/
def State.engineField (s : State) (n : Nat) : Bytes :=
  fieldBytes (bFormat (s.getU E.OUT_BIND n)) (f32Mul (s.getU E.LOOP_OUTPUT n) (s.getU E.OUT_SCALE n))

/-- The transmit object of a pump. -/
def State.pumpTx (s : State) (k : Nat) : Nat := 256 * s.getU E.PUMP_PORT k + s.getU E.PUMP_TX k

/-- The objects of the lag pumps that copy engine `n`'s speed field (R559). -/
def State.lagObjects (s : State) (n : Nat) : List Nat :=
  let sets := (s.listedUnits E.PS_ENGINE 8).filter fun k => s.getU E.PS_ENGINE k == n
  sets.flatMap fun k =>
    if (s.plant.sets.getD k {}).rebind.isSome then []
    else ([0, 1, 2].filter fun j =>
      (s.plant.pumps.getD (3 * k + j) {}).running && s.getU E.PS_LEAD k != j).map fun j => s.pumpTx (3 * k + j)

/-- The demand of engine `n` passes to its sink. -/
def State.handOff (s : State) (n : Nat) : State :=
  let b := s.getU E.OUT_BIND n
  let out := s.getU E.LOOP_OUTPUT n
  let s := s.putEng n { s.eng n with send := false }
  match bKind b with
  | 1 =>
    let d := if f32Le f32Half out then 1 else 0
    let v := s.valve (bSel b)
    if v.eng = some d then s else s.putValve (bSel b) { v with eng := some d, fresh := 2 :: v.fresh }
  | 2 => s.putFan (bSel b) { s.fan (bSel b) with eng := some out, engFull := false }
  | 3 =>
    let objs := (256 * bPort b + bSel b) :: s.lagObjects n
    objs.foldl (fun s k =>
      if (s.pumpHolding k).isSome then s else s.writeTx k (bByte b) (s.engineField n)) s
  | _ => s

/-- OUTPUT_HANDOFF (R57, R425, R428): at 0.40 tick the outputs of the tick's runs pass from the hub to the IOC. -/
def execOutputHandoff (t : Nat) (s : State) : Host.Outcome State Fault Refusal :=
  let s := s.at t
  done <| s.when (s.fwRuns && !s.ioc.linkLost && s.pastSlot 40 && s.ioc.handed != some s.tick) fun s =>
    let s : State := { s with ioc := { s.ioc with handed := some s.tick } }
    s.ioc.engines.foldl (fun s p => if (s.eng p.1).send then s.handOff p.1 else s) s

/-- ACTUATOR_UPDATE (R57, R463, R526): at 0.50 tick valve demands take effect and frames are queued. -/
def execActuatorUpdate (t : Nat) (s : State) : Host.Outcome State Fault Refusal :=
  let s := s.at t
  done <| s.when (s.elec.power == 1 && decide (0 < s.wheel.tickLen) && s.pastSlot 50 && s.ioc.updated != some s.tick
      && !s.ioc.linkLost) fun s =>
    let s : State := { s with ioc := { s.ioc with updated := some s.tick } }
    s.latchValves.when s.fwRuns State.queuePorts

end Sys2Proof.Machine
end

