-- ==== Sys2Proof/Machine/Plant.lean ====
section
/-! DEFINITION. The plant map (R552 to R557): plant quantities, the heat a branch carries, plant capacity, the plant row
cuts (R574) and the state each branch shows. -/

namespace Sys2Proof.Machine

/-! ### Plant quantities (R552, R553) -/

/-- The bracket-FP32 that encloses two edges. -/
def edgesBr (lo hi : Rat) : Br :=
  (((Br.exact (Fmt.f32.roundRatio .down lo.num lo.den)).hull
    (Br.exact (Fmt.f32.roundRatio .up hi.num hi.den))).run {}).1

/-- A plant source (R552) with its sample tick: lost when the analog input delivered nothing in this tick, or the receive
object has no frame, is stale, or ends before the value. -/
def State.plantSource (s : State) (b : Nat) : Br × Option Nat :=
  match bKind b with
  | 1 =>
    match (s.ain (bSel b)).hub with
    | some (v, tick) =>
      let r := s.getU E.AIN_UNCERT (bSel b)
      if tick = s.tick && f32Finite v && f32Finite r then ({ mid := f32Dy v, rad := f32Dy r }, some tick)
      else (Br.opened, some tick)
    | none => (Br.opened, none)
  | 3 =>
    let k := 256 * bPort b + bSel b
    match (s.rxObj k).hub with
    | some (tick, data) =>
      match readField (bFormat b) (bByte b) data with
      | some v =>
        if f32Finite v && !(s.getObj E.RX_STATUS k).testBit 2 then
          ({ mid := f32Dy v, rad := Fmt.f32.div .up (f32Dy v).abs (Dy.int 100) }, some tick)
        else (Br.opened, some tick)
      | none => (Br.opened, some tick)
    | none => (Br.opened, none)
  | _ => (Br.opened, none)

/-- A quantity takes a value with the tick of its newest input. -/
def State.putQuantity (s : State) (n : Nat) (v : Br) (tick : Option Nat) : State :=
  { s with plant := { s.plant with
      quant := s.plant.quant.set n v.code32
      quantTick := match tick with | some k => s.plant.quantTick.set n k | none => s.plant.quantTick } }

/-- The sources of branch `b`, in the order of R553. -/
def State.branchBinds (s : State) (b : Nat) : List Nat :=
  [s.getU E.BR_SUPPLY_T b, s.getU E.BR_RETURN_T b, s.getU E.BR_SUPPLY_FLOW b, s.getU E.BR_RETURN_FLOW b]

/-- The quantities that come from sources. -/
def State.readSources (s : State) : State :=
  let s := (List.range 40).foldl (fun s b =>
    (s.branchBinds b).zipIdx.foldl (fun s p =>
      let (v, tick) := s.plantSource p.1
      s.putQuantity (4 * b + p.2) v tick) s) s
  (List.range 16).foldl (fun s h =>
    let (v, tick) := s.plantSource (s.getU E.HX_PRIMARY_T h)
    s.putQuantity (0x100 + h) v tick) s

/-- Edges of a quantity, none when it is open. -/
def State.edges (s : State) (n : Nat) : Option (Rat × Rat) :=
  let q := s.quantity n
  if q.isOpen then none else some (q.lo.rat, q.hi.rat)

/-! ### Heat (R554) -/

/-- Least and greatest of a list that is not empty. -/
def ratMin (l : List Rat) : Rat := l.foldl min (l.headD 0)
def ratMax (l : List Rat) : Rat := l.foldl max (l.headD 0)

/-- The heat branch `b` carries in kW, as edges. -/
def State.branchHeat (s : State) (b : Nat) : Option (Rat × Rat) :=
  match s.edges (4 * b), s.edges (4 * b + 1), s.edges (4 * b + 2) with
  | some t, some r, some f =>
    let k : Rat := (s.eff E.COOLANT_RHO * s.eff E.COOLANT_CP : Nat) / 60000000
    let l := [r.1 - t.2, r.2 - t.1].flatMap fun d => [k * f.1 * d, k * f.2 * d]
    some (ratMin l, ratMax l)
  | _, _, _ => none

/-- The row heat measured, over the enabled branches; open when a branch's heat is. -/
def State.rowHeat (s : State) : Br :=
  let l := s.branchesOn.map s.branchHeat
  if l.any Option.isNone then Br.opened
  else
    let l := l.filterMap id
    edgesBr (l.foldl (fun a p => a + p.1) 0) (l.foldl (fun a p => a + p.2) 0)

/-! ### Branches: trend line, causes, state -/

/-- The least-squares line of a window of flow midpoints, newest first: slope, and the value at the newest tick. -/
def flowFit (l : List Nat) : Option (Rat × Rat) :=
  let n := l.length
  if n < 2 then none
  else
    let sy := (l.foldl (fun a c => a.add (f32Dy c)) Dy.zero).rat
    let sxy := (l.zipIdx.foldl (fun a p => a.add ((f32Dy p.1).mul (Dy.int ((n - 1 - p.2 : Nat) : Int)))) Dy.zero).rat
    let sx : Rat := (n * (n - 1) / 2 : Nat)
    let sxx : Rat := ((n - 1) * n * (2 * n - 1) / 6 : Nat)
    let slope := ((n : Rat) * sxy - sx * sy) / ((n : Rat) * sxx - sx * sx)
    some (slope, (sy - slope * sx) / n + slope * ((n - 1 : Nat) : Rat))

/-- The flow of R555, lower edge: in trend the projected one (R564). -/
def State.usedFlow (s : State) (b : Nat) : Option Rat :=
  (s.edges (4 * b + 2)).map fun f =>
    let x := s.branch b
    if x.trend then
      match flowFit x.flows with
      | some (slope, _) => min f.1 (f.1 + slope * (s.eff E.FLOW_TREND_HORIZON : Rat))
      | none => f.1
    else f.1

/-- Whether the branch counts in Cf (R555 to R557, R573): a branch in flow stop or whose valve closing has been demanded
does not, until its flow has recovered. -/
def State.inCf (s : State) (b : Nat) : Bool :=
  let x := s.branch b
  s.effU E.BR_ENABLE b == 1 && x.stop != 1 && decide (x.leak < 2)

/-- The part of a branch in Cf, in kW. A supply above the return limit adds nothing (notes/assumptions/51.md). -/
def State.branchShare (s : State) (b : Nat) : Rat :=
  match s.inCf b, s.usedFlow b, s.edges (4 * b) with
  | true, some f, some t =>
    let k : Rat := (s.eff E.COOLANT_RHO * s.eff E.COOLANT_CP : Nat) / 60000000
    max 0 (k * f * ((s16 (s.getU E.BR_RETURN_LIMIT b) : Rat) / 64 - t.2))
  | _, _, _ => 0

/-- `HX_STATE` (R555, R585), the limit being judged on the upper edge. -/
def State.hxState (s : State) (h : Nat) : Nat :=
  if s.getU E.HX_ENABLE h = 0 then 0
  else match s.edges (0x100 + h) with
    | some t => if t.2 ≤ (s16 (s.getU E.HX_PRIMARY_MAX h) : Rat) / 64 then 1 else 2
    | none => 2

/-- PLANT_MARGIN / 100 × min(Cf, Ch) (R555). -/
def State.plantCapacity (s : State) (cf : Rat) : Rat :=
  let ch : Rat := (sumOf (fun h => if s.hxState h = 1 then s.getU E.HX_RATED_KW h else 0) (List.range 16) : Nat)
  (s.eff E.PLANT_MARGIN : Rat) / 100 * min cf ch

/-- The capacity of this tick (R555), and the fall of the branches that left Cf since the last run (R556). -/
def State.capacityRun (s : State) : State :=
  let shares := (List.range 40).map fun b => (b, s.branchShare b)
  let cf := shares.foldl (fun a p => a + p.2) 0
  let left := (s.branchesOn.filter fun b => !s.inCf b).foldl (fun a b => a + (s.branch b).share) 0
  let cap := s.plantCapacity cf
  let fall := (s.plantCapacity (cf + left) - cap).ceil.toNat
  let s := shares.foldl (fun s p =>
    if (s.branch p.1).share = p.2 then s else s.putBranch p.1 { s.branch p.1 with share := p.2 }) s
  let s : State := { s with plant := { s.plant with capDrop := s.plant.capDrop + fall } }
  let s := (s.set E.PLANT_CAPACITY (satBytes 4 cap.floor.toNat)).putQuantity 0x300 (edgesBr cap cap) (some s.tick)
  (List.range 16).foldl (fun s h => s.setU E.HX_STATE h (s.hxState h)) s

/-- The ceiling of the plant row cut that a branch's causes ask for; none without a cause (R557, R566, R571, R574). -/
def State.plantCeil (s : State) (b : Nat) : Option Nat :=
  let x := s.branch b
  if x.off || x.leak != 0 then some 0
  else if x.stop = 1 || x.stop = 2 then some (s.eff E.COAST_CAP)
  else none

/-- The row cuts of a list of branches enter the head of class 0 (R544, R568, R574). -/
def State.sendPlantCuts (s : State) (bs : List Nat) : State :=
  if !s.linkUp || !s.port.sending then s
  else
    let recs := bs.filterMap fun b => (s.plantCeil b).map fun c =>
      ({ scope := scopeBranch b, ceiling := c, slew := s.eff E.PLANT_CUT_SLEW, hold := s.eff E.PLANT_CUT_HOLD } : RowRec)
    let rest := s.desk.rowOut.filter fun r => recs.all fun q => q.scope != r.scope
    { s with desk := { s.desk with rowOut := recs ++ rest } }

/-- `BR_STATE` (R584). -/
def State.branchState (s : State) (b : Nat) : Nat :=
  let x := s.branch b
  if x.leak = 1 then 5
  else if 2 ≤ x.leak && x.leak ≤ 4 then x.leak + 4
  else if s.effU E.BR_ENABLE b = 0 then 0
  else if x.leak = 5 || x.stop = 1 then 3
  else if 2 ≤ x.stop then 4
  else if x.trend then 2
  else 1

/-- What the branches show after a run: `BR_FLOW`, `BR_HEAT` (the midpoint of the heat, rounded up) and the row heat. The
heat of a branch whose sources are lost is a free value (notes/assumptions/52.md). -/
def State.showBranches (s : State) : State :=
  let s := (List.range 40).foldl (fun s b =>
    if s.effU E.BR_ENABLE b = 0 then (s.setU E.BR_FLOW b 0).setU E.BR_HEAT b 0
    else
      let s := s.setU E.BR_FLOW b ((s.quantity (4 * b + 2)).to16.run {}).1.code16
      match s.branchHeat b with
      | some q => s.setU E.BR_HEAT b (satBytes 2 ((q.1 + q.2) / 2).ceil.toNat)
      | none => s.drawn.setU E.BR_HEAT b (s.freeVal % 65536)) s
  s.putQuantity 0x301 s.rowHeat (some s.tick)

end Sys2Proof.Machine
end

