-- ==== Sys2Proof/Machine/Pumps.lean ====
section
/-! DEFINITION. Pump sets (R558 to R563): starts, trips, leads and rotations. Pumps are numbered 3 × set + position. -/

namespace Sys2Proof.Machine

def pumpKey (i : Nat) : Nat := condKey 11 i

def State.pump (s : State) (i : Nat) : Pump := s.plant.pumps.getD i {}
def State.putPump (s : State) (i : Nat) (x : Pump) : State :=
  { s with plant := { s.plant with pumps := s.plant.pumps.set i x } }
def State.pumpSet (s : State) (k : Nat) : PumpSet := s.plant.sets.getD k {}
def State.putSet (s : State) (k : Nat) (x : PumpSet) : State :=
  { s with plant := { s.plant with sets := s.plant.sets.set k x } }

/-- The pumps of a set. -/
def State.pumpsOf (s : State) (k : Nat) : List Nat := (List.range (s.getU E.PS_PUMPS k)).map (3 * k + ·)

/-- The branches a set feeds. -/
def State.branchesOf (s : State) (k : Nat) : List Nat := (List.range 40).filter fun b => s.getU E.BR_PUMP_SET b == k

/-- A status bit of a pump's receive object, none when the copy in the hub does not hold it (R558). -/
def State.pumpBit (s : State) (i : Nat) (e : Ent) : Option Bool :=
  let pos := s.getU e i
  match (s.rxObj (256 * s.getU E.PUMP_PORT i + s.getU E.PUMP_RX i)).hub with
  | some (_, data) => if pos / 8 < data.length then some ((field data (pos / 8) 1).testBit (pos % 8)) else none
  | none => none

/-- Whether a pump's receive object shows `STALE`. -/
def State.pumpStale (s : State) (i : Nat) : Bool :=
  (s.getObj E.RX_STATUS (256 * s.getU E.PUMP_PORT i + s.getU E.PUMP_RX i)).testBit 2

/-- The run bit of a pump is commanded (R558). -/
def State.commandRun (s : State) (i : Nat) (v : Bool) : State :=
  (s.writeTxBit (s.pumpTx i) (s.getU E.PUMP_RUN_CMD_BIT i) v).putPump i { s.pump i with runCmd := v }

/-- Run bit and start speed are written to a starting pump's object, the speed at the engine's field and in its scale
(R561). -/
def State.writeStart (s : State) (i : Nat) : State :=
  let s := s.commandRun i true
  let k := i / 3
  let n := s.getU E.PS_ENGINE k
  let b := s.getU E.OUT_BIND n
  if n = 0xFFFF || bKind b != 3 then s
  else
    let v := f32Mul (f32Ratio (s.getU E.PS_START_SPEED k) 10) (s.getU E.OUT_SCALE n)
    s.writeTx (s.pumpTx i) (bByte b) (fieldBytes (bFormat b) v)

/-- PUMP_START (R561): the supervisor holds the object and commands the start. -/
def State.startPump (s : State) (i : Nat) : State :=
  (s.putPump i { s.pump i with starting := some s.tick, startedAt := s.now, clearRun := 0 }).writeStart i

/-- The standby pumps of a set that can start, lowest position first. -/
def State.standbys (s : State) (k : Nat) : List Nat :=
  (s.pumpsOf k).filter fun i => s.getU E.PUMP_ROLE i == 2 && (s.pump i).starting.isNone

/-- The standby start of a flow stop (R566, R568). -/
def State.startStandby (s : State) (k : Nat) : State :=
  if (s.pumpsOf k).any fun i => (s.pump i).starting.isSome then s
  else match s.standbys k with
    | i :: _ => s.startPump i
    | [] => s.latch E.PLANT_LATCHES 4

/-- A pump becomes lead; the engine's binding follows at the next tick boundary (R559). -/
def State.newLead (s : State) (i : Nat) : State :=
  let k := i / 3
  let s := (s.setU E.PS_LEAD k (i % 3)).setU E.PUMP_ROLE i 0
  s.putSet k { s.pumpSet k with rebind := some s.tick }

/-- A pump stops and takes a role. -/
def State.stopPump (s : State) (i role : Nat) : State :=
  let s := s.commandRun i false
  (s.putPump i { s.pump i with running := false, starting := none, clearRun := 0, faultClearFrom := none
                               lastRan := s.turn }).setU E.PUMP_ROLE i role

/-- A set without its lead `i` takes the lowest running pump as lead, if any (notes/assumptions/53.md). -/
def State.loseLead (s : State) (i : Nat) : State :=
  let k := i / 3
  if s.getU E.PS_LEAD k != i % 3 then s
  else match (s.pumpsOf k).find? fun j => (s.pump j).running with
    | some j => s.newLead j
    | none => s.setU E.PS_LEAD k 0xFF

/-- A start has succeeded (R561): the object is given up; in a rotation the runner that has run longest stops (R563). -/
def State.pumpStarted (s : State) (i : Nat) : State :=
  let k := i / 3
  let s := s.putPump i { s.pump i with starting := none, running := true, startTurn := s.turn, clearRun := 0 }
  let s := if s.getU E.PS_LEAD k = 0xFF then s.newLead i else s.setU E.PUMP_ROLE i 1
  let x := s.pumpSet k
  if x.rotating != some i then s
  else
    let s := s.putSet k { x with rotating := none, lastRotation := s.turn }
    match maxBy (fun j => s.turn - (s.pump j).startTurn)
        ((s.pumpsOf k).filter fun j => (s.pump j).running && j != i) with
    | none => s
    | some j =>
      let lead := s.getU E.PS_LEAD k == j % 3
      let s := s.stopPump j 2
      if lead then s.newLead i else s

/-- PUMP_TRIP (R562): the pump is tripped and the lowest standby starts. -/
def State.tripPump (s : State) (i : Nat) : State :=
  let s := ((s.stopPump i 3).incU E.PUMP_TRIPS i).latch E.PLANT_LATCHES 2 (pumpKey i)
  let s := s.loseLead i
  match s.standbys (i / 3) with
  | j :: _ => s.startPump j
  | [] => s

/-- Whether a running pump trips (R562); `clear` counts the ticks up to this one its run status reads clear. -/
def State.pumpTrips (s : State) (i clear : Nat) : Bool :=
  s.pumpBit i E.PUMP_FAULT_STAT_BIT == some true || decide (10 ≤ clear) || s.pumpStale i

/-- One pump at a run of the supervisor. -/
def State.pumpRun (s : State) (i : Nat) : State :=
  let x := s.pump i
  match x.starting with
  | some t0 =>
    if s.pumpBit i E.PUMP_RUN_STAT_BIT = some true then s.pumpStarted i
    else if t0 != s.tick && (s.tick - t0) % 2 = 0 then s.writeStart i
    else s
  | none =>
    if x.running then
      let clear := if s.pumpBit i E.PUMP_RUN_STAT_BIT = some false && x.runCmd then x.clearRun + 1 else 0
      let s := s.putPump i { x with clearRun := clear }
      if s.pumpTrips i clear then s.tripPump i else s
    else if s.getU E.PUMP_ROLE i = 3 then
      let clear := s.pumpBit i E.PUMP_FAULT_STAT_BIT == some false && !s.pumpStale i
      s.putPump i { x with faultClearFrom := if clear then some (x.faultClearFrom.getD s.tick) else none }
    else s

/-- A set that was enabled queues its starts (R560); one that was disabled stops its pumps (notes/assumptions/53.md). -/
def State.setEdge (s : State) (k : Nat) : State :=
  let x := s.pumpSet k
  let want := s.getU E.PS_ENABLE k == 1
  if want = x.isOn then s
  else if want then
    s.putSet k { x with isOn := true, lastRotation := s.turn, ordered := false
                        toStart := List.range (s.getU E.PS_RUN_COUNT k) }
  else
    let s := (s.pumpsOf k).foldl (fun s i => if (s.pump i).running || (s.pump i).starting.isSome then s.stopPump i 2 else s) s
    (s.putSet k { x with isOn := false, toStart := [], rotating := none, rebind := none }).setU E.PS_LEAD k 0xFF

/-- The starts of the start step: sets in ascending order, pumps in ascending position, `PS_START_GAP_MS` apart
(R560). -/
def State.chainStarts (s : State) : State :=
  match (List.range 8).find? fun k => !(s.pumpSet k).toStart.isEmpty with
  | none => s
  | some k =>
    let x := s.pumpSet k
    let due := match s.plant.startGapFrom with
      | some t0 => decide (t0 + s.getU E.PS_START_GAP_MS k * ms ≤ s.now)
      | none => true
    if !due then s
    else
      let i := 3 * k + x.toStart.headD 0
      let s := s.putSet k { x with toStart := x.toStart.drop 1 }
      if (s.standbys k).contains i then
        let s := s.startPump i
        { s with plant := { s.plant with startGapFrom := some s.now } }
      else s

/-- The pumps at a run; the sets left without a running pump by a trip are those that had one before. -/
def State.pumpsRun (s : State) : State :=
  let s := (List.range 8).foldl State.setEdge s
  let s := (List.range 8).foldl (fun s k =>
    if (s.pumpSet k).isOn then (s.pumpsOf k).foldl State.pumpRun s else s) s
  let running (k : Nat) : Nat := ((s.pumpsOf k).filter fun i => (s.pump i).running).length
  let s := (List.range 8).foldl (fun s k =>
    let t := (((s.branchesOf k).filter fun b => s.effU E.BR_ENABLE b == 1).map fun b => s.quantity (4 * b + 2)).foldl
      (fun a q => ((a.add q).run {}).1) (Br.exact Dy.zero)
    (s.putQuantity (0x200 + 2 * k) t (some s.tick)).putQuantity (0x201 + 2 * k) (Br.exact (Dy.int (running k)))
      (some s.tick)) s
  s.chainStarts

/-- Whether a supervisor command can act. -/
def State.plantOn (s : State) : Bool := s.fwRuns && !s.inRest

/-- PUMP_START_TIMEOUT (R561, R563): the start has failed. The run bit is cleared, and a set with a branch in flow stop
tries its next standby. -/
def execPumpStartTimeout (t set pump : Nat) (s : State) : Host.Outcome State Fault Refusal :=
  let s := s.at t
  let i := 3 * set + pump
  let x := s.pump i
  done <| s.when (s.plantOn && decide (set < 8) && decide (pump < 3) && x.starting.isSome
      && decide (x.startedAt + s.getU E.PS_START_MS set * ms ≤ s.now)) fun s =>
    let s := (s.stopPump i 3).latch E.PLANT_LATCHES 3 (pumpKey i)
    let s := if (s.pumpSet set).rotating = some i then
        s.putSet set { s.pumpSet set with rotating := none, lastRotation := s.turn }
      else s
    if (s.branchesOf set).any fun b => (s.branch b).stop == 1 then s.startStandby set else s

/-- PUMP_STANDBY_RETURN (R586): the fault status bit has read clear for one turn. -/
def execPumpStandbyReturn (t set pump : Nat) (s : State) : Host.Outcome State Fault Refusal :=
  let s := s.at t
  let i := 3 * set + pump
  done <| match (s.pump i).faultClearFrom with
    | none => s
    | some t0 =>
      s.when (s.plantOn && s.getU E.PUMP_ROLE i == 3 && decide (t0 + s.ticksPerTurn ≤ s.tick)) fun s =>
        (s.putPump i { s.pump i with faultClearFrom := none }).setU E.PUMP_ROLE i 2

/-- LEAD_REBIND (R559, R448): at the tick boundary after a lead change the engine's output binding names the new lead's
object. -/
def execLeadRebind (t set : Nat) (s : State) : Host.Outcome State Fault Refusal :=
  let s := s.at t
  let x := s.pumpSet set
  done <| match x.rebind with
    | none => s
    | some f =>
      s.when (s.plantOn && decide (f < s.tick)) fun s =>
        let s := s.putSet set { x with rebind := none }
        let n := s.getU E.PS_ENGINE set
        let lead := s.getU E.PS_LEAD set
        let b := s.getU E.OUT_BIND n
        if n = 0xFFFF || lead = 0xFF || bKind b != 3 then s
        else
          let i := 3 * set + lead
          let b := b - bPort b * 2 ^ 24 + s.getU E.PUMP_PORT i * 2 ^ 24
          s.setU E.OUT_BIND n (bWithSel b (s.getU E.PUMP_TX i))

/-- PUMP_ROTATION (R563): a rotation that is due begins, unless a branch of the set is in trend, flow stop or leak
isolation or a pump of the set is tripped. -/
def execPumpRotation (t set : Nat) (s : State) : Host.Outcome State Fault Refusal :=
  let s := s.at t
  let x := s.pumpSet set
  let n := s.getU E.PS_ROTATE_TURNS set
  let due := x.ordered || (n != 0 && decide (x.lastRotation + n ≤ s.turn))
  let held := ((s.branchesOf set).any fun b => let y := s.branch b; y.trend || y.stop == 1 || y.leak != 0)
    || ((s.pumpsOf set).any fun i => s.getU E.PUMP_ROLE i == 3 || (s.pump i).starting.isSome)
  done <| s.when (s.plantOn && decide (set < 8) && x.isOn && due && !held && x.rotating.isNone) fun s =>
    let s := s.putSet set { x with ordered := false, lastRotation := s.turn }
    match maxBy (fun i => s.turn - (s.pump i).lastRan) (s.standbys set) with
    | none => s
    | some i => (s.putSet set { s.pumpSet set with rotating := some i }).startPump i

/-- The service of `execPsCmd`. -/
def psCmdService : Service :=
  (cmdService E.PS_CMD 8 false (some 1) (fun _ => true) (fun _ => false)
    (fun _ b _ => codeIf (beNat b != 1) St.outOfRange)
    (fun k _ s => ([], s.putSet k { s.pumpSet k with ordered := true })))

/-- PS_CMD (R563): 1 orders a rotation. -/
def execPsCmd (t : Nat) (rx : Rx) (s : State) : Host.Outcome State Fault Refusal :=
  done ((s.at t).serve rx psCmdService)

/-- `PUMP_RUN_TURNS` at a turn boundary (R586). -/
def State.pumpTurn (s : State) : State :=
  s.plant.pumps.foldl (fun s p => if p.2.running then s.incU E.PUMP_RUN_TURNS p.1 else s) s

end Sys2Proof.Machine
end

