-- ==== Sys2Proof/Machine/Flow.lean ====
section
/-! DEFINITION. Loss of flow and leaks (R564 to R575), and the run of the plant supervisor (R544). -/

namespace Sys2Proof.Machine

/-! ### Detection (R560, R564, R565) -/

/-- A branch's flow limit in L/min: `pct` of `BR_FLOW_SET`. -/
def State.flowLimit (s : State) (b pct : Nat) : Rat := (s.getU E.BR_FLOW_SET b : Rat) / 16 * pct / 100

/-- The flow's lower edge is at or above a limit; its upper edge is below one. -/
def State.flowReaches (s : State) (b : Nat) (x : Rat) : Bool :=
  match s.edges (4 * b + 2) with | some f => decide (x ≤ f.1) | none => false
def State.flowBelow (s : State) (b : Nat) (x : Rat) : Bool :=
  match s.edges (4 * b + 2) with | some f => decide (f.2 < x) | none => false

/-- Whether the measured return, at its midpoint, exceeds the upper edge predicted under R554 by more than
`TREND_RETURN_MARGIN`; the heat is the one published for horizon tick 1. -/
def State.returnExceeds (s : State) (b : Nat) : Bool :=
  let r := s.quantity (4 * b + 1)
  match s.edges (4 * b), s.edges (4 * b + 2), s.row.heat.get b with
  | some t, some f, some (q :: _) =>
    !r.isOpen && decide (0 < f.1) &&
      decide (t.2 + s.deltaT (codeRat q) f.1 + (s.eff E.TREND_RETURN_MARGIN : Rat) / 64 < r.mid.rat)
  | _, _, _ => false

/-- Whether the slope of a full window projects the flow below `FLOW_LOW_PCT` (R564). -/
def State.slopeFalls (s : State) (b : Nat) (flows : List Nat) : Bool :=
  flows.length == s.eff E.FLOW_TREND_TICKS &&
    (match flowFit flows with
     | some (slope, y) =>
       decide (slope < 0) && decide (y + slope * (s.eff E.FLOW_TREND_HORIZON : Rat) < s.flowLimit b (s.eff E.FLOW_LOW_PCT))
     | none => false)

/-- A branch enters flow stop (R565, R566). -/
def State.enterStop (s : State) (b : Nat) : State :=
  let x := s.branch b
  let s := if x.trend then s.latchEnd E.PLANT_LATCHES 0 0 (branchKey b) else s
  (s.putBranch b { x with stop := 1, trend := false, recoverRun := 0, lapse := none, lifted := [], lowRun := 0
                          returnRun := 0, clearRun := 0 }).latch E.PLANT_LATCHES 1 (branchKey b)

/-- Whether a branch may enter flow stop: it is on, not in it, and neither isolated nor closing (R565). -/
def State.mayStop (s : State) (b : Nat) : Bool :=
  let x := s.branch b
  s.effU E.BR_ENABLE b == 1 && x.stop != 1 && decide (x.leak < 2)

/-- FLOW_TREND (R564) of an armed branch in its normal state. -/
def State.trendRun (s : State) (b : Nat) : State :=
  let x := s.branch b
  let n := s.eff E.FLOW_TREND_TICKS
  let low := !s.flowReaches b (s.flowLimit b (s.eff E.FLOW_LOW_PCT))
  let slope := s.slopeFalls b x.flows
  let ret := s.returnExceeds b
  let lowRun := if low then x.lowRun + 1 else 0
  let retRun := if ret then x.returnRun + 1 else 0
  let clear := if low || slope || ret then 0 else x.clearRun + 1
  let enter := !x.trend && (decide (n ≤ lowRun) || slope || decide (n ≤ retRun))
  let s := s.putBranch b { x with lowRun := lowRun, returnRun := retRun, clearRun := clear, trend := x.trend || enter }
  if enter then s.latchOpen E.PLANT_LATCHES 0 (branchKey b) else s

/-- One enabled branch at a run: its window, its counts, FLOW_STOP and FLOW_TREND. Detection waits until the flow has
first reached `FLOW_LOW_PCT` (R560). -/
def State.branchRun (s : State) (b : Nat) : State :=
  let x := s.branch b
  let q := s.quantity (4 * b + 2)
  let low := s.flowLimit b (s.eff E.FLOW_LOW_PCT)
  let stop := s.flowLimit b (s.eff E.FLOW_STOP_PCT)
  let n := s.eff E.FLOW_STOP_TICKS
  let flows := if q.isOpen then [] else (f32Enc (.ofDy q.mid) :: x.flows).take (s.eff E.FLOW_TREND_TICKS)
  let high := s.flowReaches b low
  let stopped := s.flowBelow b stop
  let stopRun := if stopped then x.stopRun + 1 else 0
  let recover := if s.flowReaches b (s.flowLimit b (s.eff E.FLOW_RECOVER_PCT)) then x.recoverRun + 1 else 0
  let x := { x with
    flows := flows, armed := x.armed || high, stopRun := stopRun, recoverRun := recover
    lastHigh := if high then some s.tick else x.lastHigh }
  let s := s.putBranch b x
  let lately := match x.lastHigh with | some k => decide (s.tick < k + n) | none => false
  if !x.armed then s
  else if s.mayStop b && ((stopped && lately) || decide (n ≤ stopRun)) then s.enterStop b
  else if x.stop = 0 && x.leak = 0 then s.trendRun b
  else s

/-- `BR_ENABLE` as it stands now against the last run (R557): a branch with present guests that was taken out is cut to
0, and one that comes back recovers. -/
def State.branchEdge (s : State) (b : Nat) : State :=
  let x := s.branch b
  let want := s.effU E.BR_ENABLE b == 1
  if want = x.isOn then s
  else if want then
    let x := { x with isOn := true, armed := false }
    if x.off then s.putBranch b { x with off := false, stop := 2, bound := 0, recoverTick := s.tick, lapse := none, lifted := [] }
    else s.putBranch b x
  else
    let any := s.presents.any fun p => p.2.pp.branch == b
    let s := if x.trend then s.latchEnd E.PLANT_LATCHES 0 0 (branchKey b) else s
    s.putBranch b { x with
      isOn := false, armed := false, off := any, flows := [], lowRun := 0, returnRun := 0, stopRun := 0, lastHigh := none
      trend := false, clearRun := 0, stop := 0, recoverRun := 0, lapse := none, lifted := [], share := 0 }

/-! ### Leaks (R570 to R573) -/

/-- LEAK_DECLARE (R570, R571): a leak on a branch that has none, or whose last isolation ended, caps it. -/
def State.declareLeak (s : State) (b : Nat) : State :=
  let x := s.branch b
  let s := s.latch E.PLANT_LATCHES 5 (branchKey b)
  if x.leak = 0 || x.leak = 5 then
    let s := if x.trend then s.latchEnd E.PLANT_LATCHES 0 0 (branchKey b) else s
    s.putBranch b { x with
      leak := 1, leakTick := s.tick, retried := false, oppositeFrom := none, trend := false
      stop := if x.stop = 1 then 1 else 0, lapse := none, lifted := [] }
  else s

/-- The published suspects act when `LEAK_SUSPECT_ACT` is 1 (R570). -/
def State.takeLeaks (s : State) : State :=
  let sus := if s.eff E.LEAK_SUSPECT_ACT = 1 then s.row.published else []
  let bs := (s.plant.leakDue ++ sus).eraseDups
  let s : State := { s with plant := { s.plant with leakDue := [] }, row := { s.row with published := [] } }
  bs.foldl State.declareLeak s

/-- ISOLATION_CLOSE_DEMAND (R571, R573): once the heat published for horizon tick 8 is safe, or `LEAK_CLOSE_MAX` ticks
have passed, the supervisor holds the isolation valve, keeps it closed in rest, and demands closing. -/
def execIsolationCloseDemand (t branch : Nat) (s : State) : Host.Outcome State Fault Refusal :=
  let s := s.at t
  let x := s.branch branch
  let safe := match s.row.heat.get branch with
    | some l => (match l[7]? with | some q => decide (codeRat q ≤ (s.getU E.BR_SAFE_KW branch : Rat)) | none => false)
    | none => false
  done <| s.when (s.plantOn && decide (branch < 40) && x.leak == 1
      && (safe || decide (x.leakTick + s.eff E.LEAK_CLOSE_MAX ≤ s.tick))) fun s =>
    match s.isoChannel branch with
    | none => s
    | some c =>
      let s := s.putBranch branch { x with leak := 2, retried := false, restBefore := some (x.restBefore.getD (s.getU E.VALVE_REST c)) }
      (s.setU E.VALVE_REST c (s.getU E.BR_ISO_CLOSE branch)).demandClose branch c

/-- ISOLATION_RETRY_CLOSE (R572): the opposite state has been demanded for `SEAT_WINDOW_MS`. -/
def execIsolationRetryClose (t branch : Nat) (s : State) : Host.Outcome State Fault Refusal :=
  let s := s.at t
  let x := s.branch branch
  done <| match x.oppositeFrom, s.isoChannel branch with
    | some f, some c =>
      s.when (s.plantOn && x.leak == 2 && decide (f + s.getU E.SEAT_WINDOW_MS c * ms ≤ s.now)) fun s =>
        s.demandClose branch c
    | _, _ => s

/-- Whether a rope of a branch reads wet. -/
def State.ropeWetOn (s : State) (b : Nat) : Bool :=
  (List.range 16).any fun r => s.getU E.ROPE_STATE r == 2 && (s.getU E.ROPE_BRANCHES r).testBit b

/-- Isolation ends (R573): the host's rest value returns, the valve opens, and the branch waits for its flow. A branch
without a leak stays as it is. -/
def State.endIsolation (s : State) (b : Nat) : State :=
  let x := s.branch b
  if x.leak = 0 || x.leak = 5 then s
  else
    let s := s.putBranch b { x with leak := 5, recoverRun := 0, restBefore := none, oppositeFrom := none, retried := false }
    match s.isoChannel b, x.restBefore with
    | some c, some old =>
      let s := s.setU E.VALVE_REST c old
      s.putValve c { s.valve c with
        plant := none, host := 1 - s.getU E.BR_ISO_CLOSE b, fresh := 3 :: (s.valve c).fresh }
    | _, _ => s

/-- The service of `execBrCmdEndIsolation`. -/
def brCmdEndIsolationService : Service :=
  (cmdService E.BR_CMD 40 false (some 1) (argFirst [2]) (fun _ => false)
    (fun b x s => codeIf (beNat x != 1) St.outOfRange ++ codeIf (s.ropeWetOn b) St.conflict)
    (fun b _ s => ([], s.endIsolation b)))

/-- BR_CMD 1 (R573). -/
def execBrCmdEndIsolation (t : Nat) (rx : Rx) (s : State) : Host.Outcome State Fault Refusal :=
  done ((s.at t).serve rx brCmdEndIsolationService)

/-- The service of `execBrCmdDeclareLeak`. -/
def brCmdDeclareLeakService : Service :=
  (cmdService E.BR_CMD 40 false (some 1) (argEq 2) (fun _ => false) (fun _ _ _ => [])
    (fun b _ s => ([], { s with plant := { s.plant with leakDue := s.plant.leakDue ++ [b] } })))

/-- BR_CMD 2 (R570): the supervisor declares the leak in its next window (R544). -/
def execBrCmdDeclareLeak (t : Nat) (rx : Rx) (s : State) : Host.Outcome State Fault Refusal :=
  done ((s.at t).serve rx brCmdDeclareLeakService)

/-! ### Cooler fans (R569) -/

/-- Whether heat exchanger `h` asks for its fans. -/
def State.hxAsks (s : State) (h : Nat) : Bool :=
  (s.plant.branches.any fun p => p.2.trend || p.2.stop == 1)
    || (s.getU E.HX_ENABLE h == 1 &&
        (match s.edges (0x100 + h) with
         | some t => decide ((s16 (s.getU E.HX_PRIMARY_MAX h) : Rat) / 64 < t.2)
         | none => true))

/-- The fans of the held heat exchangers. -/
def State.refreshFanHolds (s : State) : State :=
  let l := (List.range 28).filter fun c => s.plant.hxHeld.any fun h => (s.getU E.HX_FANS h).testBit c
  { s with plant := { s.plant with fanHeld := l } }

/-- The holds at a run. -/
def State.fanHolds (s : State) : State :=
  let s := (List.range 16).foldl (fun s h =>
    if s.hxAsks h then
      let held := if s.plant.hxHeld.contains h then s.plant.hxHeld else s.plant.hxHeld ++ [h]
      { s with plant := { s.plant with hxHeld := held, fanClear := s.plant.fanClear.erase h } }
    else if s.plant.hxHeld.contains h then
      { s with plant := { s.plant with fanClear := s.plant.fanClear.set h (s.plant.fanClear.getD h 0 + 1) } }
    else s) s
  s.refreshFanHolds

/-- PLANT_FAN_HOLD_RELEASE (R569). -/
def execPlantFanHoldRelease (t : Nat) (s : State) : Host.Outcome State Fault Refusal :=
  let s := s.at t
  done <| s.when s.plantOn fun s =>
    let n := s.eff E.FLOW_RECOVER_TICKS
    let s : State := { s with plant := { s.plant with
      hxHeld := s.plant.hxHeld.filter fun h => decide (s.plant.fanClear.getD h 0 < n) } }
    s.refreshFanHolds

/-! ### The run (R544) -/

/-- PLANT_SUPERVISOR_RUN (R544, R552 to R571): quantities, pumps, branches, leaks, the standby starts of branches that
entered flow stop, cooler fans, capacity, and the row cuts of the causes that are new or that lower a ceiling. -/
def execPlantSupervisorRun (t : Nat) (s : State) : Host.Outcome State Fault Refusal :=
  let s := s.at t
  done <| s.when (s.plantOn && s.pastSlot 8 && s.plant.ran != some s.tick) fun s =>
    let s : State := { s with plant := { s.plant with ran := some s.tick } }
    let runs (s : State) (k : Nat) : Bool := (s.pumpsOf k).any fun i => (s.pump i).running
    let before := (List.range 40).map s.plantCeil
    let ran := (List.range 8).filter (runs s)
    let s := ((List.range 40).foldl State.branchEdge s.readSources).pumpsRun
    let bare := ran.filter fun k => (s.pumpSet k).isOn && !runs s k
    let stopped (s : State) : List Nat := (List.range 40).filter fun b => (s.branch b).stop == 1
    let was := stopped s
    let s := bare.foldl (fun s k => ((s.branchesOf k).filter s.mayStop).foldl State.enterStop s) s
    let s := s.branchesOn.foldl State.branchRun s
    let s := s.takeLeaks
    let new := (stopped s).filter fun b => !was.contains b
    let sets := ((new.map fun b => s.getU E.BR_PUMP_SET b).filter fun k => k != 0xFF && (s.pumpSet k).isOn).eraseDups
    let s := sets.foldl State.startStandby s
    let s := s.fanHolds.capacityRun.showBranches
    let due := (List.range 40).filter fun b =>
      match s.plantCeil b, nth before b none with
      | some c, some d => decide (c < d)
      | some _, none => true
      | none, _ => false
    let watched := ((s.recorder.hists.filter fun p => p.2.source == 4).map fun p => p.2.select).eraseDups
    (s.sendPlantCuts due).histValues 4 (watched.map fun q => (q, (s.quantity q).midCode))

/-- PLANT_ROW_CUT_REFRESH (R574): at the last tick in which it can be refreshed before its hold lapses, while its cause
stands; a cut that could not leave is sent again. -/
def execPlantRowCutRefresh (t branch : Nat) (s : State) : Host.Outcome State Fault Refusal :=
  let s := s.at t
  let scope := scopeBranch branch
  let due := match s.rowInForce scope s.tick with
    | some r => decide (r.tick + r.hold ≤ s.tick + 1) && r.tick != s.tick
    | none => true
  done <| s.when (s.plantOn && decide (branch < 40) && due && !(s.desk.rowOut.any fun r => r.scope == scope)) fun s =>
    s.sendPlantCuts [branch]

/-! ### Ends (R564, R566, R567) -/

/-- TREND_END (R564). -/
def execTrendEnd (t branch : Nat) (s : State) : Host.Outcome State Fault Refusal :=
  let s := s.at t
  let x := s.branch branch
  done <| s.when (s.plantOn && x.trend && decide (s.eff E.FLOW_RECOVER_TICKS ≤ x.clearRun)) fun s =>
    (s.putBranch branch { x with trend := false, lowRun := 0, returnRun := 0 }).latchEnd E.PLANT_LATCHES 0 0 (branchKey branch)

/-- FLOW_RECOVERY (R566, R573): the branch is recovering; the allocator bounds its guests by the row cut's ceiling
(R567). -/
def execFlowRecovery (t branch : Nat) (s : State) : Host.Outcome State Fault Refusal :=
  let s := s.at t
  let x := s.branch branch
  done <| s.when (s.plantOn && (x.stop == 1 || x.leak == 5) && decide (s.eff E.FLOW_RECOVER_TICKS ≤ x.recoverRun)) fun s =>
    s.putBranch branch { x with
      bound := (s.plantCeil branch).getD 0, stop := 2, leak := if x.leak = 5 then 0 else x.leak, recoverTick := s.tick
      lapse := none, lifted := [] }

/-- PLANT_CLASS_LIFT (R566, R567): once the row cut has lapsed, the classes present on the branch are lifted in ascending
order, `PLANT_LIFT_GAP` ticks apart, the first at the lapse; after the last one the branch is normal. -/
def execPlantClassLift (t branch : Nat) (s : State) : Host.Outcome State Fault Refusal :=
  let s := s.at t
  let x := s.branch branch
  let lapsed := match x.lapse with | some l => decide (l < s.tick) | none => false
  let gap := x.lifted.isEmpty || decide (x.liftTick + s.eff E.PLANT_LIFT_GAP ≤ s.tick)
  done <| s.when (s.plantOn && x.stop == 3 && lapsed && gap) fun s =>
    let mine := s.presents.filter fun p => p.2.pp.branch == branch
    let left := (List.range 256).filter fun c => (mine.any fun p => p.2.pp.cls == c) && !x.lifted.contains c
    match left with
    | [] => s.putBranch branch { x with stop := 0, lapse := none, lifted := [] }
    | c :: rest =>
      let s := (mine.filter fun p => p.2.pp.cls == c).foldl (fun s p =>
        s.mapGuest p.1 fun g => { g with firstAllocSent := false }) s
      if rest.isEmpty then s.putBranch branch { x with stop := 0, lapse := none, lifted := [] }
      else s.putBranch branch { x with lifted := x.lifted ++ [c], liftTick := s.tick }

/-- At the end of a start (R575): the leak is declared again on each branch that is still isolated or whose ropes read
wet. -/
def State.redeclareLeaks (s : State) : State :=
  let bs := (List.range 40).filter fun b => (s.branch b).leak == 3 || s.ropeWetOn b
  let s := bs.foldl (fun s b => s.putBranch b { s.branch b with leak := 0 }) s
  { s with plant := { s.plant with leakDue := s.plant.leakDue ++ bs } }

end Sys2Proof.Machine
end

