-- ==== Sys2Proof/Machine/Cooling.lean ====
section
/-! DEFINITION. The module's own thermal sensors and the protection of the module (R576, R578). Temperatures are in
1/64 °C. -/

namespace Sys2Proof.Machine

/-- A temperature in 1/64 °C. -/
abbrev tempDy (v : Int) : Dy := ⟨v, -6⟩

/-- The distance of a temperature outside a band of radius `rad` about `mid` (R204). -/
def outside (v mid rad : Int) : Dy :=
  if mid + rad < v then tempDy (v - (mid + rad)) else if v < mid - rad then tempDy (mid - rad - v) else Dy.zero

/-- One tick of a module pair (R202 to R204, R576): the tolerance is 2.0 °C, the persistence 500 ticks. `est` and `rad`
give the predicted band. The answer names the member to quarantine, 0 or 1. -/
def pairStep (q : PairSt) (agreeTicks : Nat) (a b est rad : Int) : PairSt × Option Nat :=
  let apart := decide (128 < (a - b).natAbs)
  if !q.isOpen && !apart then (q, none)
  else
    let q := { q with isOpen := true }
    if apart then
      let q := { q with
        ticks := q.ticks + 1, agree := 0, sumA := q.sumA.add (outside a est rad), sumB := q.sumB.add (outside b est rad) }
      if q.ticks < 500 then (q, none)
      else if (Dy.int 2).le (q.sumA.sub q.sumB) then ({}, some 0)
      else if (Dy.int 2).le (q.sumB.sub q.sumA) then ({}, some 1)
      else (q, none)
    else
      let q := { q with agree := q.agree + 1 }
      if agreeTicks ≤ q.agree then ({}, none) else (q, none)

/-- The reading of a pair: the higher member, or the one not quarantined; `bits_` has the quarantine from bit `k` on. -/
def pairReading (bits_ k : Nat) (a b : Int) : Int :=
  if bits_.testBit k && !bits_.testBit (k + 1) then b
  else if bits_.testBit (k + 1) && !bits_.testBit k then a
  else max a b

/-- A member is quarantined until the next start (R576). -/
def State.coolQuarantine (s : State) (k : Nat) : State :=
  (s.set E.COOL_QUARANTINE (setBit (s.get E.COOL_QUARANTINE) k)).latch E.COOL_LATCHES 0

/-- The pairs at a tick boundary: the inlet pair at bits 16 and 17, the die pairs from bit 0. -/
def State.coolPairs (s : State) (x : TickIn) : State :=
  let n := s.eff E.PAIR_AGREE_TICKS
  let free (k : Nat) : Bool := !(s.get E.COOL_QUARANTINE).testBit k && !(s.get E.COOL_QUARANTINE).testBit (k + 1)
  let s := if free 16 then
      let (q, bad) := pairStep s.plant.inlet n (nth x.inlet 0 0) (nth x.inlet 1 0) x.inletEstimate 0
      let s : State := { s with plant := { s.plant with inlet := q } }
      match bad with | some k => s.coolQuarantine (16 + k) | none => s
    else s
  (List.range 8).foldl (fun s p =>
    if (s.get E.COOL_QUARANTINE).testBit (2 * p) || (s.get E.COOL_QUARANTINE).testBit (2 * p + 1) then s
    else
      let (q, bad) :=
        pairStep (s.plant.dies.getD p {}) n (nth x.dies (2 * p) 0) (nth x.dies (2 * p + 1) 0) x.dieEstimate 192
      let s : State := { s with plant := { s.plant with dies := s.plant.dies.set p q } }
      match bad with | some k => s.coolQuarantine (2 * p + k) | none => s) s

/-- `DIE_CEILING_EFFECTIVE` (R578). -/
def State.refreshCeiling (s : State) : State :=
  let c := s.eff E.DIE_POWER_CEILING
  s.set E.DIE_CEILING_EFFECTIVE (if s.plant.inletHot || s.plant.derated then min c 600 else c)

/-- The greatest of a list, 0 for none. -/
def intMax (l : List Int) : Int := l.foldl max (l.headD 0)

/-- The conditions of R578 on the inlet and the hottest die sensor. -/
def State.coolGuard (s : State) (inlet die : Int) : State :=
  let p := s.plant
  let hot := decide (40 * 64 < inlet)
  let from_ := if 38 * 64 < inlet then none else some (p.inletCoolFrom.getD s.tick)
  let cooled := match from_ with | some k => decide (k + s.ticksPerTurn ≤ s.tick) | none => false
  let inletHot := hot || (p.inletHot && !cooled)
  let dieHot := decide (105 * 64 ≤ die) || (p.dieHot && decide (100 * 64 ≤ die))
  let run := if 115 * 64 ≤ die then p.dieHotRun + 1 else 0
  let s : State := { s with plant := { p with
    inletHot := inletHot, inletCoolFrom := from_, dieHot := dieHot, dieHotRun := run } }
  let s := if inletHot && !p.inletHot then s.latchOpen E.COOL_LATCHES 1
    else if p.inletHot && !inletHot then s.latchEnd E.COOL_LATCHES 0 1 0 else s
  let s := if dieHot && !p.dieHot then s.latchOpen E.COOL_LATCHES 3
    else if p.dieHot && !dieHot then s.latchEnd E.COOL_LATCHES 0 3 0 else s
  s.refreshCeiling

/-- The module's thermal sensors at a tick boundary (R576, R578, R588); the air temperatures are plant quantities, in the
brackets of R272. -/
def State.coolingTick (s : State) (x : TickIn) : State :=
  let q := s.get E.COOL_QUARANTINE
  let inlet := pairReading q 16 (nth x.inlet 0 0) (nth x.inlet 1 0)
  let die := intMax ((List.range 8).map fun p => pairReading q (2 * p) (nth x.dies (2 * p) 0) (nth x.dies (2 * p + 1) 0))
  let s := (((s.set E.COOL_INLET_T (code16 inlet)).set E.COOL_OUTLET_T (code16 x.outlet)).set E.COOL_DIE_T
    (code16 die)).set E.COOL_BOARD_T (code16 (intMax x.boards))
  let air (s : State) (n : Nat) (v : Int) : State :=
    match ((Br.ofTemp (code16 v)).run {}).1 with
    | some b => s.putQuantity n b (some s.tick)
    | none => s.putQuantity n Br.opened (some s.tick)
  let s := air (air s 0x400 inlet) 0x401 x.outlet
  (s.coolPairs x).coolGuard inlet die

/-- DIE_OVERTEMP_ERROR (R578): 115 °C or more in 8 consecutive ticks is a chip-level error. -/
def execDieOvertempError (t : Nat) (s : State) : Host.Outcome State Fault Refusal :=
  let s := s.at t
  done <| s.when (s.fwRuns && decide (8 ≤ s.plant.dieHotRun)) fun s => s.enterRest 1

end Sys2Proof.Machine
end

