-- ==== Sys2Proof/Machine/Wheel.lean ====
section
/-! DEFINITION. The wheel (chapter 2): judging mains cycles, the wheel's states, the length of the next turn, the
wheel notice and the PTP messages. -/

namespace Sys2Proof.Machine

/-- The nominal turn in ps: 1 / `WHEEL_NOMINAL_HZ`. -/
def State.nominal (s : State) : Nat := sec / s.get E.WHEEL_NOMINAL_HZ

/-- Whether `n` nominal turns, in halves, have passed since `from_`. -/
def State.halfTurnsPassed (s : State) (from_ halves : Nat) : Bool :=
  decide (halves * sec ≤ 2 * s.get E.WHEEL_NOMINAL_HZ * (s.now - from_))

/-- The length of the turn in progress. -/
def State.turnLen (s : State) : Nat := s.ticksPerTurn * s.wheel.tickLen

/-- The wheel's state and the clockClass that goes with it (R47, R60). -/
def State.setWheelState (s : State) (v : Nat) : State :=
  (s.set E.WHEEL_STATE v).set E.PTP_CLOCK_CLASS (if v = 0 then 248 else if v = 1 then 13 else 14)

/-- PTP time of instant `x` in ns since the PTP epoch, rounded to nearest (R61, R66). -/
def State.ptpNs (s : State) (x : Nat) : Nat :=
  s.wheel.originS * 1000000000 + (x - s.wheel.origin + 500) / 1000

/-- Entry into Holdover (R47, R54): from Locked the mean of the last 64 locked turns is held, from Relocking the
length of the last turn. -/
def State.enterHoldover (s : State) : State :=
  let w := s.wheel
  let locked := w.locked.take 64
  let len :=
    if s.get E.WHEEL_STATE = 1 && !locked.isEmpty then sumOf id locked / locked.length else s.turnLen
  let s' : State :=
    { s with wheel := { w with heldLen := len, holdFrom := s.now, longDone := false, validRun := 0, lockRun := 0
                               closing := false } }
  (s'.setWheelState 2).latch E.WHEEL_LATCHES 0

/-- Entry into Relocking. -/
def State.enterRelock (s : State) : State :=
  let s' : State := { s with wheel := { s.wheel with lockRun := 0, closing := false } }
  s'.setWheelState 3

/-- The range test of R46 on a period in ps: 45 Hz to 65 Hz, both included. -/
def inRange (p : Nat) : Bool := decide (sec ≤ 65 * p) && decide (45 * p ≤ sec)

/-- The 2% test of R46 against a turn length. -/
def near2 (p len : Nat) : Bool := decide (50 * (p - len) ≤ len) && decide (50 * (len - p) ≤ len)

/-- The gap test of R46. -/
def State.gapOk (s : State) (p : Nat) : Bool := decide (2 * s.get E.WHEEL_NOMINAL_HZ * p ≤ 3 * sec)

/-- The 48-bit seconds, nanoseconds and the rest of a wheel notice (R66, R67, R682) for turn `turn` that begins at
instant `epoch` with ticks of `len` ps. -/
def State.noticeBytes (s : State) (turn epoch len : Nat) : Bytes :=
  let ns := s.ptpNs epoch
  let flag := match s.get E.WHEEL_STATE with
    | 1 => 1
    | 2 => 2
    | _ => 4
  let due := (s.stancePending.filter fun p => decide (p.1 ≤ turn)).getLast?
  let stance := if s.inRest then 3 else
    match due with
    | some (_, v) => v
    | none => s.get E.STANCE_ACTIVE
  [1, 0x10] ++ beBytes 2 flag ++ beBytes 8 turn ++ beBytes 8 (turn * s.ticksPerTurn)
    ++ beBytes 6 (ns / 1000000000) ++ beBytes 4 (ns % 1000000000) ++ beBytes 2 s.ticksPerTurn
    ++ beBytes 4 len ++ beBytes 1 stance ++ [0, 0, 0]

/-- A wheel notice goes to the row group in class 1 (R65, R88, R89). -/
def State.sendNotice (s : State) (bytes : Bytes) : State :=
  s.send { cls := 1, dst := s.eff E.ROW_GROUP, sport := s.eff E.UDP_PORT_TELEMETRY
           dport := s.eff E.UDP_PORT_TELEMETRY, tag := 2, bytes := bytes }

/-- Turn 0 begins at instant `x` with a length of `len` ps, in wheel state `st` (R43, R48, R61, R65, R212): the notice of
turn 0 leaves before it begins. -/
def State.beginTurn0 (s : State) (x len st : Nat) : State :=
  let n := s.eff E.WHEEL_TICKS
  let tl := (len + n / 2) / n
  let s := ((s.set E.WHEEL_TICKS_ACTIVE n).set E.SUMMARY_TICKS (n * s.get E.WHEEL_NOMINAL_HZ / 100)).setWheelState st
  let w := s.wheel
  let s : State :=
    { s with
      now := max s.now x
      wheel := { w with
        tick := 0, idx := 0, turn := 0, tickStart := x, tickLen := tl, turnStart := x, turnDone := false
        origin := x, waitFrom := none, nextLen := none, heldLen := len, holdFrom := x, longDone := false
        err := 0, locked := [], validRun := 0, lockRun := 0, closing := false
        syncNext := x, announceNext := x, noticeTurn := some 0, noticeTick := 0, noticeRepeated := true } }
  let b := s.noticeBytes 0 x tl
  let s : State := { s with wheel := { s.wheel with notice := b, currentNotice := b } }
  let s := (s.sendNotice b).set E.TICK_PERIOD_PS tl
  if s.start.step = 12 then s.endStep 12 else s

/-- WHEEL_STEP (R48, R624): the wheel step begins `START_WHEEL_DELAY` after step 11 ends; PTP_ORIGIN_S is read and
the wait for a valid cycle begins. -/
def execWheelStep (t : Nat) (s : State) : Host.Outcome State Fault Refusal :=
  let s := s.at t
  done <| s.when (s.inStep 12 && s.wheel.waitFrom == none &&
      (match s.wheel.startAt with | some x => decide (x ≤ s.now) | none => false)) fun s =>
    { s with wheel := { s.wheel with waitFrom := some s.now, startAt := none, originS := s.get E.PTP_ORIGIN_S } }

/-- WHEEL_START_TIMEOUT (R48, R54): after 2 nominal turns without a valid cycle, turn 0 begins at once at the
nominal length, in Holdover. -/
def execWheelStartTimeout (t : Nat) (s : State) : Host.Outcome State Fault Refusal :=
  let s := s.at t
  done <| match s.wheel.waitFrom with
    | none => s
    | some f => s.when (s.halfTurnsPassed f 4) fun s => s.beginTurn0 s.now s.nominal 2

/-- A valid cycle of period `p` has come (R46, R47, R51). -/
def State.validCycle (s : State) (p : Nat) : State :=
  let prev := s.wheel.lastPeriod
  let s : State := { s with wheel := { s.wheel with lastPeriod := p, validAt := s.now } }
  let s := s.set E.MAINS_FREQ (f32Ratio sec p)
  match s.get E.WHEEL_STATE with
  | 2 =>
    let n := s.wheel.validRun + 1
    let s : State := { s with wheel := { s.wheel with validRun := n } }
    s.when (decide (16 ≤ n)) State.enterRelock
  | 3 =>
    let close := decide (200 * (p - prev) ≤ prev) && decide (200 * (prev - p) ≤ prev)
      && decide (s.wheel.err.natAbs ≤ 20 * us)
    let n := if close then s.wheel.lockRun + 1 else 0
    let s : State := { s with wheel := { s.wheel with lockRun := n } }
    s.when (decide (16 ≤ n)) fun s =>
      let s : State := { s with wheel := { s.wheel with lockRun := 0 } }
      (s.setWheelState 1).latch E.WHEEL_LATCHES 2
  | _ => s

/-- A cycle that is not valid: Locked and Relocking end in Holdover at once (R47, R56), a run of valid cycles
starts again. `range` is set when the cycle fails the range or the 2% test (R53). -/
def State.badCycle (s : State) (range : Bool) : State :=
  let s := s.when range fun s => s.latch E.WHEEL_LATCHES 3
  let st := s.get E.WHEEL_STATE
  if st = 1 || st = 3 then s.enterHoldover
  else { s with wheel := { s.wheel with validRun := 0 } }

/-- MAINS_CYCLE (R45 to R48): a positive-going zero crossing of mains phase `phase`. Only the reference phase
drives the wheel. -/
def execMainsCycle (t phase : Nat) (s : State) : Host.Outcome State Fault Refusal :=
  let s := s.at t
  let prev := nth s.wheel.cross phase none
  let s : State := { s with wheel := { s.wheel with cross := modAt s.wheel.cross phase fun _ => some s.now } }
  done <| s.when (phase == s.get E.WHEEL_REF_PHASE) fun s =>
    let s : State := { s with wheel := { s.wheel with absentSeen := false } }
    match prev with
    | none => s
    | some c =>
      let p := s.now - c
      let range := inRange p
      match s.wheel.waitFrom with
      | some _ =>
        s.when (range && s.gapOk p) fun s =>
          let s := s.validCycle p
          s.beginTurn0 (s.now + s.get E.WHEEL_PHASE_OFFSET * p / 65536) p 1
      | none =>
        if s.get E.WHEEL_STATE = 0 then s.when range fun s => s.validCycle p
        else
          let near := near2 p s.turnLen
          if range && near && s.gapOk p then s.validCycle p else s.badCycle (!(range && near))

/-- MAINS_ABSENT (R53, R56): no zero crossing of the reference phase for 1.5 nominal turns. -/
def execMainsAbsent (t : Nat) (s : State) : Host.Outcome State Fault Refusal :=
  let s := s.at t
  let last := (nth s.wheel.cross (s.get E.WHEEL_REF_PHASE) none).getD s.wheel.origin
  done <| s.when (s.get E.WHEEL_STATE != 0 && !s.wheel.absentSeen && s.halfTurnsPassed last 3) fun s =>
    let s : State := { s with wheel := { s.wheel with absentSeen := true, validRun := 0 } }
    let s := s.latch E.WHEEL_LATCHES 4
    let st := s.get E.WHEEL_STATE
    s.when (st == 1 || st == 3) State.enterHoldover

/-- HOLDOVER_LONG (R51, R53): the holdover has lasted `HOLDOVER_LIMIT`; a limit of 0 disables the latch. -/
def execHoldoverLong (t : Nat) (s : State) : Host.Outcome State Fault Refusal :=
  let s := s.at t
  let lim := s.get E.HOLDOVER_LIMIT
  done <| s.when (s.get E.WHEEL_STATE == 2 && lim != 0 && !s.wheel.longDone &&
      decide (s.wheel.holdFrom + lim * sec ≤ s.now)) fun s =>
    let s : State := { s with wheel := { s.wheel with longDone := true } }
    s.latch E.WHEEL_LATCHES 1

/-- A tick length moved toward `want` by no more than 0.1% of `old` (R50). -/
def limitStep (old want : Nat) : Nat :=
  let d := old / 1000
  clampNat (old - d) (old + d) want

/-- The tick length of the next turn and the state after it is chosen (R49, R50, R54, R55). In Locked the turn
after next is aimed at its target: 2P − L − e. In Relocking the turn length is first brought to the mains period;
while the phase error is closed, the length is a free value on the side that needs the smaller shift, within the
limits of R50 and 2% of the mains period. -/
def State.nextTickLen (s : State) : Nat × State :=
  let w := s.wheel
  let n := s.ticksPerTurn
  let tl := w.tickLen
  let len := s.turnLen
  let p := w.lastPeriod
  let ticks (x : Nat) : Nat := (x + n / 2) / n
  let aim : Nat := ((2 * p : Nat) - (len : Int) - w.err).toNat
  match s.get E.WHEEL_STATE with
  | 1 => (limitStep tl (if p = 0 then tl else ticks aim), s)
  | 3 =>
    let want := ticks p
    if !w.closing && limitStep tl want != want then (limitStep tl want, s)
    else
      let s : State := { s with wheel := { w with closing := true } }
      if w.err.natAbs ≤ 20 * us then (limitStep tl (ticks aim), s)
      else
        let d := tl / 1000
        let lo := max (tl - d) (want - want / 50)
        let hi := min (tl + d) (want + want / 50)
        let lo' := if w.err < 0 then max lo (min want hi) else lo
        let hi' := if w.err < 0 then hi else min hi (max want lo)
        (limitStep tl (lo' + s.freeVal % (hi' - lo' + 1)), s.drawn)
  | _ => (limitStep tl (ticks w.heldLen), s)

/-- WHEEL_NOTICE (R50, R65): at tick index `WHEEL_TICKS_ACTIVE` / 2 the length of the next turn is set and its
notice is sent. -/
def execWheelNotice (t : Nat) (s : State) : Host.Outcome State Fault Refusal :=
  let s := s.at t
  done <| s.when (s.get E.WHEEL_STATE != 0 && s.wheel.idx == s.ticksPerTurn / 2
      && s.wheel.noticeTurn != some (s.turn + 1)) fun s =>
    let (tl, s) := s.nextTickLen
    let b := s.noticeBytes (s.turn + 1) (s.wheel.turnStart + s.turnLen) tl
    let s : State :=
      { s with wheel := { s.wheel with
          nextLen := some tl, notice := b, noticeTurn := some (s.turn + 1), noticeTick := s.tick
          noticeRepeated := false } }
    s.sendNotice b

/-- WHEEL_NOTICE_REPEAT (R65): 8 ticks later the same notice is sent again. -/
def execWheelNoticeRepeat (t : Nat) (s : State) : Host.Outcome State Fault Refusal :=
  let s := s.at t
  done <| s.when (s.get E.WHEEL_STATE != 0 && !s.wheel.noticeRepeated
      && decide (s.wheel.noticeTick + 8 ≤ s.tick)) fun s =>
    let s : State := { s with wheel := { s.wheel with noticeRepeated := true } }
    s.sendNotice s.wheel.notice

/-! ### PTP (R60 to R63). The message layouts are IEEE 1588-2019's, which the spec names. -/

/-- The clockIdentity: EUI-64 of the port's MAC address. -/
def clockIdentity (mac : Nat) : Bytes :=
  beBytes 3 (mac / 2 ^ 24) ++ [0xFF, 0xFE] ++ beBytes 3 (mac % 2 ^ 24)

/-- The 34-byte header of a PTP message of type `ty` and length `len`. -/
def State.ptpHeader (s : State) (ty len seq corr ctl log : Nat) : Bytes :=
  beBytes 1 ty ++ [0x12] ++ beBytes 2 len ++ beBytes 1 (s.eff E.PTP_DOMAIN) ++ [0, 0, 0] ++ beBytes 8 corr
    ++ [0, 0, 0, 0] ++ clockIdentity (s.get E.PORT_MAC) ++ [0, 1] ++ beBytes 2 seq ++ beBytes 1 ctl
    ++ beBytes 1 log

/-- An 80-bit PTP timestamp. -/
def ptpStamp (ns : Nat) : Bytes := beBytes 6 (ns / 1000000000) ++ beBytes 4 (ns % 1000000000)

/-- The group ff0X::181 with X = `PTP_MCAST_SCOPE` (R85). -/
def State.ptpGroup (s : State) : Nat := (0xFF00 + s.eff E.PTP_MCAST_SCOPE) * 2 ^ 112 + 0x181

/-- A PTP message in class 1 from and to a PTP port. -/
def State.sendPtp (s : State) (udp tag : Nat) (bytes : Bytes) : State :=
  s.send { cls := 1, dst := s.ptpGroup, sport := udp, dport := udp, tag := tag, bytes := bytes }

/-- The interval of 2^`log` s in ps, for a log in the I16 code of R63. -/
def logInterval (code : Nat) : Nat :=
  let l := s16 code
  if 0 ≤ l then sec * 2 ^ l.toNat else sec / 2 ^ (-l).toNat

/-- The first interval mark after `x`. -/
def nextMark (mark step x : Nat) : Nat := mark + step * ((x - mark) / step + 1)

/-- PTP_SYNC (R60, R62): a one-step Sync at the first tick boundary at or after its interval mark. -/
def execPtpSync (t : Nat) (s : State) : Host.Outcome State Fault Refusal :=
  let s := s.at t
  done <| s.when (s.get E.WHEEL_STATE != 0 && decide (s.wheel.syncNext ≤ s.wheel.tickStart)) fun s =>
    let seq := nth s.wheel.ptpSeq 0 0
    let m := s.ptpHeader 0 44 seq 0 0 (s.eff E.PTP_LOG_SYNC % 256) ++ ptpStamp (s.ptpNs s.now)
    let mark := nextMark s.wheel.syncNext (logInterval (s.eff E.PTP_LOG_SYNC)) s.wheel.tickStart
    let s : State :=
      { s with wheel := { s.wheel with
          syncNext := mark, ptpSeq := modAt s.wheel.ptpSeq 0 fun x => (x + 1) % 65536 } }
    s.sendPtp 319 6 m

/-- PTP_ANNOUNCE (R60): an Announce at its interval mark, with the clockClass in force. -/
def execPtpAnnounce (t : Nat) (s : State) : Host.Outcome State Fault Refusal :=
  let s := s.at t
  done <| s.when (s.get E.WHEEL_STATE != 0 && decide (s.wheel.announceNext ≤ s.now)) fun s =>
    let seq := nth s.wheel.ptpSeq 1 0
    let m := s.ptpHeader 0x0B 64 seq 0 5 (s.eff E.PTP_LOG_ANNOUNCE % 256) ++ ptpStamp 0 ++ [0, 0, 0]
      ++ beBytes 1 (s.eff E.PTP_PRIORITY1) ++ beBytes 1 (s.get E.PTP_CLOCK_CLASS) ++ [0xFE]
      ++ beBytes 2 Config.ptpVariance ++ beBytes 1 (s.eff E.PTP_PRIORITY2) ++ clockIdentity (s.get E.PORT_MAC)
      ++ [0, 0, 0xA0]
    let mark := nextMark s.wheel.announceNext (logInterval (s.eff E.PTP_LOG_ANNOUNCE)) s.now
    let s : State :=
      { s with wheel := { s.wheel with
          announceNext := mark, ptpSeq := modAt s.wheel.ptpSeq 1 fun x => (x + 1) % 65536 } }
    s.sendPtp 320 3 m

/-- PTP_DELAY_REQ (R60): a Delay_Req of the domain is answered with a Delay_Resp that carries the stamp of its
arrival and honours its correctionField; other PTP messages are not answered. -/
def execPtpDelayReq (t : Nat) (rx : Rx) (s : State) : Host.Outcome State Fault Refusal :=
  let s := (s.at t).take rx
  let b := rx.bytes
  done <| s.when (s.get E.WHEEL_STATE != 0 && rx.dport == 319 && decide (44 ≤ b.length)
      && field b 0 1 % 16 == 1 && field b 1 1 % 16 == 2 && field b 4 1 == s.eff E.PTP_DOMAIN) fun s =>
    s.sendPtp 320 3 (s.ptpHeader 9 54 (field b 30 2) (field b 8 8) 3 (s.eff E.PTP_LOG_DELAY_REQ % 256)
      ++ ptpStamp (s.ptpNs s.now) ++ slice b 20 10)

end Sys2Proof.Machine
end

