-- ==== Sys2Proof/Machine/Port.lean ====
section
/-! DEFINITION. The port (chapter 3): bringing the link up, addresses, receiving frames, ICMPv6 and the egress
scheduler. What the link's loss and return do to the desk's queues stands in Machine/PortLink.lean. -/

namespace Sys2Proof.Machine

/-! ### Link bring-up (R79 to R82) -/

/-- The lane map tried at attempt `n` of a round: A, A, A, B0, B1 (R81). -/
def mapOf (n : Nat) : Nat := if n = 3 then 1 else if n = 4 then 2 else 0

/-- The lane map of the attempt in progress. -/
def Port.map (p : Port) : Nat := p.diaryMap.getD (mapOf p.attempt)

/-- The limit of a step of R80 in ps. -/
def Port.limit (p : Port) : Nat :=
  match p.step with
  | 1 => 10 * ms
  | 2 => p.powerUpMax
  | 3 => 500 * ms
  | 4 => 800 * ms
  | _ => 10 * ms

/-- Go to step `k` of R80. -/
def State.portStep (s : State) (k : Nat) : State := { s with port := { s.port with step := k, stepFrom := s.now } }

/-- An attempt begins with the cage check (R80, R97). -/
def State.portAttempt (s : State) : State :=
  ((s.portStep 1).set E.LINK_STATE 1).set E.PORT_LANE_MAP s.port.map

/-- The port step of the start sequence: the map of the newest diary entry whose link came up is tried first
(R81). -/
def State.portBegin (s : State) : State :=
  let first := ((s.prevDiaries.filter fun d => d.cameUp).head?).map Diary.laneMap
  let s : State := { s with port := { s.port with attempt := 0, diaryMap := first, roundWait := none, recheckFrom := none
                                                  sending := false, linkLocal := 0, unicast := 0, prefix64 := none } }
  s.portAttempt

/-- What the cage check reads decides whether the attempt goes on (R80, R97, R666). -/
def State.cageResult (s : State) (c : Cage) : State :=
  if !c.present then ((s.set E.PORT_MEDIA 0).set E.LINK_STATE 0).latch E.PORT_LATCHES 4
  else if c.media ≥ 4 || c.media = 0 || c.watts > 33 then
    let s : State := { s with port := { s.port with recheckFrom := some s.now } }
    (((s.portStep 0).set E.PORT_MEDIA 4).set E.LINK_STATE 0).latch E.PORT_LATCHES 4
  else
    let s : State := { s with port := { s.port with powerUpMax := min c.powerUpMs 3000 * ms, recheckFrom := none } }
    ((s.portStep 2).set E.PORT_MEDIA c.media).set E.LINK_STATE 1

/-- Whether step `k` is in progress and within its limit. -/
def State.portIn (s : State) (k : Nat) : Bool :=
  s.port.step == k && decide (s.now ≤ s.port.stepFrom + s.port.limit) && s.elec.power == 1

/-- CAGE_CHECK (R80): the cage check reads the cage. -/
def execCageCheck (t : Nat) (cage : Cage) (s : State) : Host.Outcome State Fault Refusal :=
  let s := s.at t
  done <| s.when (s.portIn 1) fun s => s.cageResult cage

/-- CAGE_RECHECK (R97): with refused media the check is repeated every 10 s. -/
def execCageRecheck (t : Nat) (cage : Cage) (s : State) : Host.Outcome State Fault Refusal :=
  let s := s.at t
  done <| s.when (match s.port.recheckFrom with | some f => decide (f + 10 * sec ≤ s.now) | none => false) fun s =>
    s.portAttempt.cageResult cage

/-- OPTICAL_MODULE_POWER_UP (R80): CMIS reports high power; auto-negotiation follows for passive copper alone. -/
def execOpticalModulePowerUp (t : Nat) (ready : Bool) (s : State) : Host.Outcome State Fault Refusal :=
  let s := s.at t
  done <| s.when (s.portIn 2 && ready) fun s => s.portStep (if s.get E.PORT_MEDIA = 3 then 3 else 4)

/-- AUTO_NEGOTIATION (R80): both ends agree 1.6TBASE-CR8. -/
def execAutoNegotiation (t : Nat) (agreed : Bool) (s : State) : Host.Outcome State Fault Refusal :=
  let s := s.at t
  done <| s.when (s.portIn 3 && agreed) fun s => s.portStep 4

/-- LINK_TRAINING (R80): every lane reports training complete. -/
def execLinkTraining (t : Nat) (complete : Bool) (s : State) : Host.Outcome State Fault Refusal :=
  let s := s.at t
  done <| s.when (s.portIn 4 && complete) fun s => s.portStep 5

/-- PCS_ALIGNMENT (R80): all lanes are aligned and FEC is locked. -/
def execPcsAlignment (t : Nat) (locked : Bool) (s : State) : Host.Outcome State Fault Refusal :=
  let s := s.at t
  done <| s.when (s.portIn 5 && locked) fun s =>
    let s : State := { s with port := { s.port with lastUncorr := none } }
    s.portStep 6

/-! ### Addresses (R83 to R85) -/

/-- The modified EUI-64 interface identifier of a MAC address. -/
def ifaceId (mac : Nat) : Nat :=
  let hi := mac / 2 ^ 24
  let hi' := if hi.testBit 17 then hi - 2 ^ 17 else hi + 2 ^ 17
  hi' * 2 ^ 40 + 0xFFFE * 2 ^ 24 + mac % 2 ^ 24

/-- The link-local address. -/
def State.linkLocalAddr (s : State) : Nat := 0xFE80 * 2 ^ 112 + ifaceId (s.get E.PORT_MAC)

/-- The other unicast address that `PORT_ADDR_MODE` asks for, once known. -/
def State.otherAddr (s : State) : Option Nat :=
  match s.eff E.PORT_ADDR_MODE with
  | 1 => s.port.prefix64.map fun p => p / 2 ^ 64 * 2 ^ 64 + ifaceId (s.get E.PORT_MAC)
  | 2 => some (s.eff E.PORT_ADDR)
  | _ => none

/-- The addresses the port may use: those that have passed duplicate address detection. -/
def State.myAddrs (s : State) : List Nat :=
  (if s.port.linkLocal = 2 then [s.linkLocalAddr] else [])
    ++ (if s.port.unicast = 2 then s.otherAddr.toList else [])

/-- The solicited-node group of an address. -/
def solicited (a : Nat) : Nat := 0xFF02 * 2 ^ 112 + 0x1FF000000 + a % 2 ^ 24

/-- The groups the port has joined: all nodes, the solicited-node groups, the PTP groups (R85). -/
def State.myGroups (s : State) : List Nat :=
  [0xFF02 * 2 ^ 112 + 1, s.ptpGroup, (0xFF00 + s.eff E.PTP_MCAST_SCOPE) * 2 ^ 112 + 0x6B]
    ++ (s.linkLocalAddr :: s.otherAddr.toList).map solicited

/-- One's complement sum of 16-bit words. -/
def sum16 : Bytes → Nat
  | [] => 0
  | [a] => a.toNat * 256
  | a :: b :: r => a.toNat * 256 + b.toNat + sum16 r

/-- An ICMPv6 message with its checksum over the pseudo-header. -/
def icmp6 (src dst ty : Nat) (rest : Bytes) : Bytes :=
  let body := beBytes 1 ty ++ [0] ++ [0, 0] ++ rest
  let total := sum16 (beBytes 16 src ++ beBytes 16 dst ++ beBytes 4 body.length ++ [0, 0, 0, 58] ++ body)
  let f1 := total / 65536 + total % 65536
  let f2 := f1 / 65536 + f1 % 65536
  beBytes 1 ty ++ [0] ++ beBytes 2 (65535 - f2) ++ rest

/-- An ICMPv6 datagram; `tag` 7 marks neighbour discovery (R84). The spec gives ICMPv6 no egress class; it travels
in class 4. -/
def State.sendIcmp (s : State) (src dst ty tag : Nat) (rest : Bytes) : State :=
  s.send { cls := 4, dst := dst, sport := 0, dport := 0, proto := 58, tag := tag, bytes := icmp6 src dst ty rest }

/-- Duplicate address detection begins on an address: a neighbour solicitation from the unspecified address. -/
def State.dadStart (s : State) (addr : Nat) : State :=
  s.sendIcmp 0 (solicited addr) 135 7 ([0, 0, 0, 0] ++ beBytes 16 addr)

/-- An MLDv2 report for the groups of R85. -/
def State.mldReport (s : State) : State :=
  let groups := s.myGroups.drop 1
  s.sendIcmp s.linkLocalAddr (0xFF02 * 2 ^ 112 + 0x16) 143 0
    (beBytes 4 groups.length ++ groups.flatMap fun g => [4, 0, 0, 0] ++ beBytes 16 g)

/-- The static or SLAAC address becomes tentative. -/
def State.tryOther (s : State) : State :=
  match s.otherAddr with
  | some a =>
    let s : State := { s with port := { s.port with unicast := 1 } }
    s.dadStart a
  | none => s

/-- LINK_HOLD_UP (R80, R96, R98): 10 ms without an uncorrectable codeword or a fault; the link is up and reception
resumes. Sending waits for the next tick boundary, and does not wait where no tick exists yet. -/
def execLinkHoldUp (t : Nat) (s : State) : Host.Outcome State Fault Refusal :=
  let s := s.at t
  done <| s.when (s.port.step == 6 && s.port.lastUncorr == none && s.elec.power == 1
      && decide (s.port.stepFrom + 10 * ms ≤ s.now)) fun s =>
    let map := s.port.map
    let s : State :=
      { s with port := { s.port with
          step := 7, stepFrom := s.now, attempt := 0, diaryMap := none, sending := s.get E.WHEEL_STATE == 0
          upTick := s.tick, linkLocal := if s.port.linkLocal = 2 then 2 else 1 } }
    let s := ((s.set E.LINK_STATE 2).set E.PORT_LANE_MAP map).latch E.PORT_LATCHES 1
    let s := s.when (map != 0) fun s => s.latch E.PORT_LATCHES 6
    let s := s.putDiary { s.start.diary with laneMap := map, cameUp := true }
    let s := s.when (s.port.linkLocal == 1) fun s => s.dadStart s.linkLocalAddr
    s.when (s.inStep 7) fun s =>
      let s := s.endStep 7
      { s with start := { s.start with imageReqAt := some s.now } }

/-- LINK_ATTEMPT_FAIL (R80, R81): a step overran its limit or a fault came; the next map is tried, after five
failures of a round the port waits. -/
def execLinkAttemptFail (t : Nat) (fault : Bool) (s : State) : Host.Outcome State Fault Refusal :=
  let s := s.at t
  let p := s.port
  done <| s.when (decide (1 ≤ p.step) && decide (p.step ≤ 6) && s.elec.power == 1 &&
      (fault || p.lastUncorr.isSome || (decide (p.step ≤ 5) && decide (p.stepFrom + p.limit < s.now)))) fun s =>
    if p.diaryMap.isSome then
      let s : State := { s with port := { p with diaryMap := none, attempt := 0, lastUncorr := none } }
      s.portAttempt
    else if p.attempt < 4 then
      let s : State := { s with port := { p with attempt := p.attempt + 1, lastUncorr := none } }
      s.portAttempt
    else
      let s : State := { s with port := { p with attempt := 0, roundWait := some s.now, step := 0, lastUncorr := none } }
      s.set E.LINK_STATE 0

/-- LANE_MAP_ROUND_WAIT (R81): 10 s after a round of five failures the order starts again. -/
def execLaneMapRoundWait (t : Nat) (s : State) : Host.Outcome State Fault Refusal :=
  let s := s.at t
  done <| s.when (match s.port.roundWait with | some f => decide (f + 10 * sec ≤ s.now) | none => false) fun s =>
    let s : State := { s with port := { s.port with roundWait := none, attempt := 0 } }
    s.portAttempt

/-- DUPLICATE_ADDRESS_DETECTION (R84): detection on the link-local or on the other address ends. -/
def execDuplicateAddressDetection (t : Nat) (linkLocal ok : Bool) (s : State) : Host.Outcome State Fault Refusal :=
  let s := s.at t
  done <| s.when s.linkUp fun s =>
    if linkLocal then
      s.when (s.port.linkLocal == 1) fun s =>
        if ok then
          let s : State := { s with port := { s.port with linkLocal := 2 } }
          let s := s.when (s.port.unicast != 2) fun s => s.set E.PORT_ADDR_ACTIVE s.linkLocalAddr
          s.mldReport.tryOther
        else
          let s : State := { s with port := { s.port with linkLocal := 3, dadFailAt := s.now } }
          s.latch E.PORT_LATCHES 5
    else
      s.when (s.port.unicast == 1) fun s =>
        if ok then
          let s : State := { s with port := { s.port with unicast := 2 } }
          (s.set E.PORT_ADDR_ACTIVE (s.otherAddr.getD s.linkLocalAddr)).mldReport
        else
          let s : State := { s with port := { s.port with unicast := 3 } }
          (s.set E.PORT_ADDR_ACTIVE s.linkLocalAddr).latch E.PORT_LATCHES 5

/-- DAD_RETRY (R84): after a failure on the link-local address, detection is repeated every 10 s. -/
def execDadRetry (t : Nat) (s : State) : Host.Outcome State Fault Refusal :=
  let s := s.at t
  done <| s.when (s.linkUp && s.port.linkLocal == 3 && decide (s.port.dadFailAt + 10 * sec ≤ s.now)) fun s =>
    let s : State := { s with port := { s.port with linkLocal := 1 } }
    s.dadStart s.linkLocalAddr

/-- ROUTER_ADVERTISEMENT (R83): under SLAAC the first advertisement with an autonomous /64 prefix forms the
address. -/
def execRouterAdvertisement (t pfx len : Nat) (autonomous : Bool) (s : State) : Host.Outcome State Fault Refusal :=
  let s := s.at t
  done <| s.when (s.linkUp && s.eff E.PORT_ADDR_MODE == 1 && s.port.prefix64 == none && s.port.linkLocal == 2
      && len == 64 && autonomous) fun s =>
    let s : State := { s with port := { s.port with prefix64 := some pfx } }
    s.tryOther

/-- NEIGHBOUR_SOLICITATION (R85): the port answers for its addresses. -/
def execNeighbourSolicitation (t src target : Nat) (s : State) : Host.Outcome State Fault Refusal :=
  let s := s.at t
  done <| s.when (s.linkUp && s.myAddrs.contains target) fun s =>
    let dst := if src = 0 then 0xFF02 * 2 ^ 112 + 1 else src
    let flags := if src = 0 then 0x20000000 else 0x60000000
    s.sendIcmp target dst 136 7 (beBytes 4 flags ++ beBytes 16 target ++ [2, 1] ++ beBytes 6 (s.get E.PORT_MAC))

/-- ECHO_REQUEST (R86): answered up to 100 per second, the excess ignored. -/
def execEchoRequest (t src dst : Nat) (body : Bytes) (s : State) : Host.Outcome State Fault Refusal :=
  let s := s.at t
  done <| s.when (s.linkUp && s.myAddrs.contains dst) fun s =>
    let fresh := decide (s.port.echoFrom + sec ≤ s.now)
    let n := if fresh then 0 else s.port.echoCount
    s.when (decide (n < 100)) fun s =>
      let s : State :=
        { s with port := { s.port with echoFrom := if fresh then s.now else s.port.echoFrom, echoCount := n + 1 } }
      s.sendIcmp dst src 129 0 body

/-! ### Receiving (R77, R78, R87) -/

/-- The four UDP ports of the module that are in force (R88), telemetry, caps, dictionary, boot. -/
def State.udpPorts (s : State) : List Nat :=
  [s.eff E.UDP_PORT_TELEMETRY, s.eff E.UDP_PORT_CAPS, s.eff E.UDP_PORT_DICT, s.eff E.UDP_PORT_BOOT]

/-- The first check of R87 that a frame fails, by its order; 0 when it passes. The eighth check is the unit's. -/
def State.frameFault (s : State) (f : Frame) : Nat :=
  if !f.fcsOk || f.uncorrectable then 1
  else if f.len > s.eff E.PORT_MTU + 18 then 2
  else if f.pause then 9
  else if f.tagged || f.etherType != 0x86DD then 3
  else if f.ipVersion != 6 || !(s.myAddrs.contains f.dst || s.myGroups.contains f.dst) then 4
  else if f.extHeader || !(f.nextHeader == 17 || f.nextHeader == 58) then 5
  else if f.nextHeader == 17 && (!f.checksumOk || f.checksumZero) then 6
  else if f.nextHeader == 17 && !(s.udpPorts.contains f.rx.dport || f.rx.dport == 319 || f.rx.dport == 320) then 7
  else 0

/-- The drop counter of a check. -/
def dropCounter (k : Nat) : Ent :=
  match k with
  | 1 => E.DROP_FCS
  | 2 => E.DROP_OVERSIZE
  | 3 => E.DROP_ETHERTYPE
  | 4 => E.DROP_ADDRESS
  | 5 => E.DROP_HEADER
  | 6 => E.DROP_CHECKSUM
  | 7 => E.DROP_PORT
  | 8 => E.DROP_INGRESS
  | _ => E.DROP_PAUSE

/-- FRAME_RECEIVE (R77, R78, R87, R99, R622): a frame passes the ordered checks or is dropped and counted; one that
passes waits for its unit. Until firmware runs, boot datagrams and ICMPv6 alone are kept. -/
def execFrameReceive (t : Nat) (f : Frame) (s : State) : Host.Outcome State Fault Refusal :=
  let s := s.at t
  done <| s.when (decide (6 ≤ s.port.step) && s.elec.power == 1) fun s =>
    let s := s.add E.FEC_CORRECTED f.corrected
    let s := s.when f.uncorrectable fun s =>
      let s : State := { s with port := { s.port with lastUncorr := some s.now } }
      (s.inc E.FEC_UNCORRECTED).latch E.PORT_LATCHES 3
    s.when s.linkUp fun s =>
      match s.frameFault f with
      | 0 =>
        if !s.fwRuns && f.nextHeader == 17 && f.rx.dport != s.eff E.UDP_PORT_BOOT then s
        else
          let s := (s.inc E.RX_FRAMES).add E.RX_BYTES f.len
          if f.nextHeader == 17 then { s with port := { s.port with ingress := s.port.ingress ++ [f.rx] } } else s
      | k => s.inc (dropCounter k)

/-! ### Sending (R89 to R93) -/

/-- Whether class 5 may send a frame of `len` bytes now: no more than `PORT_EXPORT_RATE` over any 100 µs (R92). -/
def State.exportOk (s : State) (len : Nat) : Bool :=
  let w := s.port.exported.filter fun p => decide (s.now < p.1 + 100 * us)
  decide (sumOf Prod.snd w + len ≤ s.eff E.PORT_EXPORT_RATE * 12500)

/-- The next datagram of strict class priority (R89). With no link-local address only neighbour discovery leaves
(R84). -/
def State.nextOut (s : State) : Option Dgram :=
  let q := s.port.egress.filter fun d =>
    (s.port.linkLocal == 2 || d.tag == 7) && (d.cls != 5 || s.exportOk d.frame)
  minBy Dgram.cls q

/-- The counter of datagrams sent in a class (R99). -/
def txClass (c : Nat) : Ent :=
  match c with
  | 0 => E.TX_CLASS0
  | 1 => E.TX_CLASS1
  | 2 => E.TX_CLASS2
  | 3 => E.TX_CLASS3
  | 4 => E.TX_CLASS4
  | _ => E.TX_CLASS5

/-- The DSCP in force of an egress class: the entries of 0x1101 follow one another (R89, R97). -/
def State.classDscp (s : State) (e : Ent) (c : Nat) : Nat :=
  s.eff { key := e.key + c, dflt := nth [46, 56, 34, 26, 16, 8] c 0 }

/-- EGRESS_SERVE (R89 to R92, R99): when the cage is free, the next datagram leaves; a Sync takes its stamp at the
cage (R60). -/
def execEgressServe (t : Nat) (s : State) : Host.Outcome State Fault Refusal :=
  let s := s.at t
  done <| s.when (s.linkUp && (s.port.sending || s.port.linkLocal != 2) && s.elec.power == 1
      && decide (s.port.cageFreeAt ≤ s.now)) fun s =>
    match s.nextOut with
    | none => s
    | some d =>
      let out := { d with dscp := s.classDscp E.DSCP_GUARD d.cls }
      let out := if d.tag = 6 then { out with bytes := d.bytes.take 34 ++ ptpStamp (s.ptpNs s.now) } else out
      let old := s.port.exported.filter fun p => decide (s.now < p.1 + 100 * us)
      let s : State :=
        { s with port := { s.port with
            egress := s.port.egress.erase d, lastSent := some out, cageFreeAt := s.now + (d.frame + 20) * 5
            exported := if d.cls = 5 then (s.now, d.frame) :: old else old } }
      ((s.inc E.TX_FRAMES).add E.TX_BYTES d.frame).inc (txClass d.cls)

end Sys2Proof.Machine
end

