-- ==== Sys2Proof/Machine/StartSeq.lean ====
section
/-! DEFINITION. The start sequence (chapter 19): its fourteen steps, the boot datagrams and the image, the start timer
and restarts. -/

namespace Sys2Proof.Machine

/-! ### Reset and power good (R490, R505, R624, R626, R640, R669) -/

/-- A fan at the hardware rest state: full speed at `FAN_VMAX`, which the power board reads from FRAM (R490, R505). -/
def State.fanFull (s : State) (c : Nat) : State :=
  if c < 28 && s.ioc.fansLow then s.setFanState c 8
  else
    let volts := if c < 28 then s.fram.entries.getD (E.FAN_VMAX.key + 256 * c) E.FAN_VMAX.dflt
      else s.fanParam c E.FAN_VMAX
    let s := (s.setFanState c 6).setVolts c (f32Int volts)
    s.putFan c { s.fan c with started := true }

/-- The order in which the power board raises the fans: internal fans, then customer outputs (R490, R505). -/
def fanOrder : List Nat := [28, 29, 30, 31, 32, 33] ++ List.range 24

/-- A reset of the G1 and the IOC: FRAM, the fuses, the feeds and what the power board holds stand. -/
def State.chipReset (s : State) : State :=
  let old := s
  let s : State :=
    { now := old.now, fram := old.fram, freeCtr := old.freeCtr, pending := old.pending, elec := old.elec
      start := { fuseSec := old.start.fuseSec, fuseRevoked := old.start.fuseRevoked, powerGood := old.start.powerGood }
      ioc := { feed := old.ioc.feed, valvesLow := old.ioc.valvesLow, fansLow := old.ioc.fansLow } }
  s.set E.ACT_FUSE_STATE (old.get E.ACT_FUSE_STATE)

/-- The sequence runs from step 2 with a cause (R626, R638, R640): the power board holds the rest stance, every fan at
full speed. -/
def State.restartFrom2 (s : State) (cause : Nat) : State :=
  let s := s.chipReset
  let d : Diary := { cause := cause, reached := 1, ends := s.start.diary.ends }
  let s : State := { s with start := { s.start with cause := cause, diary := d.setStep 1 2 } }
  (fanOrder.foldl State.fanFull s).beginStep 2

/-- POWER_GOOD (R490, R505, R624, R669): a feed has stood at 40 V for 10 ms; the chips leave reset, step 2 begins, and
the first fan is raised. -/
def execPowerGood (t : Nat) (s : State) : Host.Outcome State Fault Refusal :=
  let s := s.at t
  done <| s.when (s.elec.power == 0 || s.elec.power == 3) fun s =>
    let s := s.chipReset
    let s : State := { s with
      elec := { s.elec with power := 1 }
      start := { s.start with powerGood := s.now, diary := ({ reached := 1 } : Diary).setStep 1 2 }
      ioc := { s.ioc with stagger := fanOrder.drop 1, staggerAt := s.now } }
    (s.fanFull 28).beginStep 2

/-- FAN_POWER_UP_STAGGER (R490, R505), before firmware runs and while the IOC link is lost: the next fan is raised, internal fans 500 ms apart, then the customer outputs
`FAN_START_GAP_MS` apart, the first of them 500 ms after the last internal fan. -/
def execFanPowerUpStagger (t : Nat) (s : State) : Host.Outcome State Fault Refusal :=
  let s := s.at t
  done <| match s.ioc.stagger with
    | [] => s
    | c :: rest =>
      let gap := if c = 0 || 28 ≤ c then 500 else s.fram.entries.getD E.FAN_START_GAP_MS.key E.FAN_START_GAP_MS.dflt
      s.when (s.elec.power == 1 && (!s.fwRuns || s.ioc.linkLost) && decide (s.ioc.staggerAt + gap * ms ≤ s.now)) fun s =>
        let s : State := { s with ioc := { s.ioc with stagger := rest, staggerAt := s.now } }
        s.fanFull c

/-! ### Steps 2 to 6 (R624, R634 to R638, R646, R647, R659) -/

/-- BOOT_ROM_AND_FUSES (R624): step 2 ends; a bad checksum fails it. -/
def execBootRomAndFuses (t : Nat) (ok : Bool) (s : State) : Host.Outcome State Fault Refusal :=
  let s := s.at t
  done <| s.when (s.inStep 2) fun s =>
    if ok then
      ((s.set E.FUSE_SEC_VERSION s.start.fuseSec).set E.FUSE_KEY_REVOKED s.start.fuseRevoked).endStep 2
    else s.failStep 2 true

/-- A ledger row as its life record and the previous start leave it (R655, R658, R659). -/
def rowAtStart (life : Life) (prevFail : Bool) (row : Nat) : LedgerUnit :=
  { unit0 row with
    role := if life.retired then 4 else (unit0 row).role, cause := life.cause, prevFail := prevFail
    tested := (unit0 row).tested && !life.retired, serves := if life.retired then 0xFFFF else (unit0 row).serves
    useTurns := life.useTurns, errs := life.errs, passes := life.passes, fails := life.fails }

/-- What FRAM's life records and the diary make of the ledger; the rows that stand as at a first start stay unlisted. -/
def State.readLedger (s : State) (life : AMap Life) : State :=
  let prev : Diary := s.prevDiaries.headD {}
  let units := (List.range 674).foldl (fun m row =>
    let k := kindOf row
    AMap.put m row (rowAtStart (life.getD row {}) ((prev.failed k).testBit (row - kindRow k)) row) (unit0 row)) []
  { s with wear := { s.wear with units := units } }

/-- FRAM_READ (R635, R636, R659): the diary entry of this start is opened and what FRAM keeps is read. A failed read puts
defaults in force and keeps the diary in SRAM; with unreadable life records no unit is retired. The number of a start
whose diary cannot be read is a free value. -/
def execFramRead (t : Nat) (ok lifeOk : Bool) (s : State) : Host.Outcome State Fault Refusal :=
  let s := s.at t
  done <| s.when (s.inStep 3) fun s =>
    let d := s.start.diary
    if ok then
      let number := match s.fram.diary with | x :: _ => (x.number + 1) % 2 ^ 32 | [] => 1
      let d := { d with number := number, cause := s.start.cause }
      let timer := match s.fram.diary with | x :: _ => x.endState == 2 | [] => false
      let s : State := { s with
        fram := { s.fram with diary := (d :: s.fram.diary).take 16 }
        start := { s.start with diary := d, diaryInFram := true, framDefaults := !lifeOk, prevStartTimer := timer } }
      let s : State := { s with regs := s.fram.entries.foldl (fun m p => AMap.set m p.1 p.2) s.regs }
      let s := (s.set E.START_COUNT number).set E.START_CAUSE s.start.cause
      (s.readLedger (if lifeOk then s.fram.life else [])).endStep 3
    else
      let number := s.freeVal % 2 ^ 32
      let s := s.drawn
      let d := { d with number := number, cause := s.start.cause }
      let s : State := { s with start := { s.start with diary := d, diaryInFram := false, framDefaults := true } }
      let s := (s.set E.START_COUNT number).set E.START_CAUSE s.start.cause
      let s := ((s.readLedger []).endStep 3)
      let s : State := { s with start := { s.start with diary := s.start.diary.setStep 3 3 } }
      s

/-- A unit at its start step: role 0 active, 1 tested spare, 2 left out or failed. -/
def State.startUnit (s : State) (row role serves : Nat) (leftOut : Bool) : State :=
  s.putUnit row { s.unit row with role := role, tested := role == 1, serves := serves, leftOut := leftOut }

/-- A start test's pass or mismatch is entered in the ledger (R655, R658). -/
def State.startPass (s : State) (row : Nat) : State :=
  (s.putUnit row { s.unit row with passes := satBytes 4 ((s.unit row).passes + 1) }).when s.fwRuns fun s => s.inc E.BIST_RUNS
def State.startMismatch (s : State) (row : Nat) : State :=
  let s := s.putUnit row { s.unit row with fails := satBytes 4 ((s.unit row).fails + 1) }
  let s := s.putDiary (s.start.diary.fail (kindOf row) (row - kindRow (kindOf row)))
  let s := s.when s.fwRuns fun s => ((s.inc E.BIST_RUNS).inc E.BIST_MISMATCHES).latch E.WEAR_LATCHES 1 (unitKey row)
  s.retire row 1

/-- A step runs its alternative (R636). -/
def State.useAlternative (s : State) (step : Nat) : State :=
  s.putDiary { s.start.diary with alt := setBit s.start.diary.alt (step - 1) }

/-- The units of kind `k` that step `step` leaves out: those of the diary that are not retired (R636). -/
def State.leaveOut (s : State) (k step : Nat) : State :=
  let bitmap := leftOutBy (fun d => d.failed k) s.prevDiaries
  let out := (kindRows k).filter fun r => bitmap.testBit (r - kindRow k) && (s.unit r).role != 4
  let s := out.foldl (fun s r => s.startUnit r 2 0xFFFF true) s
  if out.isEmpty then s else s.useAlternative step

/-- The units of a kind that its start step tests. -/
def State.testable (s : State) (rows : List Nat) : List Nat :=
  rows.filter fun r => (s.unit r).role != 4 && !(s.unit r).leftOut

/-- The first `n` of the units that passed are active and the others spare (R647). -/
def State.takeRoles (s : State) (pass : List Nat) (n : Nat) (serves : Nat → Nat) : State :=
  let s := (pass.take n).foldl (fun s r => s.startUnit r 0 (serves r) false) s
  (pass.drop n).foldl (fun s r => s.startUnit r 1 0xFFFF false) s

/-- HUB_AND_KEEPERS_BIST (R624, R636): step 4 needs the hub units and 16 keepers. -/
def execHubAndKeepersBist (t : Nat) (hubOk : Bool) (keepersPass : List Nat) (s : State) : Host.Outcome State Fault Refusal :=
  let s := s.at t
  done <| s.when (s.inStep 4) fun s =>
    let s := s.leaveOut 15 4
    let tried := s.testable (kindRows 15)
    let pass := tried.filter fun r => keepersPass.contains (r - kindRow 15)
    let s := (tried.filter fun r => !pass.contains r).foldl State.startMismatch s
    let s := pass.foldl State.startPass s
    let s := s.takeRoles pass 16 fun _ => 0xFFFF
    if hubOk && decide (16 ≤ pass.length) then s.endStep 4 else s.failStep 4 true

/-- The arrays that step 5 does not power: those the diary shows failed, and those of the regions it shows fenced
(R636). -/
def State.skippedArrays (s : State) : List Nat :=
  let arrays := leftOutBy Diary.arrays s.prevDiaries
  let regions := leftOutBy Diary.regions s.prevDiaries
  (List.range 144).filter fun a => (arrays.testBit a || regions.testBit (a / 36)) && (s.unit a).role != 4

/-- ARRAY_GROUP_POWER (R634): the next of the 18 groups of 8 is powered, 50 µs after the one before. -/
def execArrayGroupPower (t : Nat) (s : State) : Host.Outcome State Fault Refusal :=
  let s := s.at t
  done <| s.when (s.inStep 5 && decide (s.start.groups < 18)
      && (s.start.groups == 0 || decide (s.start.groupAt + 50 * us ≤ s.now))) fun s =>
    { s with start := { s.start with groups := s.start.groups + 1, groupAt := s.now } }

/-- ARRAYS_BIST (R624, R636, R637, R647): every powered array has passed or failed; fewer than 64 fail the step. -/
def execArraysBist (t : Nat) (pass : List Nat) (s : State) : Host.Outcome State Fault Refusal :=
  let s := s.at t
  done <| s.when (s.inStep 5 && s.start.groups == 18) fun s =>
    let out := s.skippedArrays
    let s := out.foldl (fun s a => s.startUnit a 2 0xFFFF true) s
    let s := if out.isEmpty then s else s.useAlternative 5
    let fenced := leftOutBy Diary.regions s.prevDiaries
    let s := s.set E.REGIONS_FENCED (s.get E.REGIONS_FENCED ||| fenced)
    let tried := s.testable (List.range 144)
    let good := tried.filter pass.contains
    let s := (tried.filter fun a => !good.contains a).foldl State.startMismatch s
    let s := good.foldl State.startPass s
    let s := (List.range 4).foldl (fun s r => s.takeRoles (good.filter fun a => a / 36 == r) 32 fun _ => 0xFFFF) s
    let s := s.refreshArrays
    if good.length < 64 then s.failStep 5 true else s.endStep 5

/-- IOC_LINK_START (R27, R624, R636): 12 lanes carry the link; the port step begins. -/
def execIocLinkStart (t : Nat) (lanesFail : List Nat) (s : State) : Host.Outcome State Fault Refusal :=
  let s := s.at t
  done <| s.when (s.inStep 6) fun s =>
    let s := s.leaveOut 16 6
    let tried := s.testable (kindRows 16)
    let bad := tried.filter fun r => lanesFail.contains (r - kindRow 16)
    let good := tried.filter fun r => !bad.contains r
    let s := bad.foldl (fun s r => (s.startUnit r 2 0xFFFF false).noteFailure r) s
    let s := s.takeRoles good 12 fun _ => 0xFFFF
    if good.length < 12 then s.failStep 6 true else (s.endStep 6).portBegin

/-! ### Boot request and image (R627 to R631) -/

/-- A boot datagram's header and body (R627). -/
def State.bootBytes (s : State) (ty : Nat) (body : Bytes) : Bytes :=
  [1] ++ beBytes 1 ty ++ beBytes 2 body.length ++ beBytes 4 s.start.bootSeq ++ beBytes 6 (s.get E.PORT_MAC) ++ [0, 0]
    ++ body

/-- A boot datagram leaves on `UDP_PORT_BOOT` in class 4. -/
def State.sendBoot (s : State) (dst dport ty : Nat) (body : Bytes) : State :=
  s.send { cls := 4, dst := dst, sport := s.eff E.UDP_PORT_BOOT, dport := dport, bytes := s.bootBytes ty body }

/-- Whether a received boot datagram belongs to the attempt in progress and is of a type (R627, R628). -/
def State.bootMine (s : State) (rx : Rx) (ty : Nat) : Bool :=
  let b := rx.bytes
  rx.dport == s.eff E.UDP_PORT_BOOT && decide (16 ≤ b.length) && field b 0 1 == 1 && field b 1 1 == ty
    && field b 2 2 + 16 == b.length && field b 4 4 == s.start.bootSeq && field b 8 6 == s.get E.PORT_MAC % 2 ^ 48

/-- The image last accepted, from the diary (R627). -/
def State.lastFw (s : State) : Nat := ((s.prevDiaries.find? fun d => d.fw != 0).map Diary.fw).getD 0

/-- BOOT_REQUEST (R627, R628): once per second until an offer arrives; `BOOT_SEQ` is the module's choice, a free value. -/
def execBootRequest (t : Nat) (s : State) : Host.Outcome State Fault Refusal :=
  let s := s.at t
  done <| s.when (s.inStep 8 && s.start.offer == none && s.linkUp && s.port.linkLocal == 2
      && (match s.start.imageReqAt with | some x => decide (x ≤ s.now) | none => false)) fun s =>
    let seq := s.freeVal % 2 ^ 32
    let s := s.drawn
    let s : State := { s with start := { s.start with bootSeq := seq, imageReqAt := some (s.now + sec) } }
    s.sendBoot (0xFF02 * 2 ^ 112 + 0x100B1) (s.eff E.UDP_PORT_BOOT) 1
      (beBytes 2 (s.get E.HW_ISSUE) ++ beBytes 2 (s.get E.BOOT_ROM_VERSION) ++ beBytes 4 s.lastFw
        ++ beBytes 2 s.start.fuseSec ++ beBytes 2 s.start.attempt ++ beBytes 1 s.start.cause ++ [0, 0, 0])

/-- The bytes a read asks for: what the form of R627 and the MTU of the port allow. -/
def State.readSize (s : State) : Nat := min 8192 (s.eff E.PORT_MTU - 72)

/-- A read of the image is sent (R628). -/
def State.sendRead (s : State) (r : BootRead) : State :=
  match s.start.offer with
  | some (src, sport, _, _) => s.sendBoot src sport 3 (beBytes 4 r.offset ++ beBytes 2 r.count ++ [0, 0])
  | none => s

/-- Reads go out in ascending offsets while fewer than 64 are outstanding (R628). -/
def State.issueReads (s : State) (len : Nat) : Nat → State
  | 0 => s
  | n + 1 =>
    if 64 ≤ s.start.reads.length || len ≤ s.start.nextOff then s
    else
      let r : BootRead :=
        { offset := s.start.nextOff, count := min s.readSize (len - s.start.nextOff), sentAt := s.now, sends := 1 }
      let s : State := { s with start := { s.start with
        reads := s.start.reads ++ [r], nextOff := s.start.nextOff + r.count } }
      (s.sendRead r).issueReads len n

/-- A result datagram goes to the offering host (R627, R630). -/
def State.sendResult (s : State) (result step : Nat) : State :=
  match s.start.offer with
  | some (src, sport, _, _) => s.sendBoot src sport 5 (beBytes 1 result ++ beBytes 1 step ++ [0, 0])
  | none => s

/-- The attempt ends: no offer, no reads, nothing staged. -/
def State.dropAttempt (s : State) (next : Nat) : State :=
  { s with start := { s.start with
      offer := none, reads := [], nextOff := 0, stagedParts := [], image := [], imageReqAt := some next } }

/-- An image is refused (R630, R631): the result is sent, the diary shows it, and the module is in step 8 again. -/
def State.refuseImage (s : State) (result step : Nat) : State :=
  let s := s.sendResult result step
  let s : State := { s with start := { s.start with refused := true } }
  let s := s.putDiary ((({ s.start.diary with lastResult := result }.setStep 9 0).setStep 11 0))
  let s := s.dropAttempt s.now
  if s.start.step = 8 then s else s.beginStep 8

/-- BOOT_OFFER (R628, R630): the first offer of the attempt is taken; a length out of range is refused. -/
def execBootOffer (t : Nat) (rx : Rx) (s : State) : Host.Outcome State Fault Refusal :=
  let s := s.at t
  done <| s.when (s.inStep 8 && s.start.offer == none && s.bootMine rx 2 && rx.bytes.length == 56) fun s =>
    let s := s.take rx
    let len := field rx.bytes 16 4
    let s : State := { s with start := { s.start with offer := some (rx.src, rx.sport, len, field rx.bytes 24 32) } }
    if len < 512 || 134217728 < len then s.refuseImage 1 8
    else
      let s : State := { s with start := { s.start with reads := [], nextOff := 0, stagedParts := [] } }
      s.issueReads len 64

/-- BOOT_DATA (R628): data that match an outstanding read are staged, other data are dropped; the last read ends step
8. -/
def execBootData (t : Nat) (rx : Rx) (s : State) : Host.Outcome State Fault Refusal :=
  let s := (s.at t).take rx
  let b := rx.bytes
  done <| match s.start.offer with
    | none => s
    | some (_, _, len, _) =>
      let hit := s.start.reads.find? fun r => r.offset == field b 16 4 && r.count == field b 20 2
      match hit with
      | none => s
      | some r =>
        s.when (s.inStep 8 && s.bootMine rx 4 && b.length == 24 + r.count) fun s =>
          let s : State := { s with start := { s.start with
            reads := s.start.reads.filter fun x => x.offset != r.offset
            stagedParts := s.start.stagedParts.set r.offset (b.drop 24) } }
          let s := s.issueReads len 64
          if s.start.reads.isEmpty && len ≤ s.start.nextOff then
            let s : State := { s with start := { s.start with
              image := s.start.stagedParts.flatMap Prod.snd, stagedParts := [] } }
            s.endStep 8
          else s

/-- BOOT_READ_TIMEOUT (R628): a read unanswered for 50 ms is sent again; after 8 sends the attempt is abandoned. -/
def execBootReadTimeout (t offset : Nat) (s : State) : Host.Outcome State Fault Refusal :=
  let s := s.at t
  done <| match s.start.reads.find? fun r => r.offset == offset with
    | none => s
    | some r =>
      s.when (s.inStep 8 && decide (r.sentAt + 50 * ms ≤ s.now)) fun s =>
        if 8 ≤ r.sends then
          let s : State := { s with start := { s.start with attempt := satBytes 2 (s.start.attempt + 1) } }
          s.dropAttempt (s.now + sec)
        else
          let r' := { r with sends := r.sends + 1, sentAt := s.now }
          let s : State := { s with start := { s.start with
            reads := s.start.reads.map fun x => if x.offset = offset then r' else x } }
          s.sendRead r'

/-- The section table of an image (R629): type, offset, length. -/
def imageSections (f : Bytes) : List (Nat × Nat × Nat) :=
  (List.range (field f 20 2)).map fun i =>
    (field f (256 + 16 * i) 2, field f (260 + 16 * i) 4, field f (264 + 16 * i) 4)

/-- Whether header and sections are sound (R629, R630 cause 3). -/
def imageHeaderOk (f : Bytes) (len : Nat) : Bool :=
  let n := field f 20 2
  let secs := imageSections f
  field f 0 4 == 0x434D5246 && field f 4 1 == 1 && field f 16 4 == len && decide (1 ≤ n) && decide (n ≤ 32)
    && secs.all (fun x => x.2.1 % 64 == 0 && decide (256 + 16 * n ≤ x.2.1) && decide (x.2.1 + x.2.2 ≤ len))
    && decide (secs.Pairwise fun x y => x.2.1 + x.2.2 ≤ y.2.1 ∨ y.2.1 + y.2.2 ≤ x.2.1)

/-- The digest D of R630. -/
def imageDigest (f : Bytes) : Nat := Config.sm3 (f.take 96 ++ List.replicate 64 0 ++ f.drop 160)

/-- Whether every critical section stands once and none is unknown (R629, R630 cause 8). -/
def imageCriticalOk (f : Bytes) : Bool :=
  let critical := ((imageSections f).map Prod.fst).filter fun t => decide (0x8000 ≤ t)
  critical.all (fun t => decide (0x8001 ≤ t) && decide (t ≤ 0x8005)) && decide critical.Nodup && critical.length == 5

/-- The first cause of step 9 that refuses the staged image, 0 for none (R630). -/
def State.imageCause (s : State) (f : Bytes) (len digest : Nat) : Nat :=
  let slot := field f 14 1
  let d := imageDigest f
  if d ≠ digest then 2
  else if !imageHeaderOk f len then 3
  else if s.get E.HW_ISSUE < field f 6 2 then 4
  else if 1 < slot || s.start.fuseRevoked.testBit slot || Config.sm3 (slice f 32 64) != Config.fusedKeyHash slot then 5
  else if !Config.sm2Verify (slice f 32 64) (beBytes 32 d) (slice f 96 64) then 6
  else if field f 12 2 < s.start.fuseSec then 7
  else if !imageCriticalOk f then 8
  else 0

/-- IMAGE_CHECK (R630, R631): the staged image passes step 9 or is refused. After a refusal at step 11, step 10 is not
repeated. -/
def execImageCheck (t : Nat) (s : State) : Host.Outcome State Fault Refusal :=
  let s := s.at t
  done <| s.when (s.inStep 9) fun s =>
    match s.start.offer with
    | none => s
    | some (_, _, len, digest) =>
      let c := s.imageCause s.start.image len digest
      if c ≠ 0 then s.refuseImage c 9
      else if s.start.result11 then
        let d := s.start.diary.setStep 9 2
        let d := { d with ends := modAt d.ends 8 fun _ => satBytes 2 s.msSincePower }
        (s.putDiary d).beginStep 11
      else s.endStep 9

/-! ### Step 10: stacks (R338, R636, R647) -/

/-- The start of one stack (R338): rails and logic die, then the training of its channels. Fewer than 16 channels lose
the stack and fence its region. -/
def State.startStack (s : State) (k : Nat) (x : StackStart) : State :=
  let rows := (List.range 18).map (chanRow k)
  let tried := s.testable rows
  let bad := if x.ok then tried.filter fun r => x.failed.contains (r - chanRow k 0) else []
  let s := bad.foldl (fun s r => (s.startUnit r 2 0xFFFF false).noteFailure r) s
  let good := tried.filter fun r => !bad.contains r
  if !x.ok || good.length < 16 then
    let s := rows.foldl (fun s r => if (s.unit r).role = 4 then s else s.startUnit r 2 0xFFFF (s.unit r).leftOut) s
    let s := rows.foldl (fun s r =>
      (s.setU E.CHAN_STATE (r - 508) 3).setU E.CHAN_SLOT (r - 508) 0xFF) (s.setU E.STACK_STATE k 3)
    (s.latch E.STACK_LATCHES 6).fenceRegion k
  else
    let serving := good.take 16
    let home (q : Nat) : Bool := serving.contains (chanRow k q)
    let extra := serving.filter fun r => 16 ≤ r - chanRow k 0
    let holes := (List.range 16).filter fun q => !home q
    let channel (q : Nat) : Nat := if home q then chanRow k q else nth extra (holes.idxOf q) (chanRow k q)
    let s := rows.foldl (fun s r =>
      if good.contains r then (s.startUnit r 1 0xFFFF false).setU E.CHAN_STATE (r - 508) 0
      else s.setU E.CHAN_STATE (r - 508) 3) s
    let s := rows.foldl (fun s r => s.setU E.CHAN_SLOT (r - 508) 0xFF) s
    let s := (List.range 16).foldl (fun s q =>
      let r := channel q
      (((s.startUnit r 0 q false).setU E.CHAN_STATE (r - 508) 1).setU E.CHAN_SLOT (r - 508) q).setSlotChan k q
        (r - chanRow k 0)) s
    (s.setU E.STACK_STATE k 2).set E.STACKS_ACTIVE (s.get E.STACKS_ACTIVE + 1)

/-- STACKS_START (R338, R636): the stacks start one after another; those of a region the diary shows fenced are not
started. -/
def execStacksStart (t : Nat) (found : List StackStart) (s : State) : Host.Outcome State Fault Refusal :=
  let s := s.at t
  done <| s.when (s.inStep 10) fun s =>
    let fenced := leftOutBy Diary.regions s.prevDiaries
    let s := s.leaveOut 12 10
    let s := if fenced = 0 then s else s.useAlternative 10
    let s := s.set E.STACKS_ACTIVE 0
    let s := (List.range 4).foldl (fun s k =>
      if fenced.testBit k then
        (List.range 18).foldl (fun s c =>
          let s := if (s.unit (chanRow k c)).role = 4 then s else s.startUnit (chanRow k c) 2 0xFFFF true
          (s.setU E.CHAN_STATE (chanUnit k c) 3).setU E.CHAN_SLOT (chanUnit k c) 0xFF) (s.setU E.STACK_STATE k 3)
      else s.startStack k (nth found k { ok := false, failed := [] })) s
    s.endStep 10

/-! ### Step 11: firmware (R342, R364, R624, R630, R632, R639, R643) -/

/-- The row program form of an image (R629). -/
def imageForm (f : Bytes) : Bytes :=
  match (imageSections f).find? fun x => x.1 == 0x8003 with
  | some (_, off, len) => slice f off len
  | none => []

/-- Whether the loader takes the row program (R364, R630 cause 9): its form is sound and its demand at factor 1 fits the
reservation of every stance. -/
def State.rowProgramOk (s : State) (f : Bytes) : Bool :=
  let form := imageForm f
  formOk form && field form 6 1 == 1 && formKnown form
    && decide (formDemand form (s.eff E.WHEEL_TICKS) ≤ 1000 * reservation 1)

/-- The units of a kind without a start test: the lowest that are not retired are active, and each keeps its own
output; a spare serves the output of a retired one (R647). -/
def State.homeRoles (s : State) (k : Nat) (serves : Bool) : State :=
  let n := kindActive k
  let rows := s.testable (kindRows k)
  let active := rows.take n
  let extra := active.filter fun r => n ≤ r - kindRow k
  let holes := (List.range n).filter fun q => !active.contains (kindRow k + q)
  let home (r : Nat) : Nat :=
    if r - kindRow k < n then r - kindRow k else nth holes (extra.idxOf r) 0xFFFF
  s.takeRoles rows n fun r => if serves then home r else 0xFFFF

/-- The output entry of every active unit of a kind shows what it serves (R457, R489, R548). -/
def State.showOutputs (s : State) (k : Nat) (e : Ent) : State :=
  (List.range (kindUnits k)).foldl (fun s c =>
    let u := s.unit (kindRow k + c)
    s.setU e c (if u.role = 0 then u.serves % 256 else 0xFF)) s

/-- A default the spec marks "Image" (R643): the image's value of an entry, in the entry's width. -/
def imageValue (f : Bytes) (key width : Nat) : Nat := Config.imageDefault f key % 256 ^ width

/-- The entries an image fills at the start of firmware (R135, R381, R416, R417, R643). The class models give the nodes
(1 to 128, 0 for a class without a model), the inputs (1 to 16) and the demand input. -/
def State.imageEntries (s : State) (f : Bytes) : State :=
  let s := s.set E.FW_VERSION (field f 8 4)
  let s := (s.set E.STAVRIX_FORM_VERSION (imageValue f E.STAVRIX_FORM_VERSION.key 2)).set E.STAVRIX_FORM_MIN
    (imageValue f E.STAVRIX_FORM_MIN.key 2)
  let s := ((s.set E.FW_IMAGE_DIGEST (imageDigest f)).set E.FW_SEC_VERSION (field f 12 2)).set E.FW_KEY_SLOT (field f 14 1)
  let s : State := { s with loader := { s.loader with area := imageValue f E.OPER_STORE_FREE.key 8 } }
  let nodes (c : Nat) : Nat := imageValue f (E.CLASS_NODES.key + 256 * c) 1 % 129
  let demand (c : Nat) : Nat := imageValue f (E.CLASS_DEMAND_INPUT.key + 256 * c) 1
  let s := (List.range 256).foldl (fun s c =>
    if nodes c = 0 then s
    else
      (((s.setU E.CLASS_NODES c (nodes c)).setU E.CLASS_INPUTS c
        (imageValue f (E.CLASS_INPUTS.key + 256 * c) 1 % 16 + 1)).setU E.CLASS_DEMAND_INPUT c
        (if demand c < 16 then demand c else 0xFF)).setU E.CLASS_STATE c 1) s
  s.set E.RP_CLASSES ((List.range 256).filter fun c => nodes c != 0).length

/-- Slot 0 holds the row program (R343): its entries show its form. -/
def State.loadRow (s : State) (form : Bytes) : State :=
  let s := (((s.setU E.PROG_STATE 0 3).setU E.PROG_FORM_VERSION 0 (field form 4 2)).setU E.PROG_PERIOD 0
    (formPeriod form)).setU E.PROG_FACTOR 0 1
  let s := ((s.setU E.PROG_DEMAND 0 (formDemand form (s.eff E.WHEEL_TICKS))).setU E.PROG_STORE 0 (formStorage form)).setU
    E.PROG_DIGEST 0 (formDigest form)
  let hs := rowHinges 0
  let s : State := { s with row := { s.row with hinges := hs } }
  s.resetHingeEntries 0 hs

/-- The latches of steps 2 to 10 are set from the diary, each with its condition record (R639, R645). -/
def State.startLatches (s : State) : State :=
  let d := s.start.diary
  let s := s.when (d.alt != 0) fun s => s.latch E.START_LATCHES 0
  let s := s.when (d.skipped != 0) fun s => s.latch E.START_LATCHES 1
  let s := s.when s.start.refused fun s => s.latch E.START_LATCHES 2
  let s := s.when s.start.prevStartTimer fun s => s.latch E.START_LATCHES 3
  let s := s.when s.start.framDefaults fun s => s.latch E.START_LATCHES 4
  let s := (List.range 674).foldl (fun s row =>
    let k := kindOf row
    if (d.failed k).testBit (row - kindRow k) then
      let u := s.unit row
      let s := if u.role = 4 && u.cause = 1 then s.latch E.WEAR_LATCHES 1 (unitKey row) else s
      if u.role = 4 then s.latch E.WEAR_LATCHES 2 (unitKey row) else s
    else s) s
  let s := if (List.range 4).any (fun k => s.getU E.STACK_STATE k == 3 && d.regions.testBit k) then
      s.latch E.STACK_LATCHES 6 else s
  if d.regions = 0 then s else s.latch E.FABRIC_LATCHES 4

/-- Firmware has started (R615, R616, R624, R634, R639, R647): the entries of the image, the roles of the units that no
start step tests, the recorder with the replay of the FRAM copy, the reservation of the stance and the dictionary. -/
def State.firmwareRuns (s : State) : State :=
  let f := s.start.image
  let s := s.imageEntries f
  let s := ((((s.homeRoles 3 true).homeRoles 4 true).homeRoles 5 true).homeRoles 6 false).homeRoles 8 true
  let s := ((s.showOutputs 4 E.VALVE_OUTPUT).showOutputs 5 E.FAN_OUTPUT).showOutputs 8 E.AIN_TERMINAL
  let s := s.setU E.PLANNED_TEST_TURNS 3 21600
  let s := kinds.foldl State.refreshKind s
  let s : State := { s with
    dict := { s.dict with isOpen := true, hostHeard := s.now }
    recorder := { s.recorder with running := true, dieRf := s.fram.dieRf, histCountNow := s.get E.HIST_COUNT }
    ioc := { s.ioc with restFans := true } }
  let running := (List.range 4).filter fun k => s.getU E.STACK_STATE k == 2
  let s := s.set E.LOG_STACK (running.headD 0xFF)
  let s := s.startLatches
  let gasp := s.fram.gasp
  let s := s.set E.LASTGASP_FRAM_COUNT gasp.length
  let s := gasp.foldl (fun s c =>
    if s.recorder.room c.key then
      let st : Staged := { cond := { c with flags := setBit c.flags 3 }, isNew := true, ends := 0 }
      { s with recorder := { s.recorder with staged := s.recorder.staged ++ [st] } }
    else s.condLost c) s
  let s := if gasp.isEmpty then s else s.latch E.REC_LATCHES 7
  let s := s.loadRow (imageForm f)
  let s := s.reserve (reservation (s.get E.STANCE))
  (s.refreshStore).refreshArrays

/-- FIRMWARE_START (R342, R624, R630, R631): step 11 ends, or the image is refused by the loader or the IOC. -/
def execFirmwareStart (t : Nat) (iocOk : Bool) (s : State) : Host.Outcome State Fault Refusal :=
  let s := s.at t
  done <| s.when (s.inStep 11) fun s =>
    let s : State := { s with start := { s.start with result11 := true } }
    if !s.rowProgramOk s.start.image then s.refuseImage 9 11
    else if !iocOk then s.refuseImage 10 11
    else
      let s := s.sendResult 0 11
      let s := s.putDiary { s.start.diary with fw := field s.start.image 8 4 }
      let s := s.firmwareRuns
      let s : State := { s with wheel := { s.wheel with startAt := some (s.now + s.get E.START_WHEEL_DELAY * ms) } }
      s.endStep 11

/-! ### Steps 13 and 14 (R540, R547, R623, R636, R641, R647) -/

/-- Whether step 13 is skipped (R636): the diary shows it failed, or begun and not passed. -/
def skip13 : List Diary → Bool
  | [] => false
  | d :: ds => d.stepOf 13 == 1 || d.stepOf 13 == 3 || (d.endState != 1 && skip13 ds)

/-- IOC_UNITS_BIST (R540, R548, R624, R636, R647): the field bus ports and analog channels have passed or failed; in a
skipped step those the diary shows failed are fenced or spared as before. -/
def execIocUnitsBist (t : Nat) (portsFail ainFail : List Nat) (s : State) : Host.Outcome State Fault Refusal :=
  let s := s.at t
  done <| s.when (s.inStep 13) fun s =>
    let skip := skip13 s.prevDiaries
    let ports := if skip then (List.range 8).filter (leftOutBy Diary.ports s.prevDiaries).testBit else portsFail
    let ains := if skip then (List.range 80).filter (leftOutBy Diary.ain s.prevDiaries).testBit else ainFail
    let s := s.when skip fun s =>
      (s.putDiary { s.start.diary with skipped := setBit s.start.diary.skipped 12 }).latch E.START_LATCHES 1
    let s := ((List.range 8).filter ports.contains).foldl (fun s p =>
      (s.putDiary { s.start.diary with ports := setBit s.start.diary.ports p }).fencePort p) s
    let tried := s.testable (kindRows 8)
    let bad := tried.filter fun r => ains.contains (r - kindRow 8)
    let s := bad.foldl (fun s r => if skip then s.startUnit r 2 0xFFFF true else s.startMismatch r) s
    let s := if skip then s else (tried.filter fun r => !bad.contains r).foldl State.startPass s
    let s := ((s.homeRoles 8 true).showOutputs 8 E.AIN_TERMINAL).refreshKind 8
    s.endStep 13

/-- ARM (R19, R560, R623, R641): at one tick boundary the rest stance ends, the guard compares, the desk opens and the
plant supervisor starts. -/
def execArm (t : Nat) (s : State) : Host.Outcome State Fault Refusal :=
  let s := s.at t
  done <| s.when (s.inStep 14 && decide (s.wheel.tickStart ≤ s.now)) fun s =>
    let stance := s.get E.STANCE
    let s := ((s.set E.STANCE_ACTIVE stance).set E.REST_CAUSE 0).set E.DESK_OPEN 1
    let s := s.set E.GUARD_ARMED_MS s.msSincePower
    let s := s.putDiary { s.start.diary with armedMs := s.msSincePower }
    let s : State := { s with
      row := { s.row with period := if stance = 0 then 5 else 10 }
      ioc := { s.ioc with restFans := false, stagger := [] } }
    let s := s.endStep 14
    (s.reserve (reservation stance)).redeclareLeaks

/-! ### The start timer, retries and restarts (R626, R638, R640) -/

/-- The limit of a step in ms, none where R624 gives none. -/
def stepLimit (k : Nat) : Option Nat :=
  match k with
  | 2 => some 10 | 3 => some 20 | 4 => some 100 | 5 => some 151 | 6 => some 200 | 9 => some 300 | 10 => some 500
  | 11 => some 1500 | 12 => some 70 | 13 => some 200 | 14 => some 10 | _ => none

/-- The instant a step's limit counts from: step 12 starts `START_WHEEL_DELAY` after step 11 ends. -/
def State.stepFrom (s : State) : Nat :=
  if s.start.step = 12 then s.start.from_ + s.get E.START_WHEEL_DELAY * ms else s.start.from_

/-- START_TIMER_EXPIRY (R626): a step has lasted four times its limit. -/
def execStartTimerExpiry (t : Nat) (s : State) : Host.Outcome State Fault Refusal :=
  let s := s.at t
  let k := s.start.step
  done <| match stepLimit k with
    | none => s
    | some l =>
      s.when (s.inStep k && decide (s.stepFrom + 4 * l * ms ≤ s.now)) fun s =>
        let s := s.putDiary { s.start.diary.setStep k 3 with endState := 2 }
        s.restartFrom2 2

/-- REQUIRED_STEP_RETRY (R638): 10 s after a required step failed. -/
def execRequiredStepRetry (t : Nat) (s : State) : Host.Outcome State Fault Refusal :=
  let s := s.at t
  done <| match s.start.failedAt with
    | none => s
    | some f => s.when (s.elec.power == 1 && decide (f + 10 * sec ≤ s.now)) fun s => s.restartFrom2 3

/-- The service of `execStartCmd`. -/
def startCmdService : Service :=
  cmdService E.START_CMD 1 true (some 1) (fun _ => true) (fun _ => false)
    (fun _ b _ => codeIf (beNat b ≠ 1) St.outOfRange)
    (fun _ _ s =>
      let s := s.enterRest 3
      let next := if s.get E.WHEEL_STATE = 0 then s.now else s.wheel.tickStart + s.wheel.tickLen
      let due := match s.start.restart with | some x => x | none => next + 100 * ms
      ([], { s with start := { s.start with restart := some due } }))

/-- START_CMD (R37, R640): a restart is ordered; the reset follows 100 ms after the next tick boundary. -/
def execStartCmd (t : Nat) (rx : Rx) (s : State) : Host.Outcome State Fault Refusal :=
  done ((s.at t).serve rx startCmdService)

/-- The last-gasp store and the die rainflow matrix are copied to FRAM (R615). -/
def State.copyToFram (s : State) : State :=
  { s with fram := { s.fram with gasp := s.recorder.gasp, dieRf := s.recorder.dieRf } }

/-- RESTART_RESET (R640): the copy to FRAM, the reset, and the sequence from step 2 with cause 1. -/
def execRestartReset (t : Nat) (s : State) : Host.Outcome State Fault Refusal :=
  let s := s.at t
  done <| s.when (s.elec.power == 1 && (match s.start.restart with | some x => decide (x ≤ s.now) | none => false)) fun s =>
    s.copyToFram.restartFrom2 1

end Sys2Proof.Machine
end

