-- ==== Sys2Proof/Machine/Wear.lean ====
section
/-! DEFINITION. Self-test, planned tests and retirement in service (chapter 20). -/

namespace Sys2Proof.Machine

/-! ### A test and its result (R648 to R650) -/

/-- The signature an image stores for a kind of unit (R649): the entry of the BIST signature table for the full test and
the module's own hardware issue. -/
def State.storedSignature (s : State) (kind : Nat) : Option Nat :=
  let f := s.start.image
  match (imageSections f).find? fun x => x.1 == 0x8004 with
  | none => none
  | some (_, off, len) =>
    let entries := (List.range (len / 16)).map fun i => slice f (off + 16 * i) 16
    (entries.find? fun e => field e 0 1 == kind && field e 1 1 == 0 && field e 2 2 == s.get E.HW_ISSUE).map fun e =>
      field e 8 8

/-- BIST_COMPLETE (R648, R649): the test ends; the signature is compared with the stored one. An error reported during the
test stands as its mismatch. -/
def execBistComplete (t row signature : Nat) (s : State) : Host.Outcome State Fault Refusal :=
  let s := s.at t
  let u := s.unit row
  done <| s.when (s.fwRuns && decide (row < 674) && u.role == 3 && u.testFrom.isSome) fun s =>
    let o := match u.outcome with
      | some o => some o
      | none => some (if s.storedSignature (kindOf row) = some signature then 0 else 1, s.tick)
    s.putUnit row { u with lastSig := signature, outcome := o, testFrom := none }

/-- BIST_TIMEOUT (R650): a test that has lasted twice its time counts as a mismatch. -/
def execBistTimeout (t row : Nat) (s : State) : Host.Outcome State Fault Refusal :=
  let s := s.at t
  let u := s.unit row
  done <| s.when (s.fwRuns && decide (row < 674) && u.role == 3 && u.outcome == none) fun s =>
    match u.testFrom with
    | some f =>
      if f + 2 * bistTime (kindOf row) ≤ s.now then s.putUnit row { u with outcome := some (4, s.tick), testFrom := none }
      else s
    | none => s

/-- The base index of a unit's own entries, none for a kind whose units have no configuration entries. -/
def unitIndex (row : Nat) : Option Nat :=
  let n := row - kindRow (kindOf row)
  match kindOf row with
  | 3 => some (0x6000 + n)
  | 4 => some (0x7000 + n)
  | 5 => some (0x7100 + n)
  | 8 => some (0x7300 + n)
  | _ => none

/-- The configuration entries at an index return to their defaults (R648 step 5). -/
def State.resetEntries (s : State) (index : Nat) : State :=
  let mine (r : Row) : Bool := (r.acc == .rw || r.acc == .rws) && decide (r.ent.key / 256 ≤ index)
    && decide (index < r.ent.key / 256 + r.units)
  (dictRows.filter mine).foldl (fun s r =>
    (List.range (r.lastSub + 1 - r.ent.key % 256)).foldl (fun s i => s.putKey (256 * index + r.ent.key % 256 + i) none) s) s

/-- A unit that passed is initialised again (R648 step 5): its memory, its state and its configuration. -/
def State.reinit (s : State) (row : Nat) : State :=
  let n := row - kindRow (kindOf row)
  let s := match unitIndex row with | some i => s.resetEntries i | none => s
  match kindOf row with
  | 2 => s.putArr n { heldSpare := s.turn }
  | 3 => s.putEng n {}
  | 4 => s.putValve n {}
  | 5 => s.putFan n {}
  | 6 => s.putFan (28 + n) {}
  | 8 => s.putAin n {}
  | _ => s

/-- A waiting keeper's work passes to a spare (R651); with none left to wait for, fewer than 16 keepers run (R656). -/
def State.keeperWaits (s : State) : State :=
  match s.wear.waiting with
  | [] => s
  | k :: rest =>
    match s.bestSpare (kindRows 15) with
    | some r =>
      let s : State := { s with wear := { s.wear with waiting := rest } }
      s.promote r (s.unit k).serves
    | none => if s.spareInTest (kindRows 15) then s else s.enterRest 1

/-- BIST_RESULT (R648, R650, R655): at the first tick boundary after the test ended, the unit is a tested spare or is
retired. -/
def execBistResult (t row : Nat) (s : State) : Host.Outcome State Fault Refusal :=
  let s := s.at t
  let u := s.unit row
  done <| match u.outcome with
    | none => s
    | some (o, tick) =>
      s.when (s.fwRuns && decide (row < 674) && u.role == 3 && decide (tick < s.tick)) fun s =>
        let k := kindOf row
        let s :=
          if o = 0 then
            let s := (s.reinit row).setRole row 1 0xFFFF
            let s := s.putUnit row { s.unit row with
              tested := true, passes := satBytes 4 (u.passes + 1), lastTick := s.tick, lastPass := s.turn, outcome := none
              retest := false, planned := false }
            s.refreshKind k
          else
            let s := s.putUnit row { u with fails := satBytes 4 (u.fails + 1), lastTick := s.tick, retest := false }
            let s := (s.inc E.BIST_MISMATCHES).latch E.WEAR_LATCHES 1 (unitKey row)
            s.retire row (if o = 4 then 4 else 1)
        let s := if k = 2 then s.refreshArrays else s
        if k = 15 then s.keeperWaits else s

/-! ### Retests and planned tests (R651 to R653, R657) -/

/-- SPARE_RETEST (R651, R657): at a turn boundary the spare of a kind with the oldest pass is tested again. -/
def execSpareRetest (t kind : Nat) (s : State) : Host.Outcome State Fault Refusal :=
  let s := s.at t
  let rows := kindRows kind
  let due (r : Nat) : Bool := (s.unit r).role == 1 && (s.unit r).tested
    && decide ((s.unit r).lastPass + s.effU E.SPARE_RETEST_TURNS kind < s.turn)
  done <| s.when (s.fwRuns && !s.inRest && s.wheel.idx == 0 && kind != 12 && kind != 16 && !s.spareInTest rows) fun s =>
    match minBy (fun r => (s.unit r).lastPass) (rows.filter due) with
    | some r =>
      let s := s.startTest r false
      let s := s.putUnit r { s.unit r with retest := true }
      if kind = 2 then s.refreshArrays else s
    | none => s

/-- The active unit of a kind that a planned test takes (R652). -/
def State.plannedOut (s : State) (kind : Nat) : Option Nat :=
  let active := (kindRows kind).filter fun r => (s.unit r).role == 0
  if kind = 6 then maxBy (fun r => s.useTurns (s.unit r)) active
  else maxBy (fun r => s.turn - (s.unit r).roleTurn) (if kind = 3 then
    active.filter fun r => !(s.eng (r - kindRow 3)).down else active)

/-- PLANNED_TEST (R652, R653, R657): at a turn boundary an active keeper, engine or internal fan hands its role to the
spare with the most turns in the spare role and is tested; without a tested spare, or in the rest stance, the test is
deferred by one turn. -/
def execPlannedTest (t kind : Nat) (s : State) : Host.Outcome State Fault Refusal :=
  let s := s.at t
  let due := s.wear.lastPlanned.getD kind 0 + s.effU E.PLANNED_TEST_TURNS kind
  done <| s.when (s.fwRuns && s.get E.WHEEL_STATE != 0 && s.wheel.idx == 0 && [3, 6, 15].contains kind
      && decide (due ≤ s.turn) && s.wear.plannedTried.get kind != some s.turn) fun s =>
    let s : State := { s with wear := { s.wear with plannedTried := s.wear.plannedTried.set kind s.turn } }
    let go (s : State) : State := { s with wear := { s.wear with lastPlanned := s.wear.lastPlanned.set kind s.turn } }
    match s.plannedOut kind, s.longestSpare (kindRows kind) with
    | some o, some i =>
      if s.inRest then s.latch E.WEAR_LATCHES 3
      else if kind = 6 then
        let s : State := { s with wear := { s.wear with ifanSwap := some (o - kindRow 6, i - kindRow 6) } }
        go ((s.putFan (28 + (i - kindRow 6)) { started := true }).setFanState (28 + (i - kindRow 6)) 0)
      else
        let serves := if kind = 3 then i - kindRow 3 else (s.unit o).serves
        let s := (s.setRole i 0 serves).setRole o 2 0xFFFF
        let s := s.putUnit o { s.unit o with planned := true }
        go (if kind = 3 then s.moveLoop (o - kindRow 3) (i - kindRow 3) true else s)
    | _, _ => s.latch E.WEAR_LATCHES 3

/-- The internal fan of a planned test (R652): once the spare runs, the outgoing fan stops and is tested; a spare that
fails to start is fenced, and the outgoing fan keeps its role. -/
def State.ifanSwap (s : State) : State :=
  match s.wear.ifanSwap with
  | none => s
  | some (o, i) =>
    let ends (s : State) : State := { s with wear := { s.wear with ifanSwap := none } }
    let ro := kindRow 6 + o
    let ri := kindRow 6 + i
    if (s.unit ro).role ≠ 0 || (s.unit ri).role ≠ 1 then ends s
    else
      let st := s.fanState (28 + i)
      if st = 4 || st = 6 then
        let s := ends ((s.setRole ri 0 0xFFFF).setRole ro 2 0xFFFF)
        let s := s.putUnit ro { s.unit ro with planned := true }
        (s.setVolts (28 + o) 0).setFanState (28 + o) 0
      else if st = 7 then (ends (s.setRole ri 2 0xFFFF)).setVolts (28 + i) 0
      else s

/-! ### Keepers and fenced units -/

/-- KEEPER_BLOCK_ERROR (R651, R654, R656): the keeper is fenced and a tested spare takes its work; with fewer than 16
able to run the module enters the rest stance. -/
def execKeeperBlockError (t keeper : Nat) (s : State) : Host.Outcome State Fault Refusal :=
  let s := s.at t
  let row := kindRow 15 + keeper
  done <| s.when (s.fwRuns && decide (keeper < 18)) fun s =>
    match (s.unit row).role with
    | 0 =>
      let s := s.fenceUnit row
      let s : State := { s with wear := { s.wear with waiting := s.wear.waiting ++ [row] } }
      s.keeperWaits
    | 1 => s.fenceUnit row
    | 3 => s.putUnit row { s.unit row with outcome := some (1, s.tick) }
    | _ => s

/-- At a tick boundary the units fenced before it enter their test (R648), those of a fenced region and those left out at
this start apart; stack channels and link lanes are tested at a start alone (R646). -/
def State.startTests (s : State) : State :=
  let due (row : Nat) : Bool :=
    let u := s.unit row
    let k := kindOf row
    u.role == 2 && !u.leftOut && decide (u.since < s.tick) && k != 12 && k != 16
      && !(k == 2 && (s.get E.REGIONS_FENCED).testBit (row / 36))
  let rows := (s.wear.units.filter fun p => due p.1).map Prod.fst
  let s := rows.foldl (fun s row => s.startTest row (s.unit row).planned) s
  if rows.isEmpty then s else s.refreshArrays

end Sys2Proof.Machine
end

