-- ==== Sys2Proof/Machine/Tick.lean ====
section
/-! DEFINITION. Tick and turn boundaries (R57, R303), with what every chapter does at them, and the errors of the IOC link
and of the chip (R27, R29, R38). -/

namespace Sys2Proof.Machine

/-! ### The wheel moves on (R42, R43, R50, R54) -/

/-- The distance of a turn boundary at `x` from its target, the reference crossing delayed by `WHEEL_PHASE_OFFSET`, taken
within half a mains period on either side (R49). -/
def State.phaseError (s : State) (x : Nat) : Int :=
  match nth s.wheel.cross (s.get E.WHEEL_REF_PHASE) none with
  | none => 0
  | some c =>
    let p := s.wheel.lastPeriod
    if p = 0 then 0
    else
      let d := ((x : Int) - (c + s.get E.WHEEL_PHASE_OFFSET * p / 65536 : Nat)) % p
      if p < 2 * d then d - p else d

/-- A new turn begins at the end of the tick in progress. Its length is the one its notice gave. -/
def State.newTurn (s : State) : State :=
  let x := s.wheel.tickStart + s.wheel.tickLen
  let noticed := s.wheel.noticeTurn == some (s.turn + 1)
  let (len, s) := match s.wheel.nextLen with
    | some l => (l, s)
    | none => s.nextTickLen
  let notice := if noticed then s.wheel.notice else s.noticeBytes (s.turn + 1) x len
  let w := s.wheel
  let locked := if s.get E.WHEEL_STATE = 1 then (s.turnLen :: w.locked).take 64 else w.locked
  let s : State := { s with wheel := { w with
    tick := w.tick + 1, idx := 0, turn := w.turn + 1, tickStart := x, prevLen := w.tickLen, tickLen := len, turnStart := x
    turnDone := false, nextLen := none, err := s.phaseError x, locked := locked, currentNotice := notice } }
  s.set E.TICK_PERIOD_PS len

/-- The next tick begins. -/
def State.newTick (s : State) : State :=
  if s.wheel.idx + 1 < s.ticksPerTurn then
    { s with wheel := { s.wheel with
        tick := s.tick + 1, idx := s.wheel.idx + 1, tickStart := s.wheel.tickStart + s.wheel.tickLen
        prevLen := s.wheel.tickLen } }
  else s.newTurn

/-! ### Phase sources (R69 to R72) -/

/-- PHASE_SOURCE_ADVANCE (R70 to R72): the bin of source `n` for the tick that begins. -/
def State.phaseAdvance (s : State) (n : Nat) : State :=
  let x := s.phases.getD n {}
  let input := s.getU E.PHASE_INPUT n
  let settled := decide (x.validFrom ≤ s.turn)
  let show_ (s : State) (bin : Nat) (valid : Bool) (period : Nat) : State :=
    ((s.setU E.PHASE_BIN n bin).setU E.PHASE_VALID n (if valid && settled then 1 else 0)).setU E.PHASE_PERIOD n period
  let keep := s.getU E.PHASE_BIN n
  match s.getU E.PHASE_KIND n with
  | 1 => show_ s (s.wheel.idx * 256 / s.ticksPerTurn) true 0
  | 2 =>
    if 7 < input then show_ s keep false 0
    else
      let c := s.getU E.ANGLE_COUNTS n
      show_ s (s.getU E.ANGLE_COUNT input % c * 256 / c) (s.getU E.ANGLE_FAULT_NOW input == 0) 0
  | 3 =>
    let p := s.getU E.PD_PERIOD input
    if p = 0 then show_ s keep false 0
    else
      let ph := x.phase + 256 / (p : Rat)
      let ph := ph - ph.floor
      let s : State := { s with phases := s.phases.set n { x with phase := ph } }
      show_ s (ph * 256).floor.toNat true p
  | _ => show_ s keep false 0

/-! ### Power, stacks and temperatures at a tick boundary -/

/-- DIE_POWER_MEASURE and POWER_CLAMP (R307, R308): `p` is the tick's die power in mW. -/
def State.diePowerTick (s : State) (p : Nat) : State :=
  let f := s.fabric
  let s : State := { s with fabric := { f with
    powerSum := f.powerSum + p, powerTicks := f.powerTicks + 1, powerMax := max f.powerMax p } }
  let s := s.histValue 8 0 (f32Ratio p 1000)
  if s.get E.DIE_CEILING_EFFECTIVE * 1100 < p || 820000 < p then
    let s : State := { s with fabric := { s.fabric with clampTick := some s.tick } }
    (s.inc E.POWER_CLAMPS).latch E.FABRIC_LATCHES 6
  else s

/-- BACKGROUND_THROTTLE (R337) and the utilisation of the turn; `u` is the utilisation of each stack in the tick that
ended. -/
def State.stackTick (s : State) (u : List Nat) : State :=
  (List.range 4).foldl (fun s k =>
    let v := nth u k 0
    let x := s.stack k
    let beyond := decide (10 * s.eff E.STACK_BG_LIMIT < v)
    let s := s.putStack k { x with throttled := beyond, utilSum := x.utilSum + v, utilTicks := x.utilTicks + 1 }
    if beyond then s.incU E.BG_THROTTLE_TICKS k else s) s

/-- Sensor values shown as measured at the boundary. -/
def State.showTemps (s : State) (e : Ent) (l : List Int) : State :=
  (List.range l.length).foldl (fun s k => s.setU e k (code16 (nth l k 0))) s

/-- The feeds (R679): volts in 1/16 V rounded down, current in 1/16 A rounded up. -/
def State.showFeeds (s : State) (x : TickIn) : State :=
  (((s.set E.FEED_A_V (x.feedA * 16 / 1000)).set E.FEED_B_V (x.feedB * 16 / 1000)).set E.ACT_FEED_V
    (x.actFeed * 16 / 1000)).set E.ACT_FEED_I (ceilDiv (x.actCurrent * 16) 1000)

/-- Guard cuts and row cuts in force at the boundary (R247). -/
def State.countCuts (s : State) : State :=
  let cuts := (s.presents.filter fun p => match p.2.cut with | some c => c.tc.isSome | none => false).length
  let scopes := ((s.desk.rowSent.map RowSent.scope).eraseDups).filter fun c => (s.rowInForce c s.tick).isSome
  (s.set E.GUARD_CUTS_IN_FORCE cuts).set E.ROW_CUTS_IN_FORCE scopes.length

/-- What the IOC does at a tick boundary; `len` is the length of the tick just ended. -/
def State.iocTick (s : State) (len : Nat) (x : TickIn) : State :=
  if s.ioc.linkLost then s
  else
    let s : State := { s with wheel := { s.wheel with
      iocLatchPrev := s.wheel.iocLatch, iocLatch := s.wheel.tickStart / 12500 % 2 ^ 32 } }
    let s := (s.ainTick x.terminals).angleTick len x.angles
    let s := s.valveTick x.coils x.bankCurrents x.boostRail
    let s := if s.wheel.idx = 0 then s.valveOffCheck x.noCoil else s
    s.fbTick len x.busy

/-- TICK_BOUNDARY (R18, R42, R57, R70, R307, R308, R337, R476, R536, R546): the next tick begins, and at a turn's end the
next turn; the ceilings switch, the IOC latches its inputs, phase sources advance, and every chapter does what it does at
a tick boundary. -/
def execTickBoundary (t : Nat) (x : TickIn) (s : State) : Host.Outcome State Fault Refusal :=
  let s := s.at t
  done <| s.when (s.get E.WHEEL_STATE != 0 && s.elec.power == 1
      && decide (s.wheel.tickStart + s.wheel.tickLen ≤ s.now)) fun s =>
    let len := s.wheel.tickLen
    let s : State := { s.newTick with latched := [] }
    let s : State := { s with fabric := { s.fabric with noResult := [] } }
    let s := s.ceilingSwitch.emulTick
    let s := s.recorderTick.detectorTick
    let s := s.iocTick len x
    let s := (List.range 16).foldl State.phaseAdvance s
    let s := (s.diePowerTick x.diePower).stackTick x.stackUtil
    let s := (s.showTemps E.STACK_TEMP x.stackTemps).showTemps E.ARRAY_TEMP x.arrayTemps
    let hot := s.plant.dieHot
    let s := s.coolingTick x
    let s := if s.plant.dieHot != hot then s.rateTest else s
    let s := s.histValue 9 0 (f32Ratio (s16 (s.get E.COOL_DIE_T)) 64)
    let s := (s.showFeeds x).startTests.ifanSwap
    s.countCuts

/-! ### Turn boundaries (R303) -/

/-- The coherence of the turn that ended is judged, and MODEL_CEILINGS_TAKEOVER (R642). -/
def State.coherence (s : State) : State :=
  let s := if s.tick = 0 then s else s.coverTick (s.tick - 1)
  let x := s.start
  let good := x.step == 15 && x.linkUpTurn && decide (0 < x.presentAtStart)
    && decide (s.get E.START_COHERENT_PCT * x.pairsDue ≤ 100 * x.covered)
  let run := if good then x.coherentRun + 1 else 0
  let s : State := { s with start := { x with
    coherentRun := run, covered := 0, pairsDue := 0, linkUpTurn := s.linkUp, presentAtStart := s.get E.DESK_PRESENT } }
  if 2 ≤ run && s.get E.MODEL_CEILINGS = 0 then
    let s := (s.set E.MODEL_CEILINGS 1).set E.MODEL_CEILINGS_TICK s.tick
    s.placeClasses ((List.range 256).filter fun c =>
      s.getU E.CLASS_REGION c == 0xFF && decide (0 < s.getU E.CLASS_GUESTS c))
  else s

/-- STANCE_CHANGE_APPLY (R34, R35, R58): the stance selected for this boundary takes effect. -/
def State.stanceApply (s : State) : State :=
  match (s.stancePending.filter fun p => decide (p.1 ≤ s.turn)).getLast? with
  | none => s
  | some (_, v) =>
    let s : State := { s with stancePending := s.stancePending.filter fun p => decide (s.turn < p.1) }
    if s.inRest || s.get E.STANCE_ACTIVE = v then s
    else
      let s := s.set E.STANCE_ACTIVE v
      let s : State := { s with
        fabric := { s.fabric with stanceTurn := some s.turn }
        row := { s.row with period := if v = 0 then 5 else 10, origin := s.tick, alloc := none } }
      s.reserve (reservation v)

/-- STRETCH_ADJUST (R307, R578): the die power of the turn that ended, and the operators' stretch. -/
def State.stretchAdjust (s : State) : State :=
  let f := s.fabric
  if f.powerTicks = 0 then s
  else
    let s := (s.set E.DIE_POWER (ceilDiv f.powerSum (1000 * f.powerTicks))).set E.DIE_POWER_PEAK (ceilDiv f.powerMax 1000)
    let beyond (w : Nat) : Bool := decide (w * 1000 * f.powerTicks < f.powerSum)
    let ceil := s.get E.DIE_CEILING_EFFECTIVE
    let below := decide (f.powerSum < (ceil - s.eff E.DIE_POWER_HYST) * 1000 * f.powerTicks)
    let low := if below then f.lowTurns + 1 else 0
    let s : State := { s with fabric := { f with powerSum := 0, powerTicks := 0, powerMax := 0, lowTurns := low } }
    let l := s.get E.OPER_POWER_STRETCH
    if beyond ceil then
      let s := s.set E.OPER_POWER_STRETCH (min 16 (l + 1))
      if l = 16 then s.latch E.FABRIC_LATCHES 7 else s
    else if 8 ≤ low then s.set E.OPER_POWER_STRETCH (l - 1)
    else s

/-- ADMIT_LIMIT_RECOMPUTE (R187). -/
def State.admitLimit (s : State) : State :=
  s.set E.ADMIT_LIMIT (s.get E.LANES_ACTIVE * 125000000 / (s.ticksPerTurn * s.get E.ADMIT_HZ))

/-- The desk and the lanes at a turn boundary (R187, R189, R214); `len` is the length in ps of the turn that ended. -/
def State.admitTurn (s : State) (len : Nat) : State :=
  let s := s.admitLimit
  let guests := s.get E.DESK_PRESENT + s.get E.DESK_RESERVED
  let lanes := s.get E.LANES_ACTIVE * 125000000
  let work := guests * s.ticksPerTurn * sec
  let s := s.set E.INGEST_LOAD (satBytes 2 (ceilDiv (1000 * work) (lanes * max 1 len)))
  let s := if lanes * len < work then s.latch E.INGEST_LATCHES 7 else s
  let s := s.set E.LANE_BACKLOG_MAX s.desk.backlog
  { s with desk := { s.desk with backlog := 0 } }

/-- The guard's latencies and queue depth of the turn (R233, R235, R247). -/
def State.guardTurn (s : State) : State :=
  let g := s.guard
  let s := ((s.set E.GUARD_LAT_MAX g.latMax).set E.GUARD_LAT_MEAN (if g.latN = 0 then 0 else ceilDiv g.latSum g.latN)).set
    E.GUARD_QUEUE_MAX g.queueMax
  { s with guard := { g with latMax := 0, latSum := 0, latN := 0, queueMax := s.desk.class0.length } }

/-- The lanes of the cage (R98, R100), and LINK_DEGRADED. -/
def State.lanesTurn (s : State) (x : TurnIn) : State :=
  let s := (List.range 8).foldl (fun s k =>
    (((s.setU E.LANE_SNR k (code16 (nth x.snr k 0))).setU E.LANE_BER k (nth x.lanes k 0)).addU E.LANE_SYMBOLS k
      (nth x.symbols k 0)).setU E.LANE_LOCK k (if nth x.locks k false then 1 else 0)) s
  if x.lanes.any fun v => f32Lt (s.get E.PORT_BER_WARN) v then s.latch E.PORT_LATCHES 2 else s

/-- What stacks and arrays show of the turn (R283, R310, R311, R340, R341). -/
def State.unitsTurn (s : State) (x : TurnIn) : State :=
  let s := (List.range 4).foldl (fun s k =>
    let y := s.stack k
    if y.utilTicks = 0 then s
    else (s.setU E.STACK_UTIL k (y.utilSum / y.utilTicks)).putStack k { y with utilSum := 0, utilTicks := 0 }) s
  let s := (List.range x.arrayUtil.length).foldl (fun s a => s.setU E.ARRAY_UTIL a (nth x.arrayUtil a 0)) s
  let s := x.sramCorrected.foldl (fun s p => s.addU E.SRAM_CORRECTED p.1 p.2) s
  let s := x.crcRetries.foldl (fun s p => s.addU E.CHAN_CRC_RETRIES p.1 p.2) s
  s.set E.LOGIC_POWER (ceilDiv x.logicPower 1000)

/-- Every 4,096th turn boundary: HOLDUP_MEASURE (R671) and WEAR_LIFE_WRITE (R659). -/
def State.everyLong (s : State) (x : TurnIn) : State :=
  if s.turn % 4096 ≠ 0 then s
  else
    let s := s.set E.HOLDUP_PCT x.holdup
    let s := if x.holdup < 80 then s.latch E.ELEC_LATCHES 5 else s
    (List.range 674).foldl State.writeLife s

/-- The loader re-places the operator programs where their arrays or programs changed (R369), and the rates are tested
(R370). -/
def State.loaderTurn (s : State) : State :=
  let s := if s.loader.replaceDue then
      let s : State := { s with loader := { s.loader with replaceDue := false } }
      s.replace
    else s
  s.rateTest

/-- TURN_BOUNDARY (R34, R187, R303, R307, R369, R370, R399, R414, R548, R642, R659, R671): the values of the turn that
ended are formed and the changes of the boundary applied, fences having been applied before and rotations coming
after. -/
def execTurnBoundary (t : Nat) (x : TurnIn) (s : State) : Host.Outcome State Fault Refusal :=
  let s := s.at t
  done <| s.when (s.get E.WHEEL_STATE != 0 && s.elec.power == 1 && s.wheel.idx == 0 && !s.wheel.turnDone) fun s =>
    let s : State := { s with wheel := { s.wheel with turnDone := true } }
    let s := s.coherence.stanceApply
    let s := s.stretchAdjust.carve true
    let s : State := { s with progs := s.progs.mapVals fun _ g => { g with storeBack := 0 } }
    let s := s.refreshStore.loaderTurn
    let s := (s.admitTurn (s.ticksPerTurn * s.wheel.prevLen)).guardTurn.classTurn
    let s := (List.range 16).foldl State.detect s
    let s := s.recorderTurn.valveTurn
    let s := s.fbTurn.pumpTurn
    let s := ((s.mainsTurn x.mains x.rotation).ainReference x.badRefs).lanesTurn x
    (s.unitsTurn x).everyLong x

/-! ### Errors of the chip and of the IOC link (R27, R29, R37, R38) -/

/-- CHIP_LEVEL_ERROR (R29, R38): an error that no lower level contains. -/
def execChipLevelError (t : Nat) (s : State) : Host.Outcome State Fault Refusal :=
  let s := s.at t
  done <| s.when s.fwRuns fun s => s.enterRest 1

/-- IOC_LANE_FAIL (R27, R655): a lane fails its check on 8 consecutive frames; it is fenced, and an active one waits for
a spare at the next turn boundary. -/
def execIocLaneFail (t lane : Nat) (s : State) : Host.Outcome State Fault Refusal :=
  let s := s.at t
  let row := kindRow 16 + lane
  done <| s.when (s.fwRuns && decide (lane < 14) && decide ((s.unit row).role ≤ 1)) fun s =>
    let was := (s.unit row).role
    let s := (s.fenceUnit row).noteFailure row
    if was = 0 then { s with ioc := { s.ioc with lanesFailed := s.ioc.lanesFailed ++ [s.turn] } } else s

/-- IOC_LANE_SPARE (R27): at the turn boundary after a failure a spare lane is brought in; with none left the module enters
the rest stance. -/
def execIocLaneSpare (t : Nat) (s : State) : Host.Outcome State Fault Refusal :=
  let s := s.at t
  done <| s.when (s.fwRuns && s.wheel.idx == 0) fun s =>
    let due := s.ioc.lanesFailed.filter fun n => decide (n < s.turn)
    let s : State := { s with ioc := { s.ioc with lanesFailed := s.ioc.lanesFailed.filter fun n => decide (s.turn ≤ n) } }
    due.foldl (fun s _ =>
      match s.bestSpare (kindRows 16) with
      | some r => s.promote r 0xFFFF
      | none => s.enterRest 1) s

/-- IOC_LINK_LOSS (R38, R458, R490, R514): the outputs take their hardware rest values, valves off and every fan raised to
full speed in the power board's order; field bus ports stop; and the module enters the rest stance. -/
def execIocLinkLoss (t : Nat) (s : State) : Host.Outcome State Fault Refusal :=
  let s := s.at t
  done <| s.when (s.fwRuns && !s.ioc.linkLost) fun s =>
    let s : State := { s with ioc := { s.ioc with linkLost := true, restFans := true } }
    let s := s.valvesOff
    let s := (List.range 8).foldl (fun s p =>
      if s.fbState p = 7 then s
      else (s.putPort p { s.fbPort p with bus := none }).setU E.FB_STATE p 0) s
    let s := match fanOrder.filter s.fanActive with
      | [] => s
      | c :: rest =>
        let s : State := { s with ioc := { s.ioc with stagger := rest, staggerAt := s.now } }
        s.fanFull c
    s.enterRest 2

end Sys2Proof.Machine
end

