-- ==== Sys2Proof/Machine/DictVals.lean ====
section
/-! DEFINITION. Reading the dictionary and its tables: the value each entry shows (R8, R9, R107), the rows of table
`ENTRIES` (R120), and the rows of the other tables (R119, R181, R211 to R213, R249, R408, R596 to R602, R658). -/

namespace Sys2Proof.Machine

/-! ### Entries -/

/-- Type codes of R107; `BRK16` takes its code, a variable argument block that of OCT. -/
def Ty.code : Ty → Nat
  | .u8 => 1 | .u16 => 2 | .u32 => 3 | .u64 => 4 | .i16 => 5 | .i32 => 6 | .f32 => 7 | .brk16 => 8 | .tick => 9
  | .str => 0xA | .oct _ => 0xB | .octVar => 0xB

/-- Bytes of a value of the type; 0 for those whose length varies. -/
def Ty.size : Ty → Nat
  | .u8 => 1 | .u16 => 2 | .u32 => 4 | .u64 => 8 | .i16 => 2 | .i32 => 4 | .f32 => 4 | .brk16 => 4 | .tick => 8
  | .str => 0 | .oct n => n | .octVar => 0

/-- A command entry (R113): access WO or K, `DICT_OPEN_WRITES` being a K entry with a value. -/
def Row.command (r : Row) : Bool := r.acc == .wo || (r.acc == .k && r.ent != E.DICT_OPEN_WRITES)

/-- Whether unit `u` of a row exists: of the entries at 0xB100 only those of the spared kinds do (R661). -/
def Row.unitOk (r : Row) (u : Nat) : Bool := r.ent.key / 256 != 0xB100 || kinds.contains u

/-- The row and unit of an index and subindex. -/
def entryAt (index sub : Nat) : Option (Row × Nat) :=
  match findRow index sub with
  | some (r, u) => if r.unitOk u then some (r, u) else none
  | none => none

/-- Whether an entry stands at the index. -/
def indexOk (index : Nat) : Bool := knownIndex index && (index / 256 != 0xB1 || kinds.contains (index - 0xB100))

/-- The codes of an index and subindex without an entry (R134, R138). -/
def entryCodes (index sub : Nat) : List Nat :=
  if !indexOk index then [St.unknownIndex] else codeIf (entryAt index sub).isNone St.unknownSub

/-- Bit n of an OCT bitmap stands in byte n / 8, at bit n mod 8 (R635). -/
def bitmapBytes (n v : Nat) : Bytes := (beBytes n v).reverse

/-- A boot diary entry (R635). -/
def Diary.bytes (d : Diary) : Bytes :=
  beBytes 4 d.number ++ beBytes 1 d.cause ++ beBytes 1 d.reached ++ beBytes 1 d.endState ++ beBytes 1 d.laneMap
    ++ beBytes 4 d.fw ++ beBytes 4 d.stepState ++ beBytes 2 d.alt ++ beBytes 2 d.skipped ++ bitmapBytes 18 d.arrays
    ++ beBytes 2 d.lanes ++ bitmapBytes 9 d.channels ++ beBytes 1 d.regions ++ bitmapBytes 3 d.keepers
    ++ beBytes 1 d.ports ++ bitmapBytes 10 d.ain ++ beBytes 4 d.armedMs ++ beBytes 1 d.lastResult ++ [0, 0, 0]
    ++ (List.range 14).flatMap (fun k => beBytes 2 (nth d.ends k 0)) ++ List.replicate 28 0

/-- Entry `k` of `BOOT_DIARY`, newest first; a diary that FRAM did not take stands in front (R635, R636). -/
def State.diaryBytes (s : State) (k : Nat) : Bytes :=
  let l := if s.start.diaryInFram then s.fram.diary else s.start.diary :: s.fram.diary
  match l[k]? with
  | some d => d.bytes
  | none => List.replicate 128 0

/-- The octets of an ASCII text. -/
def textBytes (t : String) : Bytes := t.toList.map fun c => BitVec.ofNat 8 c.toNat

/-- Age of a hinge table's live leaf (R378, R385), saturating; 0 for a table that does not exist. -/
def State.hingeAge (s : State) (n : Nat) : Nat :=
  match s.hinge (n / 8) (n % 8) with
  | some h => satBytes 4 (s.tick - h.liveTick)
  | none => 0

/-- `NEXT_PLANNED_TURN` of kind `k` (R661). -/
def State.nextPlanned (s : State) (k : Nat) : Nat :=
  if k = 2 then s.rotateNext
  else if k = 3 || k = 6 || k = 15 then s.wear.lastPlanned.getD k 0 + s.effU E.PLANNED_TEST_TURNS k
  else 0

/-- The value of entry `e`, unit `u`, subindex offset `k`, as a number: entries that follow from other state are computed,
every other entry shows its register. -/
def State.shown (s : State) (e : Ent) (u k : Nat) : Nat :=
  if e = E.WHEEL_NOW then s.tick
  else if e = E.HOLDOVER_TIME then
    (if s.get E.WHEEL_STATE = 2 then satBytes 4 ((s.now - s.wheel.holdFrom) / sec) else 0)
  else if e = E.MAINS_FREQ then (if s.wheel.validAt + 2 * s.nominal ≤ s.now then 0 else s.get e)
  else if e = E.HOST_SILENT_MS then satBytes 4 ((s.now - s.dict.hostHeard) / ms)
  else if e = E.ROTATE_NEXT_TURN then s.rotateNext
  else if e = E.ARRAY_STATE then s.arrayState u
  else if e = E.ARRAY_POSITION then u / 36 * 256 + u % 36
  else if e = E.ROLE_TURNS then s.turn - (s.unit u).roleTurn
  else if e = E.HINGE_AGE then s.hingeAge u
  else if e = E.LOOP_STATUS then s.loopStatus u
  else if e = E.VALVE_STATUS then s.valveStatus u
  else if e = E.FAN_STATUS then s.fanStatus u
  else if e = E.IFAN_ROLE then (s.unit (kindRow 6 + u)).role
  else if e = E.AIN_STATUS then s.ainStatus u
  else if e = E.TX_STATUS then s.txStatus (256 * u + k)
  else if e = E.BR_STATE then s.branchState u
  else if e = E.NEXT_PLANNED_TURN then s.nextPlanned u
  else s.getU ⟨e.key + k, e.dflt⟩ u

/-- The octets a read of a row's unit and subindex gives (R9, R106, R107); a command entry reads as zero. -/
def State.readBytes (s : State) (r : Row) (u sub : Nat) : Bytes :=
  let k := sub - r.ent.key % 256
  if r.command then List.replicate r.ty.size 0
  else if r.ent = E.VENDOR then textBytes "Balnar"
  else if r.ent = E.PRODUCT then textBytes "CMR-1600-A"
  else if r.ent = E.SERIAL then Config.serial
  else if r.ent = E.BOOT_DIARY then s.diaryBytes k
  else if r.ent = E.LASTGASP_FRAM then match s.fram.gasp[k]? with | some c => c.bytes | none => List.replicate 64 0
  else if r.ent = E.LASTGASP_SRAM then match s.recorder.gasp[k]? with | some c => c.bytes | none => List.replicate 64 0
  else if r.ent = E.LOOP_TABLE then
    (List.range 4).flatMap fun i => beBytes 4 ((s.eng u).table.getD (4 * k + i) 0)
  else beBytes r.ty.size (s.shown r.ent u k)

/-- A row of table `ENTRIES` (R120). -/
def State.entryRow (s : State) (r : Row) (u sub : Nat) : Bytes :=
  let v := s.readBytes r u sub
  beBytes 2 (r.ent.key / 256 + u) ++ beBytes 1 sub ++ beBytes 1 r.ty.code ++ beBytes 2 v.length ++ v

/-- Whether table `ENTRIES` lists a row's entries: not WO ones, K ones only within a session. -/
def Row.listed (r : Row) (keyed : Bool) : Bool := r.acc != .wo && (keyed || r.acc != .k)

/-- The first position of a row at or above `p`. -/
def Row.nextPos (r : Row) (p : Nat) : Option Nat :=
  let i0 := r.ent.key / 256
  let s0 := r.ent.key % 256
  let u0 := if p / 256 < i0 then 0 else if r.lastSub < p % 256 then p / 256 - i0 + 1 else p / 256 - i0
  ((List.range' u0 (r.units - u0)).find? r.unitOk).map fun u => max p (256 * (i0 + u) + s0)

/-- The rows of `ENTRIES` from position `p` on, below `hi`, that fit into `room` bytes, and the position the next
fragment starts at. `acc` holds the rows so far. -/
def State.entryRows (s : State) (keyed : Bool) (hi room : Nat) : Nat → Nat → Bytes → Bytes × Nat
  | 0, p, acc => (acc, p)
  | fuel + 1, p, acc =>
    match minBy id ((dictRows.filter fun r => r.listed keyed).filterMap fun r => r.nextPos p) with
    | none => (acc, hi)
    | some n =>
      if hi ≤ n then (acc, hi)
      else match entryAt (n / 256) (n % 256) with
        | none => (acc, hi)
        | some (r, u) =>
          let row := s.entryRow r u (n % 256)
          if !acc.isEmpty && decide (room < acc.length + row.length) then (acc, n)
          else s.entryRows keyed hi room fuel (n + 1) (acc ++ row)

/-! ### Rows of the guest tables -/

/-- A row of `GUEST_REGISTER` (R181). -/
def Guest.registerRow (g : Guest) : Bytes :=
  beBytes 16 g.pp.id ++ beBytes 2 g.pp.vendor ++ beBytes 1 g.pp.cls ++ beBytes 1 g.pp.kind ++ beBytes 1 g.pp.branch
    ++ beBytes 1 g.pp.sensors.length ++ beBytes 1 g.pp.pairs.length ++ beBytes 1 (if g.present then 1 else 2)
    ++ beBytes 2 g.pp.floor ++ beBytes 2 g.pp.orphan ++ beBytes 2 g.pp.maxCap
    ++ beBytes 1 ((if g.pp.hasFpr then 1 else 0) + if g.rejoined then 2 else 0) ++ [0]

/-- Flags as a number, bit 0 first. -/
def flagBits (l : List Bool) : Nat := l.foldr (fun b n => 2 * n + if b then 1 else 0) 0

/-- A row of `GUEST_STATE` (R213). -/
def Guest.stateRow (g : Guest) : Bytes :=
  let open_ (j : Nat) : Bool := (g.pairs.getD j {}).isOpen
  let pairs := (List.range g.pp.pairs.length).map open_
  beBytes 8 g.lastCount ++ beBytes 8 g.lastSampleCount ++ beBytes 4 (g.lastSeq.getD 0) ++ beBytes 2 g.powerW
    ++ beBytes 2 (g.applied.getD 0) ++ beBytes 2 g.hottest ++ beBytes 1 g.hottestSensor
    ++ beBytes 1 (flagBits [g.stale, g.disobedient, g.fault, g.lastLate, pairs.any id, g.degraded])
    ++ beBytes 4 g.quarantine ++ beBytes 2 (flagBits pairs) ++ beBytes 2 g.disobeyRun ++ beBytes 4 g.seqGaps
    ++ beBytes 4 g.lateRecords ++ beBytes 4 g.superseded ++ beBytes 4 g.staleEpisodes ++ beBytes 4 g.disobeyEpisodes
    ++ beBytes 1 g.stack ++ [0] ++ beBytes 2 g.lastFrac ++ beBytes 8 g.joinTick ++ List.replicate 12 0

/-- A row of `GUEST_CAPS` (R249). -/
def State.capsRow (s : State) (g : Guest) : Bytes :=
  let c := g.lastCap
  let covered := [scopeClass g.pp.cls, scopeBranch g.pp.branch, scopeRow].any fun x => (s.rowInForce x s.tick).isSome
  let ramp := match g.rampEnd with | some e => decide (s.tick ≤ e) | none => false
  let lapsed := match c with | some r => r.kind != 5 && decide (r.lapse < s.tick) | none => false
  let inForce := match g.cut with | some k => k.tc.isSome | none => false
  let deferred := match g.cut with | some k => k.deferred | none => false
  let v (f : CapRec → Nat) : Nat := match c with | some r => f r | none => 0
  beBytes 2 (v CapRec.ceiling) ++ beBytes 1 (v CapRec.kind)
    ++ beBytes 1 (flagBits [inForce, g.staleCap, covered, ramp, deferred, lapsed]) ++ beBytes 8 (v CapRec.tick)
    ++ beBytes 1 (v CapRec.hold) ++ beBytes 1 (match g.cut with | some k => satBytes 1 k.depth | none => 0)
    ++ beBytes 2 (g.alloc.getD 0)

/-- A row of `GUEST_WEIGHTS` (R408). -/
def Guest.weightsRow (g : Guest) : Bytes := beBytes 2 g.weight ++ beBytes 2 g.operMax

/-- A look-back entry (R211). -/
def Look.bytes (l : Look) : Bytes :=
  beBytes 2 l.frac ++ beBytes 1 l.disp ++ beBytes 1 l.age ++ padTo 76 (l.raw.take 76)

/-! ### Rows of the recorder tables and the wear ledger -/

/-- A histogram row (R596). -/
def Hist.bytes (h : Hist) : Bytes :=
  beBytes 1 h.source ++ beBytes 1 h.flags ++ beBytes 2 h.select ++ beBytes 4 h.lo ++ beBytes 4 h.width
    ++ beBytes 4 h.min ++ beBytes 4 h.max ++ beBytes 8 h.minTick ++ beBytes 8 h.maxTick ++ beBytes 8 h.since
    ++ List.replicate 20 0 ++ (List.range 64).flatMap fun b => beBytes 4 (h.bins.getD b 0)

/-- A row of `GUEST_EXTREMES` (R597). -/
def Extremes.bytes (e : Extremes) : Bytes :=
  beBytes 2 (code16 e.hotMax) ++ beBytes 2 (code16 e.hotMin) ++ beBytes 2 e.powerMax ++ [0, 0] ++ beBytes 8 e.hotMaxTick
    ++ beBytes 8 e.hotMinTick ++ beBytes 8 e.powerMaxTick

/-- A matrix row (R599). -/
def matrixBytes (cells : AMap Nat) : Bytes := (List.range 256).flatMap fun c => beBytes 4 (cells.getD c 0)

/-- A row of `GUEST_RAINFLOW`, and the row of `DIE_RAINFLOW` (R599, R600). -/
def State.guestMatrix (s : State) (slot : Nat) : Bytes :=
  matrixBytes ((s.recorder.rainflow.getD slot {}).folded (s.eff E.RF_RANGE_STEP) (s16 (s.eff E.RF_MEAN_LO))
    (s.eff E.RF_MEAN_STEP))
def State.dieMatrix (s : State) : Bytes :=
  matrixBytes (s.recorder.dieRf.folded (s.eff E.DIE_RF_RANGE_STEP) (s16 (s.eff E.DIE_RF_MEAN_LO))
    (s.eff E.DIE_RF_MEAN_STEP))

/-- A row of `CONDITIONS` for a request of `from_` and `span` (R612, R617). -/
def State.logRow (s : State) (n from_ span : Nat) : Bytes :=
  match s.recorder.log.get n with
  | some c =>
    if decide (from_ ≤ c.start) && (span == 0 || decide (c.start < from_ + span)) then c.bytes
    else List.replicate 64 0
  | none => List.replicate 64 0

/-- A row of `WEAR_LEDGER` (R658). -/
def State.wearRow (s : State) (row : Nat) : Bytes :=
  let u := s.unit row
  let k := kindOf row
  beBytes 1 k ++ beBytes 1 u.role ++ beBytes 2 (row - kindRow k)
    ++ beBytes 1 (flagBits [u.tested, u.prevFail, u.planned, u.leftOut]) ++ beBytes 1 u.cause ++ beBytes 2 u.serves
    ++ beBytes 8 (s.useTurns u) ++ beBytes 8 u.since ++ beBytes 4 u.errs ++ beBytes 4 u.corrected ++ beBytes 4 u.passes
    ++ beBytes 4 u.fails ++ beBytes 8 u.lastTick ++ beBytes 8 u.lastSig ++ beBytes 4 u.changes ++ [0, 0, 0, 0]

/-! ### The tables (R119) -/

/-- Rows and row size of a table; none for a number without a table. Size 0 stands for rows of varying length. -/
def State.tableShape (s : State) (t : Nat) : Option (Nat × Nat) :=
  match t with
  | 0x01 => some (16777216, 0)
  | 0x10 => some (131072, 32)
  | 0x11 => some (131072, 80)
  | 0x12 => some (131072, 16)
  | 0x13 => some (131072, 4)
  | 0x20 => some (131072, 80)
  | 0x21 => some (131072, 40)
  | 0x30 => some (s.recorder.histCountNow, 320)
  | 0x31 => some (131072, 32)
  | 0x32 => some (131072, 1024)
  | 0x33 => some (1, 1024)
  | 0x34 => some (16777216, 64)
  | 0x40 => some (674, 64)
  | _ => none

/-- Row `n` of a table with rows of fixed length; `step` is the tick or summary step of a history table, `from_` and
`span` those of the request. Rows of free guest slots are zeros (R119). -/
def State.tableRow (s : State) (t n step from_ span : Nat) : Bytes :=
  let held (f : Guest → Bytes) (size : Nat) : Bytes :=
    match s.guest n with | some g => f g | none => List.replicate size 0
  match t with
  | 0x10 => held Guest.registerRow 32
  | 0x11 => held Guest.stateRow 80
  | 0x12 => held s.capsRow 16
  | 0x13 => held Guest.weightsRow 4
  | 0x20 => held (fun _ => ((s.desk.look.getD n []).getD step {}).bytes) 80
  | 0x21 => held (fun _ => (s.desk.summary.getD n []).getD step (List.replicate 40 0)) 40
  | 0x30 => (s.recorder.hists.getD n {}).bytes
  | 0x31 => held (fun _ => (s.recorder.extremes.getD n {}).bytes) 32
  | 0x32 => held (fun _ => s.guestMatrix n) 1024
  | 0x33 => s.dieMatrix
  | 0x34 => s.logRow n from_ span
  | _ => s.wearRow n

/-- Whether a table is read by tick or step (R121), and whether its replies travel in class 5 (R105). -/
def isHistory (t : Nat) : Bool := t == 0x20 || t == 0x21
def inClass5 (t : Nat) : Bool := isHistory t || (decide (0x30 ≤ t) && decide (t ≤ 0x34))

/-- The ticks of one row of a history table. -/
def State.stepTicks (s : State) (t : Nat) : Nat := if t = 0x21 then max 1 (s.get E.SUMMARY_TICKS) else 1

/-- The oldest tick, or summary step, that a history ring holds (R211, R212). -/
def State.oldestStep (s : State) (t : Nat) : Nat :=
  if t = 0x21 then s.desk.summaryFrom - s.get E.SUMMARY_STEPS else s.tick + 1 - s.get E.LOOKBACK_TICKS

/-- Ticks, or summary steps, that are complete. -/
def State.endedSteps (s : State) (t : Nat) : Nat := if t = 0x21 then s.desk.summaryFrom else s.desk.counted

end Sys2Proof.Machine
end

