-- ==== Sys2Proof/Machine/DictChk.lean ====
section
/-! DEFINITION. What the dictionary checks before it stores a written value (R9, R107, R133, R134, R139): type and length,
the entry's range or set of values, RWS, and the rules that tie entries to one another. A bound that an entry's own row
sets by another entry is a range of the first (`OUT_OF_RANGE`); a write to the other that would leave the first outside
it breaks the tie (`CONFLICT`). -/

namespace Sys2Proof.Machine

/-! ### Ranges and sets of values -/

/-- Rates are 80 MHz over this (R515). -/
def btQuanta (v : Nat) : Nat := bits v 31 26 * (1 + bits v 25 17 + bits v 16 9)

/-- The fields of a bit timing word within the limits of its phase, and its rate in range (R515). -/
def btOk (t1lo t1hi t2hi qlo qhi v : Nat) : Bool :=
  let brp := bits v 31 26
  let t1 := bits v 25 17
  let t2 := bits v 16 9
  let sjw := bits v 8 1
  decide (1 ≤ brp) && decide (brp ≤ 32) && decide (t1lo ≤ t1) && decide (t1 ≤ t1hi) && decide (1 ≤ t2)
    && decide (t2 ≤ t2hi) && decide (1 ≤ sjw) && decide (sjw ≤ t2) && decide (qlo ≤ btQuanta v)
    && decide (btQuanta v ≤ qhi)

/-- Bits [28:11] of a base identifier are 0 (R523, R530); bit 62 tells an extended one. -/
def idOk (v : Nat) : Bool := v.testBit 62 || bits v 28 11 == 0

/-- Whether a value lies in the range or set its entry states; `n` is the number of bytes of its type. -/
def Chk.ok (c : Chk) (n v : Nat) : Bool :=
  match c with
  | .any => true
  | .rng lo hi => decide (lo ≤ v) && decide (v ≤ hi)
  | .rngOr lo hi other => (decide (lo ≤ v) && decide (v ≤ hi)) || v == other
  | .srng lo hi => decide (lo ≤ toSigned n v) && decide (toSigned n v ≤ hi)
  | .oneOf l => l.contains v
  | .f32 => !f32IsNaN v
  | .f32min0 => !f32IsNaN v && f32Le 0 v
  | .f32pos => !f32IsNaN v && f32Lt 0 v
  | .f32rng lo hi => !f32IsNaN v && f32Le lo v && f32Le v hi
  | .addr => v != 0 && v / 2 ^ 120 != 0xFF && v / 2 ^ 118 != 0x3FA
  | .mcast => v / 2 ^ 120 == 0xFF
  | .btNominal => btOk 2 256 128 80 640 v
  | .btData => btOk 1 32 16 10 80 v
  | .rxCfg => bits v 61 60 != 3 && idOk v
  | .txCfg =>
    let len := txLen v
    txMode v != 3 && idOk v
      && (decide (len ≤ 8) || (v.testBit 61 && [12, 16, 20, 24, 32, 48, 64].contains len))
  | .txTiming => bits v 31 16 != 0

/-- The zeros that R139 marks as refused. -/
def zeroEnts : List Ent :=
  [E.SESSION_IDLE, E.ANGLE_COUNTS, E.ABSENCE_TICKS, E.LOOP_PERIOD, E.FAN_WATCHDOG_S]

/-- The entries written in multiples of 50 mV (R507). -/
def millivoltEnts : List Ent := [E.FAN_VMAX, E.FAN_START_V, E.FAN_KICK_V, E.FAN_TACH_MARGIN]

/-- The reserved bits of entries with a field map, which a write does not set (R7). -/
def reservedBits (e : Ent) : Nat :=
  if e = E.FB_NOMINAL || e = E.FB_DATA then 1
  else if e = E.RX_CONFIG then 0x0FFF0000E0000000
  else if e = E.TX_CONFIG then 0x0101FFFFE0000000
  else if e = E.VALVE_CONFIG then 0xFFF0
  else if e = E.LOOP_CONFIG then 0xFFF8
  else if e = E.ROPE_BRANCHES then 0xFFFFFF0000000000
  else if e = E.HX_FANS then 0xF0000000
  else if [E.MEAS_BIND, E.SP_BIND, E.FF_BIND, E.FOLLOW_BIND, E.OUT_BIND, E.BR_SUPPLY_T, E.BR_RETURN_T, E.BR_SUPPLY_FLOW,
      E.BR_RETURN_FLOW, E.HX_PRIMARY_T].contains e then 0x000000FF00FF0000
  else 0

/-- The value that a write stores. -/
def storedValue (e : Ent) (v : Nat) : Nat :=
  if millivoltEnts.contains e then v / 50 * 50 else v - (v &&& reservedBits e)

/-! ### Units that must be stopped (R9) -/

/-- Whether unit `u` of an RWS entry runs. -/
def State.unitRuns (s : State) (e : Ent) (u : Nat) : Bool :=
  let i := e.key / 256
  if i = 0x6000 then s.getU E.LOOP_MODE_ACTIVE u != 3
  else if i = 0x7000 then s.phase u != 0 && s.phase u != 7
  else if i = 0x7100 then
    !(s.getU E.FAN_STATE u == 7 || (s.getU E.FAN_TARGET_ACTIVE u == 0 && s.getU E.FAN_VOLTAGE u == 0))
  else if i = 0x7200 then s.fbState u != 0 && s.fbState u != 7
  else if i = 0x7300 then s.getU E.AIN_MODE u != 0
  else if i = 0x8100 then s.getU E.BR_ENABLE u != 0
  else if i = 0x8300 then s.getU E.PS_ENABLE u != 0
  else s.getU E.PS_ENABLE (u / 3) != 0

/-- Whether the unit an entry belongs to holds another role than the active one (R454, R647), or is the odd member of a
valve pair (R467). -/
def State.unitBarred (s : State) (e : Ent) (u : Nat) : Bool :=
  let i := e.key / 256
  if i = 0x6000 then !s.isActive (kindRow 3 + u)
  else if i = 0x7000 then !s.isActive (valveRow u) || s.follower u
  else if i = 0x7100 then !s.isActive (fanRow u)
  else if i = 0x7300 then !s.isActive (kindRow 8 + u)
  else false

/-! ### Bindings (R424, R426 to R428, R552) -/

/-- Whether a field bus value lies within a frame of `len` bytes. -/
def frameOk (b len : Nat) : Bool :=
  decide (1 ≤ bFormat b) && decide (bFormat b ≤ 6) && decide (bByte b + formatLen (bFormat b) ≤ len) && decide (bPort b < 8)

/-- The longest frame of a receive object: 8 bytes while it admits classical frames alone. -/
def State.rxLen (s : State) (k : Nat) : Nat :=
  let c := s.getObj E.RX_CONFIG k
  if c.testBit 63 && bits c 61 60 == 1 then 8 else 64

/-- The frame length of a transmit object, 64 while it is not enabled. -/
def State.txFrame (s : State) (k : Nat) : Nat :=
  let c := s.getObj E.TX_CONFIG k
  if txEnabled c then txLen c else 64

/-- Whether the rest of a source descriptor fits its kind. -/
def State.sourceOk (s : State) (b : Nat) : Bool :=
  let sel := bSel b
  (bKind b == 3 || bFormat b == 0) &&
    (match bKind b with
     | 0 => true
     | 1 => decide (sel < 80)
     | 2 => quantityOk sel
     | 3 => decide (sel < 256) && frameOk b (s.rxLen (256 * bPort b + sel))
     | 4 => decide (sel < 28)
     | 5 => decide (sel < 8)
     | 6 => decide (sel < 256)
     | 7 => decide (1 ≤ sel / 256) && decide (sel / 256 ≤ 8) && decide (sel % 256 < 40)
     | _ => false)

/-- Whether another engine reads the output of engine `n`. -/
def State.isRead (s : State) (n : Nat) : Bool :=
  [E.SP_BIND, E.FF_BIND, E.FOLLOW_BIND].any fun e =>
    (s.listedUnits e 256).any fun m => m != n && bKind (s.getU e m) == 6 && bSel (s.getU e m) == n

/-- A source binding of engine `n` that its kinds do not allow, or that would make it depend on an engine of loop B
(R424, R427). -/
def State.sourceConflict (s : State) (n b : Nat) (allowed : List Nat) : Bool :=
  !allowed.contains (bKind b)
    || (bKind b == 6 && (bSel b == n || s.slotB (bSel b) || s.isRead n))

/-- Whether the rest of an output descriptor fits its kind (R428). -/
def State.sinkOk (s : State) (b : Nat) : Bool :=
  let sel := bSel b
  (bKind b == 3 || bFormat b == 0) &&
    (match bKind b with
     | 0 => true
     | 1 => decide (sel < 56)
     | 2 => decide (sel < 28)
     | 3 => decide (sel < 64) && frameOk b (s.txFrame (256 * bPort b + sel))
     | _ => false)

/-- `ONOFF` goes with an output of kind 1, and stands also while nothing is bound (R428). -/
def onOffOk (kind : Nat) (onoff : Bool) : Bool := if kind = 1 then onoff else !onoff || kind == 0

/-- Whether an output binding of engine `n` breaks a rule of R428 or R467. -/
def State.sinkConflict (s : State) (n b : Nat) : Bool :=
  let other := match s.sinkEngine (bKind b) (bSel b) (bPort b) with | some m => m != n | none => false
  !onOffOk (bKind b) (s.onOff n) || (bKind b != 0 && other) || (bKind b == 1 && s.follower (bSel b))

/-- A source of the plant map fits its kind (R552). -/
def State.plantBindOk (s : State) (b : Nat) : Bool :=
  if bKind b = 1 then decide (bSel b < 80)
  else if bKind b = 3 then decide (bSel b < 256) && frameOk b (s.rxLen (256 * bPort b + bSel b))
  else true
def plantBindConflict (b : Nat) : Bool := !(bKind b == 1 || (bKind b == 3 && bFormat b == 6))

/-! ### The checks -/

/-- Whether a value of unit `u`, subindex offset `k`, lies outside what the entry's row states: its range or set of
values, and bounds set by another entry. -/
def State.outOfRange (s : State) (r : Row) (u v : Nat) : Bool :=
  let e := r.ent
  let g (x : Ent) : Nat := s.getU x u
  let within : Bool := f32Le (g E.UMIN) v && f32Le v (g E.UMAX)
  !r.chk.ok r.ty.size v
    || (e == E.HOLD_A && decide (g E.PEAK_A ≤ v))
    || (e == E.PEAK_A && if s.paired u then decide (v < 1000) else decide (12000 < v))
    || (e == E.FAN_RPM_MIN && decide (g E.FAN_RPM_MAX < v))
    || (e == E.FAN_VSLEW_MAX && decide (v < g E.FAN_VSLEW))
    || (e == E.FAN_START_V && decide (g E.FAN_VMAX < v))
    || (e == E.PS_RUN_COUNT && decide (g E.PS_PUMPS < v))
    || (e == E.PD_MIN && decide (g E.PD_MAX < v))
    || ((e == E.REST_VALUE || e == E.MANUAL_VALUE) && !within)
    || (e == E.FB_NOMINAL && decide (btQuanta v < btQuanta (g E.FB_DATA)))
    || (e == E.FB_DATA && decide (btQuanta (g E.FB_NOMINAL) < btQuanta v))
    || ([E.MEAS_BIND, E.SP_BIND, E.FF_BIND, E.FOLLOW_BIND].contains e && !s.sourceOk v)
    || (e == E.OUT_BIND && !s.sinkOk v)
    || ([E.BR_SUPPLY_T, E.BR_RETURN_T, E.BR_SUPPLY_FLOW, E.BR_RETURN_FLOW, E.HX_PRIMARY_T].contains e && !s.plantBindOk v)

/-- The four UDP ports differ from one another and from 319 and 320 (R88). -/
def State.portConflict (s : State) (e : Ent) (v : Nat) : Bool :=
  let l := [E.UDP_PORT_TELEMETRY, E.UDP_PORT_CAPS, E.UDP_PORT_DICT, E.UDP_PORT_BOOT]
  l.contains e && (v == 319 || v == 320 || l.any fun x => x != e && s.get x == v)

/-- Two bands overlap; a band is lower edge × 65,536 + upper edge, and one with both edges 0 is disabled (R495). -/
def bandsClash (a b : Nat) : Bool :=
  a != 0 && b != 0 && decide (a / 65536 < b % 65536) && decide (b / 65536 < a % 65536)

/-- The band rules for unit `u` (R495). -/
def State.bandConflict (s : State) (e : Ent) (u v : Nat) : Bool :=
  let l := [E.FAN_BAND_0, E.FAN_BAND_1, E.FAN_BAND_2, E.FAN_BAND_3]
  l.contains e &&
    ((v != 0 && decide (v % 65536 ≤ v / 65536)) || l.any fun x => x != e && bandsClash v (s.getU x u))

/-- Two enabled objects of a port have one identifier (R517, R530). -/
def State.idConflict (s : State) (e : Ent) (k v : Nat) : Bool :=
  v.testBit 63 && (s.objects e (k / 256)).any fun j =>
    let w := s.getObj e j
    j != k && w.testBit 63 && bits w 28 0 == bits v 28 0 && w.testBit 62 == v.testBit 62

/-- A write of `VALVE_CONFIG` that the pair rules refuse (R467), or that leaves `PEAK_A` outside its range. -/
def State.pairConflict (s : State) (c v : Nat) : Bool :=
  if v.testBit 0 then
    c % 2 == 1 || (s.sinkEngine 1 (c + 1) 0).isSome || s.phase (c + 1) != 0
      || (s.unit (valveRow c)).role != (s.unit (valveRow (c + 1))).role || decide (s.getU E.PEAK_A c < 1000)
  else decide (12000 < s.getU E.PEAK_A c)

/-- The ties between entries (R88, R197, R422, R424, R427, R428, R430, R467, R495, R498, R517, R525, R530, R538, R542,
R552, R583 to R585, R661): whether value `v` for unit `u`, subindex offset `k`, breaks one. -/
def State.conflict (s : State) (e : Ent) (u k v : Nat) : Bool :=
  let g (x : Ent) : Nat := s.getU x u
  let obj := 256 * u + k
  if e = E.ABSENCE_TICKS then decide (v ≤ s.get E.STALE_TICKS)
  else if e = E.STALE_TICKS then decide (s.get E.ABSENCE_TICKS ≤ v)
  else if e = E.LOOP_PERIOD then decide (v ≤ g E.LOOP_PHASE)
  else if e = E.LOOP_PHASE then decide (g E.LOOP_PERIOD ≤ v)
  else if e = E.UMIN then !f32Lt v (g E.UMAX) || !f32Le v (g E.REST_VALUE) || !f32Le v (g E.MANUAL_VALUE)
  else if e = E.UMAX then !f32Lt (g E.UMIN) v || !f32Le (g E.REST_VALUE) v || !f32Le (g E.MANUAL_VALUE) v
  else if e = E.LOOP_CONFIG then !onOffOk (bKind (g E.OUT_BIND)) (v.testBit 1)
  else if e = E.MEAS_BIND then s.sourceConflict u v [1, 2, 3, 4, 5]
  else if e = E.SP_BIND then s.sourceConflict u v [0, 1, 2, 3, 4, 5, 6]
  else if e = E.FF_BIND || e = E.FOLLOW_BIND then s.sourceConflict u v [0, 1, 2, 3, 4, 5, 6, 7]
  else if e = E.OUT_BIND then s.sinkConflict u v
  else if e = E.PEAK_A then decide (v ≤ g E.HOLD_A)
  else if e = E.VALVE_CONFIG then s.pairConflict u v
  else if e = E.FAN_RPM_MAX then decide (v < g E.FAN_RPM_MIN)
  else if e = E.FAN_VSLEW then decide (g E.FAN_VSLEW_MAX < v)
  else if e = E.FAN_VMAX then decide (v < g E.FAN_START_V) || decide (v < g E.FAN_KICK_V)
  else if e = E.FAN_START_V then decide (g E.FAN_KICK_V < v)
  else if e = E.FAN_KICK_V then decide (v < g E.FAN_START_V) || decide (g E.FAN_VMAX < v)
  else if e = E.PS_PUMPS then decide (v < g E.PS_RUN_COUNT)
  else if e = E.PD_MAX then decide (v < g E.PD_MIN)
  else if e = E.FB_LOAD_LO then decide (g E.FB_LOAD_HI ≤ v)
  else if e = E.FB_LOAD_HI then decide (v ≤ g E.FB_LOAD_LO)
  else if e = E.RX_CONFIG then s.idConflict e obj v
  else if e = E.TX_CONFIG then
    (v.testBit 60 && !v.testBit 61) || s.idConflict e obj v || (s.pumpHolding obj).isSome
      || (!v.testBit 63 && txEnabled (s.getObj e obj) && (s.sinkEngine 3 k u).isSome)
  else if e = E.TX_DATA then (s.pumpHolding obj).isSome
  else if e = E.TX_TIMING then decide (bits v 31 16 ≤ bits v 15 0)
  else if e = E.BR_ENABLE then v == 1 && g E.BR_FLOW_SET == 0
  else if e = E.BR_FLOW_SET then v == 0 && g E.BR_ENABLE == 1
  else if e = E.BR_SUPPLY_T || e = E.BR_RETURN_T || e = E.BR_SUPPLY_FLOW || e = E.BR_RETURN_FLOW || e = E.HX_PRIMARY_T then
    plantBindConflict v
  else if e = E.FLOW_STOP_PCT then decide (s.get E.FLOW_RECOVER_PCT ≤ v)
  else if e = E.FLOW_RECOVER_PCT then decide (v ≤ s.get E.FLOW_STOP_PCT) || decide (s.get E.FLOW_LOW_PCT < v)
  else if e = E.FLOW_LOW_PCT then decide (v < s.get E.FLOW_RECOVER_PCT)
  else if e = E.PLANNED_TEST_TURNS then !(u == 3 || u == 6 || u == 15)
  else if e = E.SPARE_RETEST_TURNS then u == 12 || u == 16
  else s.portConflict e v || s.bandConflict e u v

/-- The writes that the rest stance refuses (R39, R435). -/
def restEnts : List Ent := [E.STANCE, E.DIE_POWER_CEILING, E.LOOP_MODE, E.MANUAL_VALUE]

/-- The codes that a written value of the right type and length meets. A W1C write clears bits and has no range. -/
def State.valueCodes (s : State) (r : Row) (u k v : Nat) : List Nat :=
  if r.acc == .w1c then []
  else
    (if v = 0 && zeroEnts.contains r.ent then [St.zeroRefused] else codeIf (s.outOfRange r u v) St.outOfRange)
      ++ codeIf (s.conflict r.ent u k (storedValue r.ent v)) St.conflict

/-- The codes that refuse a WRITE (R9, R107, R113, R133, R134). -/
def State.writeCodes (s : State) (q : Req) (keyed : Bool) : List Nat :=
  if q.body.length < 4 then St.badLength :: s.keyCodes keyed false true
  else match entryAt q.index q.sub with
    | none => entryCodes q.index q.sub ++ s.keyCodes keyed false true
    | some (r, u) =>
      s.keyCodes keyed (r.acc == .k) true ++
        (if r.command then [St.notCommand]
         else if r.acc == .ro || (r.ent == E.PROG_PRIORITY && u == 0) then [St.readOnly]
         else
           codeIf (r.acc == .rws && s.unitRuns r.ent u) St.unitRunning
             ++ codeIf (s.unitBarred r.ent u) St.conflict
             ++ codeIf (s.inRest && restEnts.contains r.ent) St.restStance
             ++ (if q.ty != r.ty.code || q.value.length != r.ty.size then [St.typeMismatch]
                 else s.valueCodes r u (q.sub - r.ent.key % 256) (beNat q.value)))

end Sys2Proof.Machine
end

