-- ==== Sys2Proof/Machine/DictTabs.lean ====
section
/-! DEFINITION. Bulk transactions and subscriptions (R114 to R125): what a READ_BULK selects, the making of its
fragments, WRITE_BULK with its rows, and the pushes of subscriptions. -/

namespace Sys2Proof.Machine

/-! ### READ_BULK -/

/-- The selection of a READ_BULK body (R114). -/
def Req.table (q : Req) : Nat := field q.body 0 2
def Req.first (q : Req) : Nat := field q.body 4 4
def Req.count (q : Req) : Nat := field q.body 8 4
def Req.from_ (q : Req) : Nat := field q.body 12 8
def Req.span (q : Req) : Nat := field q.body 20 4

/-- The code of rows beyond a table. -/
def rowRangeCodes (rows first count : Nat) : List Nat :=
  codeIf (decide (rows ≤ first) || decide (rows < first + count)) St.rowRange

/-- The codes that refuse a READ_BULK (R114, R117, R119, R121, R612). -/
def State.bulkCodes (s : State) (q : Req) : List Nat :=
  codeIf (decide (8 ≤ s.dict.bulks.length)) St.busy ++
    (match s.tableShape q.table with
     | none => [St.unknownTable]
     | some (rows, _) =>
       let n := s.stepTicks q.table
       rowRangeCodes rows q.first q.count
         ++ codeIf (isHistory q.table && (decide (q.from_ < n * s.oldestStep q.table) || decide (s.tick < q.from_)))
           St.rowRange
         ++ codeIf ((q.table == 0x30 || q.table == 0x34) && (s.get E.REC_LATCHES).testBit 3) St.rowRange)

/-- The steps of a history table that a request covers, as the first and one past the last (R121). A step of
`LOOKBACK` is a tick. -/
def State.bulkSteps (s : State) (q : Req) : Nat × Nat :=
  let n := s.stepTicks q.table
  let ended := s.endedSteps q.table
  let stop := if q.span = 0 then ended else min ended (ceilDiv (q.from_ + q.span) n)
  (ceilDiv q.from_ n, stop)

/-- A READ_BULK reply starts (R114, R121). -/
def State.startBulk (s : State) (q : Req) : State :=
  let rows := match s.tableShape q.table with | some (r, _) => r | none => 0
  let stop := if q.count = 0 then rows else q.first + q.count
  let (a, b) := if isHistory q.table then s.bulkSteps q else (0, 0)
  let fresh := (s.dict.bulks.map Bulk.id).foldl max 0 + 1
  let k : Bulk :=
    { id := fresh, src := q.rx.src, sport := q.rx.sport, session := q.session, seq := q.seq, table := q.table
      first := q.first, last := stop, next := q.first, tick := a, lastTick := b, span := q.span, from_ := q.from_
      empty := isHistory q.table && decide (b ≤ a) }
  { s with dict := { s.dict with bulks := s.dict.bulks ++ [k] } }

/-- The service of `execReadBulk`. -/
def readBulkService : Service :=
  {
    mine := fun q _ => q.op == 3
    codes := fun q _ s => if q.body.length ≠ 24 then [St.badLength] else s.bulkCodes q
    refused := fun _ _ => []
    run := fun q _ s => (none, s.startBulk q) }

/-- READ_BULK (R114, R117, R119, R121): a bulk reply starts, or the request is refused. -/
def execReadBulk (t : Nat) (rx : Rx) (s : State) : Host.Outcome State Fault Refusal :=
  done ((s.at t).serve rx readBulkService)

/-- The key a bulk reply, a push or a later reply is tagged with: none outside a session. -/
def State.keyOf (s : State) (session : Nat) : Option Nat :=
  match s.session session with
  | some x => if x.isOpen then some x.key else none
  | none => none

/-- Whether a session's replies can still be made: it is 0 or open. -/
def State.sessionLives (s : State) (session : Nat) : Bool := session == 0 || (s.keyOf session).isSome

/-- Body bytes that a datagram has room for (R103). -/
def State.bodyRoom (s : State) (tagged : Bool) : Nat := s.eff E.PORT_MTU - if tagged then 80 else 64

/-- A fragment: header of R115 and rows. -/
def fragmentBytes (table size first count tick : Nat) (rows : Bytes) : Bytes :=
  beBytes 2 table ++ beBytes 2 size ++ beBytes 4 first ++ beBytes 4 count ++ beBytes 8 tick ++ rows

/-- Whether the instant is the end of a tick, so that rows read now show its end state (R116). -/
def State.atTickEnd (s : State) : Bool :=
  s.get E.WHEEL_STATE == 0 || decide (s.wheel.tickStart + s.wheel.tickLen ≤ s.now + 1)

/-- What the next fragment of a bulk reply holds, with the reply after it; none when it was the last (R115, R120,
R121). -/
def State.fragment (s : State) (k : Bulk) : Bytes × Option Bulk :=
  let room := s.bodyRoom (k.session != 0) - 20
  if k.empty then (fragmentBytes k.table ((s.tableShape k.table).getD (0, 0)).2 k.first 0 k.from_ [], none)
  else
    let size := match s.tableShape k.table with | some (_, z) => z | none => 0
    if k.table = 1 then
      let (rows, p) := s.entryRows (k.session != 0) k.last room (room / 6 + 1) k.next []
      let more := decide (p < k.last)
      (fragmentBytes 1 0 k.next (p - k.next) s.tick rows, if more then some { k with next := p } else none)
    else
      let n := min (k.last - k.next) (room / max 1 size)
      let rows := (List.range n).flatMap fun i => s.tableRow k.table (k.next + i) k.tick k.from_ k.span
      let shown := if isHistory k.table then k.tick * s.stepTicks k.table else s.tick
      let rest : Option Bulk :=
        if k.next + n < k.last then some { k with next := k.next + n }
        else if isHistory k.table && decide (k.tick + 1 < k.lastTick) then some { k with next := k.first, tick := k.tick + 1 }
        else none
      (fragmentBytes k.table size k.next n shown rows, rest)

/-- The steps that the ring has overwritten are left out (R121). -/
def State.skipOld (s : State) (k : Bulk) : Bulk :=
  if isHistory k.table && !k.empty && decide (k.tick < s.oldestStep k.table) then
    if k.lastTick ≤ s.oldestStep k.table then { k with empty := true }
    else { k with tick := s.oldestStep k.table, next := k.first }
  else k

/-- The bulk replies with number `id` replaced. -/
def State.putBulk (s : State) (id : Nat) (k : Option Bulk) : State :=
  let l := s.dict.bulks.filterMap fun x => if x.id = id then k else some x
  { s with dict := { s.dict with bulks := l } }

/-- BULK_FRAGMENT (R105, R115 to R117): the next fragment of a bulk reply leaves when its class has room, at the end of a
tick. A reply whose session is gone ends. -/
def execBulkFragment (t id : Nat) (s : State) : Host.Outcome State Fault Refusal :=
  let s := s.at t
  done <| match s.dict.bulks.find? fun k => k.id == id with
    | none => s
    | some k =>
      if !s.sessionLives k.session then s.putBulk id none
      else
        let (body, rest) := s.fragment (s.skipOld k)
        let a : Ans := { status := St.ok, body := body, session := k.session, key := s.keyOf k.session }
        let d : Dgram :=
          { cls := if inClass5 k.table then 5 else 4, dst := k.src, sport := s.eff E.UDP_PORT_DICT, dport := k.sport
            tag := 5, bytes := replyBytes 3 k.seq (if rest.isSome then 2 else 0) a }
        s.when (s.fwRuns && s.atTickEnd && s.canSend d) fun s => (s.putBulk id rest).send d

/-! ### WRITE_BULK (R118, R408) -/

/-- The codes that refuse a WRITE_BULK. -/
def State.writeBulkCodes (s : State) (q : Req) (keyed : Bool) : List Nat :=
  s.keyCodes keyed false true ++
    (if q.body.length < 12 then [St.badLength]
     else
       codeIf (q.count == 0) St.zeroRefused ++
         (match s.tableShape q.table with
          | none => [St.unknownTable]
          | some (rows, _) =>
            if q.table ≠ 0x13 then [St.readOnly]
            else codeIf (q.body.length != 12 + 4 * q.count) St.badLength ++ rowRangeCodes rows q.first q.count))

/-- The reply body of WRITE_BULK. -/
def Req.bulkEcho (q : Req) : Bytes := slice q.body 0 2 ++ [0, 0] ++ slice q.body 4 8

/-- The service of `execWriteBulk`. -/
def writeBulkService : Service :=
  {
    mine := fun q _ => q.op == 4
    codes := fun q keyed s => s.writeBulkCodes q keyed
    refused := fun q _ => if q.body.length < 12 then [] else q.bulkEcho
    run := fun q _ s =>
      let c : Cached := { src := q.rx.src, sport := q.rx.sport, session := q.session, op := q.op, seq := q.seq
                          body := q.body, at_ := s.now }
      let w : BulkWrite :=
        { src := q.rx.src, sport := q.rx.sport, session := q.session, seq := q.seq, table := q.table, first := q.first
          count := q.count, rows := q.body.drop 12, due := if s.get E.WHEEL_STATE = 0 then 0 else s.tick + 1 }
      (none, { s with dict := { s.dict.remember c with bulkWrites := s.dict.bulkWrites ++ [w] } }) }

/-- WRITE_BULK (R118): accepted for the next tick boundary, its entry in the reply cache waiting for the reply (R111), or
refused whole. -/
def execWriteBulk (t : Nat) (rx : Rx) (s : State) : Host.Outcome State Fault Refusal :=
  done ((s.at t).serve rx writeBulkService)

/-- A row of `GUEST_WEIGHTS` is written (R408); a row of a free slot is not kept. -/
def State.setWeights (s : State) (slot : Nat) (row : Bytes) : State :=
  { s with guests := s.guests.adjust slot fun g => { g with weight := field row 0 2, operMax := field row 2 2 } }

/-- An accepted WRITE_BULK is applied, and its reply is made, kept in the cache and sent (R111, R118). -/
def State.applyBulk (s : State) (w : BulkWrite) : State :=
  let s := (List.range w.count).foldl (fun s i => s.setWeights (w.first + i) (slice w.rows (4 * i) 4)) s
  if !s.sessionLives w.session then s
  else
    let echo := beBytes 2 w.table ++ [0, 0] ++ beBytes 4 w.first ++ beBytes 4 w.count
    let bytes := replyBytes 4 w.seq 0 { status := St.ok, body := echo, session := w.session, key := s.keyOf w.session }
    let cache := s.dict.cache.map fun c =>
      if c.src = w.src && c.sport = w.sport && c.session = w.session && c.op = 4 && c.seq = w.seq && c.reply = none then
        { c with reply := some bytes, at_ := s.now }
      else c
    let s : State := { s with dict := { s.dict with cache := cache } }
    s.sendReply w.src w.sport bytes

/-- WRITE_BULK_APPLY (R118): at a tick boundary the accepted writes are applied in arrival order. -/
def execWriteBulkApply (t : Nat) (s : State) : Host.Outcome State Fault Refusal :=
  let s := s.at t
  let due := s.dict.bulkWrites.filter fun w => decide (w.due ≤ s.tick)
  done <| s.when (s.fwRuns && s.get E.WHEEL_STATE != 0) fun s =>
    let s : State := { s with dict := { s.dict with
      bulkWrites := s.dict.bulkWrites.filter fun w => decide (s.tick < w.due) } }
    due.foldl State.applyBulk s

/-! ### Subscriptions (R122 to R125) -/

/-- The positions a SUBSCRIBE names. -/
def Req.subEntries (q : Req) : List (Nat × Nat) :=
  (List.range (field q.body 4 1)).map fun i => (field q.body (6 + 4 * i) 2, field q.body (8 + 4 * i) 1)

/-- Whether a subscription has this identity. -/
def Subscription.is (x : Subscription) (src sport id : Nat) : Bool :=
  x.src == src && x.sport == sport && x.id == id

/-- The codes that one entry of a SUBSCRIBE adds: it must exist, and a K entry needs a session. -/
def subEntryCodes (keyed : Bool) (p : Nat × Nat) : List Nat :=
  entryCodes p.1 p.2 ++
    (match entryAt p.1 p.2 with
     | some (r, _) => codeIf (!keyed && r.acc == .k) St.keyRequired
     | none => [])

/-- The codes that refuse a SUBSCRIBE (R122, R123, R139). -/
def State.subCodes (s : State) (q : Req) (keyed : Bool) : List Nat :=
  let n := field q.body 4 1
  if q.body.length < 6 || q.body.length ≠ 6 + 4 * n then [St.badLength]
  else
    let period := field q.body 2 2
    let known := s.dict.subs.any fun x => x.is q.rx.src q.rx.sport (field q.body 0 1)
    codeIf (decide (63 < field q.body 0 1) || decide (32 < n)) St.outOfRange
      ++ codeIf (n == 0 && period != 0) St.zeroRefused
      ++ q.subEntries.flatMap (subEntryCodes keyed)
      ++ codeIf (period != 0 && !known && decide (64 ≤ s.dict.subs.length)) St.subFull

/-- A subscription is created, replaced or cancelled. -/
def State.subscribe (s : State) (q : Req) : State :=
  let id := field q.body 0 1
  let others := s.dict.subs.filter fun x => !x.is q.rx.src q.rx.sport id
  let x : Subscription :=
    { src := q.rx.src, sport := q.rx.sport, id := id, period := field q.body 2 2, entries := q.subEntries, seq := q.seq
      session := q.session, renewed := s.now, pushed := s.turn }
  { s with dict := { s.dict with subs := if field q.body 2 2 = 0 then others else others ++ [x] } }

/-- The SUBSCRIBE reply body: `SUB_ID`, reserved, `PERIOD`. -/
def Req.subEcho (q : Req) : Bytes := slice q.body 0 1 ++ [0] ++ slice q.body 2 2

/-- The service of `execSubscribe`. -/
def subscribeService : Service :=
  {
    mine := fun q _ => q.op == 5
    codes := fun q keyed s => s.subCodes q keyed
    refused := fun q _ => if q.body.length < 6 then [] else q.subEcho
    run := fun q _ s => (some (s.okAns q q.subEcho), s.subscribe q) }

/-- SUBSCRIBE (R122, R123). -/
def execSubscribe (t : Nat) (rx : Rx) (s : State) : Host.Outcome State Fault Refusal :=
  done ((s.at t).serve rx subscribeService)

/-- The rows of a push, as many whole rows as the datagram has room for (R103, R124). -/
def State.pushRows (s : State) (room : Nat) : List (Nat × Nat) → Bytes → Bytes
  | [], acc => acc
  | p :: ps, acc =>
    match entryAt p.1 p.2 with
    | none => s.pushRows room ps acc
    | some (r, u) =>
      let row := s.entryRow r u p.2
      if room < acc.length + row.length then acc else s.pushRows room ps (acc ++ row)

/-- SUBSCRIPTION_PUSH (R124, R125): at a turn boundary whose number is a multiple of the period; not while the link is
down. -/
def execSubscriptionPush (t src sport subId : Nat) (s : State) : Host.Outcome State Fault Refusal :=
  let s := s.at t
  done <| match s.dict.subs.find? fun x => x.is src sport subId with
    | none => s
    | some x =>
      s.when (s.fwRuns && s.linkUp && s.get E.WHEEL_STATE != 0 && s.wheel.idx == 0 && s.turn % max 1 x.period == 0
          && x.pushed != s.turn) fun s =>
        let room := s.bodyRoom (x.session != 0) - 12
        let body := beBytes 1 x.id ++ [0, 0, 0] ++ beBytes 8 s.turn ++ s.pushRows room x.entries []
        let a : Ans := { status := St.ok, body := body, session := x.session, key := s.keyOf x.session }
        let s : State := { s with dict := { s.dict with
          subs := s.dict.subs.map fun y => if y.is src sport subId then { y with pushed := s.turn } else y } }
        s.sendReply src sport (replyBytes 5 x.seq 4 a)

/-- SUBSCRIPTION_LAPSE (R125): no SUBSCRIBE has renewed it for `SUB_LEASE`; a lease of 0 never lapses. -/
def execSubscriptionLapse (t src sport subId : Nat) (s : State) : Host.Outcome State Fault Refusal :=
  let s := s.at t
  let lease := s.get E.SUB_LEASE
  done <| match s.dict.subs.find? fun x => x.is src sport subId with
    | none => s
    | some x =>
      s.when (s.fwRuns && lease != 0 && decide (x.renewed + lease * sec ≤ s.now)) fun s =>
        { s with dict := { s.dict with subs := s.dict.subs.filter fun y => !y.is src sport subId } }

end Sys2Proof.Machine
end

