-- ==== Sys2Proof/Machine/Elec.lean ====
section
/-! DEFINITION. Logic and actuator power (chapter 21), the keyring and the fuses (chapter 19). -/

namespace Sys2Proof.Machine

/-! ### Logic power (R669, R670) -/

/-- FEED_LOST (R669): feed A (0) or B (1) is lost while the other stands in range. -/
def execFeedLost (t feed : Nat) (s : State) : Host.Outcome State Fault Refusal :=
  let s := s.at t
  done <| s.when (s.elec.power == 1 && decide (feed < 2)) fun s => s.latch E.ELEC_LATCHES feed

/-- FEED_RANGE (R669): a feed has lain outside 40 V to 60 V for one tick. -/
def execFeedRange (t feed : Nat) (s : State) : Host.Outcome State Fault Refusal :=
  let s := s.at t
  done <| s.when (s.elec.power == 1 && decide (feed < 2)) fun s => s.latch E.ELEC_LATCHES 2

/-- LOGIC_POWER_LOSS (R615, R670): everything stops; the recorder adds a POWER_LOSS record when its store has room, and
the copy to FRAM begins from the hold-up capacitors. -/
def execLogicPowerLoss (t : Nat) (s : State) : Host.Outcome State Fault Refusal :=
  let s := s.at t
  done <| s.when (s.elec.power == 1) fun s =>
    let s := if s.recorder.running && decide (s.recorder.gasp.length < 64) then s.lastGasp 3 0 else s
    let r := s.recorder
    let s := s.chipReset
    { s with
      recorder := { gasp := r.gasp, dieRf := r.dieRf, running := r.running }
      elec := { s.elec with power := 2 } }

/-- FRAM_COPY_DONE (R615, R670): the copy ends and the chips are held in reset. A feed that has returned meanwhile gives
no start of its own. -/
def execFramCopyDone (t : Nat) (s : State) : Host.Outcome State Fault Refusal :=
  let s := s.at t
  done <| s.when (s.elec.power == 2) fun s =>
    let s := if s.recorder.running then s.copyToFram else s
    let s := s.chipReset
    { s with elec := { s.elec with power := 3 } }

/-! ### The actuator feed (R672, R673) -/

/-- ACT_FUSE_OPEN (R672): the fuse opens; its third opening within 60 s leaves it open. -/
def execActFuseOpen (t : Nat) (s : State) : Host.Outcome State Fault Refusal :=
  let s := s.at t
  done <| s.when (s.elec.power == 1 && s.get E.ACT_FUSE_STATE == 0) fun s =>
    let opens := s.now :: s.elec.openings.filter fun x => decide (s.now ≤ x + 60 * sec)
    let s : State := { s with elec := { s.elec with openings := opens, openAt := s.now } }
    let s := s.set E.ACT_FUSE_STATE (if 3 ≤ opens.length then 2 else 1)
    (s.valvesLose.fansLose).latch E.ELEC_LATCHES 3

/-- The fuse closes (R672): channels restart as after a low feed, where the feed itself stands. -/
def State.closeFuse (s : State) : State :=
  let s := s.set E.ACT_FUSE_STATE 0
  let s := if 22000 ≤ s.ioc.feed then s.valvesRegain else s
  if 20000 ≤ s.ioc.feed then s.fansRegain else s

/-- ACT_FUSE_RECLOSE (R672): after 1 s the fuse closes again. -/
def execActFuseReclose (t : Nat) (s : State) : Host.Outcome State Fault Refusal :=
  let s := s.at t
  done <| s.when (s.elec.power == 1 && s.get E.ACT_FUSE_STATE == 1 && decide (s.elec.openAt + sec ≤ s.now)) State.closeFuse

/-- The service of `execActCmd`. -/
def actCmdService : Service :=
  cmdService E.ACT_CMD 1 false (some 1) (fun _ => true) (fun _ => false)
    (fun _ b s => codeIf (beNat b ≠ 1) St.outOfRange ++ codeIf (s.get E.ACT_FUSE_STATE != 2) St.conflict)
    (fun _ _ s => ([], s.closeFuse))

/-- ACT_CMD (R672, R679): closes a fuse that stays open. -/
def execActCmd (t : Nat) (rx : Rx) (s : State) : Host.Outcome State Fault Refusal :=
  done ((s.at t).serve rx actCmdService)

/-- ACT_OVERLOAD (R673): more than 60 A for 1 s without an opening. -/
def execActOverload (t : Nat) (s : State) : Host.Outcome State Fault Refusal :=
  let s := s.at t
  done <| s.when (s.elec.power == 1 && s.get E.ACT_FUSE_STATE == 0) fun s => s.latch E.ELEC_LATCHES 4

/-! ### The keyring and the fuses (R632, R633, R645) -/

/-- An entry kept in FRAM is written there too (R10). -/
def State.keepInFram (s : State) (e : Ent) (u : Nat) : State :=
  { s with fram := { s.fram with entries := s.fram.entries.put (e.key + 256 * u) (s.getU e u) e.dflt } }

/-- A keyring slot takes a state. -/
def State.setKeyState (s : State) (k v : Nat) : State :=
  let s := (s.setU E.KEY_STATE k v).keepInFram E.KEY_STATE k
  s.latch E.START_LATCHES 5

/-- The service of `execKeyEnrol`. -/
def keyEnrolService : Service :=
  cmdService E.KEY_ENROL 1 true (some 68) (fun _ => true)
    (fun s => (List.range 8).all fun k => s.getU E.KEY_STATE k == 0)
    (fun _ b s =>
      let k := field b 0 1
      if 7 < k then [St.outOfRange] else codeIf (s.getU E.KEY_STATE k == 1) St.conflict)
    (fun _ b s =>
      let k := field b 0 1
      ([], ((s.setU E.KEY_PUBLIC k (field b 4 64)).keepInFram E.KEY_PUBLIC k).setKeyState k 1))

/-- KEY_ENROL (R633): a key enters an empty or revoked slot; while every slot is empty no session is needed. -/
def execKeyEnrol (t : Nat) (rx : Rx) (s : State) : Host.Outcome State Fault Refusal :=
  done ((s.at t).serve rx keyEnrolService)

/-- The service of `execKeyRevoke`. -/
def keyRevokeService : Service :=
  cmdService E.KEY_REVOKE 1 true (some 4) (fun _ => true) (fun _ => false)
    (fun _ b s =>
      let k := field b 0 1
      let others := (List.range 8).any fun j => j != k && s.getU E.KEY_STATE j == 1
      if 7 < k then [St.outOfRange] else codeIf (s.getU E.KEY_STATE k != 1 || !others) St.conflict)
    (fun _ b s =>
      let k := field b 0 1
      let mine := (s.dict.sessions.filter fun x => x.keyId == k).map Session.id
      ([], mine.foldl State.closeSession (s.setKeyState k 2)))

/-- KEY_REVOKE (R633): an active slot is revoked and its sessions close. -/
def execKeyRevoke (t : Nat) (rx : Rx) (s : State) : Host.Outcome State Fault Refusal :=
  done ((s.at t).serve rx keyRevokeService)

/-- The service of `execFuseSecRaise`. -/
def fuseSecRaiseService : Service :=
  cmdService E.FUSE_SEC_RAISE 1 true (some 1) (fun _ => true) (fun _ => false)
    (fun _ b s => codeIf (beNat b ≠ 1) St.outOfRange
      ++ codeIf (decide (s.get E.FW_SEC_VERSION ≤ s.get E.FUSE_SEC_VERSION)) St.conflict)
    (fun _ _ s =>
      let v := s.get E.FW_SEC_VERSION
      let s : State := { s with start := { s.start with fuseSec := v } }
      ([], s.set E.FUSE_SEC_VERSION v))

/-- FUSE_SEC_RAISE (R632): the fused security version becomes that of the running image. -/
def execFuseSecRaise (t : Nat) (rx : Rx) (s : State) : Host.Outcome State Fault Refusal :=
  done ((s.at t).serve rx fuseSecRaiseService)

/-- The service of `execFuseKeyRevoke`. -/
def fuseKeyRevokeService : Service :=
  cmdService E.FUSE_KEY_REVOKE 1 true (some 1) (fun _ => true) (fun _ => false)
    (fun _ b s => codeIf (beNat b ≠ 1) St.outOfRange ++ codeIf (s.get E.FW_KEY_SLOT != 1) St.conflict)
    (fun _ _ s =>
      let v := setBit s.start.fuseRevoked 0
      let s : State := { s with start := { s.start with fuseRevoked := v } }
      ([], s.set E.FUSE_KEY_REVOKED v))

/-- FUSE_KEY_REVOKE (R632): fused key slot 0 is revoked. -/
def execFuseKeyRevoke (t : Nat) (rx : Rx) (s : State) : Host.Outcome State Fault Refusal :=
  done ((s.at t).serve rx fuseKeyRevokeService)

end Sys2Proof.Machine
end

