-- ==== Sys2Proof/Machine/PortLink.lean ====
section
/-! DEFINITION. The link going down and sending resuming after it has come up (R82, R94, R96). -/

namespace Sys2Proof.Machine

/-- The class queues and the desk's records are flushed; each datagram counts as dropped (R93, R94). -/
def State.flushEgress (s : State) : State :=
  let s := s.add E.DROP_EGRESS s.port.egress.length
  { s with
    port := { s.port with egress := [] }
    desk := { s.desk with class0 := [], rowOut := [], class2 := [], deferred := [] } }

/-- LINK_DOWN (R82, R94, R98): loss of alignment or a reconciliation fault for more than 100 µs (`cause` 0 and 1), or
a loss of signal or module fault that CMIS reports (2), takes the link down; the sequence of R80 starts again. -/
def execLinkDown (t cause : Nat) (s : State) : Host.Outcome State Fault Refusal :=
  let s := s.at t
  done <| s.when (s.linkUp && s.elec.power == 1) fun s =>
    let s := s.flushEgress
    let s : State := { s with
      port := { s.port with attempt := 0, diaryMap := none, recheckFrom := none, sending := false, lastUncorr := none }
      start := { s.start with linkUpTurn := false } }
    let s := (s.inc E.LINK_DOWNS).latch E.PORT_LATCHES 0
    let s := if cause = 2 then s.latch E.PORT_LATCHES 4 else s
    s.portAttempt

/-- SEND_RESUME (R96): at the first tick boundary after the link came up, each guest under a guard cut has its cut sent
again with a fresh hold, then the current wheel notice goes out once, and sending resumes. -/
def execSendResume (t : Nat) (s : State) : Host.Outcome State Fault Refusal :=
  let s := s.at t
  done <| s.when (s.linkUp && s.elec.power == 1 && !s.port.sending && (s.get E.WHEEL_STATE == 0 || decide (s.port.upTick < s.tick))) fun s =>
    let s : State := { s with port := { s.port with sending := true } }
    let s := s.presents.foldl (fun s p =>
      match p.2.cut with
      | some k =>
        if s.desk.class0.any fun x => x.slot == p.1 then s else s.queueCut p.2 { slot := p.1, ceiling := k.ceiling }
      | none => s) s
    if s.get E.WHEEL_STATE = 0 || s.wheel.currentNotice.isEmpty then s else s.sendNotice s.wheel.currentNotice

end Sys2Proof.Machine
end

