-- ==== Sys2Proof/Machine/Dict.lean ====
section
/-! DEFINITION. The single transactions of the dictionary (R106 to R113) and its keyed sessions (R126 to R133): READ,
WRITE with the entries whose writes do more than store, values that take effect later (R110), OPEN, PROVE and CLOSE. -/

namespace Sys2Proof.Machine

/-! ### READ (R106, R133) -/

/-- The row and unit of a READ, WRITE or EXEC body. -/
def Req.entry (q : Req) : Option (Row × Nat) := if q.body.length < 4 then none else entryAt q.index q.sub

/-- The codes that refuse a READ. -/
def State.readCodes (s : State) (q : Req) (keyed : Bool) : List Nat :=
  if q.body.length ≠ 4 then [St.badLength]
  else match q.entry with
    | none => entryCodes q.index q.sub
    | some (r, _) => s.keyCodes keyed (r.acc == .k) false

/-- The service of `execRead`. -/
def readService : Service :=
  {
    mine := fun q _ => q.op == 1
    codes := fun q keyed s => s.readCodes q keyed
    refused := fun q _ => q.echo (match q.entry with | some (r, _) => r.ty.code | none => 0)
    run := fun q _ s =>
      match q.entry with
      | some (r, u) => (some (s.okAns q (slice q.body 0 3 ++ beBytes 1 r.ty.code ++ s.readBytes r u q.sub)), s)
      | none => (some (s.okAns q []), s) }

/-- READ (R106, R110): the stored value. -/
def execRead (t : Nat) (rx : Rx) (s : State) : Host.Outcome State Fault Refusal :=
  done ((s.at t).serve rx readService)

/-! ### Storing a value (R10, R110) -/

/-- When a written entry takes effect later: 0 the next tick boundary, 1 the next turn boundary, 2 the next start, 3 the
boundary of R481, 4 the next re-placement, 5 the next allocation period (R51, R63, R88, R214, R247, R310, R339, R382,
R416, R418, R481, R522, R530, R541, R557, R583, R601, R619, R661). -/
def deferKind (e : Ent) : Option Nat :=
  let i := e.key / 256
  if e = E.ADMIT_HZ || e = E.PORT_BER_WARN then none
  else if [E.COND_FOLD_TICKS, E.RX_CONFIG, E.TX_CONFIG, E.FB_MODE, E.BR_ENABLE].contains e then some 0
  else if [E.ROW_GROUP, E.PTP_MCAST_SCOPE, E.PORT_EXPORT_RATE].contains e then some 1
  else if e = E.BOOST_V then some 3
  else if e = E.PROG_PRIORITY then some 4
  else if e = E.WHEEL_TICKS then some 2
  else if [0x3010, 0x3020, 0x8000].contains i then some 0
  else if [0x2010, 0x1101, 0x4010, 0x4020, 0x5000, 0x4060, 0xB100].contains i then some 1
  else if [0x1100, 0x9010].contains i then some 2
  else if i = 0x4040 then some 5
  else none

/-- The tick or turn at which a value of a kind written now takes effect; before the wheel runs, its first one. -/
def State.dueOf (s : State) (kind : Nat) : Nat :=
  if s.get E.WHEEL_STATE = 0 then 0 else if kind = 1 then s.turn + 1 else s.tick + 1

/-- What a stored value does beside standing in its entry when it takes effect at a boundary (R418, R522, R530, R541). -/
def State.heldEffect (s : State) (key old : Nat) : State :=
  let i := key / 256
  if 0x7210 ≤ i && i ≤ 0x7217 then s.rxConfigApply (key - E.RX_CONFIG.key)
  else if 0x7228 ≤ i && i ≤ 0x722F then s.txConfigApply (key - E.TX_CONFIG.key) old
  else if 0x7200 ≤ i && i ≤ 0x7207 then s.fbModeApply (i - 0x7200)
  else if 0x4060 ≤ i && i ≤ 0x406F then s.restartDetector (i - 0x4060)
  else s

/-- A held value that is due takes effect (R110). -/
def State.applyHeld (s : State) (key : Nat) : State :=
  match s.dict.held.get key with
  | some (old, kind, due) =>
    if decide (kind ≤ 1) && s.get E.WHEEL_STATE != 0 && decide (due ≤ if kind = 0 then s.tick else s.turn) then
      let s : State := { s with dict := { s.dict with held := s.dict.held.erase key } }
      s.heldEffect key old
    else s
  | none => s

/-- DEFERRED_WRITE_APPLY (R110): at its boundary a stored value takes effect. -/
def execDeferredWriteApply (t key : Nat) (s : State) : Host.Outcome State Fault Refusal :=
  done <| (s.at t).applyHeld key

/-- The value in force is held until the stored one takes effect; a further write keeps it. -/
def State.hold (s : State) (key old kind : Nat) : State :=
  let s := s.applyHeld key
  let old := match s.dict.held.get key with | some (o, _, _) => o | none => old
  { s with dict := { s.dict with held := s.dict.held.set key (old, kind, s.dueOf kind) } }

/-- Store a value in unit `u`, subindex offset `k`, of a row, in FRAM too where the entry is kept there. -/
def State.store (s : State) (r : Row) (u k v : Nat) : State :=
  let e : Ent := ⟨r.ent.key + k, r.ent.dflt⟩
  let s := match deferKind r.ent with
    | some kind => s.hold (e.key + 256 * u) (s.getU e u) kind
    | none => s
  let s := s.setU e u (storedValue r.ent v)
  if r.fram then s.keepInFram e u else s

/-- What a write does at once beside storing (R72, R187, R526, R578). -/
def State.written (s : State) (e : Ent) (u k : Nat) : State :=
  if e = E.DIE_POWER_CEILING then s.refreshCeiling
  else if e = E.ADMIT_HZ then s.admitLimit
  else if e = E.PHASE_KIND || e = E.PHASE_INPUT || e = E.ANGLE_COUNTS then
    let x := s.phases.getD u {}
    let from_ := if s.get E.WHEEL_STATE = 0 then 1 else s.turn + 2
    let s : State := { s with phases := s.phases.set u { x with validFrom := from_ } }
    s.setU E.PHASE_VALID u 0
  else if e = E.TX_DATA then s.putTx (256 * u + k) { s.txObj (256 * u + k) with written := true }
  else s

/-! ### WRITE (R106 to R110) -/

/-- The entries whose writes are rows of the opcode table. -/
def ownEnts : List Ent :=
  [E.STANCE, E.WHEEL_REF_PHASE, E.WHEEL_PHASE_OFFSET, E.PHASE_SOURCE, E.LOOP_MODE, E.MANUAL_VALUE, E.BR_ENABLE,
    E.HIST_COUNT]

/-- Whether a row's writes are served by a row of their own. -/
def Row.own (r : Row) : Bool := r.acc == .w1c || ownEnts.contains r.ent

/-- The service of WRITEs to the rows that `sel` selects; `run` takes row, unit, subindex offset and value. -/
def writeService (sel : Row → Bool) (run : Row → Nat → Nat → Nat → State → State) : Service where
  mine q _ := q.op == 2 && (match q.entry with | some (r, _) => sel r | none => false)
  codes q keyed s := s.writeCodes q keyed
  refused q _ := q.echo 0
  run q _ s :=
    let a := s.okAns q (slice q.body 0 3 ++ [0])
    match q.entry with
    | some (r, u) => (some a, run r u (q.sub - r.ent.key % 256) (beNat q.value) s)
    | none => (some a, s)

/-- The codes of an EXEC that names no command (R113). -/
def State.noCommandCodes (s : State) (q : Req) (keyed : Bool) : List Nat :=
  if q.body.length < 4 then St.badLength :: s.keyCodes keyed false true
  else match q.entry with
    | none => entryCodes q.index q.sub ++ s.keyCodes keyed false true
    | some (r, _) => St.notCommand :: s.keyCodes keyed (r.acc == .k) true

/-- The service of `execWrite`. -/
def plainWriteService : Service :=
  { writeService (fun _ => true) fun r u k v s => (s.store r u k v).written r.ent u k with
      mine := fun q _ =>
        (q.op == 2 && (match q.entry with | some (r, _) => !r.own | none => true))
          || (q.op == 6 && (match q.entry with | some (r, _) => !r.command | none => true))
      codes := fun q keyed s => if q.op = 2 then s.writeCodes q keyed else s.noCommandCodes q keyed }

/-- WRITE (R106, R110): every WRITE without a row of its own, refused ones included, and the EXECs that name no command
entry (R113). -/
def execWrite (t : Nat) (rx : Rx) (s : State) : Host.Outcome State Fault Refusal :=
  done ((s.at t).serve rx plainWriteService)

/-- The service of a WRITE to the entries of `l`. -/
def ownService (l : List Ent) (run : Row → Nat → Nat → Nat → State → State) : Service :=
  writeService (fun r => l.contains r.ent) run

/-- The service of `execStanceWrite`. -/
def stanceWriteService : Service :=
  ownService [E.STANCE] fun r u k v s =>
    let s := s.store r u k v
    let turn := if s.wheel.idx < s.ticksPerTurn / 2 then s.turn + 1 else s.turn + 2
    { s with stancePending := s.stancePending.set turn v }

/-- STANCE_WRITE (R34): the moment of the write selects the boundary. -/
def execStanceWrite (t : Nat) (rx : Rx) (s : State) : Host.Outcome State Fault Refusal :=
  done ((s.at t).serve rx stanceWriteService)

/-- The service of `execWheelPhaseWrite`. -/
def wheelPhaseWriteService : Service :=
  ownService [E.WHEEL_REF_PHASE, E.WHEEL_PHASE_OFFSET] fun r u k v s =>
    let s := s.store r u k v
    if s.get E.WHEEL_STATE = 1 then s.enterRelock.latch E.WHEEL_LATCHES 5 else s

/-- WHEEL_PHASE_WRITE (R52, R53): while Locked the wheel relocks on the new target. -/
def execWheelPhaseWrite (t : Nat) (rx : Rx) (s : State) : Host.Outcome State Fault Refusal :=
  done ((s.at t).serve rx wheelPhaseWriteService)

/-- The service of `execPhaseSourceWrite`. -/
def phaseSourceWriteService : Service :=
  ownService [E.PHASE_SOURCE] fun r u k v s =>
    let s := s.store r u k v
    s.putEng u { s.eng u with clearTable := true }

/-- PHASE_SOURCE_WRITE (R432, R452): the engine's table is cleared at its next run. -/
def execPhaseSourceWrite (t : Nat) (rx : Rx) (s : State) : Host.Outcome State Fault Refusal :=
  done ((s.at t).serve rx phaseSourceWriteService)

/-- The service of `execLoopModeWrite`. -/
def loopModeWriteService : Service :=
  ownService [E.LOOP_MODE] fun r u k v s =>
    let s := s.store r u k v
    s.putEng u { s.eng u with accept := false }

/-- LOOP_MODE_WRITE (R435): the mode asked for at the engine's next run; an acceptance given before is void. -/
def execLoopModeWrite (t : Nat) (rx : Rx) (s : State) : Host.Outcome State Fault Refusal :=
  done ((s.at t).serve rx loopModeWriteService)

/-- The service of `execManualValueWrite`. -/
def manualValueWriteService : Service :=
  ownService [E.MANUAL_VALUE] fun r u k v s => s.store r u k v

/-- MANUAL_VALUE_WRITE (R435, R439): the engine's next run finds the new value and hands over to it. -/
def execManualValueWrite (t : Nat) (rx : Rx) (s : State) : Host.Outcome State Fault Refusal :=
  done ((s.at t).serve rx manualValueWriteService)

/-- The service of `execBrEnableWrite`. -/
def brEnableWriteService : Service :=
  ownService [E.BR_ENABLE] fun r u k v s => s.store r u k v

/-- BR_ENABLE_WRITE (R557): in force from the next tick boundary. -/
def execBrEnableWrite (t : Nat) (rx : Rx) (s : State) : Host.Outcome State Fault Refusal :=
  done ((s.at t).serve rx brEnableWriteService)

/-- The service of `execHistCountWrite`. -/
def histCountWriteService : Service :=
  ownService [E.HIST_COUNT] fun r u k v s =>
    let s := s.store r u k v
    { s with recorder := { s.recorder with histCountDue := some v } }

/-- HIST_COUNT_WRITE (R592): in force from the next turn boundary. -/
def execHistCountWrite (t : Nat) (rx : Rx) (s : State) : Host.Outcome State Fault Refusal :=
  done ((s.at t).serve rx histCountWriteService)

/-- The bits of an entry that a write of ones clears: latch bits whose event came in this tick stay set (R11), and the
`STALE` bit of `RX_STATUS` is read-only (R524). -/
def State.clearable (s : State) (e : Ent) (key v : Nat) : Nat :=
  let v := if e = E.RX_STATUS then v % 4 else v
  (s.latched.filter fun p => p.1 == key).foldl (fun v p => clrBit v p.2) v

/-- The service of `execLatchClear`. -/
def latchClearService : Service :=
  writeService (fun r => r.acc == .w1c) fun r u k v s =>
    let e : Ent := ⟨r.ent.key + k, r.ent.dflt⟩
    s.setU e u (w1c (s.getU e u) (s.clearable r.ent (e.key + 256 * u) v))

/-- LATCH_CLEAR (R9, R11): a write to a W1C entry. -/
def execLatchClear (t : Nat) (rx : Rx) (s : State) : Host.Outcome State Fault Refusal :=
  done ((s.at t).serve rx latchClearService)

/-! ### Keyed sessions (R126 to R132) -/

/-- The codes that refuse an OPEN (R126, R132). -/
def State.openCodes (s : State) (q : Req) : List Nat :=
  if q.body.length ≠ 84 then [St.badLength]
  else
    let k := field q.body 0 1
    (if 7 < k then [St.outOfRange] else codeIf (s.getU E.KEY_STATE k != 1) St.keyUnknown)
      ++ codeIf (decide (4 ≤ s.dict.sessions.length)) St.sessionsFull

/-- A session number that is not 0 and not in use. -/
def State.freshSession (s : State) (base : Nat) : Nat :=
  let c := (List.range 5).map fun j => (base + j) % (2 ^ 32 - 1) + 1
  (c.find? fun n => s.dict.sessions.all fun x => x.id != n).getD 0

/-- An OPEN (R126, R127): a pending session; its number, the nonce, the ephemeral key and the signature's randomness are
free values. -/
def State.openRun (s : State) (q : Req) : Ans × State :=
  let f (i : Nat) : Nat := Config.freeValue (s.freeCtr + i)
  let id := s.freshSession (f 0)
  let nonce := beBytes 16 (f 1)
  let eph := beBytes 64 (Config.sm2Eph (f 2))
  let k := field q.body 0 1
  let hostEph := slice q.body 20 64
  let tr := hostEph ++ slice q.body 4 16 ++ eph ++ nonce ++ beBytes 4 id ++ beBytes 1 k ++ beBytes 6 (s.get E.PORT_MAC)
  let sig := beBytes 64 (Config.sm2Sign tr (f 3))
  let x : Session :=
    { id := id, keyId := k, key := Config.sessionKey (f 2) hostEph tr, transcript := tr, since := s.now }
  let a := s.okAns q (beBytes 4 id ++ nonce ++ eph ++ sig)
  let s : State := { s with freeCtr := s.freeCtr + 4 }
  ({ a with session := id }, s.setSessions (s.dict.sessions ++ [x]))

/-- The service of `execOpen`. -/
def openService : Service :=
  {
    mine := fun q _ => q.op == 7
    codes := fun q _ s => s.openCodes q
    refused := fun _ _ => []
    run := fun q _ s => let (a, s) := s.openRun q; (some a, s) }

/-- OPEN (R126, R127, R132). -/
def execOpen (t : Nat) (rx : Rx) (s : State) : Host.Outcome State Fault Refusal :=
  done ((s.at t).serve rx openService)

/-- A PROVE of a pending session (R128): the session opens, or it is discarded. -/
def State.proveRun (s : State) (q : Req) : Option Ans × State :=
  match s.session q.session with
  | none => (some { status := St.sessionUnknown, session := q.session }, s)
  | some x =>
    if Config.sm2Verify x.transcript q.body (beBytes 64 (s.getU E.KEY_PUBLIC x.keyId)) then
      let l := s.dict.sessions.map fun y => if y.id = x.id then { y with isOpen := true, since := s.now } else y
      (some { status := St.ok, session := x.id, key := some x.key }, s.setSessions l)
    else
      (some { status := St.signatureBad, session := q.session },
        ((s.closeSession x.id).inc E.DICT_REFUSED).latch E.DICT_LATCHES 1)

/-- The service of `execProve`. -/
def proveService : Service :=
  {
    mine := fun q _ => q.op == 8
    codes := fun q _ _ => codeIf (q.body.length != 64) St.badLength
    refused := fun _ _ => []
    run := fun q _ s => s.proveRun q }

/-- PROVE (R128, R132). -/
def execProve (t : Nat) (rx : Rx) (s : State) : Host.Outcome State Fault Refusal :=
  done ((s.at t).serve rx proveService)

/-- PROVE_TIMEOUT (R128, R132): 5 s after the OPEN reply a pending session is discarded. -/
def execProveTimeout (t session : Nat) (s : State) : Host.Outcome State Fault Refusal :=
  let s := s.at t
  done <| match s.session session with
    | none => s
    | some x => s.when (s.fwRuns && !x.isOpen && decide (x.since + 5 * sec ≤ s.now)) fun s => s.closeSession session

/-- The service of `execClose`. -/
def closeService : Service :=
  {
    mine := fun q _ => q.op == 9
    codes := fun q _ _ => codeIf (!q.body.isEmpty) St.badLength
    refused := fun _ _ => []
    run := fun q _ s => (some (s.okAns q []), s.closeSession q.session) }

/-- CLOSE (R132): the session ends once its reply is made. -/
def execClose (t : Nat) (rx : Rx) (s : State) : Host.Outcome State Fault Refusal :=
  done ((s.at t).serve rx closeService)

/-- SESSION_IDLE_TIMEOUT (R132). -/
def execSessionIdleTimeout (t session : Nat) (s : State) : Host.Outcome State Fault Refusal :=
  let s := s.at t
  done <| match s.session session with
    | none => s
    | some x =>
      s.when (s.fwRuns && x.isOpen && decide (x.since + s.get E.SESSION_IDLE * sec ≤ s.now)) fun s => s.closeSession session

/-- REPLY_CACHE_EXPIRY (R111): replies are kept for 2 s. -/
def execReplyCacheExpiry (t : Nat) (s : State) : Host.Outcome State Fault Refusal :=
  let s := s.at t
  let keep := s.dict.cache.filter fun c => c.reply.isNone || decide (s.now < c.at_ + 2 * sec)
  done { s with dict := { s.dict with cache := keep } }

/-- The service of `execUnknownOp`. -/
def unknownOpService : Service :=
  {
    mine := fun q _ => q.op == 0 || decide (9 < q.op)
    codes := fun _ _ _ => [St.unknownOp]
    refused := fun _ _ => []
    run := fun q _ s => (some (s.okAns q []), s) }

/-- UNKNOWN_OP (R106). -/
def execUnknownOp (t : Nat) (rx : Rx) (s : State) : Host.Outcome State Fault Refusal :=
  done ((s.at t).serve rx unknownOpService)

end Sys2Proof.Machine
end

