-- ==== Sys2Proof/Machine/Dispatch.lean ====
section
/-! DEFINITION. Every command and its meaning: one arm per constructor of Instr, no wildcard. -/

namespace Sys2Proof.Machine

open Sys2Proof

/-- The effect of a command on everything but the queue. -/
def exec (i : Instr) (s : State) : Host.Outcome State Fault Refusal :=
  match i with
  | .powerGood t => Sys2Proof.Machine.execPowerGood t s
  | .fanPowerUpStagger t => Sys2Proof.Machine.execFanPowerUpStagger t s
  | .bootRomAndFuses t ok => Sys2Proof.Machine.execBootRomAndFuses t ok s
  | .framRead t ok lifeOk => Sys2Proof.Machine.execFramRead t ok lifeOk s
  | .hubAndKeepersBist t hubOk keepersPass => Sys2Proof.Machine.execHubAndKeepersBist t hubOk keepersPass s
  | .arrayGroupPower t => Sys2Proof.Machine.execArrayGroupPower t s
  | .arraysBist t pass => Sys2Proof.Machine.execArraysBist t pass s
  | .iocLinkStart t lanesFail => Sys2Proof.Machine.execIocLinkStart t lanesFail s
  | .bootRequest t => Sys2Proof.Machine.execBootRequest t s
  | .bootOffer t rx => Sys2Proof.Machine.execBootOffer t rx s
  | .bootData t rx => Sys2Proof.Machine.execBootData t rx s
  | .bootReadTimeout t offset => Sys2Proof.Machine.execBootReadTimeout t offset s
  | .imageCheck t => Sys2Proof.Machine.execImageCheck t s
  | .stacksStart t found => Sys2Proof.Machine.execStacksStart t found s
  | .firmwareStart t iocOk => Sys2Proof.Machine.execFirmwareStart t iocOk s
  | .wheelStep t => Sys2Proof.Machine.execWheelStep t s
  | .wheelStartTimeout t => Sys2Proof.Machine.execWheelStartTimeout t s
  | .iocUnitsBist t portsFail ainFail => Sys2Proof.Machine.execIocUnitsBist t portsFail ainFail s
  | .arm t => Sys2Proof.Machine.execArm t s
  | .startTimerExpiry t => Sys2Proof.Machine.execStartTimerExpiry t s
  | .requiredStepRetry t => Sys2Proof.Machine.execRequiredStepRetry t s
  | .startCmd t rx => Sys2Proof.Machine.execStartCmd t rx s
  | .restartReset t => Sys2Proof.Machine.execRestartReset t s
  | .classLift t => Sys2Proof.Machine.execClassLift t s
  | .tickBoundary t x => Sys2Proof.Machine.execTickBoundary t x s
  | .turnBoundary t x => Sys2Proof.Machine.execTurnBoundary t x s
  | .classWidenLower t cls => Sys2Proof.Machine.execClassWidenLower t cls s
  | .periodPublish t n => Sys2Proof.Machine.execPeriodPublish t n s
  | .periodWithdraw t n => Sys2Proof.Machine.execPeriodWithdraw t n s
  | .ainTakeover t ch => Sys2Proof.Machine.execAinTakeover t ch s
  | .mainsCycle t phase => Sys2Proof.Machine.execMainsCycle t phase s
  | .mainsAbsent t => Sys2Proof.Machine.execMainsAbsent t s
  | .holdoverLong t => Sys2Proof.Machine.execHoldoverLong t s
  | .wheelNotice t => Sys2Proof.Machine.execWheelNotice t s
  | .wheelNoticeRepeat t => Sys2Proof.Machine.execWheelNoticeRepeat t s
  | .wheelPhaseWrite t rx => Sys2Proof.Machine.execWheelPhaseWrite t rx s
  | .ptpSync t => Sys2Proof.Machine.execPtpSync t s
  | .ptpAnnounce t => Sys2Proof.Machine.execPtpAnnounce t s
  | .ptpDelayReq t rx => Sys2Proof.Machine.execPtpDelayReq t rx s
  | .cageCheck t cage => Sys2Proof.Machine.execCageCheck t cage s
  | .cageRecheck t cage => Sys2Proof.Machine.execCageRecheck t cage s
  | .opticalModulePowerUp t ready => Sys2Proof.Machine.execOpticalModulePowerUp t ready s
  | .autoNegotiation t agreed => Sys2Proof.Machine.execAutoNegotiation t agreed s
  | .linkTraining t complete => Sys2Proof.Machine.execLinkTraining t complete s
  | .pcsAlignment t locked => Sys2Proof.Machine.execPcsAlignment t locked s
  | .linkHoldUp t => Sys2Proof.Machine.execLinkHoldUp t s
  | .linkAttemptFail t fault => Sys2Proof.Machine.execLinkAttemptFail t fault s
  | .laneMapRoundWait t => Sys2Proof.Machine.execLaneMapRoundWait t s
  | .linkDown t cause => Sys2Proof.Machine.execLinkDown t cause s
  | .sendResume t => Sys2Proof.Machine.execSendResume t s
  | .frameReceive t f => Sys2Proof.Machine.execFrameReceive t f s
  | .duplicateAddressDetection t linkLocal ok => Sys2Proof.Machine.execDuplicateAddressDetection t linkLocal ok s
  | .dadRetry t => Sys2Proof.Machine.execDadRetry t s
  | .routerAdvertisement t pfx len autonomous => Sys2Proof.Machine.execRouterAdvertisement t pfx len autonomous s
  | .neighbourSolicitation t src target => Sys2Proof.Machine.execNeighbourSolicitation t src target s
  | .echoRequest t src dst body => Sys2Proof.Machine.execEchoRequest t src dst body s
  | .egressServe t => Sys2Proof.Machine.execEgressServe t s
  | .read t rx => Sys2Proof.Machine.execRead t rx s
  | .write t rx => Sys2Proof.Machine.execWrite t rx s
  | .latchClear t rx => Sys2Proof.Machine.execLatchClear t rx s
  | .deferredWriteApply t key => Sys2Proof.Machine.execDeferredWriteApply t key s
  | .readBulk t rx => Sys2Proof.Machine.execReadBulk t rx s
  | .bulkFragment t id => Sys2Proof.Machine.execBulkFragment t id s
  | .writeBulk t rx => Sys2Proof.Machine.execWriteBulk t rx s
  | .writeBulkApply t => Sys2Proof.Machine.execWriteBulkApply t s
  | .subscribe t rx => Sys2Proof.Machine.execSubscribe t rx s
  | .subscriptionPush t src sport subId => Sys2Proof.Machine.execSubscriptionPush t src sport subId s
  | .subscriptionLapse t src sport subId => Sys2Proof.Machine.execSubscriptionLapse t src sport subId s
  | .openSession t rx => Sys2Proof.Machine.execOpen t rx s
  | .prove t rx => Sys2Proof.Machine.execProve t rx s
  | .proveTimeout t session => Sys2Proof.Machine.execProveTimeout t session s
  | .close t rx => Sys2Proof.Machine.execClose t rx s
  | .sessionIdleTimeout t session => Sys2Proof.Machine.execSessionIdleTimeout t session s
  | .replyCacheExpiry t => Sys2Proof.Machine.execReplyCacheExpiry t s
  | .checkInRequest t rx => Sys2Proof.Machine.execCheckInRequest t rx s
  | .checkInServe t => Sys2Proof.Machine.execCheckInServe t s
  | .passportTakeForce t slot => Sys2Proof.Machine.execPassportTakeForce t slot s
  | .rejoinCutResend t slot => Sys2Proof.Machine.execRejoinCutResend t slot s
  | .checkOutRequest t rx => Sys2Proof.Machine.execCheckOutRequest t rx s
  | .checkOutFree t slot => Sys2Proof.Machine.execCheckOutFree t slot s
  | .telemetryBundle t rx => Sys2Proof.Machine.execTelemetryBundle t rx s
  | .deferredCutRequeue t => Sys2Proof.Machine.execDeferredCutRequeue t s
  | .rowCutRefresh t scope => Sys2Proof.Machine.execRowCutRefresh t scope s
  | .guardRelease t slot => Sys2Proof.Machine.execGuardRelease t slot s
  | .releaseSend t slot => Sys2Proof.Machine.execReleaseSend t slot s
  | .capBundleBuild t cls firstBit => Sys2Proof.Machine.execCapBundleBuild t cls firstBit s
  | .recordParse t lane => Sys2Proof.Machine.execRecordParse t lane s
  | .disobeyResend t slot => Sys2Proof.Machine.execDisobeyResend t slot s
  | .guestDisobedient t slot => Sys2Proof.Machine.execGuestDisobedient t slot s
  | .disobeyClear t slot => Sys2Proof.Machine.execDisobeyClear t slot s
  | .countingTickEnd t => Sys2Proof.Machine.execCountingTickEnd t s
  | .guestStale t slot => Sys2Proof.Machine.execGuestStale t slot s
  | .staleCapSend t slot => Sys2Proof.Machine.execStaleCapSend t slot s
  | .staleEnd t slot => Sys2Proof.Machine.execStaleEnd t slot s
  | .absenceTimeout t slot => Sys2Proof.Machine.execAbsenceTimeout t slot s
  | .guestLapse t slot => Sys2Proof.Machine.execGuestLapse t slot s
  | .reserveExpiry t slot => Sys2Proof.Machine.execReserveExpiry t slot s
  | .pairEpisodeEnd t slot pair => Sys2Proof.Machine.execPairEpisodeEnd t slot pair s
  | .pairPersistReached t slot pair => Sys2Proof.Machine.execPairPersistReached t slot pair s
  | .capRefresh t slot => Sys2Proof.Machine.execCapRefresh t slot s
  | .summaryStepEnd t => Sys2Proof.Machine.execSummaryStepEnd t s
  | .allocationPeriodStart t => Sys2Proof.Machine.execAllocationPeriodStart t s
  | .allocationPeriodEnd t => Sys2Proof.Machine.execAllocationPeriodEnd t s
  | .allocateEgressTick t => Sys2Proof.Machine.execAllocateEgressTick t s
  | .rowProgramStep t => Sys2Proof.Machine.execRowProgramStep t s
  | .measurementCutoff t => Sys2Proof.Machine.execMeasurementCutoff t s
  | .settleEnd t slot => Sys2Proof.Machine.execSettleEnd t slot s
  | .classFallback t cls => Sys2Proof.Machine.execClassFallback t cls s
  | .leakSuspect t branch transient => Sys2Proof.Machine.execLeakSuspect t branch transient s
  | .hingeRebuildStart t slot k => Sys2Proof.Machine.execHingeRebuildStart t slot k s
  | .hingeRebuild t rx => Sys2Proof.Machine.execHingeRebuild t rx s
  | .hingeValidate t slot k => Sys2Proof.Machine.execHingeValidate t slot k s
  | .hingePreloadDone t slot k => Sys2Proof.Machine.execHingePreloadDone t slot k s
  | .hingeSwap t slot k => Sys2Proof.Machine.execHingeSwap t slot k s
  | .hingeStale t slot k => Sys2Proof.Machine.execHingeStale t slot k s
  | .progUploadBegin t rx => Sys2Proof.Machine.execProgUploadBegin t rx s
  | .progUploadChunk t rx => Sys2Proof.Machine.execProgUploadChunk t rx s
  | .progUploadCommit t rx => Sys2Proof.Machine.execProgUploadCommit t rx s
  | .progFitComplete t slot => Sys2Proof.Machine.execProgFitComplete t slot s
  | .progInstall t slot => Sys2Proof.Machine.execProgInstall t slot s
  | .progUploadUnload t rx => Sys2Proof.Machine.execProgUploadUnload t rx s
  | .progStop t slot => Sys2Proof.Machine.execProgStop t slot s
  | .progFeed t rx => Sys2Proof.Machine.execProgFeed t rx s
  | .progFeedApply t slot => Sys2Proof.Machine.execProgFeedApply t slot s
  | .progStepStart t slot => Sys2Proof.Machine.execProgStepStart t slot s
  | .progStepComplete t slot poison => Sys2Proof.Machine.execProgStepComplete t slot poison s
  | .progPublish t slot => Sys2Proof.Machine.execProgPublish t slot s
  | .parityError t array => Sys2Proof.Machine.execParityError t array s
  | .stepOverrun t array => Sys2Proof.Machine.execStepOverrun t array s
  | .arrayBlockError t array sram => Sys2Proof.Machine.execArrayBlockError t array sram s
  | .migration t array => Sys2Proof.Machine.execMigration t array s
  | .rotationPreload t region => Sys2Proof.Machine.execRotationPreload t region s
  | .rotation t region => Sys2Proof.Machine.execRotation t region s
  | .regionFence t region => Sys2Proof.Machine.execRegionFence t region s
  | .regionReconfigure t region => Sys2Proof.Machine.execRegionReconfigure t region s
  | .chipLevelError t => Sys2Proof.Machine.execChipLevelError t s
  | .lineUncorrectable t stack line => Sys2Proof.Machine.execLineUncorrectable t stack line s
  | .rowSpare t stack bank row => Sys2Proof.Machine.execRowSpare t stack bank row s
  | .pageRetire t stack page => Sys2Proof.Machine.execPageRetire t stack page s
  | .patrolScrubPass t stack corrected => Sys2Proof.Machine.execPatrolScrubPass t stack corrected s
  | .channelLoss t stack channel => Sys2Proof.Machine.execChannelLoss t stack channel s
  | .channelSpare t stack slot => Sys2Proof.Machine.execChannelSpare t stack slot s
  | .zeroFillDone t stack channel => Sys2Proof.Machine.execZeroFillDone t stack channel s
  | .stackLoss t stack => Sys2Proof.Machine.execStackLoss t stack s
  | .stackHot t stack temp => Sys2Proof.Machine.execStackHot t stack temp s
  | .iocLaneFail t lane => Sys2Proof.Machine.execIocLaneFail t lane s
  | .iocLaneSpare t => Sys2Proof.Machine.execIocLaneSpare t s
  | .iocLinkLoss t => Sys2Proof.Machine.execIocLinkLoss t s
  | .sensorDelivery t x => Sys2Proof.Machine.execSensorDelivery t x s
  | .loopRun t engine => Sys2Proof.Machine.execLoopRun t engine s
  | .feedbackHoldTimeout t engine => Sys2Proof.Machine.execFeedbackHoldTimeout t engine s
  | .followingErrorFault t engine => Sys2Proof.Machine.execFollowingErrorFault t engine s
  | .loopSlotMissed t engine => Sys2Proof.Machine.execLoopSlotMissed t engine s
  | .engineBlockError t engine => Sys2Proof.Machine.execEngineBlockError t engine s
  | .engineTakeover t engine saved => Sys2Proof.Machine.execEngineTakeover t engine saved s
  | .loopModeWrite t rx => Sys2Proof.Machine.execLoopModeWrite t rx s
  | .manualValueWrite t rx => Sys2Proof.Machine.execManualValueWrite t rx s
  | .loopCmdAccept t rx => Sys2Proof.Machine.execLoopCmdAccept t rx s
  | .loopCmdClearTable t rx => Sys2Proof.Machine.execLoopCmdClearTable t rx s
  | .phaseSourceWrite t rx => Sys2Proof.Machine.execPhaseSourceWrite t rx s
  | .outputHandoff t => Sys2Proof.Machine.execOutputHandoff t s
  | .actuatorUpdate t => Sys2Proof.Machine.execActuatorUpdate t s
  | .valveCmdDeenergise t rx => Sys2Proof.Machine.execValveCmdDeenergise t rx s
  | .valveCmdEnergise t rx => Sys2Proof.Machine.execValveCmdEnergise t rx s
  | .valveCmdClear t rx => Sys2Proof.Machine.execValveCmdClear t rx s
  | .boostAdmit t bank => Sys2Proof.Machine.execBoostAdmit t bank s
  | .boostEnd t ch current => Sys2Proof.Machine.execBoostEnd t ch current s
  | .boostTimeout t ch => Sys2Proof.Machine.execBoostTimeout t ch s
  | .peakEnd t ch => Sys2Proof.Machine.execPeakEnd t ch s
  | .boostWaitLong t bank => Sys2Proof.Machine.execBoostWaitLong t bank s
  | .descentEnd t ch current => Sys2Proof.Machine.execDescentEnd t ch current s
  | .releaseEnd t ch current => Sys2Proof.Machine.execReleaseEnd t ch current s
  | .seatKink t ch kink => Sys2Proof.Machine.execSeatKink t ch kink s
  | .seatWindowEnd t ch => Sys2Proof.Machine.execSeatWindowEnd t ch s
  | .seatResultPublish t ch => Sys2Proof.Machine.execSeatResultPublish t ch s
  | .valveOpenOn t ch current => Sys2Proof.Machine.execValveOpenOn t ch current s
  | .valveShort t ch => Sys2Proof.Machine.execValveShort t ch s
  | .valveShortRetry t ch => Sys2Proof.Machine.execValveShortRetry t ch s
  | .bankOvercurrent t bank current => Sys2Proof.Machine.execBankOvercurrent t bank current s
  | .valveHot t ch temp => Sys2Proof.Machine.execValveHot t ch temp s
  | .valveDriverFault t ch highSide => Sys2Proof.Machine.execValveDriverFault t ch highSide s
  | .valveTakeover t ch => Sys2Proof.Machine.execValveTakeover t ch s
  | .valveSwitchDone t ch => Sys2Proof.Machine.execValveSwitchDone t ch s
  | .valveFeedLow t volts => Sys2Proof.Machine.execValveFeedLow t volts s
  | .valveFeedRestore t volts => Sys2Proof.Machine.execValveFeedRestore t volts s
  | .boostVApply t => Sys2Proof.Machine.execBoostVApply t s
  | .speedLoopRun t ch x => Sys2Proof.Machine.execSpeedLoopRun t ch x s
  | .fanWatchdog t => Sys2Proof.Machine.execFanWatchdog t s
  | .fanStaggerStart t => Sys2Proof.Machine.execFanStaggerStart t s
  | .fanStartEnd t ch => Sys2Proof.Machine.execFanStartEnd t ch s
  | .fanKickEnd t ch => Sys2Proof.Machine.execFanKickEnd t ch s
  | .fanPauseEnd t ch => Sys2Proof.Machine.execFanPauseEnd t ch s
  | .fanStallRetry t ch => Sys2Proof.Machine.execFanStallRetry t ch s
  | .tachAbsent t ch => Sys2Proof.Machine.execTachAbsent t ch s
  | .tachRestored t ch => Sys2Proof.Machine.execTachRestored t ch s
  | .fanOverload t ch => Sys2Proof.Machine.execFanOverload t ch s
  | .fanHot t ch temp => Sys2Proof.Machine.execFanHot t ch temp s
  | .fanCmd t rx => Sys2Proof.Machine.execFanCmd t rx s
  | .fanFeedLow t volts => Sys2Proof.Machine.execFanFeedLow t volts s
  | .fanFeedRestore t volts => Sys2Proof.Machine.execFanFeedRestore t volts s
  | .fanDriverFault t ch => Sys2Proof.Machine.execFanDriverFault t ch s
  | .fanTakeover t ch => Sys2Proof.Machine.execFanTakeover t ch s
  | .fanSwitchDone t ch => Sys2Proof.Machine.execFanSwitchDone t ch s
  | .ifanTakeover t n => Sys2Proof.Machine.execIfanTakeover t n s
  | .canFrameReceive t port f => Sys2Proof.Machine.execCanFrameReceive t port f s
  | .canTxDone t port time => Sys2Proof.Machine.execCanTxDone t port time s
  | .canError t port e => Sys2Proof.Machine.execCanError t port e s
  | .fbCmdRejoin t rx => Sys2Proof.Machine.execFbCmdRejoin t rx s
  | .busOffRecoveryDone t port => Sys2Proof.Machine.execBusOffRecoveryDone t port s
  | .aloneEnter t port => Sys2Proof.Machine.execAloneEnter t port s
  | .aloneProbe t port => Sys2Proof.Machine.execAloneProbe t port s
  | .fbCmdProbe t rx => Sys2Proof.Machine.execFbCmdProbe t rx s
  | .rxObjectStale t obj => Sys2Proof.Machine.execRxObjectStale t obj s
  | .suppressionEnd t port => Sys2Proof.Machine.execSuppressionEnd t port s
  | .fbIntegrateDone t port => Sys2Proof.Machine.execFbIntegrateDone t port s
  | .fbPortFence t port => Sys2Proof.Machine.execFbPortFence t port s
  | .plantSupervisorRun t => Sys2Proof.Machine.execPlantSupervisorRun t s
  | .trendEnd t branch => Sys2Proof.Machine.execTrendEnd t branch s
  | .flowRecovery t branch => Sys2Proof.Machine.execFlowRecovery t branch s
  | .plantClassLift t branch => Sys2Proof.Machine.execPlantClassLift t branch s
  | .pumpStartTimeout t set pump => Sys2Proof.Machine.execPumpStartTimeout t set pump s
  | .pumpStandbyReturn t set pump => Sys2Proof.Machine.execPumpStandbyReturn t set pump s
  | .leadRebind t set => Sys2Proof.Machine.execLeadRebind t set s
  | .pumpRotation t set => Sys2Proof.Machine.execPumpRotation t set s
  | .psCmd t rx => Sys2Proof.Machine.execPsCmd t rx s
  | .plantFanHoldRelease t => Sys2Proof.Machine.execPlantFanHoldRelease t s
  | .ropeMeasure t rope x => Sys2Proof.Machine.execRopeMeasure t rope x s
  | .isolationCloseDemand t branch => Sys2Proof.Machine.execIsolationCloseDemand t branch s
  | .isolationRetryClose t branch => Sys2Proof.Machine.execIsolationRetryClose t branch s
  | .brCmdEndIsolation t rx => Sys2Proof.Machine.execBrCmdEndIsolation t rx s
  | .brCmdDeclareLeak t rx => Sys2Proof.Machine.execBrCmdDeclareLeak t rx s
  | .brEnableWrite t rx => Sys2Proof.Machine.execBrEnableWrite t rx s
  | .plantRowCutRefresh t branch => Sys2Proof.Machine.execPlantRowCutRefresh t branch s
  | .dieOvertempError t => Sys2Proof.Machine.execDieOvertempError t s
  | .logCommit t readback => Sys2Proof.Machine.execLogCommit t readback s
  | .eventsLostRecord t => Sys2Proof.Machine.execEventsLostRecord t s
  | .logPageRetire t page damaged => Sys2Proof.Machine.execLogPageRetire t page damaged s
  | .histSet t rx => Sys2Proof.Machine.execHistSet t rx s
  | .histCountWrite t rx => Sys2Proof.Machine.execHistCountWrite t rx s
  | .recCmdClearLog t rx => Sys2Proof.Machine.execRecCmdClearLog t rx s
  | .recCmdClearHistograms t rx => Sys2Proof.Machine.execRecCmdClearHistograms t rx s
  | .recCmdClearGuestHistory t rx => Sys2Proof.Machine.execRecCmdClearGuestHistory t rx s
  | .recCmdClearDieRainflow t rx => Sys2Proof.Machine.execRecCmdClearDieRainflow t rx s
  | .recCmdClearFramLastgasp t rx => Sys2Proof.Machine.execRecCmdClearFramLastgasp t rx s
  | .recCmdComplete t => Sys2Proof.Machine.execRecCmdComplete t s
  | .logicPowerLoss t => Sys2Proof.Machine.execLogicPowerLoss t s
  | .framCopyDone t => Sys2Proof.Machine.execFramCopyDone t s
  | .feedLost t feed => Sys2Proof.Machine.execFeedLost t feed s
  | .feedRange t feed => Sys2Proof.Machine.execFeedRange t feed s
  | .actFuseOpen t => Sys2Proof.Machine.execActFuseOpen t s
  | .actFuseReclose t => Sys2Proof.Machine.execActFuseReclose t s
  | .actCmd t rx => Sys2Proof.Machine.execActCmd t rx s
  | .actOverload t => Sys2Proof.Machine.execActOverload t s
  | .keyEnrol t rx => Sys2Proof.Machine.execKeyEnrol t rx s
  | .keyRevoke t rx => Sys2Proof.Machine.execKeyRevoke t rx s
  | .fuseSecRaise t rx => Sys2Proof.Machine.execFuseSecRaise t rx s
  | .fuseKeyRevoke t rx => Sys2Proof.Machine.execFuseKeyRevoke t rx s
  | .stanceWrite t rx => Sys2Proof.Machine.execStanceWrite t rx s
  | .bistComplete t row signature => Sys2Proof.Machine.execBistComplete t row signature s
  | .bistResult t row => Sys2Proof.Machine.execBistResult t row s
  | .bistTimeout t row => Sys2Proof.Machine.execBistTimeout t row s
  | .spareRetest t kind => Sys2Proof.Machine.execSpareRetest t kind s
  | .plannedTest t kind => Sys2Proof.Machine.execPlannedTest t kind s
  | .keeperBlockError t keeper => Sys2Proof.Machine.execKeeperBlockError t keeper s
  | .progStorageMoveDone t slot => Sys2Proof.Machine.execProgStorageMoveDone t slot s
  | .ainSwitchDone t ch => Sys2Proof.Machine.execAinSwitchDone t ch s
  | .unknownOp t rx => Sys2Proof.Machine.execUnknownOp t rx s

end Sys2Proof.Machine
end

