-- ==== Sys2Proof/Safety.lean ====
section
/-! DEFINITION. What counts as a safe run. The spec stops the module nowhere, so a safe step answers a next state; and
the bounds that the spec puts on the dictionary server and on the recorder hold in every state, with the register store
in its canonical form. -/

namespace Sys2Proof

open Sys2Proof.Machine

/-- The bounds of the dictionary server: 64 cached replies (R111), 8 bulk replies (R117), 64 subscriptions (R123), 4
sessions open or pending (R132). -/
def Dict.bounded (d : Dict) : Bool :=
  decide (d.cache.length ≤ 64) && decide (d.bulks.length ≤ 8) && decide (d.subs.length ≤ 64)
    && decide (d.sessions.length ≤ 4)

/-- The bounds of the recorder: 64 staged records (R606) and 64 last-gasp records (R614). -/
def Recorder.bounded (r : Recorder) : Bool := decide (r.staged.length ≤ 64) && decide (r.gasp.length ≤ 64)

/-- The invariant of the machine. -/
def State.safe (s : State) : Bool := AMap.wf s.regs && Dict.bounded s.dict && Recorder.bounded s.recorder

/-- A step that answers a next state, and keeps the invariant. -/
def SafeStep (s : State) : Prop := ∃ s', step s = .next s' ∧ (State.safe s = true → State.safe s' = true)

end Sys2Proof
end

