-- ==== Sys2Proof/Certificates/Slice0/Obligations.lean ====
section
/-! DEFINITION. What is stated about the model: the step and its invariant, the dictionary's rules, and, family by family,
what each command leaves where its condition holds. `Answers c s P` says that the command completes with a state of
which `P` is true. A command's first operand is the instant it comes at, and `s.at t` is the state at that instant; a
served command stands behind the checks of `State.screen` (Obligations.PlainRequestRuns says when they pass). -/

open Sys2Proof Sys2Proof.Machine

/-- The command is executed: its outcome is a next state, of which `P` holds. -/
def Sys2Proof.Answers (c : Instr) (s : State) (P : State → Prop) : Prop := ∃ u, exec c s = .next u ∧ P u
/-- Class 4 has room for a reply (R93, R105). -/
def Sys2Proof.ReplyRoom (s : State) : Prop := s.linkUp = true ∧ (s.port.egress.filter fun x => x.cls == 4).length < 256
/-- The entries that staging a condition record or dropping a reply counts in (R93, R136, R605 to R607, R614). -/
def Sys2Proof.countKeys : List Nat :=
  [E.COND_FOLDED.key, E.COND_LOST.key, E.REC_LATCHES.key, E.LASTGASP_COUNT.key, E.LASTGASP_OVERFLOW.key,
    E.DROP_EGRESS.key, E.DICT_LATCHES.key]
/-- A guest holds the slot, and `P` is true of it. -/
def Sys2Proof.Holds (s : State) (slot : Nat) (P : Guest → Prop) : Prop := ∃ g, s.guest slot = some g ∧ P g

/-- A step with a command at the front of the queue runs that command on the state that holds the rest of the queue. -/
def Obligations.StepRunsFrontCommand : Prop :=
  ∀ (c : Instr) (rest : List Instr) (s : State), step { s with pending := c :: rest } = exec c { s with pending := rest }

/-- With no command waiting a step leaves the module as it stands. Idling is the model's choice (notes/assumptions/5.md). -/
def Obligations.StepIdles : Prop := ∀ s : State, step { s with pending := [] } = .next { s with pending := [] }

/-- Every step answers a next state; the module stops nowhere (R36, R43). Time never moves back, and the step takes
exactly the command at the front of the queue. -/
def Obligations.StepAnswersInOrder : Prop :=
  ∀ s : State, ∃ t, step s = .next t ∧ s.now ≤ t.now ∧ t.pending = s.pending.tail

/-- The invariant of Safety.lean holds in every state a step leaves, from every state that has it: the register store in
its canonical form, at most 64 cached replies (R111), 8 bulk replies (R117), 64 subscriptions (R123) and 4 sessions
(R132), at most 64 staged records (R606) and 64 last-gasp records (R614). -/
def Obligations.StepKeepsBounds : Prop :=
  ∀ s t : State, State.safe s = true → step s = .next t → State.safe t = true

/-- The invariant of `Obligations.StepKeepsBounds` holds at reset. -/
def Obligations.ResetHasBounds : Prop := State.safe State.reset = true

/-- At reset every entry reads its default (R10), no command waits, no time has passed, no feed stands and no link is up;
what an entry's default leaves open is the model's choice (notes/assumptions/2.md). -/
def Obligations.ResetReadsDefaults : Prop :=
  (∀ (e : Ent) (u : Nat), State.reset.getU e u = e.dflt) ∧ State.reset.pending = [] ∧ State.reset.now = 0
    ∧ State.reset.linkUp = false ∧ State.reset.dict.sessions = [] ∧ State.reset.recorder.staged = []

/-- A request whose `VERSION` is not 1 (R104): the reply carries `BAD_VERSION`, `VERSION` 1 and an empty body, and
nothing is executed: every entry stands as it was, but for the counts of requests and of refusals, and so do sessions,
subscriptions and bulk transactions. Class 4 has room for the reply. -/
def Obligations.OtherVersionIsRefused : Prop :=
  ∀ (s : State) (rx : Rx) (v : Service), s.fwRuns = true → rx.dport = s.eff E.UDP_PORT_DICT → 16 ≤ rx.bytes.length →
    v.mine (Req.parse rx) s = true → (Req.parse rx).version ≠ 1 → ReplyRoom s →
    ∃ d, (s.serve rx v).port.egress = s.port.egress ++ [d] ∧ d.dst = rx.src ∧ d.dport = rx.sport
      ∧ field d.bytes 0 1 = 1 ∧ field d.bytes 12 2 = St.badVersion ∧ field d.bytes 14 2 = 0 ∧ d.bytes.length = 16
      ∧ (∀ (e : Ent) (u : Nat), e.key + 256 * u ≠ E.DICT_REQUESTS.key → e.key + 256 * u ≠ E.DICT_REFUSED.key →
        (s.serve rx v).getU e u = s.getU e u)
      ∧ (s.serve rx v).dict.sessions = s.dict.sessions ∧ (s.serve rx v).dict.subs = s.dict.subs
      ∧ (s.serve rx v).dict.bulks = s.dict.bulks

/-- Where a clear and a set meet on one tick, the set wins (R11): a bit whose event came earlier in the tick stays set
under a write that clears it, and an event that comes after the write sets it again. The second disjunct leaves out
only the entries that a dropped reply would itself count in. -/
def Obligations.SetWinsOverClear : Prop :=
  (∀ (s a : State) (t w k b : Nat) (rx : Rx) (live : Bool) (r : Row),
    (s.at t).screen rx latchClearService = .run live a → (Req.parse rx).entry = some (r, w) →
    k = (Req.parse rx).sub - r.ent.key % 256 → (ReplyRoom a ∨ r.ent.key + k + 256 * w ∉ countKeys) →
    (r.ent.key + k + 256 * w, b) ∈ a.latched → (a.getU ⟨r.ent.key + k, r.ent.dflt⟩ w).testBit b = true →
    Answers (.latchClear t rx) s fun u => (u.getU ⟨r.ent.key + k, r.ent.dflt⟩ w).testBit b = true) ∧
  (∀ (s : State) (e : Ent) (u b key : Nat), e.key + 256 * u ∉ countKeys →
    ((s.latchU e u b key).getU e u).testBit b = true)

/-- An operation with an open operand yields an open result, MAX and MIN as well (R265): the result is open and nothing
is counted, for each operation of R267. -/
def Obligations.OpenOperandsYieldOpen : Prop :=
  ∀ (x y : Br) (k : BrCnt), x.isOpen = true ∨ y.isOpen = true →
    (∀ f ∈ [Br.add, Br.sub, Br.mul, Br.div, Br.max, Br.min, Br.hull], ((f x y).run k).1.isOpen = true) ∧
    (∀ z : Br, ((Br.mac z x y).run k).1.isOpen = true ∧ ((Br.mac x z y).run k).1.isOpen = true
      ∧ ((Br.mac x y z).run k).1.isOpen = true) ∧
    (x.isOpen = true →
      (∀ f ∈ [Br.neg, Br.abs, Br.rcp, Br.sqrt, Br.rsqrt], ((f x).run k).1.isOpen = true) ∧
      (∀ n : Int, ((x.scale n).run k).1.isOpen = true) ∧ ∀ w : FV, ((x.widen w).run k).1.isOpen = true)

/-- The fraction of wheel time (R41): it is the greatest number of 1/65,536 ticks that have passed, and below 65,536 for
every instant of the tick in progress. -/
def Obligations.FractionRoundsDown : Prop :=
  ∀ (s : State) (x : Nat), s.wheel.tickStart ≤ x → x < s.wheel.tickStart + s.wheel.tickLen →
    s.fracAt x < 65536 ∧ s.fracAt x * s.wheel.tickLen ≤ (x - s.wheel.tickStart) * 65536
      ∧ (x - s.wheel.tickStart) * 65536 < (s.fracAt x + 1) * s.wheel.tickLen

/-- Entries (R9, R10): a value stored in a unit of an entry is read back, and every other entry and unit reads as before;
a latch event sets its bit, leaves the other bits as they were, and leaves every other entry alone but for the counts
of the recorder. -/
def Obligations.EntriesKeepTheirValues : Prop :=
  (∀ (s : State) (e f : Ent) (u w v : Nat), (s.setU e u v).getU e u = v
    ∧ (f.key + 256 * w ≠ e.key + 256 * u → (s.setU e u v).getU f w = s.getU f w)) ∧
  (∀ (s : State) (e f : Ent) (u w b key j : Nat), e.key + 256 * u ∉ countKeys →
    ((s.latchU e u b key).getU e u).testBit j = (decide (j = b) || (s.getU e u).testBit j)
      ∧ (f.key + 256 * w ≠ e.key + 256 * u → f.key + 256 * w ∉ countKeys →
        (s.latchU e u b key).getU f w = s.getU f w))

/-- When a request runs (R103, R104, R109, R111, R130, R134): outside a session, on the dictionary's port, of version 1,
with its length as it says, without a cached reply of its key, and with no code of its operation against it. -/
def Obligations.PlainRequestRuns : Prop :=
  ∀ (s : State) (rx : Rx) (v : Service) (q : Req), q = Req.parse rx → s.fwRuns = true →
    rx.dport = s.eff E.UDP_PORT_DICT → 16 ≤ rx.bytes.length → v.mine q s = true → q.version = 1 → q.session = 0 →
    q.op ≠ 8 → q.op ≠ 9 → (∀ c ∈ s.dict.cache, c.keyIs q = false) → q.length = q.body.length →
    rx.bytes.length = 16 + q.body.length + (if q.tagged then 16 else 0) → v.codes q false (s.heard rx) = [] →
    s.screen rx v = .run false (s.heard rx)

/-- A refused request changes nothing (R108): where codes of its operation apply to a request outside a session, no entry
changes but for the counts of requests, refusals and dropped replies, and the reply carries the lowest code (R134) and
the body that the operation gives a refused request. Class 4 has room for the reply. -/
def Obligations.RefusedRequestChangesNothing : Prop :=
  ∀ (s : State) (rx : Rx) (v : Service) (q : Req) (c : Nat), q = Req.parse rx → s.fwRuns = true →
    rx.dport = s.eff E.UDP_PORT_DICT → 16 ≤ rx.bytes.length → v.mine q s = true → q.version = 1 → q.session = 0 →
    q.op ≠ 8 → q.op ≠ 9 → (∀ x ∈ s.dict.cache, x.keyIs q = false) → q.length = q.body.length →
    rx.bytes.length = 16 + q.body.length + (if q.tagged then 16 else 0) →
    lowestCode (v.codes q false (s.heard rx)) = some c → ReplyRoom s →
    ∃ d, (s.serve rx v).port.egress = s.port.egress ++ [d]
      ∧ d.bytes = replyBytes q.op q.seq 0 { status := c, body := v.refused q (s.heard rx), session := 0, key := none }
      ∧ (∀ (e : Ent) (u : Nat), e.key + 256 * u ≠ E.DICT_REQUESTS.key → e.key + 256 * u ≠ E.DICT_REFUSED.key →
        (s.serve rx v).getU e u = s.getU e u)
      ∧ (s.serve rx v).dict.sessions = s.dict.sessions ∧ (s.serve rx v).dict.subs = s.dict.subs
      ∧ (s.serve rx v).dict.bulks = s.dict.bulks ∧ (s.serve rx v).ioc = s.ioc ∧ (s.serve rx v).plant = s.plant

/-- Power good, the boot steps up to step 6 and the restarts (R490, R505, R624, R626, R634, R635, R638, R640, R669): what
each command leaves where its condition holds. -/
def Obligations.StartSequenceMoves : Prop :=
  (∀ (s : State) (t : Nat), (s.at t).elec.power = 0 ∨ (s.at t).elec.power = 3 →
    Answers (.powerGood t) s fun u =>
      u.elec.power = 1 ∧ u.start.step = 2 ∧ u.start.from_ = (s.at t).now ∧ u.get E.START_STAGE = 2) ∧
  (∀ (s : State) (t c : Nat) (rest : List Nat), (s.at t).ioc.stagger = c :: rest → (s.at t).elec.power = 1 →
    (s.at t).fwRuns = false →
    (s.at t).ioc.staggerAt
      + (if c = 0 || 28 ≤ c then 500 else (s.at t).fram.entries.getD E.FAN_START_GAP_MS.key E.FAN_START_GAP_MS.dflt) * ms
      ≤ (s.at t).now →
    Answers (.fanPowerUpStagger t) s fun u => u.ioc.stagger = rest ∧ u.ioc.staggerAt = (s.at t).now) ∧
  (∀ (s : State) (t : Nat), (s.at t).inStep 2 = true →
    Answers (.bootRomAndFuses t true) s (fun u =>
      u.start.step = 3 ∧ u.get E.START_STAGE = 3 ∧ u.get E.FUSE_SEC_VERSION = s.start.fuseSec
        ∧ u.get E.FUSE_KEY_REVOKED = s.start.fuseRevoked) ∧
    Answers (.bootRomAndFuses t false) s (fun u => u.start.failedAt = some (s.at t).now ∧ u.start.step = 2)) ∧
  (∀ (s : State) (t : Nat) (ok lifeOk : Bool), (s.at t).inStep 3 = true →
    Answers (.framRead t ok lifeOk) s fun u =>
      u.start.step = 4 ∧ u.start.diaryInFram = ok ∧ u.get E.START_STAGE = 4) ∧
  (∀ (s : State) (t : Nat), (s.at t).inStep 5 = true → s.start.groups < 18 →
    s.start.groups = 0 ∨ s.start.groupAt + 50 * us ≤ (s.at t).now →
    Answers (.arrayGroupPower t) s fun u =>
      u = { s.at t with start := { s.start with groups := s.start.groups + 1, groupAt := (s.at t).now } }) ∧
  (∀ (s : State) (t k l : Nat), stepLimit s.start.step = some l → (s.at t).inStep s.start.step = true →
    s.start.step = k → (s.at t).stepFrom + 4 * l * ms ≤ (s.at t).now →
    Answers (.startTimerExpiry t) s fun u => u.start.step = 2 ∧ u.start.cause = 2) ∧
  (∀ (s : State) (t f : Nat), s.start.failedAt = some f → s.elec.power = 1 → f + 10 * sec ≤ (s.at t).now →
    Answers (.requiredStepRetry t) s fun u => u.start.step = 2 ∧ u.start.cause = 3 ∧ u.start.failedAt = none) ∧
  (∀ (s : State) (t x : Nat), s.start.restart = some x → s.elec.power = 1 → x ≤ (s.at t).now →
    Answers (.restartReset t) s fun u => u.start.step = 2 ∧ u.start.cause = 1 ∧ u.start.restart = none)

/-- The self-tests and the later steps of the start sequence (R338, R624, R636, R637, R643, R647): what a test that is
passed leaves. -/
def Obligations.StartTestsPass : Prop :=
  (∀ (s : State) (t : Nat) (keepersPass : List Nat), (s.at t).inStep 4 = true →
    16 ≤ ((((s.at t).leaveOut 15 4).testable (kindRows 15)).filter fun r => keepersPass.contains (r - kindRow 15)).length →
    Answers (.hubAndKeepersBist t true keepersPass) s fun u => u.start.step = 5 ∧ u.get E.START_STAGE = 5) ∧
  (∀ (s : State) (t : Nat) (pass : List Nat), (s.at t).inStep 5 = true → s.start.groups = 18 →
    64 ≤ ((((s.at t).skippedArrays.foldl (fun s a => s.startUnit a 2 0xFFFF true) (s.at t)).testable
      (List.range 144)).filter pass.contains).length →
    Answers (.arraysBist t pass) s fun u => u.start.step = 6 ∧ u.get E.START_STAGE = 6) ∧
  (∀ (s : State) (t : Nat) (lanesFail : List Nat), (s.at t).inStep 6 = true →
    12 ≤ (let tried := ((s.at t).leaveOut 16 6).testable (kindRows 16)
          tried.filter fun r => !(tried.filter fun r => lanesFail.contains (r - kindRow 16)).contains r).length →
    Answers (.iocLinkStart t lanesFail) s fun u => u.start.step = 7 ∧ u.port.step = 1 ∧ u.get E.LINK_STATE = 1) ∧
  (∀ (s : State) (t : Nat) (found : List StackStart), (s.at t).inStep 10 = true →
    Answers (.stacksStart t found) s fun u => u.start.step = 11 ∧ u.get E.START_STAGE = 11) ∧
  (∀ (s : State) (t : Nat) (portsFail ainFail : List Nat), (s.at t).inStep 13 = true →
    Answers (.iocUnitsBist t portsFail ainFail) s fun u => u.start.step = 14 ∧ u.get E.START_STAGE = 14) ∧
  (∀ (s : State) (t : Nat), (s.at t).inStep 14 = true → s.wheel.tickStart ≤ (s.at t).now →
    Answers (.arm t) s fun u => u.start.step = 15 ∧ u.ioc.restFans = false ∧ u.row.period = if s.get E.STANCE = 0 then 5 else 10)

/-- The boot exchange and the image (R627 to R632): what each command leaves where its condition holds. -/
def Obligations.BootExchangeMoves : Prop :=
  (∀ (s : State) (t x : Nat), (s.at t).inStep 8 = true → s.start.offer = none → s.linkUp = true →
    s.port.linkLocal = 2 → s.start.imageReqAt = some x → x ≤ (s.at t).now →
    Answers (.bootRequest t) s fun u =>
      u.start.imageReqAt = some ((s.at t).now + sec) ∧ u.start.bootSeq = s.freeVal % 2 ^ 32
        ∧ u.freeCtr = s.freeCtr + 1 ∧ u.start.step = 8) ∧
  (∀ (s : State) (t : Nat) (rx : Rx), (s.at t).inStep 8 = true → s.start.offer = none →
    (s.at t).bootMine rx 2 = true → rx.bytes.length = 56 →
    (512 ≤ field rx.bytes 16 4 → field rx.bytes 16 4 ≤ 134217728 →
      Answers (.bootOffer t rx) s fun u =>
        u.start.offer = some (rx.src, rx.sport, field rx.bytes 16 4, field rx.bytes 24 32)) ∧
    (field rx.bytes 16 4 < 512 ∨ 134217728 < field rx.bytes 16 4 →
      Answers (.bootOffer t rx) s fun u => u.start.offer = none ∧ u.start.refused = true ∧ u.start.step = 8)) ∧
  (∀ (s : State) (t : Nat) (rx : Rx) (src sport len digest : Nat) (r : BootRead),
    s.start.offer = some (src, sport, len, digest) →
    (s.start.reads.find? fun r => r.offset == field rx.bytes 16 4 && r.count == field rx.bytes 20 2) = some r →
    (s.at t).inStep 8 = true → (s.at t).bootMine rx 4 = true → rx.bytes.length = 24 + r.count →
    len ≤ s.start.nextOff →
    ((s.start.reads.filter fun x => x.offset != r.offset) ≠ [] →
      Answers (.bootData t rx) s fun u =>
        u.start.reads = (s.start.reads.filter fun x => x.offset != r.offset)
          ∧ u.start.stagedParts = s.start.stagedParts.set r.offset (rx.bytes.drop 24) ∧ u.start.step = 8) ∧
    ((s.start.reads.filter fun x => x.offset != r.offset) = [] →
      Answers (.bootData t rx) s fun u =>
        u.start.image = (s.start.stagedParts.set r.offset (rx.bytes.drop 24)).flatMap Prod.snd ∧ u.start.step = 9)) ∧
  (∀ (s : State) (t offset : Nat) (r : BootRead), (s.start.reads.find? fun r => r.offset == offset) = some r →
    (s.at t).inStep 8 = true → r.sentAt + 50 * ms ≤ (s.at t).now →
    (r.sends < 8 → Answers (.bootReadTimeout t offset) s fun u =>
      u.start.reads = s.start.reads.map fun x =>
        if x.offset = offset then { r with sends := r.sends + 1, sentAt := (s.at t).now } else x) ∧
    (8 ≤ r.sends → Answers (.bootReadTimeout t offset) s fun u =>
      u.start.offer = none ∧ u.start.reads = [] ∧ u.start.attempt = satBytes 2 (s.start.attempt + 1)
        ∧ u.start.imageReqAt = some ((s.at t).now + sec))) ∧
  (∀ (s : State) (t src sport len digest : Nat), (s.at t).inStep 9 = true →
    s.start.offer = some (src, sport, len, digest) →
    Answers (.imageCheck t) s fun u =>
      (s.imageCause s.start.image len digest = 0 → u.start.step = if s.start.result11 then 11 else 10) ∧
      (s.imageCause s.start.image len digest ≠ 0 →
        u.start.step = 8 ∧ u.start.offer = none ∧ u.start.refused = true)) ∧
  (∀ (s : State) (t : Nat) (iocOk : Bool), (s.at t).inStep 11 = true →
    Answers (.firmwareStart t iocOk) s fun u =>
      (s.rowProgramOk s.start.image = true ∧ iocOk = true → u.start.step = 12 ∧ u.get E.START_STAGE = 12) ∧
      (s.rowProgramOk s.start.image = false ∨ iocOk = false →
        u.start.step = 8 ∧ u.start.offer = none ∧ u.start.refused = true))

/-- The wheel's start, its mains cycles and its boundaries (R42, R45 to R48, R51, R53, R54, R56, R624): what each command
leaves where its condition holds. -/
def Obligations.WheelMoves : Prop :=
  (∀ (s z : State) (t x : Nat), z = s.at t → z.inStep 12 = true → z.wheel.waitFrom = none →
    z.wheel.startAt = some x → x ≤ z.now →
    Answers (.wheelStep t) s fun u =>
      u.wheel.waitFrom = some z.now ∧ u.wheel.startAt = none ∧ u.wheel.originS = z.get E.PTP_ORIGIN_S) ∧
  (∀ (s z : State) (t f : Nat), z = s.at t → z.wheel.waitFrom = some f → z.halfTurnsPassed f 4 = true →
    Answers (.wheelStartTimeout t) s fun u =>
      u.wheel.tick = 0 ∧ u.wheel.turn = 0 ∧ u.wheel.tickStart = z.now ∧ u.wheel.waitFrom = none
        ∧ (z.start.step = 12 → u.start.step = 13)) ∧
  (∀ (s z : State) (t phase : Nat), z = s.at t →
    Answers (.mainsCycle t phase) s (fun u =>
      u.wheel.cross = modAt z.wheel.cross phase (fun _ => some z.now)
        ∧ (phase ≠ z.get E.WHEEL_REF_PHASE → u.regs = z.regs))) ∧
  (∀ (s z : State) (t : Nat), z = s.at t → z.get E.WHEEL_STATE ≠ 0 → z.wheel.absentSeen = false →
    z.halfTurnsPassed ((nth z.wheel.cross (z.get E.WHEEL_REF_PHASE) none).getD z.wheel.origin) 3 = true →
    Answers (.mainsAbsent t) s fun u =>
      u.wheel.absentSeen = true ∧ u.wheel.validRun = 0
        ∧ (z.get E.WHEEL_STATE = 1 ∨ z.get E.WHEEL_STATE = 3 → u.get E.WHEEL_STATE = 2)) ∧
  (∀ (s z : State) (t : Nat), z = s.at t → z.get E.WHEEL_STATE = 2 → z.get E.HOLDOVER_LIMIT ≠ 0 →
    z.wheel.longDone = false → z.wheel.holdFrom + z.get E.HOLDOVER_LIMIT * sec ≤ z.now →
    Answers (.holdoverLong t) s fun u =>
      u.wheel.longDone = true ∧ u.get E.WHEEL_LATCHES = setBit (z.get E.WHEEL_LATCHES) 1) ∧
  (∀ (s z : State) (t : Nat) (x : TickIn), z = s.at t → z.get E.WHEEL_STATE ≠ 0 → z.elec.power = 1 →
    z.wheel.tickStart + z.wheel.tickLen ≤ z.now →
    Answers (.tickBoundary t x) s fun u => u.wheel.tick = z.wheel.tick + 1) ∧
  (∀ (s z : State) (t : Nat) (x : TurnIn), z = s.at t → z.get E.WHEEL_STATE ≠ 0 → z.elec.power = 1 →
    z.wheel.idx = 0 → z.wheel.turnDone = false →
    Answers (.turnBoundary t x) s fun u => u.wheel.turnDone = true)

/-- The wheel's notices and PTP (R50, R60, R62, R65): what each command leaves where its condition holds and class 1 has
room. -/
def Obligations.NoticesAndPtpLeave : Prop :=
  (∀ (s z : State) (t : Nat), z = s.at t → z.get E.WHEEL_STATE ≠ 0 → z.wheel.idx = z.ticksPerTurn / 2 →
    z.wheel.noticeTurn ≠ some (z.turn + 1) →
    Answers (.wheelNotice t) s fun u =>
      u.wheel.noticeTurn = some (z.turn + 1) ∧ u.wheel.noticeTick = z.tick ∧ u.wheel.noticeRepeated = false
        ∧ u.wheel.nextLen = some z.nextTickLen.1) ∧
  (∀ (s z : State) (t : Nat), z = s.at t → z.get E.WHEEL_STATE ≠ 0 → z.wheel.noticeRepeated = false →
    z.wheel.noticeTick + 8 ≤ z.tick → z.linkUp = true →
    sumOf Dgram.size (z.port.egress.filter fun x => x.cls == 1) + (z.wheel.notice.length + 48) ≤ 8388608 →
    Answers (.wheelNoticeRepeat t) s fun u =>
      u.wheel.noticeRepeated = true
        ∧ ∃ d, u.port.egress = z.port.egress ++ [d] ∧ d.cls = 1 ∧ d.bytes = z.wheel.notice) ∧
  (∀ (s z : State) (t : Nat), z = s.at t → z.get E.WHEEL_STATE ≠ 0 → z.wheel.syncNext ≤ z.wheel.tickStart →
    z.linkUp = true → sumOf Dgram.size (z.port.egress.filter fun x => x.cls == 1) + 92 ≤ 8388608 →
    Answers (.ptpSync t) s fun u =>
      u.wheel.ptpSeq = modAt z.wheel.ptpSeq 0 (fun x => (x + 1) % 65536)
        ∧ ∃ d, u.port.egress = z.port.egress ++ [d] ∧ d.cls = 1 ∧ d.dport = 319 ∧ d.tag = 6 ∧ d.bytes.length = 44) ∧
  (∀ (s z : State) (t : Nat), z = s.at t → z.get E.WHEEL_STATE ≠ 0 → z.wheel.announceNext ≤ z.now →
    z.linkUp = true → sumOf Dgram.size (z.port.egress.filter fun x => x.cls == 1) + 112 ≤ 8388608 →
    Answers (.ptpAnnounce t) s fun u =>
      u.wheel.ptpSeq = modAt z.wheel.ptpSeq 1 (fun x => (x + 1) % 65536)
        ∧ ∃ d, u.port.egress = z.port.egress ++ [d] ∧ d.cls = 1 ∧ d.dport = 320 ∧ d.bytes.length = 64) ∧
  (∀ (s z : State) (t : Nat) (rx : Rx), z = s.at t → z.get E.WHEEL_STATE ≠ 0 → rx.dport = 319 →
    44 ≤ rx.bytes.length → field rx.bytes 0 1 % 16 = 1 → field rx.bytes 1 1 % 16 = 2 →
    field rx.bytes 4 1 = z.eff E.PTP_DOMAIN → z.linkUp = true →
    sumOf Dgram.size (z.port.egress.filter fun x => x.cls == 1) + 102 ≤ 8388608 →
    Answers (.ptpDelayReq t rx) s fun u =>
      ∃ d, u.port.egress = z.port.egress ++ [d] ∧ d.cls = 1 ∧ d.dport = 320 ∧ d.bytes.length = 54)

/-- The link's bring-up (R80, R97, R98): what each step's command leaves where the step is in progress and in time. -/
def Obligations.LinkComesUp : Prop :=
  (∀ (s z : State) (t : Nat) (c : Cage), z = s.at t → z.portIn 1 = true →
    (c.present = false → Answers (.cageCheck t c) s fun u => u.get E.PORT_MEDIA = 0 ∧ u.get E.LINK_STATE = 0) ∧
    (c.present = true → c.media < 4 → c.media ≠ 0 → c.watts ≤ 33 →
      Answers (.cageCheck t c) s fun u =>
        u.get E.PORT_MEDIA = c.media ∧ u.get E.LINK_STATE = 1 ∧ u.port.step = 2 ∧ u.port.stepFrom = z.now
          ∧ u.port.powerUpMax = min c.powerUpMs 3000 * ms) ∧
    (c.present = true → 4 ≤ c.media ∨ c.media = 0 ∨ 33 < c.watts →
      Answers (.cageCheck t c) s fun u =>
        u.get E.PORT_MEDIA = 4 ∧ u.get E.LINK_STATE = 0 ∧ u.port.step = 0 ∧ u.port.recheckFrom = some z.now)) ∧
  (∀ (s z : State) (t f : Nat) (c : Cage), z = s.at t → z.port.recheckFrom = some f → f + 10 * sec ≤ z.now →
    c.present = true → c.media < 4 → c.media ≠ 0 → c.watts ≤ 33 →
    Answers (.cageRecheck t c) s fun u =>
      u.get E.PORT_MEDIA = c.media ∧ u.get E.LINK_STATE = 1 ∧ u.port.step = 2 ∧ u.port.recheckFrom = none) ∧
  (∀ (s z : State) (t : Nat), z = s.at t → z.portIn 2 = true →
    Answers (.opticalModulePowerUp t true) s fun u =>
      u.port.step = (if z.get E.PORT_MEDIA = 3 then 3 else 4) ∧ u.port.stepFrom = z.now ∧ u.regs = z.regs) ∧
  (∀ (s z : State) (t : Nat), z = s.at t → z.portIn 3 = true →
    Answers (.autoNegotiation t true) s fun u => u.port.step = 4 ∧ u.port.stepFrom = z.now ∧ u.regs = z.regs) ∧
  (∀ (s z : State) (t : Nat), z = s.at t → z.portIn 4 = true →
    Answers (.linkTraining t true) s fun u => u.port.step = 5 ∧ u.port.stepFrom = z.now ∧ u.regs = z.regs) ∧
  (∀ (s z : State) (t : Nat), z = s.at t → z.portIn 5 = true →
    Answers (.pcsAlignment t true) s fun u =>
      u.port.step = 6 ∧ u.port.stepFrom = z.now ∧ u.port.lastUncorr = none ∧ u.regs = z.regs) ∧
  (∀ (s z : State) (t : Nat), z = s.at t → z.port.step = 6 → z.port.lastUncorr = none → z.elec.power = 1 →
    z.port.stepFrom + 10 * ms ≤ z.now →
    Answers (.linkHoldUp t) s fun u =>
      u.port.step = 7 ∧ u.port.attempt = 0 ∧ u.get E.LINK_STATE = 2 ∧ u.get E.PORT_LANE_MAP = z.port.map
        ∧ u.start.diary.cameUp = true ∧ u.start.diary.laneMap = z.port.map)

/-- The link's failures, its loss and its traffic (R81, R82, R87, R89, R94, R96, R99): what each command leaves where its
condition holds. -/
def Obligations.LinkFailsAndCarries : Prop :=
  (∀ (s z : State) (t : Nat), z = s.at t → 1 ≤ z.port.step → z.port.step ≤ 6 → z.elec.power = 1 →
    (z.port.diaryMap = none → z.port.attempt < 4 →
      Answers (.linkAttemptFail t true) s fun u =>
        u.port.attempt = z.port.attempt + 1 ∧ u.port.step = 1 ∧ u.get E.LINK_STATE = 1
          ∧ u.get E.PORT_LANE_MAP = mapOf (z.port.attempt + 1)) ∧
    (z.port.diaryMap = none → 4 ≤ z.port.attempt →
      Answers (.linkAttemptFail t true) s fun u =>
        u.port.attempt = 0 ∧ u.port.roundWait = some z.now ∧ u.port.step = 0 ∧ u.get E.LINK_STATE = 0)) ∧
  (∀ (s z : State) (t f : Nat), z = s.at t → z.port.roundWait = some f → f + 10 * sec ≤ z.now →
    Answers (.laneMapRoundWait t) s fun u =>
      u.port.roundWait = none ∧ u.port.attempt = 0 ∧ u.port.step = 1 ∧ u.get E.LINK_STATE = 1) ∧
  (∀ (s z : State) (t cause : Nat), z = s.at t → z.linkUp = true → z.elec.power = 1 →
    Answers (.linkDown t cause) s fun u =>
      u.port.step = 1 ∧ u.port.egress = [] ∧ u.port.sending = false ∧ u.desk.class0 = [] ∧ u.desk.rowOut = []
        ∧ u.desk.class2 = [] ∧ u.get E.LINK_STATE = 1
        ∧ u.get E.LINK_DOWNS = (z.get E.LINK_DOWNS + 1) % 2 ^ 64) ∧
  (∀ (s z : State) (t : Nat), z = s.at t → z.linkUp = true → z.elec.power = 1 → z.port.sending = false →
    z.get E.WHEEL_STATE = 0 ∨ z.port.upTick < z.tick →
    Answers (.sendResume t) s fun u => u.port.sending = true ∧ u.port.step = 7) ∧
  (∀ (s z : State) (t : Nat) (f : Frame), z = s.at t → z.linkUp = true → z.elec.power = 1 → f.uncorrectable = false →
    (z.frameFault f = 0 → z.fwRuns = true → f.nextHeader = 17 →
      Answers (.frameReceive t f) s fun u =>
        u.port.ingress = z.port.ingress ++ [f.rx] ∧ u.get E.RX_FRAMES = (z.get E.RX_FRAMES + 1) % 2 ^ 64
          ∧ u.get E.RX_BYTES = (z.get E.RX_BYTES + f.len) % 2 ^ 64) ∧
    (∀ k, z.frameFault f = k + 1 →
      Answers (.frameReceive t f) s fun u =>
        u.port = z.port ∧ u.get (dropCounter (k + 1)) = (z.get (dropCounter (k + 1)) + 1) % 2 ^ 64)) ∧
  (∀ (s z : State) (t : Nat) (d : Dgram), z = s.at t → z.linkUp = true → z.port.sending = true → z.elec.power = 1 →
    z.port.cageFreeAt ≤ z.now → z.nextOut = some d → d.tag ≠ 6 →
    Answers (.egressServe t) s fun u =>
      u.port.egress = z.port.egress.erase d
        ∧ u.port.lastSent = some { d with dscp := z.classDscp E.DSCP_GUARD d.cls }
        ∧ u.port.cageFreeAt = z.now + (d.frame + 20) * 5
        ∧ u.get E.TX_FRAMES = (z.get E.TX_FRAMES + 1) % 2 ^ 64
        ∧ u.get E.TX_BYTES = (z.get E.TX_BYTES + d.frame) % 2 ^ 64)

/-- The module's addresses (R83 to R86): what each command leaves where its condition holds. -/
def Obligations.AddressesForm : Prop :=
  (∀ (s z : State) (t : Nat), z = s.at t → z.linkUp = true →
    (z.port.linkLocal = 1 → Answers (.duplicateAddressDetection t true false) s fun u =>
      u.port.linkLocal = 3 ∧ u.port.dadFailAt = z.now) ∧
    (z.port.linkLocal = 1 → z.port.unicast ≠ 2 →
      Answers (.duplicateAddressDetection t true true) s fun u =>
        u.port.linkLocal = 2 ∧ u.get E.PORT_ADDR_ACTIVE = z.linkLocalAddr) ∧
    (z.port.unicast = 1 → Answers (.duplicateAddressDetection t false false) s fun u =>
      u.port.unicast = 3 ∧ u.get E.PORT_ADDR_ACTIVE = z.linkLocalAddr)) ∧
  (∀ (s z : State) (t : Nat), z = s.at t → z.linkUp = true → z.port.linkLocal = 3 →
    z.port.dadFailAt + 10 * sec ≤ z.now →
    (z.port.egress.filter fun x => x.cls == 4).length < 256 →
    Answers (.dadRetry t) s fun u =>
      u.port.linkLocal = 1 ∧ ∃ d, u.port.egress = z.port.egress ++ [d] ∧ d.tag = 7 ∧ d.dst = solicited z.linkLocalAddr) ∧
  (∀ (s z : State) (t pfx : Nat), z = s.at t → z.linkUp = true → z.eff E.PORT_ADDR_MODE = 1 →
    z.port.prefix64 = none → z.port.linkLocal = 2 →
    Answers (.routerAdvertisement t pfx 64 true) s fun u => u.port.prefix64 = some pfx ∧ u.port.unicast = 1) ∧
  (∀ (s z : State) (t src target : Nat), z = s.at t → z.linkUp = true → target ∈ z.myAddrs →
    (z.port.egress.filter fun x => x.cls == 4).length < 256 →
    Answers (.neighbourSolicitation t src target) s fun u =>
      ∃ d, u.port.egress = z.port.egress ++ [d] ∧ d.tag = 7 ∧ d.proto = 58
        ∧ d.dst = (if src = 0 then 0xFF02 * 2 ^ 112 + 1 else src)) ∧
  (∀ (s z : State) (t src dst : Nat) (body : Bytes), z = s.at t → z.linkUp = true → dst ∈ z.myAddrs →
    (z.port.egress.filter fun x => x.cls == 4).length < 256 →
    (z.now < z.port.echoFrom + sec → z.port.echoCount < 100 →
      Answers (.echoRequest t src dst body) s fun u =>
        u.port.echoCount = z.port.echoCount + 1
          ∧ ∃ d, u.port.egress = z.port.egress ++ [d] ∧ d.dst = src ∧ d.bytes = icmp6 dst src 129 body) ∧
    (z.now < z.port.echoFrom + sec → 100 ≤ z.port.echoCount →
      Answers (.echoRequest t src dst body) s fun u => u = z))

/-- Single transactions of the dictionary (R9 to R11, R106, R110, R111, R134): what each command leaves once its request has
passed the checks of `screen`, or where its moment has come. -/
def Obligations.TransactionsServe : Prop :=
  (∀ (s a : State) (t w : Nat) (rx : Rx) (live : Bool) (r : Row),
    (s.at t).screen rx readService = .run live a → (Req.parse rx).entry = some (r, w) → ReplyRoom a →
    Answers (.read t rx) s fun u =>
      u.regs = a.regs ∧ ∃ d, u.port.egress = a.port.egress ++ [d] ∧ d.dst = rx.src ∧ d.dport = rx.sport
        ∧ d.bytes = replyBytes (Req.parse rx).op (Req.parse rx).seq 0 (a.okAns (Req.parse rx)
            (slice (Req.parse rx).body 0 3 ++ beBytes 1 r.ty.code ++ a.readBytes r w (Req.parse rx).sub))) ∧
  (∀ (s a : State) (t w k : Nat) (rx : Rx) (live : Bool) (r : Row),
    (s.at t).screen rx plainWriteService = .run live a → (Req.parse rx).entry = some (r, w) →
    k = (Req.parse rx).sub - r.ent.key % 256 → deferKind r.ent = none → r.ent.key + k + 256 * w ∉ countKeys →
    r.ent.key + k + 256 * w ≠ E.DIE_CEILING_EFFECTIVE.key → r.ent.key + k + 256 * w ≠ E.ADMIT_LIMIT.key →
    r.ent.key + k + 256 * w ≠ E.PHASE_VALID.key + 256 * w →
    Answers (.write t rx) s fun u =>
      u.getU ⟨r.ent.key + k, r.ent.dflt⟩ w = storedValue r.ent (beNat (Req.parse rx).value)) ∧
  (∀ (s a : State) (t w k : Nat) (rx : Rx) (live : Bool) (r : Row),
    (s.at t).screen rx latchClearService = .run live a → (Req.parse rx).entry = some (r, w) →
    k = (Req.parse rx).sub - r.ent.key % 256 → r.ent.key + k + 256 * w ∉ countKeys →
    Answers (.latchClear t rx) s fun u =>
      u.getU ⟨r.ent.key + k, r.ent.dflt⟩ w = w1c (a.getU ⟨r.ent.key + k, r.ent.dflt⟩ w)
        (a.clearable r.ent (r.ent.key + k + 256 * w) (beNat (Req.parse rx).value))) ∧
  (∀ (s z : State) (t : Nat) (rx : Rx) (q : Req), z = s.at t → q = Req.parse rx → z.fwRuns = true →
    rx.dport = z.eff E.UDP_PORT_DICT → 16 ≤ rx.bytes.length → q.op = 0 ∨ 9 < q.op → q.version = 1 → q.session = 0 →
    q.tagged = false → q.length = q.body.length → (z.dict.cache.find? fun c => c.keyIs q) = none → ReplyRoom z →
    Answers (.unknownOp t rx) s fun u =>
      u.get E.DICT_REFUSED = (z.get E.DICT_REFUSED + 1) % 2 ^ 64
        ∧ ∃ d, u.port.egress = z.port.egress ++ [d]
            ∧ d.bytes = replyBytes q.op q.seq 0 { status := St.unknownOp, session := 0 }) ∧
  (∀ (s z : State) (t key old kind due : Nat), z = s.at t → z.dict.held.get key = some (old, kind, due) →
    kind ≤ 1 → z.get E.WHEEL_STATE ≠ 0 → due ≤ (if kind = 0 then z.tick else z.turn) →
    Answers (.deferredWriteApply t key) s fun u => u.dict.held = z.dict.held.erase key) ∧
  (∀ (s z : State) (t : Nat), z = s.at t →
    Answers (.replyCacheExpiry t) s fun u =>
      ∀ c, c ∈ u.dict.cache ↔ c ∈ z.dict.cache ∧ (c.reply = none ∨ z.now < c.at_ + 2 * sec))

/-- Bulk transactions and subscriptions (R114 to R118, R122 to R125): what each command leaves once its request has passed
the checks, or where its condition holds. -/
def Obligations.BulkAndSubscriptionsServe : Prop :=
  (∀ (s a : State) (t : Nat) (rx : Rx) (live : Bool), (s.at t).screen rx readBulkService = .run live a →
    Answers (.readBulk t rx) s fun u =>
      u.regs = a.regs ∧ ∃ k, u.dict.bulks = a.dict.bulks ++ [k] ∧ k.src = rx.src ∧ k.sport = rx.sport
        ∧ k.seq = (Req.parse rx).seq ∧ k.table = (Req.parse rx).table ∧ k.next = (Req.parse rx).first) ∧
  (∀ (s z : State) (t id : Nat) (k : Bulk) (body : Bytes) (rest : Option Bulk), z = s.at t →
    (z.dict.bulks.find? fun k => k.id == id) = some k → z.sessionLives k.session = true →
    z.fragment (z.skipOld k) = (body, rest) → z.fwRuns = true → z.atTickEnd = true → z.linkUp = true →
    (z.port.egress.filter fun x => x.cls == (if inClass5 k.table then 5 else 4)).length < 256 →
    Answers (.bulkFragment t id) s fun u =>
      u.dict.bulks = (z.dict.bulks.filterMap fun x => if x.id = id then rest else some x)
        ∧ ∃ d, u.port.egress = z.port.egress ++ [d] ∧ d.dst = k.src ∧ d.dport = k.sport
            ∧ d.bytes = replyBytes 3 k.seq (if rest.isSome then 2 else 0)
                { status := St.ok, body := body, session := k.session, key := z.keyOf k.session }) ∧
  (∀ (s a : State) (t : Nat) (rx : Rx) (live : Bool), (s.at t).screen rx writeBulkService = .run live a →
    Answers (.writeBulk t rx) s fun u =>
      u.regs = a.regs ∧ ∃ w, u.dict.bulkWrites = a.dict.bulkWrites ++ [w] ∧ w.src = rx.src ∧ w.first = (Req.parse rx).first
        ∧ w.count = (Req.parse rx).count ∧ w.rows = (Req.parse rx).body.drop 12
        ∧ w.due = (if a.get E.WHEEL_STATE = 0 then 0 else a.tick + 1)) ∧
  (∀ (s z : State) (t : Nat) (w : BulkWrite), z = s.at t → z.fwRuns = true → z.get E.WHEEL_STATE ≠ 0 →
    z.dict.bulkWrites = [w] → w.due ≤ z.tick → w.count = 1 →
    Answers (.writeBulkApply t) s fun u =>
      u.dict.bulkWrites = [] ∧ u.guests = z.guests.adjust w.first fun g =>
        { g with weight := field (slice w.rows 0 4) 0 2, operMax := field (slice w.rows 0 4) 2 2 }) ∧
  (∀ (s a : State) (t : Nat) (rx : Rx) (live : Bool) (q : Req), q = Req.parse rx →
    (s.at t).screen rx subscribeService = .run live a →
    (field q.body 2 2 ≠ 0 → Answers (.subscribe t rx) s fun u =>
      ∃ x, u.dict.subs = (a.dict.subs.filter fun y => !y.is rx.src rx.sport (field q.body 0 1)) ++ [x]
        ∧ x.period = field q.body 2 2 ∧ x.entries = q.subEntries ∧ x.renewed = a.now ∧ x.session = q.session) ∧
    (field q.body 2 2 = 0 → Answers (.subscribe t rx) s fun u =>
      u.dict.subs = a.dict.subs.filter fun y => !y.is rx.src rx.sport (field q.body 0 1))) ∧
  (∀ (s z : State) (t src sport id : Nat) (x : Subscription), z = s.at t →
    (z.dict.subs.find? fun x => x.is src sport id) = some x → z.fwRuns = true → ReplyRoom z →
    z.get E.WHEEL_STATE ≠ 0 → z.wheel.idx = 0 → z.turn % max 1 x.period = 0 → x.pushed ≠ z.turn →
    Answers (.subscriptionPush t src sport id) s fun u =>
      u.dict.subs = (z.dict.subs.map fun y => if y.is src sport id then { y with pushed := z.turn } else y)
        ∧ ∃ d, u.port.egress = z.port.egress ++ [d] ∧ d.dst = src ∧ d.dport = sport) ∧
  (∀ (s z : State) (t src sport id : Nat) (x : Subscription), z = s.at t →
    (z.dict.subs.find? fun x => x.is src sport id) = some x → z.fwRuns = true → z.get E.SUB_LEASE ≠ 0 →
    x.renewed + z.get E.SUB_LEASE * sec ≤ z.now →
    Answers (.subscriptionLapse t src sport id) s fun u =>
      u.regs = z.regs ∧ u.dict.subs = z.dict.subs.filter fun y => !y.is src sport id)

/-- Keyed sessions and the keyring (R126 to R132, R633): what each command leaves once its request has passed the checks, or
where its condition holds. -/
def Obligations.SessionsAndKeysServe : Prop :=
  (∀ (s a : State) (t : Nat) (rx : Rx) (live : Bool), (s.at t).screen rx openService = .run live a →
    Answers (.openSession t rx) s fun u =>
      u.freeCtr = a.freeCtr + 4 ∧ ∃ x, u.dict.sessions = a.dict.sessions ++ [x] ∧ x.isOpen = false
        ∧ x.keyId = field (Req.parse rx).body 0 1 ∧ x.since = a.now ∧ x.lastSeq = none) ∧
  (∀ (s a : State) (t : Nat) (rx : Rx) (live : Bool) (q : Req) (x : Session), q = Req.parse rx →
    (s.at t).screen rx proveService = .run live a → a.session q.session = some x →
    Answers (.prove t rx) s fun u =>
      (Config.sm2Verify x.transcript q.body (beBytes 64 (a.getU E.KEY_PUBLIC x.keyId)) = true →
        u.dict.sessions = a.dict.sessions.map fun y =>
          if y.id = x.id then { y with isOpen := true, since := a.now } else y) ∧
      (Config.sm2Verify x.transcript q.body (beBytes 64 (a.getU E.KEY_PUBLIC x.keyId)) = false →
        u.dict.sessions = a.dict.sessions.filter fun y => y.id != x.id)) ∧
  (∀ (s z : State) (t id : Nat) (x : Session), z = s.at t → z.session id = some x → z.fwRuns = true →
    x.isOpen = false → x.since + 5 * sec ≤ z.now →
    Answers (.proveTimeout t id) s fun u =>
      u.dict.sessions = (z.dict.sessions.filter fun y => y.id != id)
        ∧ u.dict.subs = z.dict.subs.filter fun y => y.session != id) ∧
  (∀ (s a : State) (t : Nat) (rx : Rx) (live : Bool), (s.at t).screen rx closeService = .run live a →
    Answers (.close t rx) s fun u =>
      u.dict.sessions = (a.dict.sessions.filter fun y => y.id != (Req.parse rx).session)
        ∧ u.dict.subs = a.dict.subs.filter fun y => y.session != (Req.parse rx).session) ∧
  (∀ (s z : State) (t id : Nat) (x : Session), z = s.at t → z.session id = some x → z.fwRuns = true →
    x.isOpen = true → x.since + z.get E.SESSION_IDLE * sec ≤ z.now →
    Answers (.sessionIdleTimeout t id) s fun u =>
      u.dict.sessions = (z.dict.sessions.filter fun y => y.id != id)
        ∧ u.dict.subs = z.dict.subs.filter fun y => y.session != id) ∧
  (∀ (s a : State) (t k : Nat) (rx : Rx) (live : Bool), (s.at t).screen rx keyEnrolService = .run live a →
    k = field (Req.parse rx).value 0 1 → k < 8 →
    Answers (.keyEnrol t rx) s fun u =>
      u.getU E.KEY_STATE k = 1 ∧ u.getU E.KEY_PUBLIC k = field (Req.parse rx).value 4 64) ∧
  (∀ (s a : State) (t k : Nat) (rx : Rx) (live : Bool), (s.at t).screen rx keyRevokeService = .run live a →
    k = field (Req.parse rx).value 0 1 → k < 8 →
    Answers (.keyRevoke t rx) s fun u =>
      u.getU E.KEY_STATE k = 2 ∧ ∀ x ∈ u.dict.sessions, x.keyId ≠ k)

/-- The desk's requests (R147 to R156, R177, R178, R194): what each command leaves where its condition holds. -/
def Obligations.DeskServes : Prop :=
  (∀ (s z : State) (t : Nat) (rx : Rx), z = s.at t → z.deskMine rx 1 = true → 32 ≤ rx.bytes.length →
    rx.dport = z.eff E.UDP_PORT_TELEMETRY → z.desk.checkIns.length < 8192 →
    Answers (.checkInRequest t rx) s fun u => u.regs = z.regs ∧ u.desk.checkIns = z.desk.checkIns ++ [{ rx := rx }]) ∧
  (∀ (s z : State) (t slot : Nat) (c : CheckIn) (rest : List CheckIn) (p : Passport), z = s.at t → z.fwRuns = true →
    z.desk.servedTick ≠ z.tick ∨ z.desk.served < 2048 → z.desk.checkIns = c :: rest →
    p = Passport.read c.rx.bytes → z.get E.DESK_OPEN ≠ 0 → field c.rx.bytes 0 1 = 1 → z.passportFault c.rx.bytes = 0 →
    z.getU E.CLASS_STATE p.cls ≠ 0 → z.getU E.BR_ENABLE p.branch ≠ 0 → z.byId p.id = none →
    lowestFree z.guests 0 = some slot → z.get E.DESK_PRESENT + z.get E.DESK_RESERVED < z.get E.ADMIT_LIMIT →
    Answers (.checkInServe t) s fun u => Holds u slot fun g =>
      g.present = true ∧ g.pp = p ∧ g.src = c.rx.src ∧ g.sport = c.rx.sport ∧ g.servedAt = z.now
        ∧ g.firstTick = z.tick + 2 ∧ g.joinTick = z.tick + 2) ∧
  (∀ (s z : State) (t : Nat) (c : CheckIn) (rest : List CheckIn), z = s.at t → z.fwRuns = true →
    z.desk.servedTick ≠ z.tick ∨ z.desk.served < 2048 → z.desk.checkIns = c :: rest → z.get E.DESK_OPEN = 0 →
    Answers (.checkInServe t) s fun u => u.guests = z.guests ∧ u.desk.checkIns = rest) ∧
  (∀ (s z : State) (t slot due : Nat) (g : Guest) (p : Passport), z = s.at t → z.guest slot = some g →
    g.newPp = some (p, due) → due ≤ z.tick →
    Answers (.passportTakeForce t slot) s fun u => Holds u slot fun g =>
      g.present = true ∧ g.pp = p ∧ g.newPp = none ∧ g.quarantine = 0 ∧ g.pairs = []) ∧
  (∀ (s z : State) (t slot due : Nat) (g : Guest), z = s.at t → z.presentGuest slot = some g →
    g.rejoinResend = some due → due ≤ z.tick →
    Answers (.rejoinCutResend t slot) s fun u => Holds u slot fun g => g.rejoinResend = none) ∧
  (∀ (s z : State) (t slot : Nat) (rx : Rx) (g : Guest), z = s.at t → z.deskMine rx 3 = true → rx.bytes.length = 32 →
    rx.dport = z.eff E.UDP_PORT_TELEMETRY → field rx.bytes 0 1 = 1 → slot = field rx.bytes 8 4 →
    z.guest slot = some g → g.pp.id = field rx.bytes 16 16 →
    Answers (.checkOutRequest t rx) s fun u =>
      u.get E.CHECKOUTS = (z.get E.CHECKOUTS + 1) % 2 ^ 64 ∧ Holds u slot fun g => g.freeDue = some (z.tick + 1)) ∧
  (∀ (s z : State) (t slot due : Nat) (g : Guest), z = s.at t → z.guest slot = some g → g.freeDue = some due →
    due ≤ z.tick →
    Answers (.checkOutFree t slot) s fun u => u.guest slot = none) ∧
  (∀ (s z : State) (t c : Nat) (rest : List Nat), z = s.at t → z.get E.MODEL_CEILINGS = 1 → z.wheel.idx = 0 →
    z.desk.lifted = [] ∨ z.desk.lastLift + z.eff E.LIFT_GAP_TURNS ≤ z.turn →
    ((List.range 256).filter fun c => (z.desk.lifted.get c).isNone && z.presents.any fun p =>
      p.2.pp.cls == c && decide (p.2.becamePresent ≤ z.tick - z.wheel.idx)) = c :: rest →
    Answers (.classLift t) s fun u =>
      u.desk.lifted = z.desk.lifted.set c z.tick ∧ u.desk.lastLift = z.turn ∧ u.guests = z.guests)

/-- Ingest (R163, R182 to R186, R191, R192, R212): what each command leaves where its condition holds. -/
def Obligations.IngestMoves : Prop :=
  (∀ (s y : State) (t i : Nat) (rx : Rx) (rs : List TRec), y = (s.at t).take rx → y.fwRuns = true →
    y.deskDrop rx = none → field rx.bytes 0 1 = 1 → bundleRecords rx.bytes = some rs →
    y.desk.pickLane (min 16 (y.get E.LANES_ACTIVE)) = some i →
    sumOf LaneRec.size (nth y.desk.lanes i {}).queue + sumOf LaneRec.size (laneRecords rx (field rx.bytes 8 8) y.tick
      (y.fracAt y.now) (y.countingTick y.now) (y.markRecords rs [])) ≤ 1048576 →
    Answers (.telemetryBundle t rx) s fun u =>
      u.desk.lanes = modAt y.desk.lanes i (fun l => { l with queue := l.queue ++ (laneRecords rx (field rx.bytes 8 8) y.tick
        (y.fracAt y.now) (y.countingTick y.now) (y.markRecords rs [])) })) ∧
  (∀ (s z : State) (t lane : Nat) (l : LaneRec) (rest : List LaneRec), z = s.at t → z.fwRuns = true →
    lane < z.get E.LANES_ACTIVE → (nth z.desk.lanes lane {}).freeAt ≤ z.now →
    (nth z.desk.lanes lane {}).queue = l :: rest →
    (l.keepAlive = true → Answers (.recordParse t lane) s fun u =>
      u.get E.KEEPALIVES = (z.get E.KEEPALIVES + 1) % 2 ^ 64
        ∧ u.desk.lanes = modAt z.desk.lanes lane (fun x => { x with queue := rest, freeAt := z.now + 8000 })
        ∧ ∀ slot g, z.presentGuest slot = some g → g.src = l.src → g.sport = l.sport →
            Holds u slot fun g' => g' = { g with lastPresence := max g.lastPresence l.count }) ∧
    (l.keepAlive = false → l.bad = true → Answers (.recordParse t lane) s fun u =>
      u.get E.RECORDS_MALFORMED = (z.get E.RECORDS_MALFORMED + 1) % 2 ^ 64 ∧ u.guests = z.guests) ∧
    (∀ g, l.keepAlive = false → l.bad = false → z.presentGuest (readRecord l.raw).slot = some g → g.src = l.src →
      g.sport = l.sport → g.firstTick ≤ l.tick → l.tick ≤ l.arrTick → l.count ≤ l.tick + z.eff E.LATE_LIMIT →
      g.lastRecTick = none →
      Answers (.recordParse t lane) s fun u => Holds u (readRecord l.raw).slot fun g' =>
        g'.lastRecTick = some l.tick ∧ g'.lastSeq = some (readRecord l.raw).seq ∧ g'.lastCount = l.count
          ∧ g'.lastPresence = max g.lastPresence l.count)) ∧
  (∀ (s z : State) (t : Nat), z = s.at t → z.fwRuns = true → z.desk.counted < z.tick →
    Answers (.countingTickEnd t) s fun u => u.desk.counted = z.desk.counted + 1) ∧
  (∀ (s z : State) (t : Nat), z = s.at t → z.fwRuns = true → z.get E.SUMMARY_TICKS ≠ 0 →
    (z.desk.summaryFrom + 1) * z.get E.SUMMARY_TICKS ≤ z.desk.counted →
    Answers (.summaryStepEnd t) s fun u => u.desk.summaryFrom = z.desk.summaryFrom + 1)

/-- Stale, absent and lapsed guests (R156, R195, R196, R198, R199): what each command leaves where its condition holds. -/
def Obligations.GuestsAge : Prop :=
  (∀ (s z : State) (t slot : Nat) (g : Guest), z = s.at t → z.presentGuest slot = some g → g.stale = false →
    z.isStale g z.ended = true →
    Answers (.guestStale t slot) s fun u =>
      u.get E.STALE_ENTRIES = (z.get E.STALE_ENTRIES + 1) % 2 ^ 64 ∧ Holds u slot fun g' =>
        g'.stale = true ∧ g'.staleEpisodes = satBytes 4 (g.staleEpisodes + 1) ∧ g'.staleDue = g.lastCap.isSome
          ∧ g'.preStale = g.perGuest z.tick ∧ g'.releaseDue = none) ∧
  (∀ (s z : State) (t slot : Nat) (g : Guest), z = s.at t → z.presentGuest slot = some g → g.stale = true →
    g.staleDue = true → z.inRest = false → z.linkUp = true → z.port.sending = true →
    Answers (.staleCapSend t slot) s fun u =>
      (Holds u slot fun g' => g'.staleDue = false) ∧
        (∃ c, c ∈ u.desk.class2 ∧ c.slot = slot ∧ c.kind = 3 ∧ c.slew = 0
          ∧ c.ceiling = g.pp.bound (min g.pp.orphan (g.perGuest z.tick)) ∧ c.hold = z.eff E.CAP_HOLD_TICKS)) ∧
  (∀ (s z : State) (t slot : Nat) (g : Guest), z = s.at t → z.presentGuest slot = some g → g.stale = true →
    z.isStale g z.ended = false →
    Answers (.staleEnd t slot) s fun u => Holds u slot fun g' => g'.stale = false ∧ g'.staleDue = false) ∧
  (∀ (s z : State) (t slot : Nat) (g : Guest), z = s.at t → z.presentGuest slot = some g → g.lapseDue = none →
    z.eff E.ABSENCE_TICKS ≤ g.presenceAge z.ended →
    Answers (.absenceTimeout t slot) s fun u =>
      u.regs = z.regs ∧ Holds u slot fun g' => g' = { g with lapseDue := some (z.ended + 1) }) ∧
  (∀ (s z : State) (t slot due : Nat) (g : Guest), z = s.at t → z.presentGuest slot = some g → g.lapseDue = some due →
    due ≤ z.tick →
    Answers (.guestLapse t slot) s fun u => Holds u slot fun g' =>
      g'.present = false ∧ g'.lapseDue = none ∧ g'.stale = false ∧ g'.disobedient = false ∧ g'.cut = none
        ∧ g'.reservedTurn = z.turn ∧ g'.reservedTick = z.tick) ∧
  (∀ (s z : State) (t slot : Nat) (g : Guest), z = s.at t → z.guest slot = some g → g.present = false →
    g.newPp = none → g.reservedTurn + z.eff E.RESERVE_TURNS ≤ z.turn →
    (z.desk.class2.all fun c => c.slot != slot) = true →
    Answers (.reserveExpiry t slot) s fun u => u.guest slot = none)

/-- Disobedient guests and disagreeing pairs (R203, R204, R209): what each command leaves where its condition holds. -/
def Obligations.EchoAndPairsJudge : Prop :=
  (∀ (s z : State) (t slot x : Nat) (g : Guest), z = s.at t → z.presentGuest slot = some g →
    g.disobeyResend = some x → x ≤ z.tick →
    Answers (.disobeyResend t slot) s fun u => Holds u slot fun g' => g'.disobeyResend = none) ∧
  (∀ (s z : State) (t slot : Nat) (g : Guest), z = s.at t → z.presentGuest slot = some g → g.disobedient = false →
    z.eff E.DISOBEY_TICKS ≤ g.disobeyRun →
    Answers (.guestDisobedient t slot) s fun u =>
      u.get E.DISOBEY_EVENTS = (z.get E.DISOBEY_EVENTS + 1) % 2 ^ 64 ∧ Holds u slot fun g' =>
        g'.disobedient = true ∧ g'.disobeyEpisodes = satBytes 4 (g.disobeyEpisodes + 1)) ∧
  (∀ (s z : State) (t slot : Nat) (g : Guest), z = s.at t → z.presentGuest slot = some g → g.disobedient = true →
    z.eff E.DISOBEY_TICKS ≤ g.inBounds →
    Answers (.disobeyClear t slot) s fun u => Holds u slot fun g' => g' = { g with disobedient := false }) ∧
  (∀ (s z : State) (t slot pair : Nat) (g : Guest), z = s.at t → z.presentGuest slot = some g →
    (g.pairs.getD pair {}).isOpen = true → z.eff E.PAIR_AGREE_TICKS ≤ (g.pairs.getD pair {}).agree →
    Answers (.pairEpisodeEnd t slot pair) s fun u =>
      Holds u slot fun g' => g' = { g with pairs := g.pairs.erase pair }) ∧
  (∀ (s z : State) (t slot pair : Nat) (g : Guest) (p : PairDef) (q : PairSt), z = s.at t →
    z.presentGuest slot = some g → g.pp.pairs[pair]? = some p → q = g.pairs.getD pair {} → q.isOpen = true →
    z.eff E.PAIR_PERSIST ≠ 0 → z.eff E.PAIR_PERSIST ≤ q.ticks → q.compared ≠ q.ticks →
    ((Dy.mk p.tol (-6)).le (q.sumA.sub q.sumB) = true →
      Answers (.pairPersistReached t slot pair) s fun u =>
        u.get E.QUARANTINES = (z.get E.QUARANTINES + 1) % 2 ^ 64 ∧ Holds u slot fun g' =>
          g' = { g with quarantine := setBit g.quarantine p.a, pairs := g.pairs.erase pair }) ∧
    ((Dy.mk p.tol (-6)).le (q.sumA.sub q.sumB) = false → (Dy.mk p.tol (-6)).le (q.sumB.sub q.sumA) = true →
      Answers (.pairPersistReached t slot pair) s fun u =>
        u.get E.QUARANTINES = (z.get E.QUARANTINES + 1) % 2 ^ 64 ∧ Holds u slot fun g' =>
          g' = { g with quarantine := setBit g.quarantine p.b, pairs := g.pairs.erase pair }) ∧
    ((Dy.mk p.tol (-6)).le (q.sumA.sub q.sumB) = false → (Dy.mk p.tol (-6)).le (q.sumB.sub q.sumA) = false →
      Answers (.pairPersistReached t slot pair) s fun u => Holds u slot fun g' =>
        g' = { g with pairs := g.pairs.set pair { q with compared := q.ticks } }))

/-- Guard cuts, their release and the caps' bundles (R165 to R171, R235, R238, R239, R241, R242, R683): what each command
leaves where its condition holds. -/
def Obligations.CutsAndCapsMove : Prop :=
  (∀ (s z : State) (t n : Nat), z = s.at t → z.linkUp = true → 4 * z.desk.class0.length < z.eff E.GUARD_ROWCUT_DEPTH →
    n = 1024 - (if z.desk.requeueTick = z.tick then z.desk.requeued else 0) → 0 < n → z.desk.deferred ≠ [] →
    Answers (.deferredCutRequeue t) s fun u =>
      u.desk.class0 = ((z.desk.deferred.take n).foldl Desk.enqueue z.desk).class0
        ∧ u.desk.deferred = z.desk.deferred.drop n ∧ u.desk.requeueTick = z.tick) ∧
  (∀ (s z : State) (t scope : Nat) (r : RowSent), z = s.at t → scope < 256 → z.inRest = false → z.linkUp = true →
    z.port.sending = true → z.rowInForce scope z.tick = some r → z.tick = r.tick + r.hold - 1 →
    (z.desk.rowOut.all fun x => x.scope != scope) = true →
    (∃ slot g k, z.guests.get slot = some g ∧ (slot, g) ∈ z.guests ∧ g.present = true ∧ g.pp.cls = scope
      ∧ g.exceedTick = some k ∧ z.tick < k + z.eff E.GUARD_CLEAR_TICKS) →
    Answers (.rowCutRefresh t scope) s fun u =>
      u.desk.rowOut = z.desk.rowOut ++
        [{ scope := scope, ceiling := r.ceiling, slew := r.slew, hold := z.eff E.GUARD_ROWCUT_HOLD }]) ∧
  (∀ (s z : State) (t slot : Nat) (g : Guest) (k : Cut), z = s.at t → z.presentGuest slot = some g → g.cut = some k →
    z.inRest = false → g.stale = false → z.mayRelease k = true →
    Answers (.guardRelease t slot) s fun u =>
      u.regs = z.regs ∧ Holds u slot fun g' =>
        g' = { g with cut := none, rampFrom := some k.ceiling
                      releaseDue := some (g.releaseValue k.pre, z.eff E.GUARD_RELEASE_SLEW, true) }) ∧
  (∀ (s z : State) (t slot v slew : Nat) (g : Guest) (guard : Bool), z = s.at t → z.presentGuest slot = some g →
    g.releaseDue = some (v, slew, guard) → z.inRest = false → z.linkUp = true → z.port.sending = true →
    (g.cut.isSome = true ∨ g.stale = true → Answers (.releaseSend t slot) s fun u =>
      (Holds u slot fun g' => g' = { g with releaseDue := none }) ∧ u.desk = z.desk) ∧
    (g.cut = none → g.stale = false → Answers (.releaseSend t slot) s fun u =>
      (Holds u slot fun g' => g' = { g with releaseDue := none })
        ∧ ∃ c, c ∈ u.desk.class2 ∧ c.slot = slot ∧ c.kind = 4 ∧ c.ceiling = g.releaseValue v ∧ c.slew = slew)) ∧
  (∀ (s z : State) (t firstBit : Nat), z = s.at t → z.linkUp = true → z.port.sending = true → z.elec.power = 1 →
    z.higherWaits 0 = false → z.desk.rowOut ≠ [] →
    Answers (.capBundleBuild t 0 firstBit) s fun u =>
      u.desk.rowOut = z.desk.rowOut.drop z.bundleMax
        ∧ ∃ d, u.port.egress = z.port.egress ++ [d] ∧ d.cls = 0 ∧ d.dst = z.eff E.ROW_GROUP ∧ d.tag = 4) ∧
  (∀ (s z : State) (t firstBit : Nat) (c : CapDue) (g : Guest), z = s.at t → z.linkUp = true →
    z.port.sending = true → z.elec.power = 1 → z.higherWaits 2 = false → z.desk.class2 = [c] →
    z.guest c.slot = some g → g.sentIn z.tick = false → 0 < z.bundleMax → c.kind ≠ 4 →
    Answers (.capBundleBuild t 2 firstBit) s fun u =>
      u.desk.class2 = [] ∧ Holds u c.slot fun g' =>
        g'.lastCap = some { kind := c.kind, ceiling := c.ceiling, slew := c.slew, hold := c.hold, tick := z.tick
                            lapse := z.tick + c.hold }) ∧
  (∀ (s z : State) (t slot : Nat) (g : Guest) (r : CapRec), z = s.at t → z.presentGuest slot = some g →
    g.lastCap = some r → r.kind = 3 → g.cut = none → z.inRest = false → z.linkUp = true → z.port.sending = true →
    r.tick ≠ z.tick → r.lapse < z.periodEnd + 2 →
    Answers (.capRefresh t slot) s fun u =>
      ∃ c, c ∈ u.desk.class2 ∧ c.slot = slot ∧ c.kind = 3 ∧ c.ceiling = r.ceiling ∧ c.hold = z.eff E.CAP_HOLD_TICKS)

/-- The row program's tick and an allocation (R22, R390, R393, R396, R401, R404 to R406, R556): what each command leaves
where its condition holds. -/
def Obligations.RowProgramAllocates : Prop :=
  (∀ (s z : State) (t : Nat), z = s.at t → z.fwRuns = true → z.pastSlot 60 = true → z.row.stepDone ≠ some z.tick →
    Answers (.rowProgramStep t) s fun u =>
      u.row.stepDone = some z.tick
        ∧ u.desk.backlog = max z.desk.backlog (sumOf (fun l : Lane => l.queue.length) z.desk.lanes)) ∧
  (∀ (s z : State) (t : Nat), z = s.at t → z.fwRuns = true → z.pastSlot 85 = true → z.row.stepDone = some z.tick →
    z.row.cutoffDone ≠ some z.tick →
    Answers (.measurementCutoff t) s fun u =>
      u.row.cutoffDone = some z.tick
        ∧ u.get E.STEPS_NO_MEAS = (z.get E.STEPS_NO_MEAS + (z.stepGuests.filter fun p =>
            p.2.stepTick != some z.tick && !z.complete p.2 z.tick).length) % 2 ^ 64) ∧
  (∀ (s z : State) (t slot : Nat) (g : Guest), z = s.at t → z.presentGuest slot = some g → g.settling = true →
    g.settle = 0 → g.restartDue = false →
    Answers (.settleEnd t slot) s fun u =>
      u.regs = z.regs ∧ Holds u slot fun g' => g' = { g with settling := false }) ∧
  (∀ (s z : State) (t p : Nat), z = s.at t → z.fwRuns = true → p = max 1 z.row.period → z.row.origin ≤ z.tick →
    (z.tick - z.row.origin) % p = 0 → z.row.alloc = none → (z.releaseHeld 5).eff E.ROW_BUDGET_ENGINE = 0xFFFF →
    z.plant.capSlewed = none →
    Answers (.allocationPeriodStart t) s fun u =>
      u.row.alloc = some { t0 := z.tick, period := p, states := [] } ∧ u.plant.capDrop = 0
        ∧ u.plant.capSlewed = some (z.get E.PLANT_CAPACITY)
        ∧ u.get E.ROW_BUDGET = min ((z.releaseHeld 5).eff E.ROW_BUDGET_MAX) (z.get E.PLANT_CAPACITY)
        ∧ ∀ slot g, z.guest slot = some g → Holds u slot fun g' =>
            g' = { g with weightNow := g.weight, operMaxNow := g.operMax, pHist := [] }) ∧
  (∀ (s z : State) (t : Nat) (a : Alloc), z = s.at t → z.row.alloc = some a → z.tick + 1 = a.t0 + a.period →
    Answers (.allocationPeriodEnd t) s fun u =>
      u.row.alloc = none ∧ u.row.lastEnd = some z.tick ∧ u.row.readyFor = some (z.tick + 1)
        ∧ u.get E.ALLOC_PERIODS = (z.get E.ALLOC_PERIODS + 1) % 2 ^ 64) ∧
  (∀ (s z : State) (t slot v l e : Nat) (g : Guest) (r : CapRec), z = s.at t → z.row.readyFor = some z.tick →
    z.inRest = false → z.linkUp = true → z.port.sending = true → z.get E.MODEL_CEILINGS ≠ 0 →
    z.row.ready = [(slot, v)] → z.presentGuest slot = some g → g.stale = false → g.cut = none →
    g.lastCap = some r → r.ceiling ≠ v → z.desk.lifted.get g.pp.cls = some l → z.row.lastEnd = some e → l ≤ e →
    Answers (.allocateEgressTick t) s fun u =>
      u.row.readyFor = none ∧ u.regs = z.regs ∧ ∃ c, c ∈ u.desk.class2 ∧ c.slot = slot ∧ c.kind = 0 ∧ c.ceiling = v
        ∧ c.hold = z.eff E.CAP_HOLD_TICKS)

/-- Classes, leak suspects and period detectors (R398, R399, R414, R415): what each command leaves where its condition
holds. -/
def Obligations.ClassesLeaksPeriods : Prop :=
  (∀ (s z : State) (t cls : Nat), z = s.at t → cls < 256 → z.getU E.CLASS_STATE cls = 1 ∨ z.getU E.CLASS_STATE cls = 2 →
    Answers (.classFallback t cls) s fun u =>
      u.getU E.CLASS_STATE cls = 3 ∧ u.guests = z.guests ∧ u.row = z.row) ∧
  (∀ (s z : State) (t cls : Nat), z = s.at t → cls < 256 → z.eff E.MISS_CLEAR_TURNS ≤ z.row.clearTurns.getD cls 0 →
    Answers (.classWidenLower t cls) s fun u =>
      u.getU E.CLASS_WIDEN cls = z.getU E.CLASS_WIDEN cls - z.eff E.MISS_WIDEN_STEP
        ∧ u.row.clearTurns = z.row.clearTurns.erase cls) ∧
  (∀ (s z : State) (t branch transient : Nat), z = s.at t → branch < 40 →
    z.eff E.LEAK_PERSIST ≤ z.row.leakRun.getD branch 0 → (z.get E.LEAK_SUSPECTS).testBit branch = false →
    Answers (.leakSuspect t branch transient) s fun u =>
      u.get E.LEAK_SUSPECTS = setBit (z.get E.LEAK_SUSPECTS) branch
        ∧ u.row.leakTick = z.row.leakTick.set branch z.tick ∧ u.row.transient = z.row.transient.set branch transient
        ∧ u.row.published = z.row.published ++ [u.get E.LEAK_FIRST_BRANCH]) ∧
  (∀ (s z : State) (t n : Nat) (d : PeriodDet), z = s.at t → z.row.dets[n]? = some d →
    8 ≤ d.strong → d.publishing = false →
    Answers (.periodPublish t n) s fun u =>
      u.getU E.PD_PERIOD n = d.estimate ∧ u.row.dets[n]? = some { d with publishing := true }) ∧
  (∀ (s z : State) (t n : Nat) (d : PeriodDet), z = s.at t → z.row.dets[n]? = some d →
    8 ≤ d.weak → d.publishing = true →
    Answers (.periodWithdraw t n) s fun u =>
      u.getU E.PD_PERIOD n = 0 ∧ u.row.dets[n]? = some { d with publishing := false })

/-- Hinge tables (R375, R376, R378, R409, R410, R412, R413): what each command leaves where its condition holds. -/
def Obligations.HingesTurn : Prop :=
  (∀ (s z : State) (t slot k i : Nat) (h : Hinge), z = s.at t → i = 8 * slot + k → z.hinge slot k = some h →
    z.fwRuns = true → z.getU E.HINGE_STATE i = 1 → h.requested = true ∨ h.nextStart ≤ z.tick →
    (∀ x, (z.prog slot).step = some x → x.doneTick.isSome = true ∨ h.liveTick ≤ x.start) →
    Answers (.hingeRebuildStart t slot k) s fun u =>
      u.getU E.HINGE_STATE i = 2
        ∧ u.hinge slot k = some { h with requested := false, nextStart := z.tick + h.period }) ∧
  (∀ (s a : State) (t i : Nat) (rx : Rx) (live : Bool) (h : Hinge), (s.at t).screen rx hingeRebuildService = .run live a →
    i = (Req.parse rx).index - E.HINGE_REBUILD.key / 256 → a.hinge (i / 8) (i % 8) = some h →
    Answers (.hingeRebuild t rx) s fun u => u.hinge (i / 8) (i % 8) = some { h with requested := true }) ∧
  (∀ (s z : State) (t slot k i : Nat) (h : Hinge), z = s.at t → i = 8 * slot + k → z.hinge slot k = some h →
    z.getU E.HINGE_STATE i = 3 →
    Answers (.hingePreloadDone t slot k) s fun u =>
      u.getU E.HINGE_STATE i = 4 ∧ u.hinge slot k = some { h with swapFrom := z.tick }) ∧
  (∀ (s z : State) (t slot k : Nat) (h : Hinge), z = s.at t → z.hinge slot k = some h →
    z.getU E.HINGE_STATE (8 * slot + k) ≠ 0 → h.staleSeen = false → h.staleLimit < z.tick - h.liveTick →
    Answers (.hingeStale t slot k) s fun u => u.hinge slot k = some { h with staleSeen := true }) ∧
  (∀ (s z : State) (t k : Nat) (h : Hinge) (cs : List Nat), z = s.at t → k < 8 → z.hinge 0 k = some h →
    z.getU E.HINGE_STATE k = 2 → cs = z.refitClasses k →
    Answers (.hingeValidate t 0 k) s fun u =>
      ((cs.all fun c => z.refitSound (z.row.refits + 1) c) = true → z.freeVal % 2 = 1 → h.resident = true →
        u.getU E.HINGE_STATE k = 3 ∧ u.row.refits = z.row.refits + 1
          ∧ Option.map Hinge.swapFrom (u.hinge 0 k) = some z.tick) ∧
      ((cs.all fun c => z.refitSound (z.row.refits + 1) c) = false ∨ z.freeVal % 2 ≠ 1 →
        u.getU E.HINGE_STATE k = 1 ∧ u.get E.HINGE_FAILS_ALL = (z.get E.HINGE_FAILS_ALL + 1) % 2 ^ 64
          ∧ u.hinge 0 k = some h)) ∧
  (∀ (s z : State) (t slot k i : Nat) (h : Hinge), z = s.at t → slot ≠ 0 → i = 8 * slot + k →
    z.hinge slot k = some h → z.getU E.HINGE_STATE i = 4 → h.swapFrom < z.tick →
    Answers (.hingeSwap t slot k) s fun u =>
      u.getU E.HINGE_STATE i = 1 ∧ u.getU E.HINGE_LIVE_LEAF i = 1 - z.getU E.HINGE_LIVE_LEAF i
        ∧ u.get E.HINGE_SWAPS_ALL = (z.get E.HINGE_SWAPS_ALL + 1) % 2 ^ 64
        ∧ u.hinge slot k = some { h with liveTick := z.tick, staleSeen := false })

/-- Program uploads, the loader, installation and stopping (R358 to R361, R363, R369, R373): what each command leaves once
its request has passed the checks, or where its condition holds. -/
def Obligations.LoaderServes : Prop :=
  (∀ (s a : State) (t i : Nat) (rx : Rx) (live : Bool), (s.at t).screen rx progUploadBeginService = .run live a →
    i = (Req.parse rx).index - E.PROG_UPLOAD.key / 256 →
    Answers (.progUploadBegin t rx) s fun u =>
      (u.prog i).staging = some { length := upOffset (Req.parse rx).value, bytes := [] }) ∧
  (∀ (s a : State) (t i : Nat) (rx : Rx) (live : Bool), (s.at t).screen rx progUploadChunkService = .run live a →
    i = (Req.parse rx).index - E.PROG_UPLOAD.key / 256 →
    Answers (.progUploadChunk t rx) s fun u =>
      u.prog i = { a.prog i with staging := (a.prog i).staging.map fun x =>
        { x with bytes := x.bytes ++ (Req.parse rx).value.drop 8 } }) ∧
  (∀ (s a : State) (t i : Nat) (rx : Rx) (live : Bool) (x : Staging),
    (s.at t).screen rx progUploadCommitService = .run live a → i = (Req.parse rx).index - E.PROG_UPLOAD.key / 256 →
    (a.prog i).staging = some x →
    Answers (.progUploadCommit t rx) s fun u =>
      u.prog i = { a.prog i with staging := none, fitting := some (if x.bytes.length = x.length then x.bytes else []) }) ∧
  (∀ (s a : State) (t i : Nat) (rx : Rx) (live : Bool), (s.at t).screen rx progUploadUnloadService = .run live a →
    i = (Req.parse rx).index - E.PROG_UPLOAD.key / 256 →
    Answers (.progUploadUnload t rx) s fun u => u.prog i = { a.prog i with stopFrom := some a.tick }) ∧
  (∀ (s z : State) (t slot v lf : Nat) (f : Bytes), z = s.at t → (z.prog slot).fitting = some f →
    z.fitForm slot f = (v, lf) →
    Answers (.progFitComplete t slot) s fun u =>
      (v ≠ 0 → u.prog slot = { z.prog slot with fitting := none }
        ∧ u.get E.PROG_REFUSALS = (z.get E.PROG_REFUSALS + 1) % 2 ^ 64) ∧
      (v = 0 → u.prog slot = { z.prog slot with
        fitting := none
        install := some { form := f, factor := lf, demand := formDemand f z.ticksPerTurn, store := formStorage f
                          from_ := z.tick } })) ∧
  (∀ (s z : State) (t slot : Nat) (i : Install), z = s.at t → AMap.wf z.progs = true →
    (z.prog slot).install = some i → i.from_ < z.tick →
    Answers (.progInstall t slot) s fun u =>
      (u.prog slot).form = i.form ∧ (u.prog slot).loaded = true ∧ (u.prog slot).install = none
        ∧ (u.prog slot).loadFactor = i.factor) ∧
  (∀ (s z : State) (t slot x : Nat), z = s.at t → AMap.wf z.progs = true → (z.prog slot).stopFrom = some x →
    x < z.tick →
    Answers (.progStop t slot) s fun u => (u.prog slot).loaded = false ∧ (u.prog slot).stopFrom = none) ∧
  (∀ (s z : State) (t slot : Nat), z = s.at t → (z.prog slot).moving = true →
    Answers (.progStorageMoveDone t slot) s fun u => u.prog slot = { z.prog slot with moving := false })

/-- Feeds, steps and publication of operator programs (R355, R364 to R367, R374, R382): what each command leaves once its
request has passed the checks, or where its condition holds. -/
def Obligations.ProgramsRun : Prop :=
  (∀ (s a : State) (t i : Nat) (rx : Rx) (live : Bool) (b : Bytes), (s.at t).screen rx progFeedService = .run live a →
    i = (Req.parse rx).index - E.PROG_FEED.key / 256 → b = (Req.parse rx).value →
    Answers (.progFeed t rx) s fun u =>
      u.prog i = { a.prog i with
        feeds := (a.prog i).feeds ++ [(a.tick + 1, field b 4 4, readElems b 8 4 (field b 0 2))] }) ∧
  (∀ (s z : State) (t slot first : Nat) (vals : List Nat), z = s.at t → (z.prog slot).feeds = [(first, 0, vals)] →
    first ≤ z.tick →
    Answers (.progFeedApply t slot) s fun u =>
      u.prog slot = { z.prog slot with
        feed := (vals.mapIdx fun i v => (i, v)).foldl (fun m p => AMap.put m p.1 p.2 0) (z.prog slot).feed
        feeds := [] }) ∧
  (∀ (s z : State) (t slot d : Nat) (x : Step), z = s.at t → slot < 16 → (z.prog slot).step = some x → x.doneTick = some d →
    d < z.tick →
    Answers (.progPublish t slot) s fun u =>
      (u.prog slot).step = none ∧ u.getU E.PROG_LAST_PUBLISH slot = z.tick) ∧
  (∀ (s z : State) (t slot cycle : Nat), z = s.at t → (z.prog slot).loaded = true → (z.prog slot).suspended = false →
    (z.prog slot).step = none → (z.prog slot).lastStart ≠ some z.tick →
    cycle = max 1 (formPeriod (z.prog slot).form * z.totalFactor (z.prog slot)) →
    (z.tick + cycle * 65536 - z.getU E.PROG_PHASE slot) % cycle = 0 →
    Answers (.progStepStart t slot) s fun u =>
      ∃ e, u.prog slot = { z.prog slot with lastStart := some z.tick, step := some { start := z.tick, tensors := e } }) ∧
  (∀ (s z : State) (t slot : Nat) (x : Step) (poison : List (Nat × Nat)), z = s.at t → slot < 16 →
    (z.prog slot).step = some x → x.doneTick = none → z.fabric.clampTick ≠ some z.tick →
    Answers (.progStepComplete t slot poison) s fun u =>
      ∃ y, (u.prog slot).step = some y ∧ y.doneTick = some z.tick ∧ y.start = x.start ∧ (y.poisoned = !poison.isEmpty)
        ∧ u.getU E.PROG_STEPS slot = (z.getU E.PROG_STEPS slot + 1) % 2 ^ 64)

/-- Arrays and regions (R293 to R296, R298 to R306): what each command leaves where its condition holds. -/
def Obligations.ArraysFailAndTurn : Prop :=
  (∀ (s z : State) (t array : Nat), z = s.at t → array < 144 → z.arrRole array = 1 ∨ z.arrRole array = 2 →
    (z.arr array).parityTick ≠ some z.tick →
    Answers (.parityError t array) s fun u =>
      u.getU E.STEP_RERUNS array = (z.getU E.STEP_RERUNS array + 1) % 2 ^ 64
        ∧ u.get E.STEP_RERUNS_ALL = (z.get E.STEP_RERUNS_ALL + 1) % 2 ^ 64
        ∧ u.getU E.CELL_PARITY_ERRORS array = (z.getU E.CELL_PARITY_ERRORS array + 1) % 2 ^ 64
        ∧ u.arr array = { z.arr array with parityTick := some z.tick } ∧ u.wear = z.wear) ∧
  (∀ (s z : State) (t array : Nat), z = s.at t → z.arrRole array = 1 ∨ z.arrRole array = 2 →
    (z.arr array).parityTick ≠ some z.tick → (z.arr array).overrunTick + 1 ≠ z.tick →
    Answers (.stepOverrun t array) s fun u =>
      u.get E.STEP_OVERRUNS = (z.get E.STEP_OVERRUNS + 1) % 2 ^ 64
        ∧ u.arr array = { z.arr array with overruns := 1, overrunTick := z.tick }
        ∧ array ∈ u.fabric.noResult ∧ u.wear = z.wear) ∧
  (∀ (s z : State) (t array : Nat) (sram : Bool), z = s.at t → array < 144 →
    z.arrRole array = 1 ∨ z.arrRole array = 2 →
    Answers (.arrayBlockError t array sram) s fun u =>
      u.get E.ARRAY_FENCES = (z.get E.ARRAY_FENCES + 1) % 2 ^ 64
        ∧ ((u.unit array).role = 2 ∨ (u.unit array).role = 4)
        ∧ (u.arr array).handOver = z.arrRole array ∧ (u.arr array).fenceTick = z.tick) ∧
  (∀ (s z : State) (t region : Nat), z = s.at t → region < 4 → (z.get E.REGIONS_FENCED).testBit region = false →
    Answers (.regionFence t region) s fun u =>
      u.get E.REGIONS_FENCED = setBit (z.get E.REGIONS_FENCED) region
        ∧ u.fabric.fences = z.fabric.fences ++ [(region, z.tick)]) ∧
  (∀ (s z : State) (t region since : Nat), z = s.at t → (region, since) ∈ z.fabric.fences → since < z.tick →
    Answers (.regionReconfigure t region) s fun u =>
      u.loader.replaceDue = true ∧ u.fabric.fences = z.fabric.fences.filter fun f => f.1 != region) ∧
  (∀ (s z : State) (t array a : Nat), z = s.at t → (z.arr array).handOver ≠ 0 → (z.arr array).fenceTick < z.tick →
    z.bestSpare (regionArrays (array / 36)) = some a → a ≠ array →
    Answers (.migration t array) s fun u =>
      u.get E.MIGRATIONS = (z.get E.MIGRATIONS + 1) % 2 ^ 64 ∧ (u.unit a).role = 0
        ∧ (u.arr a).isRow = ((z.arr array).handOver == 1) ∧ (u.arr a).heldSpare = z.turn
        ∧ (u.arr array).handOver = 0) ∧
  (∀ (s z : State) (t region o i : Nat), z = s.at t → z.rotationTurn region (z.turn + 1) = true →
    z.wheel.idx + 1 = z.ticksPerTurn → z.rotationPair region = (some o, some i) →
    Answers (.rotationPreload t region) s fun u => u.arr i = { z.arr i with preloadFor := some o }) ∧
  (∀ (s z : State) (t region o i : Nat), z = s.at t → z.rotationTurn region z.turn = true → z.wheel.idx = 0 →
    z.fabric.rotated.get region ≠ some z.turn → z.rotationPair region = (some o, some i) → o ≠ i →
    (z.arr i).preloadFor = some o → z.fabric.stanceTurn ≠ some z.turn →
    Answers (.rotation t region) s fun u =>
      u.get E.ROTATIONS = (z.get E.ROTATIONS + 1) % 2 ^ 64 ∧ (u.unit i).role = 0 ∧ (u.unit o).role = 2
        ∧ (u.unit o).planned = true ∧ (u.arr i).isRow = (z.arr o).isRow)

/-- The memory stacks (R321 to R324, R327 to R331): what each command leaves where its condition holds. -/
def Obligations.StacksFailAndSpare : Prop :=
  (∀ (s z : State) (t k line : Nat), z = s.at t → k < 4 → z.getU E.STACK_STATE k = 2 → line ∉ (z.stack k).poisoned →
    Answers (.lineUncorrectable t k line) s fun u =>
      u.stack k = { z.stack k with poisoned := line :: (z.stack k).poisoned }
        ∧ u.getU E.ECC_UNCORRECTABLE k = (z.getU E.ECC_UNCORRECTABLE k + 1) % 2 ^ 64) ∧
  (∀ (s z : State) (t k bank row : Nat), z = s.at t → z.getU E.STACK_STATE k = 2 →
    (z.stack k).sparedRows.getD bank 0 < 32 →
    Answers (.rowSpare t k bank row) s fun u =>
      u.getU E.ROWS_SPARED k = (z.getU E.ROWS_SPARED k + 1) % 2 ^ 64
        ∧ u.stack k = { z.stack k with
            sparedRows := (z.stack k).sparedRows.set bank ((z.stack k).sparedRows.getD bank 0 + 1) }) ∧
  (∀ (s z : State) (t k page : Nat), z = s.at t → z.getU E.STACK_STATE k = 2 → z.getU E.RESERVE_PAGES_FREE k ≠ 0 →
    Answers (.pageRetire t k page) s fun u =>
      u.getU E.RESERVE_PAGES_FREE k = z.getU E.RESERVE_PAGES_FREE k - 1
        ∧ u.getU E.PAGES_RETIRED k = (z.getU E.PAGES_RETIRED k + 1) % 2 ^ 64
        ∧ (u.stack k).pages = (z.stack k).pages.set page (3584 - z.getU E.RESERVE_PAGES_FREE k)) ∧
  (∀ (s z : State) (t k : Nat) (corrected : List (Nat × Nat)), z = s.at t → z.getU E.STACK_STATE k = 2 →
    (z.stack k).scrubTurn + z.eff E.SCRUB_PERIOD_TURNS ≤ z.turn →
    Answers (.patrolScrubPass t k corrected) s fun u => u.stack k = { z.stack k with scrubTurn := z.turn }) ∧
  (∀ (s z : State) (t k : Nat), z = s.at t → z.getU E.STACK_STATE k = 2 →
    Answers (.stackLoss t k) s fun u =>
      u.stack k = { z.stack k with poisoned := [], lostSlots := [], fills := [] }) ∧
  (∀ (s z : State) (t k c u₀ : Nat), z = s.at t → u₀ = chanUnit k c → z.getU E.STACK_STATE k = 2 →
    z.getU E.CHAN_STATE u₀ ≠ 3 → z.getU E.CHAN_STATE u₀ ≠ 0 →
    Answers (.channelLoss t k c) s fun u =>
      u.stack k = { z.stack k with
        lostSlots := (z.stack k).lostSlots ++ [(z.getU E.CHAN_SLOT u₀, z.tick)]
        fills := (z.stack k).fills.filter fun x => x != c }) ∧
  (∀ (s z : State) (t k slot since c : Nat), z = s.at t → k < 4 → c < 18 → z.getU E.STACK_STATE k = 2 →
    (z.stack k).lostSlots = [(slot, since)] → since < z.tick → (z.spareChannels k)[0]? = some c →
    Answers (.channelSpare t k slot) s fun u =>
      u.getU E.CHAN_STATE (chanUnit k c) = 2 ∧ u.getU E.CHAN_SLOT (chanUnit k c) = slot
        ∧ u.stack k = { z.stack k with lostSlots := [], fills := (z.stack k).fills ++ [c] }
        ∧ (u.unit (chanRow k c)).role = 0) ∧
  (∀ (s z : State) (t k c : Nat), z = s.at t → c ∈ (z.stack k).fills →
    Answers (.zeroFillDone t k c) s fun u =>
      u.getU E.CHAN_STATE (chanUnit k c) = 1 ∧ (u.stack k).fills = (z.stack k).fills.filter fun x => x != c) ∧
  (∀ (s z : State) (t k temp : Nat), z = s.at t → z.getU E.STACK_STATE k = 2 → s16 temp < 105 * 64 →
    Answers (.stackHot t k temp) s fun u =>
      u.stack k = { z.stack k with
        fastRefresh := decide (85 * 64 ≤ s16 temp), background := !decide (95 * 64 ≤ s16 temp) })

/-- The IOC's link, rest entries and the tick's hand-over to the IOC (R57, R519, R520, R579 to R583):
what each command leaves where its condition holds. -/
def Obligations.IocServes : Prop :=
  (∀ (s z : State) (t lane row : Nat), z = s.at t → row = kindRow 16 + lane → z.fwRuns = true → lane < 14 →
    (z.unit row).role = 0 →
    Answers (.iocLaneFail t lane) s fun u => u.ioc.lanesFailed = z.ioc.lanesFailed ++ [z.turn]) ∧
  (∀ (s z : State) (t n r : Nat), z = s.at t → z.fwRuns = true → z.wheel.idx = 0 → z.ioc.lanesFailed = [n] →
    n < z.turn → z.bestSpare (kindRows 16) = some r →
    Answers (.iocLaneSpare t) s fun u => u.ioc.lanesFailed = [] ∧ (u.unit r).role = 0) ∧
  (∀ (s z : State) (t : Nat), z = s.at t → z.fwRuns = true → z.ioc.linkLost = false →
    Answers (.iocLinkLoss t) s fun u => u.ioc.linkLost = true ∧ u.ioc.restFans = true) ∧
  (∀ (s z : State) (t : Nat), z = s.at t → z.fwRuns = true → z.inRest = false →
    Answers (.chipLevelError t) s fun u => u.get E.STANCE_ACTIVE = 3 ∧ u.get E.REST_CAUSE = 1) ∧
  (∀ (s z : State) (t : Nat), z = s.at t → z.fwRuns = true → 8 ≤ z.plant.dieHotRun →
    z.inRest = false →
    Answers (.dieOvertempError t) s fun u => u.get E.STANCE_ACTIVE = 3 ∧ u.get E.REST_CAUSE = 1) ∧
  (∀ (s z : State) (t : Nat) (x : SensorIn), z = s.at t → z.fwRuns = true → z.ioc.linkLost = false →
    z.ioc.delivered ≠ some z.tick →
    Answers (.sensorDelivery t x) s fun u => u.ioc.delivered = some z.tick) ∧
  (∀ (s z : State) (t : Nat), z = s.at t → z.fwRuns = true → z.ioc.linkLost = false → z.pastSlot 40 = true →
    z.ioc.handed ≠ some z.tick →
    Answers (.outputHandoff t) s fun u => u.ioc.handed = some z.tick) ∧
  (∀ (s z : State) (t : Nat), z = s.at t → z.elec.power = 1 → 0 < z.wheel.tickLen → z.pastSlot 50 = true →
    z.ioc.updated ≠ some z.tick → z.ioc.linkLost = false →
    Answers (.actuatorUpdate t) s fun u => u.ioc.updated = some z.tick)

/-- Loop engines (R422, R433, R437, R439, R442 to R450): what each command leaves where its condition holds. -/
def Obligations.EnginesRun : Prop :=
  (∀ (s z : State) (t n : Nat) (x : Eng), z = s.at t → n < 256 → x = z.eng n → z.fwRuns = true →
    z.isActive (kindRow 3 + n) = true → x.down = false → z.engDue n = true → z.slotB n = false →
    z.inSlot 10 25 = true → x.lastRun ≠ some z.tick → z.inRest = false → z.getU E.LOOP_MODE n = 0 →
    z.getU E.LOOP_MODE_ACTIVE n = 0 → z.getU E.MANUAL_VALUE n = x.manual → x.wait = 0 → x.offset = 0 →
    x.clearTable = false →
    Answers (.loopRun t n) s fun u =>
      u.getU E.LOOP_OUTPUT n = f32Clamp (f32Add x.manual 0) (z.uMin n) (z.uMax n)
        ∧ u.getU E.LOOP_RUNS n = (z.getU E.LOOP_RUNS n + 1) % 2 ^ 64 ∧ u.getU E.LOOP_MISSES n = 0
        ∧ (u.eng n).lastRun = some z.tick ∧ (u.eng n).send = true) ∧
  (∀ (s z : State) (t n from_ : Nat), z = s.at t → n < 256 → (z.eng n).holdFrom = some from_ →
    (z.eng n).lastRun = some z.tick → from_ + z.getU E.FREEZE_HOLD n ≤ z.tick →
    Answers (.feedbackHoldTimeout t n) s fun u =>
      u.getU E.LOOP_MODE n = 3 ∧ u.getU E.LOOP_FAULT_CAUSE n = (z.eng n).holdCause ∧ u.getU E.LOOP_MODE_ACTIVE n = 3
        ∧ u.getU E.LOOP_OUTPUT n = z.getU E.REST_VALUE n
        ∧ u.getU E.LOOP_FAULTS n = (z.getU E.LOOP_FAULTS n + 1) % 2 ^ 64) ∧
  (∀ (s z : State) (t n : Nat), z = s.at t → n < 256 → (z.eng n).lastRun = some z.tick →
    z.getU E.FOLLOW_ERR_TIME n < (z.eng n).timer → z.getU E.LOOP_MODE_ACTIVE n = 1 →
    Answers (.followingErrorFault t n) s fun u =>
      u.getU E.LOOP_MODE n = 3 ∧ u.getU E.LOOP_FAULT_CAUSE n = 1 ∧ u.getU E.LOOP_MODE_ACTIVE n = 3
        ∧ u.getU E.LOOP_OUTPUT n = z.getU E.REST_VALUE n
        ∧ u.getU E.LOOP_FAULTS n = (z.getU E.LOOP_FAULTS n + 1) % 2 ^ 64) ∧
  (∀ (s z : State) (t n k : Nat), z = s.at t → n < 256 → z.fwRuns = true → z.isActive (kindRow 3 + n) = true →
    (z.eng n).down = false → z.engDue n = true → z.slotB n = false → z.pastSlot 25 = true →
    (z.eng n).lastRun ≠ some z.tick → (z.eng n).missTick ≠ some z.tick →
    k = satBytes 1 (z.getU E.LOOP_MISSES n + 1) → k < z.getU E.MISS_LIMIT n →
    Answers (.loopSlotMissed t n) s fun u =>
      u.getU E.LOOP_MISSES n = k ∧ u.getU E.LOOP_MISSES_TOTAL n = (z.getU E.LOOP_MISSES_TOTAL n + 1) % 2 ^ 64
        ∧ u.eng n = { z.eng n with missTick := some z.tick }) ∧
  (∀ (s z : State) (t n : Nat), z = s.at t → n < 256 → (z.unit (kindRow 3 + n)).role = 0 →
    Answers (.engineBlockError t n) s fun u =>
      ((u.unit (kindRow 3 + n)).role = 2 ∨ (u.unit (kindRow 3 + n)).role = 4)
        ∧ u.eng n = { z.eng n with fenceTick := some z.tick, send := false }) ∧
  (∀ (s z : State) (t n f row : Nat), z = s.at t → (z.eng n).fenceTick = some f → f < z.tick →
    z.bestSpare (kindRows 3) = some row →
    Answers (.engineTakeover t n true) s fun u =>
      u.getU E.LOOP_MOVED_TO n = row - kindRow 3 ∧ (u.unit row).role = 0)

/-- Writes with effects of their own (R34, R52, R110, R432, R435, R439, R452, R557, R592): what each command leaves
once its request has passed the checks and no earlier write of the entry is still held. -/
def Obligations.WritesAct : Prop :=
  (∀ (s a : State) (t w k : Nat) (rx : Rx) (live : Bool) (r : Row), (s.at t).screen rx stanceWriteService =
      .run live a →
    (Req.parse rx).entry = some (r, w) → k = (Req.parse rx).sub - r.ent.key % 256 →
    a.dict.held.get (r.ent.key + k + 256 * w) = none →
    Answers (.stanceWrite t rx) s fun u =>
      u.stancePending = a.stancePending.set
        (if a.wheel.idx < (a.store r w k (beNat (Req.parse rx).value)).ticksPerTurn / 2 then a.turn + 1 else a.turn + 2)
        (beNat (Req.parse rx).value)) ∧
  (∀ (s a : State) (t w k key : Nat) (rx : Rx) (live : Bool) (r : Row),
    (s.at t).screen rx wheelPhaseWriteService = .run live a → (Req.parse rx).entry = some (r, w) →
    k = (Req.parse rx).sub - r.ent.key % 256 → a.dict.held.get (r.ent.key + k + 256 * w) = none →
    key = r.ent.key + k + 256 * w → key ≠ E.WHEEL_STATE.key →
    (key ∉ countKeys → a.get E.WHEEL_STATE ≠ 1 → Answers (.wheelPhaseWrite t rx) s fun u =>
      u.getU ⟨r.ent.key + k, r.ent.dflt⟩ w = storedValue r.ent (beNat (Req.parse rx).value) ∧ u.wheel = a.wheel) ∧
    (a.get E.WHEEL_STATE = 1 → Answers (.wheelPhaseWrite t rx) s fun u =>
      u.get E.WHEEL_STATE = 3 ∧ u.wheel.lockRun = 0 ∧ u.wheel.closing = false)) ∧
  (∀ (s a : State) (t w k : Nat) (rx : Rx) (live : Bool) (r : Row),
    (s.at t).screen rx phaseSourceWriteService = .run live a → (Req.parse rx).entry = some (r, w) →
    k = (Req.parse rx).sub - r.ent.key % 256 → a.dict.held.get (r.ent.key + k + 256 * w) = none →
    r.ent.key + k + 256 * w ∉ countKeys →
    Answers (.phaseSourceWrite t rx) s fun u =>
      u.getU ⟨r.ent.key + k, r.ent.dflt⟩ w = storedValue r.ent (beNat (Req.parse rx).value)
        ∧ u.eng w = { a.eng w with clearTable := true }) ∧
  (∀ (s a : State) (t w k : Nat) (rx : Rx) (live : Bool) (r : Row),
    (s.at t).screen rx loopModeWriteService = .run live a → (Req.parse rx).entry = some (r, w) →
    k = (Req.parse rx).sub - r.ent.key % 256 → a.dict.held.get (r.ent.key + k + 256 * w) = none →
    r.ent.key + k + 256 * w ∉ countKeys →
    Answers (.loopModeWrite t rx) s fun u =>
      u.getU ⟨r.ent.key + k, r.ent.dflt⟩ w = storedValue r.ent (beNat (Req.parse rx).value)
        ∧ u.eng w = { a.eng w with accept := false }) ∧
  (∀ (s a : State) (t w k : Nat) (rx : Rx) (live : Bool) (r : Row),
    (s.at t).screen rx manualValueWriteService = .run live a → (Req.parse rx).entry = some (r, w) →
    k = (Req.parse rx).sub - r.ent.key % 256 → a.dict.held.get (r.ent.key + k + 256 * w) = none →
    r.ent.key + k + 256 * w ∉ countKeys →
    Answers (.manualValueWrite t rx) s fun u =>
      u.getU ⟨r.ent.key + k, r.ent.dflt⟩ w = storedValue r.ent (beNat (Req.parse rx).value) ∧ u.ioc = a.ioc) ∧
  (∀ (s a : State) (t w k : Nat) (rx : Rx) (live : Bool) (r : Row),
    (s.at t).screen rx brEnableWriteService = .run live a → (Req.parse rx).entry = some (r, w) →
    k = (Req.parse rx).sub - r.ent.key % 256 → a.dict.held.get (r.ent.key + k + 256 * w) = none →
    r.ent.key + k + 256 * w ∉ countKeys →
    Answers (.brEnableWrite t rx) s fun u =>
      u.getU ⟨r.ent.key + k, r.ent.dflt⟩ w = storedValue r.ent (beNat (Req.parse rx).value) ∧ u.plant = a.plant) ∧
  (∀ (s a : State) (t w k : Nat) (rx : Rx) (live : Bool) (r : Row),
    (s.at t).screen rx histCountWriteService = .run live a → (Req.parse rx).entry = some (r, w) →
    k = (Req.parse rx).sub - r.ent.key % 256 → a.dict.held.get (r.ent.key + k + 256 * w) = none →
    r.ent.key + k + 256 * w ∉ countKeys →
    Answers (.histCountWrite t rx) s fun u =>
      u.getU ⟨r.ent.key + k, r.ent.dflt⟩ w = storedValue r.ent (beNat (Req.parse rx).value)) ∧
  (∀ (s a : State) (t i : Nat) (rx : Rx) (live : Bool), (s.at t).screen rx loopCmdAcceptService = .run live a →
    i = (Req.parse rx).index - E.LOOP_CMD.key / 256 →
    Answers (.loopCmdAccept t rx) s fun u => u.eng i = { a.eng i with accept := (a.eng i).wait == 1 }) ∧
  (∀ (s a : State) (t i : Nat) (rx : Rx) (live : Bool), (s.at t).screen rx loopCmdClearTableService = .run live a →
    i = (Req.parse rx).index - E.LOOP_CMD.key / 256 →
    Answers (.loopCmdClearTable t rx) s fun u => u.eng i = { a.eng i with clearTable := true })

/-- The profile of a valve channel (R462, R464, R465, R469, R470, R472): what each event leaves where its condition
holds. -/
def Obligations.ProfilesMove : Prop :=
  (∀ (s z : State) (t bank c : Nat) (rest : List Nat), z = s.at t → bank < 14 → (z.bank bank).queue = c :: rest →
    z.admits c = true →
    Answers (.boostAdmit t bank) s fun u =>
      u.phase c = 2 ∧ u.getU E.ENERGISE_COUNT c = (z.getU E.ENERGISE_COUNT c + 1) % 2 ^ 64) ∧
  (∀ (s z : State) (t ch current : Nat), z = s.at t → z.phase ch = 2 → z.getU E.PEAK_A ch ≤ current →
    (z.bank (ch / 4)).long = false →
    Answers (.boostEnd t ch current) s fun u =>
      u.phase ch = 3 ∧ (u.valve ch).peakShort = false ∧ (u.valve ch).phaseFrom = z.now) ∧
  (∀ (s z : State) (t ch : Nat), z = s.at t → ch < 56 → z.phase ch = 2 →
    (z.valve ch).phaseFrom + z.getU E.BOOST_MAX_US ch * us ≤ z.now → (z.bank (ch / 4)).long = false →
    Answers (.boostTimeout t ch) s fun u =>
      u.phase ch = 3 ∧ (u.valve ch).peakShort = true ∧ (u.valve ch).phaseFrom = z.now) ∧
  (∀ (s z : State) (t ch : Nat), z = s.at t → z.phase ch = 3 →
    (z.valve ch).phaseFrom + z.getU E.PEAK_US ch * us ≤ z.now →
    Answers (.peakEnd t ch) s fun u => u.phase ch = 4 ∧ (u.valve ch).seat = some (0, z.now)) ∧
  (∀ (s z : State) (t bank c : Nat) (rest : List Nat), z = s.at t → bank < 14 → (z.bank bank).queue = c :: rest →
    (z.bank bank).long = false → (z.valve c).queuedAt + 2 * ms ≤ z.now →
    Answers (.boostWaitLong t bank) s fun u => u.bank bank = { z.bank bank with long := true }) ∧
  (∀ (s z : State) (t ch current : Nat), z = s.at t → current ≤ z.getU E.HOLD_A ch → z.phase ch = 4 →
    Answers (.descentEnd t ch current) s fun u => u.phase ch = 5) ∧
  (∀ (s z : State) (t ch current : Nat), z = s.at t → current < 50 → z.phase ch = 6 →
    Answers (.releaseEnd t ch current) s fun u => u.phase ch = 0)

/-- Seating windows and the demands of a valve channel (R460, R473, R474, R477): what each command leaves where its
condition holds. -/
def Obligations.SeatsAndDemands : Prop :=
  (∀ (s z : State) (t ch kink event start : Nat), z = s.at t → (z.valve ch).seat = some (event, start) →
    z.getU E.SEAT_KINK ch < kink → z.now ≤ start + z.getU E.SEAT_WINDOW_MS ch * ms →
    Answers (.seatKink t ch kink) s fun u =>
      (u.valve ch).seat = none ∧ (u.valve ch).seatEnd = some
        ⟨1, event, z.tick, (z.now - (z.valve ch).latchedAt) / 250000, z.tick, start⟩) ∧
  (∀ (s z : State) (t ch event start : Nat), z = s.at t → (z.valve ch).seat = some (event, start) →
    start + z.getU E.SEAT_WINDOW_MS ch * ms ≤ z.now →
    Answers (.seatWindowEnd t ch) s fun u =>
      (u.valve ch).seat = none ∧ (u.valve ch).seatEnd = some ⟨2, event, z.tick, 0, z.tick, start⟩) ∧
  (∀ (s z : State) (t ch : Nat) (r : SeatEnd), z = s.at t → ch < 56 → (z.valve ch).seatEnd = some r →
    r.ended < z.tick →
    Answers (.seatResultPublish t ch) s fun u =>
      u.getU E.SEAT_RESULT ch = r.result ∧ u.getU E.SEAT_EVENT ch = r.event ∧ u.getU E.SEAT_TICK ch = r.tick
        ∧ u.getU E.SEAT_DELAY ch = r.delay) ∧
  (∀ (s a : State) (t i : Nat) (rx : Rx) (live : Bool), (s.at t).screen rx valveCmdDeenergiseService = .run live a →
    i = (Req.parse rx).index - E.VALVE_CMD.key / 256 →
    Answers (.valveCmdDeenergise t rx) s fun u =>
      u.valve i = { a.valve i with host := 0, fresh := 3 :: (a.valve i).fresh }) ∧
  (∀ (s a : State) (t i : Nat) (rx : Rx) (live : Bool), (s.at t).screen rx valveCmdEnergiseService = .run live a →
    i = (Req.parse rx).index - E.VALVE_CMD.key / 256 →
    Answers (.valveCmdEnergise t rx) s fun u =>
      u.valve i = { a.valve i with host := 1, fresh := 3 :: (a.valve i).fresh }) ∧
  (∀ (s a : State) (t i : Nat) (rx : Rx) (live : Bool), (s.at t).screen rx valveCmdClearService = .run live a →
    i = (Req.parse rx).index - E.VALVE_CMD.key / 256 → i < 56 → a.valveFaultBit i 3 = false →
    Answers (.valveCmdClear t rx) s fun u =>
      u.getU E.VALVE_FAULT i = (if a.valveFaultBit i 4 = true ∧ 125 ≤ (a.valve i).temp then 16 else 0)
        + (if a.valveFaultBit i 5 = true ∧ a.isActive (valveRow i) = false then 32 else 0))

/-- Faults of valve channels and their take-over (R476, R478): what each event leaves where its condition holds. -/
def Obligations.ValvesFaultAndMove : Prop :=
  (∀ (s z : State) (t ch current : Nat), z = s.at t → ch < 56 → z.phase ch = 2 → current < 100 →
    (z.valve ch).phaseFrom + 500 * us ≤ z.now →
    Answers (.valveOpenOn t ch current) s fun u =>
      u.phase ch = 7 ∧ u.getU E.VALVE_FAULT ch = setBit (z.getU E.VALVE_FAULT ch) 0) ∧
  (∀ (s z : State) (t ch : Nat), z = s.at t → ch < 56 → z.phase ch = 2 ∨ z.phase ch = 3 ∨ z.phase ch = 5 →
    Answers (.valveShort t ch) s fun u =>
      u.phase ch = 7 ∧ u.getU E.VALVE_FAULT ch = setBit (z.getU E.VALVE_FAULT ch) 2
        ∧ (u.valve ch).shorts = (z.valve ch).shorts + 1
        ∧ (u.valve ch).retryAt = if (z.valve ch).shorts = 0 then some (z.now + 10 * ms) else none) ∧
  (∀ (s z : State) (t ch due : Nat), z = s.at t → (z.valve ch).retryAt = some due → due ≤ z.now →
    z.getU E.VALVE_DEMAND ch = 1 → z.isActive (valveRow ch) = true → z.ioc.valvesLow = false →
    z.valveFaultBit ch 3 = false → z.phase ch = 7 → (z.bank (ch / 4)).queue = [] → z.admits ch = true →
    Answers (.valveShortRetry t ch) s fun u =>
      u.phase ch = 2 ∧ u.getU E.ENERGISE_COUNT ch = (z.getU E.ENERGISE_COUNT ch + 1) % 2 ^ 64) ∧
  (∀ (s z : State) (t bank current : Nat), z = s.at t → bank < 14 → 40000 < current →
    Answers (.bankOvercurrent t bank current) s fun u =>
      (u.bank bank).fault = true ∧ ∀ c ∈ bankChans bank, u.phase c = 7) ∧
  (∀ (s z : State) (t ch temp : Nat), z = s.at t → ch < 56 → 150 ≤ temp → z.valveFaultBit ch 4 = false →
    Answers (.valveHot t ch temp) s fun u =>
      u.phase ch = 7 ∧ (u.valve ch).temp = temp ∧ u.getU E.VALVE_FAULT ch = setBit (z.getU E.VALVE_FAULT ch) 4) ∧
  (∀ (s z : State) (t ch : Nat), z = s.at t → ch < 56 → z.paired ch = false → z.follower ch = false →
    (z.unit (valveRow ch)).role = 0 →
    Answers (.valveDriverFault t ch false) s fun u =>
      ((u.unit (valveRow ch)).role = 2 ∨ (u.unit (valveRow ch)).role = 4)
        ∧ (u.valve ch).fenceTick = some z.tick ∧ (u.valve ch).seat = none) ∧
  (∀ (s z : State) (t ch f row : Nat), z = s.at t → ch < 56 → (z.valve ch).fenceTick = some f → f < z.tick →
    z.follower ch = false → z.paired ch = false → z.getU E.VALVE_OUTPUT ch ≠ 0xFF →
    z.bestSpare (kindRows 4) = some row →
    Answers (.valveTakeover t ch) s fun u =>
      u.getU E.VALVE_OUTPUT ch = 0xFF ∧ u.getU E.VALVE_MOVED_TO ch = row - kindRow 4 ∧ (u.unit row).role = 0) ∧
  (∀ (s z : State) (t ch out from_ : Nat), z = s.at t → (z.valve ch).switching = some (out, from_) →
    z.getU E.VALVE_DEMAND ch ≠ 1 →
    Answers (.valveSwitchDone t ch) s fun u =>
      u.getU E.VALVE_OUTPUT ch = out ∧ (u.valve ch).switching = none ∧ (u.valve ch).latchedAt = z.now)

/-- The feeds and the fuse (R471, R481, R503, R669, R672, R673): what each event leaves where its condition holds. -/
def Obligations.FeedsMove : Prop :=
  (∀ (s z : State) (t volts : Nat), z = s.at t → volts < 22000 → z.ioc.valvesLow = false →
    Answers (.valveFeedLow t volts) s fun u => u.ioc.valvesLow = true ∧ u.ioc.feed = volts) ∧
  (∀ (s z : State) (t volts : Nat), z = s.at t → 23000 < volts → z.get E.ACT_FUSE_STATE = 0 →
    z.ioc.valvesLow = true →
    Answers (.valveFeedRestore t volts) s fun u => u.ioc.valvesLow = false ∧ u.ioc.feed = volts) ∧
  (∀ (s z : State) (t old kind due : Nat), z = s.at t → z.dict.held.get E.BOOST_V.key = some (old, kind, due) →
    due ≤ z.tick → (∀ c, c < 56 → z.lowSide c < 2 ∨ 4 < z.lowSide c) →
    Answers (.boostVApply t) s fun u => u.dict.held.get E.BOOST_V.key = none) ∧
  (∀ (s z : State) (t volts : Nat), z = s.at t → volts < 20000 → z.ioc.fansLow = false →
    Answers (.fanFeedLow t volts) s fun u => u.ioc.fansLow = true ∧ u.ioc.feed = volts) ∧
  (∀ (s z : State) (t volts : Nat), z = s.at t → 21000 < volts → z.get E.ACT_FUSE_STATE = 0 → z.ioc.fansLow = true →
    Answers (.fanFeedRestore t volts) s fun u => u.ioc.fansLow = false ∧ u.ioc.feed = volts) ∧
  (∀ (s z : State) (t feed : Nat), z = s.at t → z.elec.power = 1 → feed < 2 →
    Answers (.feedLost t feed) s fun u => u.get E.ELEC_LATCHES = setBit (z.get E.ELEC_LATCHES) feed) ∧
  (∀ (s z : State) (t feed : Nat), z = s.at t → z.elec.power = 1 → feed < 2 →
    Answers (.feedRange t feed) s fun u => u.get E.ELEC_LATCHES = setBit (z.get E.ELEC_LATCHES) 2) ∧
  (∀ (s z : State) (t : Nat) (opens : List Nat), z = s.at t → z.elec.power = 1 → z.get E.ACT_FUSE_STATE = 0 →
    opens = z.now :: z.elec.openings.filter (fun x => decide (z.now ≤ x + 60 * sec)) →
    Answers (.actFuseOpen t) s fun u =>
      u.get E.ACT_FUSE_STATE = (if 3 ≤ opens.length then 2 else 1) ∧ u.elec.openAt = z.now
        ∧ u.elec.openings = opens) ∧
  (∀ (s z : State) (t : Nat), z = s.at t → z.elec.power = 1 → z.get E.ACT_FUSE_STATE = 1 →
    z.elec.openAt + sec ≤ z.now →
    Answers (.actFuseReclose t) s fun u => u.get E.ACT_FUSE_STATE = 0) ∧
  (∀ (s z : State) (t : Nat), z = s.at t → z.elec.power = 1 → z.get E.ACT_FUSE_STATE = 0 →
    Answers (.actOverload t) s fun u => u.get E.ELEC_LATCHES = setBit (z.get E.ELEC_LATCHES) 4)

/-- Fans: the watchdog, the staggered order and the start (R496, R498, R499): what each event leaves where its condition
holds. -/
def Obligations.FansStart : Prop :=
  (∀ (s z : State) (t : Nat), z = s.at t → z.fwRuns = true → z.ioc.watchdog = none →
    z.dict.hostHeard + z.get E.FAN_WATCHDOG_S * sec ≤ z.now →
    Answers (.fanWatchdog t) s fun u => u.ioc.watchdog = some z.now) ∧
  (∀ (s z : State) (t c : Nat) (rest : List Nat), z = s.at t → z.ioc.stagger = c :: rest → z.fwRuns = true →
    z.ioc.linkLost = false → z.ioc.staggerAt + z.get E.FAN_STAGGER_MS * ms ≤ z.now →
    Answers (.fanStaggerStart t) s fun u =>
      u.ioc.stagger = rest ∧ u.ioc.staggerAt = z.now ∧ u.fan c = { z.fan c with started := true }) ∧
  (∀ (s z : State) (t ch : Nat), z = s.at t → z.fanState ch = 1 → (z.fan ch).lastRun = some z.tick →
    z.turning ch = false → z.phasePassed ch (z.fanParam ch E.FAN_START_MS) = true → z.fanParam ch E.FAN_KICKS ≠ 0 →
    Answers (.fanStartEnd t ch) s fun u =>
      u.fanState ch = 2 ∧ (u.fan ch).kicks = (z.fan ch).kicks + 1 ∧ (u.fan ch).phaseFrom = z.runInstant
        ∧ (u.fan ch).v = f32Int (z.fanParam ch E.FAN_KICK_V)) ∧
  (∀ (s z : State) (t ch : Nat), z = s.at t → z.fanState ch = 2 → (z.fan ch).lastRun = some z.tick →
    z.phasePassed ch (z.fanParam ch E.FAN_KICK_MS) = true → z.turning ch = false →
    (z.fan ch).kicks < z.fanParam ch E.FAN_KICKS →
    Answers (.fanKickEnd t ch) s fun u =>
      u.fanState ch = 3 ∧ (u.fan ch).v = 0 ∧ (u.fan ch).phaseFrom = z.runInstant) ∧
  (∀ (s z : State) (t ch : Nat), z = s.at t → z.fanState ch = 3 → (z.fan ch).lastRun = some z.tick →
    z.phasePassed ch (z.fanParam ch E.FAN_KICK_MS) = true →
    Answers (.fanPauseEnd t ch) s fun u =>
      u.fanState ch = 2 ∧ (u.fan ch).kicks = (z.fan ch).kicks + 1 ∧ (u.fan ch).phaseFrom = z.runInstant
        ∧ (u.fan ch).v = f32Int (z.fanParam ch E.FAN_KICK_V)) ∧
  (∀ (s z : State) (t ch n : Nat), z = s.at t → n = z.fanParam ch E.FAN_STALL_RETRY → z.fanState ch = 7 →
    z.fanFault ch &&& 0xD ≠ 0 → z.fanFault ch &&& 0x30 = 0 → n ≠ 0 → (z.fan ch).faultAt + n * sec ≤ z.now →
    z.fanActive ch = true →
    Answers (.fanStallRetry t ch) s fun u => u.fanState ch = 0)

/-- Fans: the speed loop, the faults and the take-over (R493, R500 to R504, R506): what each command leaves where its
condition holds. -/
def Obligations.FansRunFaultAndMove : Prop :=
  (∀ (s z : State) (t ch : Nat) (x : FanIn), z = s.at t → z.fwRuns = true → z.ioc.linkLost = false → ch < 34 →
    z.wheel.idx % max 1 (z.ticksPerTurn / 8) = 0 → z.pastSlot 50 = true → (z.fan ch).lastRun ≠ some z.tick →
    z.fanActive ch = true → (z.fan ch).switching = none →
    Answers (.speedLoopRun t ch x) s fun u =>
      (u.fan ch).lastRun = some z.tick ∧ u.get E.IFAN_LAW_TARGET = z.coolingLaw.get E.IFAN_LAW_TARGET) ∧
  (∀ (s z : State) (t ch : Nat), z = s.at t → ch < 34 → (z.fan ch).lastRun = some z.tick → z.tachAbsent ch = true →
    z.fanState ch = 5 → z.fanParam ch E.FAN_STALL_I ≤ z.fanGet ch E.FAN_CURRENT E.IFAN_CURRENT →
    Answers (.tachAbsent t ch) s fun u =>
      u.fanState ch = 7 ∧ u.fanFault ch = setBit (z.fanFault ch) 0 ∧ (u.fan ch).v = 0
        ∧ (u.fan ch).faultAt = z.now) ∧
  (∀ (s z : State) (t ch : Nat), z = s.at t → z.fanState ch = 5 → 8 ≤ (z.fan ch).edgeRuns →
    Answers (.tachRestored t ch) s fun u => u.fanState ch = 4 ∨ u.fanState ch = 6) ∧
  (∀ (s z : State) (t ch from_ : Nat), z = s.at t → ch < 34 → (z.fan ch).limFrom = some from_ →
    from_ + 2 * sec ≤ z.now → z.fanState ch ≠ 7 →
    Answers (.fanOverload t ch) s fun u =>
      u.fanState ch = 7 ∧ u.fanFault ch = setBit (z.fanFault ch) 3 ∧ (u.fan ch).v = 0
        ∧ (u.fan ch).faultAt = z.now) ∧
  (∀ (s z : State) (t ch temp : Nat), z = s.at t → ch < 34 → 150 ≤ temp → (z.fanFault ch).testBit 4 = false →
    Answers (.fanHot t ch temp) s fun u =>
      u.fanState ch = 7 ∧ u.fanFault ch = setBit (z.fanFault ch) 4 ∧ (u.fan ch).v = 0 ∧ (u.fan ch).temp = temp) ∧
  (∀ (s a : State) (t i : Nat) (rx : Rx) (live : Bool), (s.at t).screen rx fanCmdService = .run live a →
    i = (Req.parse rx).index - E.FAN_CMD.key / 256 → i < 28 →
    Answers (.fanCmd t rx) s fun u =>
      u.fanFault i = (if (a.fanFault i).testBit 4 = true ∧ 125 ≤ (a.fan i).temp then 16 else 0)
        + (if (a.fanFault i).testBit 1 = true ∧ a.tachAbsent i = true then 2 else 0)) ∧
  (∀ (s z : State) (t ch : Nat), z = s.at t → ch < 34 → (z.unit (fanRow ch)).role = 0 →
    Answers (.fanDriverFault t ch) s fun u =>
      ((u.unit (fanRow ch)).role = 2 ∨ (u.unit (fanRow ch)).role = 4)
        ∧ (u.fan ch).fenceTick = some z.tick ∧ (u.fan ch).v = 0) ∧
  (∀ (s z : State) (t ch f row : Nat), z = s.at t → ch < 28 → (z.fan ch).fenceTick = some f → f < z.tick →
    z.bestSpare (kindRows 5) = some row →
    Answers (.fanTakeover t ch) s fun u =>
      u.getU E.FAN_OUTPUT ch = 0xFF ∧ u.getU E.FAN_MOVED_TO ch = row - kindRow 5 ∧ (u.unit row).role = 0) ∧
  (∀ (s z : State) (t ch out from_ : Nat), z = s.at t → ch < 28 → (z.fan ch).switching = some (out, from_) →
    z.ioc.fansLow = true →
    Answers (.fanSwitchDone t ch) s fun u =>
      u.getU E.FAN_OUTPUT ch = out ∧ (u.fan ch).switching = none ∧ u.fanState ch = 8) ∧
  (∀ (s z : State) (t n f r : Nat), z = s.at t → n < 6 → z.fanFault (28 + n) &&& 0x25 ≠ 0 →
    (z.fan (28 + n)).fenceTick = some f → (z.unit (fanRow (28 + n))).role ≠ 0 → z.bestSpare (kindRows 6) = some r →
    Answers (.ifanTakeover t n) s fun u => u.ioc.ifanWait = some (r - kindRow 6) ∧ (u.unit r).role = 0)

/-- Field bus ports and objects (R513, R517, R521, R529, R532 to R535, R538, R540, R541): what each command leaves where
its condition holds. -/
def Obligations.FieldBusRuns : Prop :=
  (∀ (s z : State) (t port : Nat) (f : CanFrame), z = s.at t → port < 8 → z.fbOn port = true →
    Answers (.canFrameReceive t port f) s fun u =>
      u.getU E.FB_RX_FRAMES port = (z.getU E.FB_RX_FRAMES port + 1) % 2 ^ 64) ∧
  (∀ (s z : State) (t port time k : Nat) (data : Bytes), z = s.at t → port < 8 → z.fbOn port = true →
    (z.fbPort port).bus = some (k, data) →
    Answers (.canTxDone t port time) s fun u =>
      u.getU E.FB_TX_FRAMES port = (z.getU E.FB_TX_FRAMES port + 1) % 2 ^ 64 ∧ u.getU E.FB_UNACKED port = 0
        ∧ u.getU E.FB_TEC port = z.getU E.FB_TEC port - 1) ∧
  (∀ (s z : State) (t port : Nat) (e : CanErr) (c : Ent), z = s.at t → port < 8 → z.fbOn port = true →
    c = (match e.kind with
      | 0 => E.FB_ERR_BIT | 1 => E.FB_ERR_STUFF | 2 => E.FB_ERR_FORM | 3 => E.FB_ERR_CRC | _ => E.FB_ERR_ACK) →
    Answers (.canError t port e) s fun u => u.getU c port = (z.getU c port + 1) % 2 ^ 64) ∧
  (∀ (s a : State) (t i : Nat) (rx : Rx) (live : Bool), (s.at t).screen rx fbCmdRejoinService = .run live a →
    i = (Req.parse rx).index - E.FB_CMD.key / 256 →
    Answers (.fbCmdRejoin t rx) s fun u => u.fbPort i = { a.fbPort i with rejoin := some (a.tick + 1) }) ∧
  (∀ (s a : State) (t i : Nat) (rx : Rx) (live : Bool), (s.at t).screen rx fbCmdProbeService = .run live a →
    i = (Req.parse rx).index - E.FB_CMD.key / 256 → a.fbState i = 4 →
    Answers (.fbCmdProbe t rx) s fun u => u.fbPort i = { a.fbPort i with probeNow := true }) ∧
  (∀ (s z : State) (t port : Nat), z = s.at t → z.fbState port = 6 →
    (z.fbPort port).since + 1408 * z.fbBit port ≤ z.now →
    Answers (.busOffRecoveryDone t port) s fun u =>
      u.fbState port = 2 ∧ u.getU E.FB_TEC port = 0 ∧ u.getU E.FB_REC port = 0) ∧
  (∀ (s z : State) (t port : Nat), z = s.at t → port < 8 → z.fbState port = 2 ∨ z.fbState port = 3 →
    16 ≤ z.getU E.FB_UNACKED port →
    Answers (.aloneEnter t port) s fun u =>
      u.fbState port = 4 ∧ u.getU E.FB_ALONE_EVENTS port = (z.getU E.FB_ALONE_EVENTS port + 1) % 2 ^ 64
        ∧ (u.fbPort port).bus = none) ∧
  (∀ (s z : State) (t port k : Nat), z = s.at t → z.fbState port = 4 → (z.fbPort port).bus = none →
    (z.fbPort port).probed < z.tick → (z.fbPort port).probeNow = true → z.pastSlot 50 = true →
    minBy (fun k => arbKey (z.effObj E.TX_CONFIG k)) ((z.objects E.TX_CONFIG port).filter fun k =>
      txEnabled (z.effObj E.TX_CONFIG k) && ((z.txObj k).pending.isSome || (z.txObj k).last.isSome)) = some k →
    Answers (.aloneProbe t port) s fun u =>
      (u.fbPort port).bus = some (k, match (z.txObj k).pending with | some d => d | none => (z.txObj k).last.getD [])
        ∧ (u.fbPort port).probed = z.tick ∧ (u.fbPort port).probeNow = false) ∧
  (∀ (s z : State) (t obj : Nat), z = s.at t → obj < 2048 → (z.effObj E.RX_CONFIG obj).testBit 63 = true →
    bits (z.effObj E.RX_CONFIG obj) 47 32 ≠ 0 → (z.getObj E.RX_STATUS obj).testBit 2 = false →
    (z.rxObj obj).lastAt + bits (z.effObj E.RX_CONFIG obj) 47 32 * ms ≤ z.now →
    Answers (.rxObjectStale t obj) s fun u => u.getObj E.RX_STATUS obj = setBit (z.getObj E.RX_STATUS obj) 2) ∧
  (∀ (s z : State) (t port : Nat), z = s.at t → (z.fbPort port).suppressed = true →
    z.getU E.FB_SUPPRESS_HOLD port ≤ (z.fbPort port).clearRun →
    Answers (.suppressionEnd t port) s fun u =>
      (u.fbPort port).suppressed = false ∧ (u.fbPort port).clearRun = 0) ∧
  (∀ (s z : State) (t port : Nat), z = s.at t → z.fbState port = 1 →
    (z.fbPort port).since + 11 * z.fbBit port ≤ z.now →
    Answers (.fbIntegrateDone t port) s fun u => u.fbState port = z.fbByCounters port) ∧
  (∀ (s z : State) (t port : Nat), z = s.at t → port < 8 → z.fbState port ≠ 7 →
    Answers (.fbPortFence t port) s fun u => u.fbState port = 7 ∧ (u.fbPort port).bus = none)

/-- The plant supervisor, branches in trend and flow stop, leaks (R544, R549, R564, R566, R567, R569 to R574, R585):
what each command leaves where its condition holds. -/
def Obligations.PlantActs : Prop :=
  (∀ (s z : State) (t : Nat), z = s.at t → z.plantOn = true → z.pastSlot 8 = true → z.plant.ran ≠ some z.tick →
    Answers (.plantSupervisorRun t) s fun u =>
      u.plant.ran = some z.tick ∧ ∀ h, h < 16 → u.getU E.HX_STATE h = u.hxState h) ∧
  (∀ (s z : State) (t b : Nat), z = s.at t → z.plantOn = true → (z.branch b).trend = true →
    z.eff E.FLOW_RECOVER_TICKS ≤ (z.branch b).clearRun →
    Answers (.trendEnd t b) s fun u =>
      u.branch b = { z.branch b with trend := false, lowRun := 0, returnRun := 0 }) ∧
  (∀ (s z : State) (t b : Nat), z = s.at t → z.plantOn = true → (z.branch b).stop = 1 ∨ (z.branch b).leak = 5 →
    z.eff E.FLOW_RECOVER_TICKS ≤ (z.branch b).recoverRun →
    Answers (.flowRecovery t b) s fun u =>
      (u.branch b).stop = 2 ∧ (u.branch b).bound = (z.plantCeil b).getD 0 ∧ (u.branch b).recoverTick = z.tick
        ∧ (u.branch b).leak = if (z.branch b).leak = 5 then 0 else (z.branch b).leak) ∧
  (∀ (s z : State) (t b l : Nat) (mine : List (Nat × Guest)) (left : List Nat), z = s.at t → z.plantOn = true →
    (z.branch b).stop = 3 → (z.branch b).lapse = some l → l < z.tick →
    (z.branch b).lifted = [] ∨ (z.branch b).liftTick + z.eff E.PLANT_LIFT_GAP ≤ z.tick →
    mine = (z.presents.filter fun p => p.2.pp.branch == b) →
    left = ((List.range 256).filter fun c =>
      (mine.any fun p => p.2.pp.cls == c) && !(z.branch b).lifted.contains c) →
    Answers (.plantClassLift t b) s fun u =>
      (left.length ≤ 1 → (u.branch b).stop = 0 ∧ (u.branch b).lifted = []) ∧
      (∀ c d rest, left = c :: d :: rest →
        (u.branch b).stop = 3 ∧ (u.branch b).lifted = (z.branch b).lifted ++ [c] ∧ (u.branch b).liftTick = z.tick)) ∧
  (∀ (s z : State) (t : Nat), z = s.at t → z.plantOn = true →
    Answers (.plantFanHoldRelease t) s fun u =>
      u.plant.hxHeld = (z.plant.hxHeld.filter fun h =>
          decide (z.plant.fanClear.getD h 0 < z.eff E.FLOW_RECOVER_TICKS))
        ∧ u.plant.fanHeld = (List.range 28).filter fun c =>
          u.plant.hxHeld.any fun h => (z.getU E.HX_FANS h).testBit c) ∧
  (∀ (s z : State) (t b c : Nat), z = s.at t → z.plantOn = true → b < 40 →
    z.rowInForce (scopeBranch b) z.tick = none ∨ (∃ r, z.rowInForce (scopeBranch b) z.tick = some r
      ∧ r.tick + r.hold ≤ z.tick + 1 ∧ r.tick ≠ z.tick) →
    (∀ r ∈ z.desk.rowOut, r.scope ≠ scopeBranch b) → z.linkUp = true → z.port.sending = true →
    z.plantCeil b = some c →
    Answers (.plantRowCutRefresh t b) s fun u =>
      u.desk.rowOut = { scope := scopeBranch b, ceiling := c, slew := z.eff E.PLANT_CUT_SLEW
                        hold := z.eff E.PLANT_CUT_HOLD } :: z.desk.rowOut) ∧
  (∀ (s z : State) (t r : Nat) (x : RopeIn), z = s.at t → r < 16 → z.fwRuns = true →
    z.wheel.idx % max 1 (z.ticksPerTurn / 8) = 0 → z.plant.ropeAt.get r ≠ some z.tick → z.getU E.ROPE_ENABLE r = 0 →
    Answers (.ropeMeasure t r x) s fun u => u.getU E.ROPE_STATE r = 0) ∧
  (∀ (s z : State) (t r run : Nat) (x : RopeIn), z = s.at t → r < 16 → z.fwRuns = true →
    z.wheel.idx % max 1 (z.ticksPerTurn / 8) = 0 → z.plant.ropeAt.get r ≠ some z.tick → z.getU E.ROPE_ENABLE r ≠ 0 →
    run = (if x.kohm < z.getU E.ROPE_WET_KOHM r then z.plant.ropeWet.getD r 0 + 1 else 0) →
    Answers (.ropeMeasure t r x) s fun u =>
      u.getU E.ROPE_KOHM r = satBytes 4 x.kohm
        ∧ u.getU E.ROPE_STATE r = (if 1000 < x.loop then 3 else if z.getU E.ROPE_PERSIST r ≤ run then 2 else 1)
        ∧ u.plant.ropeWet.getD r 0 = run
        ∧ (u.getU E.ROPE_STATE r = 2 → z.getU E.ROPE_STATE r ≠ 2 → u.plant.leakDue = z.plant.leakDue
            ++ (List.range 40).filter fun b => (z.getU E.ROPE_BRANCHES r).testBit b)) ∧
  (∀ (s z : State) (t b c : Nat), z = s.at t → z.plantOn = true → b < 40 → (z.branch b).leak = 1 →
    (z.branch b).leakTick + z.eff E.LEAK_CLOSE_MAX ≤ z.tick → z.isoChannel b = some c →
    Answers (.isolationCloseDemand t b) s fun u =>
      (u.valve c).plant = some (z.getU E.BR_ISO_CLOSE b) ∧ u.getU E.VALVE_REST c = z.getU E.BR_ISO_CLOSE b
        ∧ (u.branch b).leak = 2 ∧ (u.branch b).closeSeen = z.now) ∧
  (∀ (s z : State) (t b f c : Nat), z = s.at t → (z.branch b).oppositeFrom = some f → z.isoChannel b = some c →
    z.plantOn = true → (z.branch b).leak = 2 → f + z.getU E.SEAT_WINDOW_MS c * ms ≤ z.now →
    Answers (.isolationRetryClose t b) s fun u =>
      (u.valve c).plant = some (z.getU E.BR_ISO_CLOSE b)
        ∧ u.branch b = { z.branch b with closeSeen := z.now, oppositeFrom := none }) ∧
  (∀ (s a : State) (t i : Nat) (rx : Rx) (live : Bool), (s.at t).screen rx brCmdEndIsolationService = .run live a →
    i = (Req.parse rx).index - E.BR_CMD.key / 256 → (a.branch i).leak ≠ 0 →
    Answers (.brCmdEndIsolation t rx) s fun u => (u.branch i).leak = 5) ∧
  (∀ (s a : State) (t i : Nat) (rx : Rx) (live : Bool), (s.at t).screen rx brCmdDeclareLeakService = .run live a →
    i = (Req.parse rx).index - E.BR_CMD.key / 256 →
    Answers (.brCmdDeclareLeak t rx) s fun u => u.plant.leakDue = a.plant.leakDue ++ [i])

/-- Pump sets (R448, R559, R561 to R563, R586): what each command leaves where its condition holds. -/
def Obligations.PumpsTurn : Prop :=
  (∀ (s z : State) (t k j i : Nat), z = s.at t → i = 3 * k + j → z.plantOn = true → k < 8 → j < 3 →
    (z.pump i).starting ≠ none → (z.pump i).startedAt + z.getU E.PS_START_MS k * ms ≤ z.now →
    Answers (.pumpStartTimeout t k j) s fun u =>
      (u.pump i).starting = none ∧ (u.pump i).running = false ∧ (u.pump i).runCmd = false
        ∧ ((∀ b, b < 40 → (z.branch b).stop ≠ 1) → u.getU E.PUMP_ROLE i = 3)) ∧
  (∀ (s z : State) (t k j i f : Nat), z = s.at t → i = 3 * k + j → (z.pump i).faultClearFrom = some f →
    z.plantOn = true → z.getU E.PUMP_ROLE i = 3 → f + z.ticksPerTurn ≤ z.tick →
    Answers (.pumpStandbyReturn t k j) s fun u =>
      u.getU E.PUMP_ROLE i = 2 ∧ u.pump i = { z.pump i with faultClearFrom := none }) ∧
  (∀ (s z : State) (t k f : Nat), z = s.at t → (z.pumpSet k).rebind = some f → z.plantOn = true → f < z.tick →
    Answers (.leadRebind t k) s fun u =>
      u.pumpSet k = { z.pumpSet k with rebind := none }
        ∧ ∀ n i b, n = z.getU E.PS_ENGINE k → i = 3 * k + z.getU E.PS_LEAD k → b = z.getU E.OUT_BIND n → n ≠ 0xFFFF →
          z.getU E.PS_LEAD k ≠ 0xFF → bKind b = 3 →
          u.getU E.OUT_BIND n
            = bWithSel (b - bPort b * 2 ^ 24 + z.getU E.PUMP_PORT i * 2 ^ 24) (z.getU E.PUMP_TX i)) ∧
  (∀ (s z : State) (t k i : Nat), z = s.at t → z.plantOn = true → k < 8 → (z.pumpSet k).isOn = true →
    (z.pumpSet k).ordered = true ∨ (z.getU E.PS_ROTATE_TURNS k ≠ 0
      ∧ (z.pumpSet k).lastRotation + z.getU E.PS_ROTATE_TURNS k ≤ z.turn) →
    (∀ b ∈ z.branchesOf k, (z.branch b).trend = false ∧ (z.branch b).stop ≠ 1 ∧ (z.branch b).leak = 0) →
    (∀ j ∈ z.pumpsOf k, z.getU E.PUMP_ROLE j ≠ 3 ∧ (z.pump j).starting = none) → (z.pumpSet k).rotating = none →
    maxBy (fun j => z.turn - (z.pump j).lastRan) (z.standbys k) = some i →
    Answers (.pumpRotation t k) s fun u =>
      u.pumpSet k = { z.pumpSet k with ordered := false, lastRotation := z.turn, rotating := some i }
        ∧ (u.pump i).starting = some z.tick ∧ (u.pump i).startedAt = z.now ∧ (u.pump i).runCmd = true) ∧
  (∀ (s a : State) (t i : Nat) (rx : Rx) (live : Bool), (s.at t).screen rx psCmdService = .run live a →
    i = (Req.parse rx).index - E.PS_CMD.key / 256 →
    Answers (.psCmd t rx) s fun u => u.pumpSet i = { a.pumpSet i with ordered := true })

/-- The recorder (R594, R596, R606 to R611, R618): what each command leaves where its condition holds. -/
def Obligations.RecorderWrites : Prop :=
  (∀ (s z : State) (t pos : Nat) (x : Staged) (rest : List Staged), z = s.at t → z.recorder.running = true →
    z.recorder.lastCommit + 125000 ≤ z.now → z.recorder.staged = x :: rest → z.recorder.stopped = false →
    z.recorder.logLost = false → pos = (if x.isNew = true then z.get E.LOG_NEXT else x.cond.pos) →
    (x.isNew = true → pos < 16777216) → (∀ f ∈ z.recorder.failing, f.1 ≠ pageOf pos) →
    Answers (.logCommit t true) s fun u =>
      u.recorder.staged = rest ∧ u.recorder.lastCommit = z.now
        ∧ u.recorder.log.get pos = some { x.cond with pos := pos }
        ∧ (∀ p, p ≠ pos → u.recorder.log.get p = z.recorder.log.get p)
        ∧ u.get E.LOG_NEXT = (if x.isNew = true then pos + 1 else z.get E.LOG_NEXT)) ∧
  (∀ (s z : State) (t pos : Nat) (x : Staged) (rest : List Staged), z = s.at t → z.recorder.running = true →
    z.recorder.lastCommit + 125000 ≤ z.now → z.recorder.staged = x :: rest → z.recorder.stopped = false →
    z.recorder.logLost = false → pos = (if x.isNew = true then z.get E.LOG_NEXT else x.cond.pos) →
    (x.isNew = true → pos < 16777216) → (∀ f ∈ z.recorder.failing, f.1 ≠ pageOf pos) →
    Answers (.logCommit t false) s fun u =>
      u.recorder.staged = x :: rest ∧ u.recorder.failing = z.recorder.failing ++ [(pageOf pos, z.tick)]
        ∧ u.recorder.log = z.recorder.log) ∧
  (∀ (s z : State) (t : Nat), z = s.at t → z.recorder.running = true → z.recorder.staged = [] → 0 < z.recorder.lost →
    Answers (.eventsLostRecord t) s fun u =>
      u.recorder.lost = 0 ∧ ∃ x, u.recorder.staged = [x] ∧ x.isNew = true ∧ x.cond.index = 0x9002 ∧ x.cond.bit = 0
        ∧ x.cond.count = z.recorder.lost ∧ x.cond.start = z.recorder.lostFirstTick) ∧
  (∀ (s z : State) (t page at_ : Nat) (damaged : List Nat), z = s.at t → (page, at_) ∈ z.recorder.failing →
    at_ < z.tick → z.get E.LOG_SPARE_PAGES = 0 →
    Answers (.logPageRetire t page damaged) s fun u =>
      u.recorder.stopped = true ∧ u.recorder.failing = z.recorder.failing.filter fun f => f.1 != page) ∧
  (∀ (s z : State) (t page at_ : Nat) (damaged : List Nat), z = s.at t → (page, at_) ∈ z.recorder.failing →
    at_ < z.tick → z.get E.LOG_SPARE_PAGES ≠ 0 →
    Answers (.logPageRetire t page damaged) s fun u =>
      u.recorder.pageMap.get page = some (492 - z.get E.LOG_SPARE_PAGES)
        ∧ u.recorder.failing = (z.recorder.failing.filter fun f => f.1 != page)
        ∧ u.get E.LOG_SPARE_PAGES = z.get E.LOG_SPARE_PAGES - 1
        ∧ u.get E.LOG_PAGES_RETIRED = (z.get E.LOG_PAGES_RETIRED + 1) % 2 ^ 64) ∧
  (∀ (s z : State) (t : Nat), z = s.at t → z.recorder.clearing ≠ 0 →
    Answers (.recCmdComplete t) s fun u => u.recorder.clearing = 0 ∧ u.get E.REC_CMD_STATE = 0) ∧
  (∀ (s a : State) (t : Nat) (rx : Rx) (live : Bool) (b : Bytes), (s.at t).screen rx histSetService = .run live a →
    b = (Req.parse rx).value →
    Answers (.histSet t rx) s fun u =>
      u.recorder.histDue = a.recorder.histDue ++ [(field b 0 2, a.tick + 1,
        { source := field b 2 1, select := field b 4 2, lo := field b 8 4, width := field b 12 4 })]) ∧
  (∀ (s a : State) (t : Nat) (rx : Rx) (live : Bool), (s.at t).screen rx recCmdClearLogService = .run live a →
    Answers (.recCmdClearLog t rx) s fun u => u.recorder.cmds = a.recorder.cmds ++ [(1, a.tick + 1)]) ∧
  (∀ (s a : State) (t : Nat) (rx : Rx) (live : Bool), (s.at t).screen rx recCmdClearHistogramsService = .run live a →
    Answers (.recCmdClearHistograms t rx) s fun u => u.recorder.cmds = a.recorder.cmds ++ [(2, a.tick + 1)]) ∧
  (∀ (s a : State) (t : Nat) (rx : Rx) (live : Bool), (s.at t).screen rx recCmdClearGuestHistoryService = .run live a →
    Answers (.recCmdClearGuestHistory t rx) s fun u =>
      u.recorder.cmds = a.recorder.cmds ++ [(3, a.tick + 1)] ∧ u.get E.REC_CMD_STATE = 1) ∧
  (∀ (s a : State) (t : Nat) (rx : Rx) (live : Bool), (s.at t).screen rx recCmdClearDieRainflowService = .run live a →
    Answers (.recCmdClearDieRainflow t rx) s fun u =>
      u.recorder.cmds = a.recorder.cmds ++ [(4, a.tick + 1)] ∧ u.get E.REC_CMD_STATE = 1) ∧
  (∀ (s a : State) (t : Nat) (rx : Rx) (live : Bool), (s.at t).screen rx recCmdClearFramLastgaspService = .run live a →
    Answers (.recCmdClearFramLastgasp t rx) s fun u => u.recorder.cmds = a.recorder.cmds ++ [(5, a.tick + 1)])

/-- Logic power, the restart order, and the fuses (R37, R615, R632, R640, R670, R672): what each command leaves where its
condition holds. -/
def Obligations.PowerAndFuses : Prop :=
  (∀ (s z : State) (t : Nat), z = s.at t → z.elec.power = 1 →
    Answers (.logicPowerLoss t) s fun u =>
      u.elec.power = 2 ∧ u.recorder.staged = [] ∧ u.guests = [] ∧ u.fram = z.fram ∧
      (z.recorder.running = false → u.recorder.gasp = z.recorder.gasp) ∧
      (z.recorder.running = true → z.recorder.gasp.length < 64 →
        ∃ c, u.recorder.gasp = z.recorder.gasp ++ [c] ∧ c.index = 0x9002 ∧ c.bit = 3 ∧ c.start = z.tick)) ∧
  (∀ (s z : State) (t : Nat), z = s.at t → z.elec.power = 2 →
    Answers (.framCopyDone t) s fun u =>
      u.elec.power = 3 ∧ u.recorder.gasp = [] ∧ (z.recorder.running = false → u.fram = z.fram) ∧
      (z.recorder.running = true → u.fram = { z.fram with gasp := z.recorder.gasp, dieRf := z.recorder.dieRf })) ∧
  (∀ (s a : State) (t : Nat) (rx : Rx) (live : Bool), (s.at t).screen rx startCmdService = .run live a →
    Answers (.startCmd t rx) s fun u =>
      (∀ x, a.start.restart = some x → u.start.restart = some x) ∧
      (a.start.restart = none → u.start.restart = some (100 * ms
        + if a.get E.WHEEL_STATE = 0 then a.now else a.wheel.tickStart + a.wheel.tickLen)) ∧
      (a.inRest = false → u.get E.STANCE_ACTIVE = 3 ∧ u.get E.REST_CAUSE = 3)) ∧
  (∀ (s a : State) (t : Nat) (rx : Rx) (live : Bool), (s.at t).screen rx actCmdService = .run live a →
    Answers (.actCmd t rx) s fun u => u.get E.ACT_FUSE_STATE = 0) ∧
  (∀ (s a : State) (t : Nat) (rx : Rx) (live : Bool), (s.at t).screen rx fuseSecRaiseService = .run live a →
    Answers (.fuseSecRaise t rx) s fun u =>
      u.get E.FUSE_SEC_VERSION = a.get E.FW_SEC_VERSION ∧ u.start.fuseSec = a.get E.FW_SEC_VERSION) ∧
  (∀ (s a : State) (t : Nat) (rx : Rx) (live : Bool), (s.at t).screen rx fuseKeyRevokeService = .run live a →
    Answers (.fuseKeyRevoke t rx) s fun u =>
      u.get E.FUSE_KEY_REVOKED = setBit a.start.fuseRevoked 0 ∧ u.start.fuseRevoked = setBit a.start.fuseRevoked 0)

/-- Self-tests, spares and the units they serve (R548, R648 to R655, R658): what each command leaves where its condition
holds. -/
def Obligations.TestsAndSpares : Prop :=
  (∀ (s z : State) (t row sig : Nat), z = s.at t → z.fwRuns = true → row < 674 → (z.unit row).role = 3 →
    (z.unit row).testFrom ≠ none →
    Answers (.bistComplete t row sig) s fun u =>
      (u.unit row).lastSig = sig ∧ (u.unit row).testFrom = none ∧ (u.unit row).role = 3 ∧
      ((z.unit row).outcome ≠ none → (u.unit row).outcome = (z.unit row).outcome) ∧
      ((z.unit row).outcome = none → z.storedSignature (kindOf row) = some sig →
        (u.unit row).outcome = some (0, z.tick)) ∧
      ((z.unit row).outcome = none → z.storedSignature (kindOf row) ≠ some sig →
        (u.unit row).outcome = some (1, z.tick))) ∧
  (∀ (s z : State) (t row f : Nat), z = s.at t → z.fwRuns = true → row < 674 → (z.unit row).role = 3 →
    (z.unit row).outcome = none → (z.unit row).testFrom = some f → f + 2 * bistTime (kindOf row) ≤ z.now →
    Answers (.bistTimeout t row) s fun u =>
      u.unit row = { z.unit row with outcome := some (4, z.tick), testFrom := none }) ∧
  (∀ (s z : State) (t row k : Nat), z = s.at t → z.fwRuns = true → row < 674 → (z.unit row).role = 3 →
    (z.unit row).outcome = some (0, k) → k < z.tick → kindOf row ≠ 15 ∨ z.wear.waiting = [] →
    Answers (.bistResult t row) s fun u =>
      (u.unit row).role = 1 ∧ (u.unit row).tested = true ∧ (u.unit row).lastPass = z.turn
        ∧ (u.unit row).passes = satBytes 4 ((z.unit row).passes + 1) ∧ (u.unit row).outcome = none) ∧
  (∀ (s z : State) (t row k o : Nat), z = s.at t → z.fwRuns = true → row < 674 → (z.unit row).role = 3 →
    (z.unit row).outcome = some (o, k) → o ≠ 0 → k < z.tick → kindOf row ≠ 15 ∨ z.wear.waiting = [] →
    Answers (.bistResult t row) s fun u =>
      (u.unit row).role = 4 ∧ (u.unit row).cause = (if o = 4 then 4 else 1)
        ∧ (u.unit row).fails = satBytes 4 ((z.unit row).fails + 1)) ∧
  (∀ (s z : State) (t kind r : Nat), z = s.at t → z.fwRuns = true → z.inRest = false → z.wheel.idx = 0 → kind ≠ 12 →
    kind ≠ 16 → z.spareInTest (kindRows kind) = false →
    minBy (fun r => (z.unit r).lastPass) ((kindRows kind).filter fun r => (z.unit r).role == 1 && (z.unit r).tested
      && decide ((z.unit r).lastPass + z.effU E.SPARE_RETEST_TURNS kind < z.turn)) = some r →
    Answers (.spareRetest t kind) s fun u =>
      (u.unit r).role = 3 ∧ (u.unit r).retest = true ∧ (u.unit r).testFrom = some z.now
        ∧ (u.unit r).tested = false) ∧
  (∀ (s z : State) (t kind o i : Nat), z = s.at t → z.fwRuns = true → z.get E.WHEEL_STATE ≠ 0 → z.wheel.idx = 0 →
    kind = 3 ∨ kind = 15 → z.wear.lastPlanned.getD kind 0 + z.effU E.PLANNED_TEST_TURNS kind ≤ z.turn →
    z.wear.plannedTried.get kind ≠ some z.turn → z.inRest = false → z.plannedOut kind = some o →
    z.longestSpare (kindRows kind) = some i → (z.unit o).role = 0 → (z.unit i).role = 1 →
    Answers (.plannedTest t kind) s fun u =>
      (u.unit i).role = 0 ∧ (u.unit o).role = 2 ∧ (u.unit o).planned = true
        ∧ u.wear.lastPlanned.getD kind 0 = z.turn) ∧
  (∀ (s z : State) (t o i : Nat), z = s.at t → z.fwRuns = true → z.get E.WHEEL_STATE ≠ 0 → z.wheel.idx = 0 →
    z.wear.lastPlanned.getD 6 0 + z.effU E.PLANNED_TEST_TURNS 6 ≤ z.turn → z.wear.plannedTried.get 6 ≠ some z.turn →
    z.inRest = false → z.plannedOut 6 = some o → z.longestSpare (kindRows 6) = some i →
    Answers (.plannedTest t 6) s fun u =>
      u.wear.ifanSwap = some (o - kindRow 6, i - kindRow 6) ∧ u.wear.lastPlanned.getD 6 0 = z.turn) ∧
  (∀ (s z : State) (t keeper row : Nat), z = s.at t → row = kindRow 15 + keeper → z.fwRuns = true → keeper < 18 →
    (z.unit row).role = 0 ∨ (z.unit row).role = 1 →
    Answers (.keeperBlockError t keeper) s fun u => (u.unit row).role = 2 ∨ (u.unit row).role = 4) ∧
  (∀ (s z : State) (t keeper row : Nat), z = s.at t → row = kindRow 15 + keeper → z.fwRuns = true → keeper < 18 →
    (z.unit row).role = 3 →
    Answers (.keeperBlockError t keeper) s fun u => u.unit row = { z.unit row with outcome := some (1, z.tick) }) ∧
  (∀ (s z : State) (t ch f row a : Nat), z = s.at t → ch < 80 → (z.ain ch).fenceTick = some f → f < z.tick →
    z.bestSpare (kindRows 8) = some row → a = row - kindRow 8 → ch ≠ a →
    Answers (.ainTakeover t ch) s fun u =>
      u.getU E.AIN_MOVED_TO ch = a ∧ u.getU E.AIN_TERMINAL ch = 0xFF ∧ (u.ain ch).fenceTick = none
        ∧ (u.ain a).switching = some (z.getU E.AIN_TERMINAL ch, z.now) ∧ (u.unit row).role = 0) ∧
  (∀ (s z : State) (t ch f : Nat), z = s.at t → ch < 80 → (z.ain ch).fenceTick = some f → f < z.tick →
    z.bestSpare (kindRows 8) = none → z.spareInTest (kindRows 8) = false →
    Answers (.ainTakeover t ch) s fun u => u.getU E.AIN_TERMINAL ch = 0xFF ∧ (u.ain ch).fenceTick = none) ∧
  (∀ (s z : State) (t ch term from_ : Nat), z = s.at t → (z.ain ch).switching = some (term, from_) →
    Answers (.ainSwitchDone t ch) s fun u =>
      u.getU E.AIN_TERMINAL ch = term ∧ u.ain ch = { z.ain ch with switching := none })
end

