-- ==== Sys2Proof/Laws/AMap.lean ====
section
/-! SUPPORT. Laws of the sparse stores: reading after writing, and the canonical form. -/

namespace Sys2Proof.Machine

variable {α : Type}

theorem AMap.get_set_same (m : AMap α) (k : Nat) (v : α) : AMap.get (AMap.set m k v) k = some v := by
  induction m with
  | nil => simp [AMap.set, AMap.get]
  | cons p m ih =>
    obtain ⟨j, w⟩ := p
    simp only [AMap.set]
    split
    · simp [AMap.get]
    · split
      · simp [AMap.get]
      · rename_i h; simp [AMap.get, Ne.symm h, ih]

theorem AMap.get_set_ne (m : AMap α) {k l : Nat} (h : l ≠ k) (v : α) :
    AMap.get (AMap.set m k v) l = AMap.get m l := by
  induction m with
  | nil => simp [AMap.set, AMap.get, Ne.symm h]
  | cons p m ih =>
    obtain ⟨j, w⟩ := p
    simp only [AMap.set]
    split
    · simp [AMap.get, Ne.symm h]
    · split
      · rename_i e; subst e; simp [AMap.get, Ne.symm h]
      · simp only [AMap.get, ih]

theorem AMap.get_erase_same (m : AMap α) (k : Nat) : AMap.get (AMap.erase m k) k = none := by
  induction m with
  | nil => rfl
  | cons p m ih =>
    obtain ⟨j, w⟩ := p
    by_cases h : j = k
    · simpa [AMap.erase, h] using ih
    · simpa [AMap.erase, AMap.get, h] using ih

theorem AMap.get_erase_ne (m : AMap α) {k l : Nat} (h : l ≠ k) : AMap.get (AMap.erase m k) l = AMap.get m l := by
  induction m with
  | nil => rfl
  | cons p m ih =>
    obtain ⟨j, w⟩ := p
    by_cases e : j = k
    · subst e; simpa [AMap.erase, AMap.get, Ne.symm h] using ih
    · by_cases f : j = l
      · simp [AMap.erase, AMap.get, f, h]
      · simpa [AMap.erase, AMap.get, e, f] using ih

theorem AMap.getD_put_same [DecidableEq α] (m : AMap α) (k : Nat) (v d : α) :
    AMap.getD (AMap.put m k v d) k d = v := by
  unfold AMap.put AMap.getD
  split
  · simp [AMap.get_erase_same, *]
  · simp [AMap.get_set_same]

theorem AMap.getD_put_ne [DecidableEq α] (m : AMap α) {k l : Nat} (h : l ≠ k) (v d e : α) :
    AMap.getD (AMap.put m k v d) l e = AMap.getD m l e := by
  unfold AMap.put AMap.getD
  split
  · rw [AMap.get_erase_ne m h]
  · rw [AMap.get_set_ne m h]

/-! ### The canonical form -/

theorem AMap.wf_iff (m : AMap α) : AMap.wf m = true ↔ m.Pairwise (fun p q => p.1 < q.1) := by
  induction m with
  | nil => simp [AMap.wf]
  | cons p m ih =>
    cases m with
    | nil => simp [AMap.wf]
    | cons q m =>
      obtain ⟨j, v⟩ := p
      obtain ⟨k, w⟩ := q
      simp only [AMap.wf, Bool.and_eq_true, decide_eq_true_eq, ih, List.pairwise_cons]
      constructor
      · rintro ⟨h, a, b⟩
        refine ⟨?_, a, b⟩
        intro x hx
        rcases List.mem_cons.1 hx with rfl | hx
        · exact h
        · exact Nat.lt_trans h (a x hx)
      · rintro ⟨h, a, b⟩
        exact ⟨h _ (List.mem_cons_self ..), a, b⟩

theorem AMap.mem_set {m : AMap α} {k : Nat} {v : α} {x : Nat × α} (h : x ∈ AMap.set m k v) :
    x = (k, v) ∨ x ∈ m := by
  induction m with
  | nil => simp [AMap.set] at h; exact .inl h
  | cons p m ih =>
    obtain ⟨j, w⟩ := p
    simp only [AMap.set] at h
    split at h
    · rcases List.mem_cons.1 h with h | h
      · exact .inl h
      · exact .inr h
    · split at h
      · rcases List.mem_cons.1 h with h | h
        · exact .inl h
        · exact .inr (List.mem_cons_of_mem _ h)
      · rcases List.mem_cons.1 h with h | h
        · exact .inr (h ▸ List.mem_cons_self ..)
        · rcases ih h with h | h
          · exact .inl h
          · exact .inr (List.mem_cons_of_mem _ h)

theorem AMap.wf_set {m : AMap α} (h : AMap.wf m = true) (k : Nat) (v : α) : AMap.wf (AMap.set m k v) = true := by
  rw [AMap.wf_iff] at *
  induction m with
  | nil => simp [AMap.set]
  | cons p m ih =>
    obtain ⟨j, w⟩ := p
    rw [List.pairwise_cons] at h
    obtain ⟨h1, h2⟩ := h
    simp only [AMap.set]
    split
    · rename_i hk
      refine List.pairwise_cons.2 ⟨?_, List.pairwise_cons.2 ⟨h1, h2⟩⟩
      intro x hx
      rcases List.mem_cons.1 hx with rfl | hx
      · exact hk
      · exact Nat.lt_trans hk (h1 x hx)
    · split
      · rename_i hk
        subst hk
        exact List.pairwise_cons.2 ⟨h1, h2⟩
      · rename_i hk hne
        refine List.pairwise_cons.2 ⟨?_, ih h2⟩
        intro x hx
        rcases AMap.mem_set hx with rfl | hx
        · have : ¬ k < j := hk
          show j < k
          omega
        · exact h1 x hx

theorem AMap.wf_erase {m : AMap α} (h : AMap.wf m = true) (k : Nat) : AMap.wf (AMap.erase m k) = true := by
  rw [AMap.wf_iff] at *
  exact h.filter _

theorem AMap.wf_filter {m : AMap α} (h : AMap.wf m = true) (f : Nat × α → Bool) : AMap.wf (m.filter f) = true := by
  rw [AMap.wf_iff] at *
  exact h.filter _

theorem AMap.wf_put [DecidableEq α] {m : AMap α} (h : AMap.wf m = true) (k : Nat) (v d : α) :
    AMap.wf (AMap.put m k v d) = true := by
  unfold AMap.put
  split
  · exact AMap.wf_erase h k
  · exact AMap.wf_set h k v

theorem AMap.wf_mapVals {β : Type} {m : AMap α} (h : AMap.wf m = true) (f : Nat → α → β) :
    AMap.wf (AMap.mapVals m f) = true := by
  rw [AMap.wf_iff] at *
  exact List.pairwise_map.2 h

/-- A store put together by writes from an empty one is in canonical form. -/
theorem AMap.wf_foldl {β : Type} (f : AMap α → β → AMap α) (hf : ∀ m b, AMap.wf m = true → AMap.wf (f m b) = true)
    (l : List β) (m : AMap α) (h : AMap.wf m = true) : AMap.wf (l.foldl f m) = true := by
  induction l generalizing m with
  | nil => exact h
  | cons b l ih => exact ih (f m b) (hf m b h)

end Sys2Proof.Machine
end

