-- ==== Sys2Proof/Laws/Kept.lean ====
section
/-! SUPPORT. What every shared operation keeps: the time, the queue of commands, and the invariant of Safety. One lemma
per operation, in the files beside this one. -/

namespace Sys2Proof.Machine

open Sys2Proof

/-- `t` is reached from `s` without moving the time back or touching the queue, and keeps the invariant. -/
structure Kept (s t : State) : Prop where
  now : s.now ≤ t.now
  pending : t.pending = s.pending
  safe : State.safe s = true → State.safe t = true

theorem Kept.refl (s : State) : Kept s s := ⟨Nat.le_refl _, rfl, id⟩

theorem Kept.trans {s t u : State} (h : Kept s t) (k : Kept t u) : Kept s u :=
  ⟨Nat.le_trans h.now k.now, k.pending.trans h.pending, fun x => k.safe (h.safe x)⟩

theorem Kept.ite {s t u : State} {c : Prop} [Decidable c] (h : c → Kept s t) (k : ¬c → Kept s u) :
    Kept s (if c then t else u) := by
  split
  · exact h ‹_›
  · exact k ‹_›

theorem Kept.foldl {β : Type} {f : State → β → State} (hf : ∀ s b, Kept s (f s b)) (l : List β) (s : State) :
    Kept s (l.foldl f s) := by
  induction l generalizing s with
  | nil => exact Kept.refl s
  | cons b l ih => exact (hf s b).trans (ih (f s b))

theorem Kept.foldl_fst {α β : Type} {f : State × α → β → State × α} (hf : ∀ p b, Kept p.1 (f p b).1) (l : List β)
    (p : State × α) : Kept p.1 (l.foldl f p).1 := by
  induction l generalizing p with
  | nil => exact Kept.refl p.1
  | cons b l ih => exact (hf p b).trans (ih (f p b))

/-- The parts of the invariant. -/
theorem safe_iff (s : State) :
    State.safe s = true ↔ AMap.wf s.regs = true ∧ Dict.bounded s.dict = true ∧ Recorder.bounded s.recorder = true := by
  simp [State.safe, and_assoc]

/-- An update that leaves registers, dictionary and recorder alone. -/
theorem Kept.of_same {s t : State} (h0 : t.now = s.now) (h1 : t.pending = s.pending) (h2 : t.regs = s.regs)
    (h3 : t.dict = s.dict) (h4 : t.recorder = s.recorder) : Kept s t :=
  ⟨h0 ▸ Nat.le_refl _, h1, fun h => by simpa [State.safe, h2, h3, h4] using h⟩

/-- `Kept` sees an update of other fields as none. -/
theorem Kept.mk_iff {s t : State} {fram freeCtr latched stancePending wheel phases port start wear elec
    fabric stackMap guests desk guard progs loader row plant ioc} :
    Kept s ⟨t.now, t.regs, fram, freeCtr, latched, stancePending, t.recorder, wheel, phases, port, t.dict, start, wear,
      elec, fabric, stackMap, guests, desk, guard, progs, loader, row, plant, ioc, t.pending⟩ ↔ Kept s t :=
  ⟨fun h => ⟨h.now, h.pending, h.safe⟩, fun h => ⟨h.now, h.pending, h.safe⟩⟩

/-- An update of the dictionary server outside its bounded lists is none. -/
theorem Kept.dict_iff {s t : State} {fram freeCtr latched stancePending wheel phases port start wear elec
    fabric stackMap guests desk guard progs loader row plant ioc isOpen bulkWrites held hostHeard} :
    Kept s ⟨t.now, t.regs, fram, freeCtr, latched, stancePending, t.recorder, wheel, phases, port, ⟨isOpen, t.dict.sessions, t.dict.cache, t.dict.subs, t.dict.bulks, bulkWrites, held, hostHeard⟩, start, wear,
      elec, fabric, stackMap, guests, desk, guard, progs, loader, row, plant, ioc, t.pending⟩ ↔ Kept s t :=
  ⟨fun h => ⟨h.now, h.pending, h.safe⟩, fun h => ⟨h.now, h.pending, h.safe⟩⟩

/-- An update of the recorder outside its bounded lists is none. -/
theorem Kept.recorder_iff {s t : State} {fram freeCtr latched stancePending wheel phases port start wear elec
    fabric stackMap guests desk guard progs loader row plant ioc
    lastCommit log folds lost lostFirst lostFirstTick lostLastTick running stopped logLost failing
    pageMap damaged hists histDue histCountDue histCountNow extremes rainflow dieRf cmds clearing} :
    Kept s ⟨t.now, t.regs, fram, freeCtr, latched, stancePending, ⟨t.recorder.staged, lastCommit, log, folds, lost,
      lostFirst, lostFirstTick, lostLastTick, running, stopped, logLost, failing, pageMap, damaged, t.recorder.gasp, hists,
      histDue, histCountDue, histCountNow, extremes, rainflow, dieRf, cmds, clearing⟩, wheel, phases, port, t.dict, start, wear,
      elec, fabric, stackMap, guests, desk, guard, progs, loader, row, plant, ioc, t.pending⟩ ↔ Kept s t :=
  ⟨fun h => ⟨h.now, h.pending, h.safe⟩, fun h => ⟨h.now, h.pending, h.safe⟩⟩

/-- An update of the registers in canonical form. -/
theorem Kept.of_regs {s t : State} (h0 : t.now = s.now) (h1 : t.pending = s.pending)
    (h2 : AMap.wf s.regs = true → AMap.wf t.regs = true) (h3 : t.dict = s.dict) (h4 : t.recorder = s.recorder) :
    Kept s t :=
  ⟨h0 ▸ Nat.le_refl _, h1, fun h => by
    rw [safe_iff] at *
    rw [h3, h4]
    exact ⟨h2 h.1, h.2⟩⟩

/-- An update of the dictionary server within its bounds. -/
theorem Kept.of_dict {s t : State} (h0 : t.now = s.now) (h1 : t.pending = s.pending) (h2 : t.regs = s.regs)
    (h3 : Dict.bounded s.dict = true → Dict.bounded t.dict = true) (h4 : t.recorder = s.recorder) : Kept s t :=
  ⟨h0 ▸ Nat.le_refl _, h1, fun h => by
    rw [safe_iff] at *
    rw [h2, h4]
    exact ⟨h.1, h3 h.2.1, h.2.2⟩⟩

/-- An update of the recorder within its bounds. -/
theorem Kept.of_recorder {s t : State} (h0 : t.now = s.now) (h1 : t.pending = s.pending) (h2 : t.regs = s.regs)
    (h3 : t.dict = s.dict) (h4 : Recorder.bounded s.recorder = true → Recorder.bounded t.recorder = true) : Kept s t :=
  ⟨h0 ▸ Nat.le_refl _, h1, fun h => by
    rw [safe_iff] at *
    rw [h2, h3]
    exact ⟨h.1, h.2.1, h4 h.2.2⟩⟩

/-- An update that leaves the registers and every bounded list alone. -/
theorem Kept.of_lists {s t : State} (h0 : t.now = s.now) (h1 : t.pending = s.pending) (h2 : t.regs = s.regs)
    (h3 : t.dict.cache = s.dict.cache) (h4 : t.dict.bulks = s.dict.bulks) (h5 : t.dict.subs = s.dict.subs)
    (h6 : t.dict.sessions = s.dict.sessions) (h7 : t.recorder.staged = s.recorder.staged)
    (h8 : t.recorder.gasp = s.recorder.gasp) : Kept s t :=
  ⟨h0 ▸ Nat.le_refl _, h1, fun h => by
    simpa only [State.safe, Dict.bounded, Recorder.bounded, h2, h3, h4, h5, h6, h7, h8] using h⟩

end Sys2Proof.Machine
end

