-- ==== Sys2Proof/Laws/KeptOps.lean ====
section
/-! SUPPORT. What the operations and the meanings of `Machine/Ops.lean` keep (see `Laws/Kept.lean`). -/

namespace Sys2Proof.Machine

open Sys2Proof

theorem State.at_kept (s : State) (t : Nat) : Kept s (State.at s t) :=
  ⟨Nat.le_max_left _ _, rfl, fun h => h⟩

theorem State.when_kept (s : State) (b : Bool) (f : State → State) (h_f : ∀ s, Kept s (f s)) :
    Kept s (State.when s b f) := by
  unfold State.when
  try dsimp only
  repeat'
    first
    | with_reducible exact Kept.refl _
    | with_reducible assumption
    | with_reducible apply h_f
    | with_reducible apply Kept.trans ?_ (h_f _)
    | simp only [Kept.mk_iff, Kept.dict_iff, Kept.recorder_iff]
    | intro _
    | split

theorem State.set_kept (s : State) (e : Ent) (v : Nat) : Kept s (State.set s e v) :=
  Kept.of_regs rfl rfl (fun h => AMap.wf_put h _ _ _) rfl rfl

theorem State.setU_kept (s : State) (e : Ent) (u v : Nat) : Kept s (State.setU s e u v) :=
  Kept.of_regs rfl rfl (fun h => AMap.wf_put h _ _ _) rfl rfl

theorem State.add_kept (s : State) (e : Ent) (n : Nat) :
    Kept s (State.add s e n) := by
  unfold State.add
  repeat'
    first
    | with_reducible exact Kept.refl _
    | with_reducible apply Kept.trans ?_ (State.set_kept _ _ _)

theorem State.inc_kept (s : State) (e : Ent) :
    Kept s (State.inc s e) := by
  unfold State.inc
  repeat'
    first
    | with_reducible exact Kept.refl _
    | with_reducible apply Kept.trans ?_ (State.add_kept _ _ _)

theorem State.addU_kept (s : State) (e : Ent) (u : Nat) (n : Nat) :
    Kept s (State.addU s e u n) := by
  unfold State.addU
  repeat'
    first
    | with_reducible exact Kept.refl _
    | with_reducible apply Kept.trans ?_ (State.setU_kept _ _ _ _)

theorem State.incU_kept (s : State) (e : Ent) (u : Nat) :
    Kept s (State.incU s e u) := by
  unfold State.incU
  repeat'
    first
    | with_reducible exact Kept.refl _
    | with_reducible apply Kept.trans ?_ (State.addU_kept _ _ _ _)

theorem State.releaseHeld_kept (s : State) (kind : Nat) : Kept s (State.releaseHeld s kind) :=
  Kept.of_dict rfl rfl rfl (fun h => h) rfl

theorem State.drawn_kept (s : State) :
    Kept s (State.drawn s) := by
  unfold State.drawn
  repeat'
    first
    | with_reducible exact Kept.refl _
    | simp only [Kept.mk_iff, Kept.dict_iff, Kept.recorder_iff]

theorem State.condLost_kept (s : State) (c : Cond) : Kept s (State.condLost s c) := by
  unfold State.condLost
  refine Kept.trans ?_ (State.set_kept _ _ _)
  refine Kept.trans ?_ (State.inc_kept _ _)
  refine Kept.of_recorder rfl rfl rfl rfl fun h => ?_
  dsimp only
  split <;> exact h

theorem Recorder.bounded_restage {r : Recorder} (h : Recorder.bounded r = true) (c : Cond) (ends : Nat) :
    Recorder.bounded (r.restage c ends) = true := by
  simp only [Recorder.bounded, Recorder.restage, List.length_map] at *
  exact h

theorem Recorder.keep_staged (r : Recorder) (c : Cond) (ends : Nat) : (r.keep c ends).staged = r.staged := by
  unfold Recorder.keep
  repeat' split
  all_goals rfl

theorem Recorder.keep_gasp (r : Recorder) (c : Cond) (ends : Nat) : (r.keep c ends).gasp = r.gasp := by
  unfold Recorder.keep
  repeat' split
  all_goals rfl

theorem Recorder.bounded_keep {r : Recorder} (h : Recorder.bounded r = true) (c : Cond) (ends : Nat) :
    Recorder.bounded (r.keep c ends) = true := by
  simp only [Recorder.bounded, Recorder.keep_staged, Recorder.keep_gasp] at *
  exact h

theorem Recorder.bounded_stage {r : Recorder} (h : Recorder.bounded r = true) {key : Nat} (hr : r.room key = true)
    (x : Staged) {q : Recorder} (hs : q.staged = r.staged) (hg : q.gasp = r.gasp) :
    Recorder.bounded { q with staged := q.staged ++ [x] } = true := by
  simp only [Recorder.bounded, Recorder.room, Bool.and_eq_true, decide_eq_true_eq, List.length_append,
    List.length_cons, List.length_nil, hs, hg] at *
  omega

theorem State.cond_kept (s : State) (c : Cond) (isOpen : Bool) : Kept s (State.cond s c isOpen) := by
  unfold State.cond
  dsimp only
  split
  · exact Kept.refl s
  · split
    · refine Kept.trans ?_ (State.inc_kept _ _)
      exact Kept.of_recorder rfl rfl rfl rfl fun h => Recorder.bounded_restage h _ _
    · split
      · split
        · rename_i hr
          refine Kept.trans ?_ (State.inc_kept _ _)
          exact Kept.of_recorder rfl rfl rfl rfl fun h =>
            Recorder.bounded_stage h hr _ (Recorder.keep_staged _ _ _) (Recorder.keep_gasp _ _ _)
        · exact State.condLost_kept s c
      · split
        · rename_i hr
          exact Kept.of_recorder rfl rfl rfl rfl fun h => Recorder.bounded_stage h hr _ rfl rfl
        · exact State.condLost_kept s c

theorem State.condEnd_kept (s : State) (c : Cond) : Kept s (State.condEnd s c) := by
  unfold State.condEnd
  dsimp only
  split
  · exact Kept.of_recorder rfl rfl rfl rfl fun h => Recorder.bounded_restage h _ _
  · split
    · split
      · rename_i hr
        exact Kept.of_recorder rfl rfl rfl rfl fun h =>
          Recorder.bounded_stage h hr _ (Recorder.keep_staged _ _ _) (Recorder.keep_gasp _ _ _)
      · exact State.condLost_kept s c
    · exact Kept.refl s

theorem State.latchU_kept (s : State) (e : Ent) (u : Nat) (b : Nat) (key : Nat) :
    Kept s (State.latchU s e u b key) := by
  unfold State.latchU
  repeat'
    first
    | with_reducible exact Kept.refl _
    | with_reducible apply Kept.trans ?_ (State.setU_kept _ _ _ _)
    | with_reducible apply Kept.trans ?_ (State.cond_kept _ _ _)
    | simp only [Kept.mk_iff, Kept.dict_iff, Kept.recorder_iff]

theorem State.latch_kept (s : State) (e : Ent) (b : Nat) (key : Nat) :
    Kept s (State.latch s e b key) := by
  unfold State.latch
  repeat'
    first
    | with_reducible exact Kept.refl _
    | with_reducible apply Kept.trans ?_ (State.latchU_kept _ _ _ _ _)

theorem State.latchOpenU_kept (s : State) (e : Ent) (u : Nat) (b : Nat) (key : Nat) :
    Kept s (State.latchOpenU s e u b key) := by
  unfold State.latchOpenU
  repeat'
    first
    | with_reducible exact Kept.refl _
    | with_reducible apply Kept.trans ?_ (State.setU_kept _ _ _ _)
    | with_reducible apply Kept.trans ?_ (State.cond_kept _ _ _)
    | simp only [Kept.mk_iff, Kept.dict_iff, Kept.recorder_iff]

theorem State.latchOpen_kept (s : State) (e : Ent) (b : Nat) (key : Nat) :
    Kept s (State.latchOpen s e b key) := by
  unfold State.latchOpen
  repeat'
    first
    | with_reducible exact Kept.refl _
    | with_reducible apply Kept.trans ?_ (State.latchOpenU_kept _ _ _ _ _)

theorem State.latchEnd_kept (s : State) (e : Ent) (u : Nat) (b : Nat) (key : Nat) :
    Kept s (State.latchEnd s e u b key) := by
  unfold State.latchEnd
  repeat'
    first
    | with_reducible exact Kept.refl _
    | with_reducible apply Kept.trans ?_ (State.condEnd_kept _ _)

theorem State.gasp_kept (s : State) (c : Cond) : Kept s (State.gasp s c) := by
  unfold State.gasp
  dsimp only
  split
  · rename_i hg
    refine Kept.trans ?_ (State.set_kept _ _ _)
    refine Kept.of_recorder rfl rfl rfl rfl fun h => ?_
    simp only [Recorder.bounded, Bool.and_eq_true, decide_eq_true_eq, List.length_append, List.length_cons,
      List.length_nil] at *
    omega
  · split
    · exact State.inc_kept _ _
    · exact (State.inc_kept _ _).trans (State.latch_kept _ _ _ _)

theorem State.lastGasp_kept (s : State) (bit : Nat) (detail : Nat) :
    Kept s (State.lastGasp s bit detail) := by
  unfold State.lastGasp
  repeat'
    first
    | with_reducible exact Kept.refl _
    | with_reducible apply Kept.trans ?_ (State.cond_kept _ _ _)
    | with_reducible apply Kept.trans ?_ (State.gasp_kept _ _)

theorem State.enterRest_kept (s : State) (cause : Nat) :
    Kept s (State.enterRest s cause) := by
  unfold State.enterRest
  repeat'
    first
    | with_reducible exact Kept.refl _
    | with_reducible apply Kept.trans ?_ (State.set_kept _ _ _)
    | with_reducible apply Kept.trans ?_ (State.lastGasp_kept _ _ _)
    | split

theorem State.send_kept (s : State) (d : Dgram) :
    Kept s (State.send s d) := by
  unfold State.send
  repeat'
    first
    | with_reducible exact Kept.refl _
    | with_reducible apply Kept.trans ?_ (State.inc_kept _ _)
    | simp only [Kept.mk_iff, Kept.dict_iff, Kept.recorder_iff]
    | split

theorem State.take_kept (s : State) (rx : Rx) :
    Kept s (State.take s rx) := by
  unfold State.take
  repeat'
    first
    | with_reducible exact Kept.refl _
    | simp only [Kept.mk_iff, Kept.dict_iff, Kept.recorder_iff]

theorem State.when_kept' {s : State} {b : Bool} {f : State → State} (h : b = true → Kept s (f s)) :
    Kept s (State.when s b f) := by
  unfold State.when
  split
  · exact h ‹_›
  · exact Kept.refl s

end Sys2Proof.Machine
end

