-- ==== Sys2Proof/Laws/KeptStartOps.lean ====
section
/-! SUPPORT. What the operations and the meanings of `Machine/StartOps.lean` keep (see `Laws/Kept.lean`). -/

namespace Sys2Proof.Machine

open Sys2Proof

theorem State.putDiary_kept (s : State) (d : Diary) :
    Kept s (State.putDiary s d) := by
  unfold State.putDiary
  repeat'
    first
    | with_reducible exact Kept.refl _
    | simp only [Kept.mk_iff, Kept.dict_iff, Kept.recorder_iff]

theorem State.beginStep_kept (s : State) (k : Nat) :
    Kept s (State.beginStep s k) := by
  unfold State.beginStep
  repeat'
    first
    | with_reducible exact Kept.refl _
    | with_reducible apply Kept.trans ?_ (State.set_kept _ _ _)
    | with_reducible apply Kept.trans ?_ (State.putDiary_kept _ _)
    | simp only [Kept.mk_iff, Kept.dict_iff, Kept.recorder_iff]

theorem State.endStep_kept (s : State) (k : Nat) :
    Kept s (State.endStep s k) := by
  unfold State.endStep
  repeat'
    first
    | with_reducible exact Kept.refl _
    | with_reducible apply Kept.trans ?_ (State.set_kept _ _ _)
    | with_reducible apply Kept.trans ?_ (State.putDiary_kept _ _)
    | with_reducible apply Kept.trans ?_ (State.beginStep_kept _ _)
    | simp only [Kept.mk_iff, Kept.dict_iff, Kept.recorder_iff]
    | split

theorem State.failStep_kept (s : State) (k : Nat) (required : Bool) :
    Kept s (State.failStep s k required) := by
  unfold State.failStep
  repeat'
    first
    | with_reducible exact Kept.refl _
    | with_reducible apply Kept.trans ?_ (State.putDiary_kept _ _)
    | simp only [Kept.mk_iff, Kept.dict_iff, Kept.recorder_iff]
    | split

end Sys2Proof.Machine
end

