-- ==== Sys2Proof/Laws/KeptWearOps.lean ====
section
/-! SUPPORT. What the operations and the meanings of `Machine/WearOps.lean` keep (see `Laws/Kept.lean`). -/

namespace Sys2Proof.Machine

open Sys2Proof

theorem State.refreshKind_kept (s : State) (k : Nat) :
    Kept s (State.refreshKind s k) := by
  unfold State.refreshKind
  try dsimp only
  repeat'
    first
    | with_reducible exact Kept.refl _
    | with_reducible assumption
    | with_reducible apply Kept.trans ?_ (State.setU_kept _ _ _ _)
    | with_reducible apply Kept.trans ?_ (State.latch_kept _ _ _ _)
    | simp only [Kept.mk_iff, Kept.dict_iff, Kept.recorder_iff]
    | intro _
    | split

theorem State.putUnit_kept (s : State) (row : Nat) (u : LedgerUnit) :
    Kept s (State.putUnit s row u) := by
  unfold State.putUnit
  repeat'
    first
    | with_reducible exact Kept.refl _
    | simp only [Kept.mk_iff, Kept.dict_iff, Kept.recorder_iff]

theorem State.setRole_kept (s : State) (row : Nat) (role : Nat) (serves : Nat) :
    Kept s (State.setRole s row role serves) := by
  unfold State.setRole
  repeat'
    first
    | with_reducible exact Kept.refl _
    | with_reducible apply Kept.trans ?_ (State.refreshKind_kept _ _)
    | with_reducible apply Kept.trans ?_ (State.putUnit_kept _ _ _)

theorem State.writeLife_kept (s : State) (row : Nat) :
    Kept s (State.writeLife s row) := by
  unfold State.writeLife
  repeat'
    first
    | with_reducible exact Kept.refl _
    | simp only [Kept.mk_iff, Kept.dict_iff, Kept.recorder_iff]

theorem State.retire_kept (s : State) (row : Nat) (cause : Nat) :
    Kept s (State.retire s row cause) := by
  unfold State.retire
  repeat'
    first
    | with_reducible exact Kept.refl _
    | with_reducible apply Kept.trans ?_ (State.latch_kept _ _ _ _)
    | with_reducible apply Kept.trans ?_ (State.refreshKind_kept _ _)
    | with_reducible apply Kept.trans ?_ (State.putUnit_kept _ _ _)
    | with_reducible apply Kept.trans ?_ (State.setRole_kept _ _ _ _)
    | with_reducible apply Kept.trans ?_ (State.writeLife_kept _ _)

theorem State.noteFailure_kept (s : State) (row : Nat) :
    Kept s (State.noteFailure s row) := by
  unfold State.noteFailure
  try dsimp only
  repeat'
    first
    | with_reducible exact Kept.refl _
    | with_reducible assumption
    | with_reducible apply Kept.trans ?_ (State.putDiary_kept _ _)
    | with_reducible apply Kept.trans ?_ (State.retire_kept _ _ _)
    | simp only [Kept.mk_iff, Kept.dict_iff, Kept.recorder_iff]
    | intro _
    | split

theorem State.fenceUnit_kept (s : State) (row : Nat) :
    Kept s (State.fenceUnit s row) := by
  unfold State.fenceUnit
  try dsimp only
  repeat'
    first
    | with_reducible exact Kept.refl _
    | with_reducible assumption
    | with_reducible apply Kept.trans ?_ (State.take_kept _ _)
    | with_reducible apply Kept.trans ?_ (State.putUnit_kept _ _ _)
    | with_reducible apply Kept.trans ?_ (State.setRole_kept _ _ _ _)
    | with_reducible apply Kept.trans ?_ (State.retire_kept _ _ _)
    | simp only [Kept.mk_iff, Kept.dict_iff, Kept.recorder_iff]
    | intro _
    | split

theorem State.promote_kept (s : State) (row : Nat) (serves : Nat) :
    Kept s (State.promote s row serves) := by
  unfold State.promote
  repeat'
    first
    | with_reducible exact Kept.refl _
    | with_reducible apply Kept.trans ?_ (State.incU_kept _ _ _)
    | with_reducible apply Kept.trans ?_ (State.latch_kept _ _ _ _)
    | with_reducible apply Kept.trans ?_ (State.setRole_kept _ _ _ _)

theorem State.startTest_kept (s : State) (row : Nat) (planned : Bool) :
    Kept s (State.startTest s row planned) := by
  unfold State.startTest
  repeat'
    first
    | with_reducible exact Kept.refl _
    | with_reducible apply Kept.trans ?_ (State.inc_kept _ _)
    | with_reducible apply Kept.trans ?_ (State.putUnit_kept _ _ _)
    | with_reducible apply Kept.trans ?_ (State.setRole_kept _ _ _ _)

end Sys2Proof.Machine
end

