-- ==== Sys2Proof/Laws/KeptDictCore.lean ====
section
/-! SUPPORT. What the operations and the meanings of `Machine/DictCore.lean` keep (see `Laws/Kept.lean`). -/

namespace Sys2Proof.Machine

open Sys2Proof

theorem State.setSessions_kept (s : State) (l : List Session)
    (h : s.dict.sessions.length ≤ 4 → l.length ≤ 4) : Kept s (State.setSessions s l) := by
  unfold State.setSessions
  refine Kept.trans ?_ (State.set_kept _ _ _)
  refine Kept.of_dict rfl rfl rfl (fun b => ?_) rfl
  simp only [Dict.bounded, Bool.and_eq_true, decide_eq_true_eq] at *
  exact ⟨b.1, h b.2⟩

theorem State.mapSessions_kept (s : State) (f : Session → Session) :
    Kept s (State.setSessions s (s.dict.sessions.map f)) :=
  State.setSessions_kept s _ fun h => by simpa using h

theorem State.closeSession_kept (s : State) (id : Nat) : Kept s (State.closeSession s id) := by
  unfold State.closeSession
  dsimp only
  have h : Kept s (s.setSessions (s.dict.sessions.filter fun x => x.id != id)) :=
    State.setSessions_kept s _ fun h => Nat.le_trans (List.length_filter_le _ _) h
  refine h.trans ?_
  refine Kept.of_dict rfl rfl rfl (fun b => ?_) rfl
  simp only [Dict.bounded, Bool.and_eq_true, decide_eq_true_eq] at *
  exact ⟨⟨b.1.1, Nat.le_trans (List.length_filter_le _ _) b.1.2⟩, b.2⟩

theorem State.sendReply_kept (s : State) (dst : Nat) (dport : Nat) (bytes : Bytes) :
    Kept s (State.sendReply s dst dport bytes) := by
  unfold State.sendReply
  try dsimp only
  repeat'
    first
    | with_reducible exact Kept.refl _
    | with_reducible assumption
    | with_reducible apply Kept.trans ?_ (State.inc_kept _ _)
    | with_reducible apply Kept.trans ?_ (State.latch_kept _ _ _ _)
    | with_reducible apply Kept.trans ?_ (State.send_kept _ _)
    | simp only [Kept.mk_iff, Kept.dict_iff, Kept.recorder_iff]
    | intro _
    | split

theorem Dict.bounded_remember {d : Dict} (h : Dict.bounded d = true) (c : Cached) :
    Dict.bounded (d.remember c) = true := by
  simp only [Dict.bounded, Dict.remember, Bool.and_eq_true, decide_eq_true_eq, List.length_drop,
    List.length_append, List.length_cons, List.length_nil] at *
  omega

theorem State.answer_kept (s : State) (q : Req) (a : Ans) : Kept s (State.answer s q a) := by
  unfold State.answer
  dsimp only
  refine Kept.trans ?_ (State.sendReply_kept _ _ _ _)
  split
  · exact Kept.refl s
  · exact Kept.of_dict rfl rfl rfl (fun b => Dict.bounded_remember b _) rfl

theorem State.refuse_kept (s : State) (q : Req) (code : Nat) (body : Bytes) (key : Option Nat) :
    Kept s (State.refuse s q code body key) := by
  unfold State.refuse
  try dsimp only
  repeat'
    first
    | with_reducible exact Kept.refl _
    | with_reducible assumption
    | with_reducible apply Kept.trans ?_ (State.inc_kept _ _)
    | with_reducible apply Kept.trans ?_ (State.answer_kept _ _ _)
    | simp only [Kept.mk_iff, Kept.dict_iff, Kept.recorder_iff]
    | intro _
    | split

theorem State.tagFail_kept (s : State) (x : Session) : Kept s (State.tagFail s x) := by
  unfold State.tagFail
  dsimp only
  split
  · exact ((State.inc_kept _ _).trans (State.closeSession_kept _ _)).trans (State.latch_kept _ _ _ _)
  · exact (State.inc_kept _ _).trans (State.mapSessions_kept _ _)

theorem minBy_none {α : Type} {f : α → Nat} {l : List α} (h : minBy f l = none) : l = [] := by
  cases l with
  | nil => rfl
  | cons a l =>
    exfalso
    simp only [minBy] at h
    split at h
    · cases h
    · split at h <;> cases h

theorem State.heard_kept (s : State) (rx : Rx) : Kept s (State.heard s rx) := by
  unfold State.heard
  dsimp only
  refine Kept.trans ?_ (State.inc_kept _ _)
  exact (State.take_kept s rx).trans (Kept.of_dict rfl rfl rfl (fun h => h) rfl)

theorem State.markSeq_kept (s : State) (x : Session) (seq : Nat) : Kept s (State.markSeq s x seq) :=
  State.mapSessions_kept _ _

/-- What the checks of a request keep, and that a request that passes them has no refusal code. -/
theorem State.screen_kept (s : State) (rx : Rx) (v : Service) :
    (∀ u, s.screen rx v = .dealt u → Kept s u) ∧
      (∀ live u, s.screen rx v = .run live u → Kept s u ∧ v.codes (Req.parse rx) live u = []) := by
  have goal (c : Screened) (hd : ∀ u, c = .dealt u → Kept s u)
      (hr : ∀ live u, c = .run live u → Kept s u ∧ v.codes (Req.parse rx) live u = []) :
      (∀ u, c = .dealt u → Kept s u) ∧ (∀ live u, c = .run live u → Kept s u ∧ v.codes (Req.parse rx) live u = []) :=
    ⟨hd, hr⟩
  have dealt {u : State} (h : Kept s u) : (∀ w, Screened.dealt u = .dealt w → Kept s w) ∧
      (∀ live w, Screened.dealt u = .run live w → Kept s w ∧ v.codes (Req.parse rx) live w = []) :=
    goal _ (fun w e => by cases e; exact h) (fun _ _ e => by cases e)
  unfold State.screen
  lift_lets
  extract_lets q ses live keyOf bare tagBad usable hit s1 lenBad noSession old s2 codes
  clear_value ses hit
  have h1 : Kept s s1 := State.heard_kept s rx
  have h2 : Kept s s2 := by
    unfold s2
    split
    · split
      · exact h1.trans (State.markSeq_kept _ _ _)
      · exact h1
    · exact h1
  split
  · exact dealt (Kept.refl s)
  · split
    · exact dealt ((State.take_kept s rx).trans (State.inc_kept _ _))
    · split
      · exact dealt (Kept.refl s)
      · split
        · exact dealt ((State.heard_kept s rx).trans (State.refuse_kept _ _ _ _ _))
        · split
          · split
            · exact dealt ((State.take_kept s rx).trans (State.tagFail_kept _ _))
            · exact dealt (Kept.refl s)
          · split
            · split
              · split
                · exact dealt (h1.trans (State.sendReply_kept _ _ _ _))
                · exact dealt h1
              · exact dealt ((h1.trans (State.inc_kept _ _)).trans (State.sendReply_kept _ _ _ _))
            · split
              · exact dealt (h2.trans (State.refuse_kept _ _ _ _ _))
              · rename_i hc
                have hn : v.codes q live s2 = [] := by
                  have hl := minBy_none hc
                  unfold codes at hl
                  simp only [List.append_eq_nil_iff] at hl
                  by_cases hb : lenBad = true
                  · have := hl.1.1.1
                    rw [hb] at this
                    cases this
                  · simpa [hb] using hl.2
                exact goal _ (fun _ e => by cases e) (fun _ _ e => by cases e; exact ⟨h2, hn⟩)

theorem State.serve_kept (s : State) (rx : Rx) (v : Service)
    (hv : ∀ q live s, v.codes q live s = [] → Kept s (v.run q live s).2) :
    Kept s (State.serve s rx v) := by
  obtain ⟨hd, hr⟩ := State.screen_kept s rx v
  unfold State.serve
  split
  · rename_i h
    exact hd _ h
  · rename_i h
    obtain ⟨hk, hc⟩ := hr _ _ h
    have h := hk.trans (hv (Req.parse rx) _ _ hc)
    split
    · rename_i e
      rw [e] at h
      exact h.trans (State.answer_kept _ _ _)
    · rename_i e
      rw [e] at h
      exact h

theorem cmdService_kept {e : Ent} {units : Nat} {isK : Bool} {len : Option Nat} {arg : Bytes → Bool}
    {keyFree : State → Bool} {codes : Nat → Bytes → State → List Nat} {run : Nat → Bytes → State → Bytes × State}
    (h : ∀ u b s, Kept s (run u b s).2) (q : Req) (live : Bool) (s : State)
    (_ : (cmdService e units isK len arg keyFree codes run).codes q live s = []) :
    Kept s ((cmdService e units isK len arg keyFree codes run).run q live s).2 := h _ _ _

end Sys2Proof.Machine
end

