-- ==== Sys2Proof/Laws/KeptRecorder.lean ====
section
/-! SUPPORT. What the operations and the meanings of `Machine/Recorder.lean` keep (see `Laws/Kept.lean`). -/

namespace Sys2Proof.Machine

open Sys2Proof

theorem State.notLogged_kept (s : State) (c : Cond) :
    Kept s (State.notLogged s c) := by
  unfold State.notLogged
  repeat'
    first
    | with_reducible exact Kept.refl _
    | with_reducible apply Kept.trans ?_ (State.inc_kept _ _)
    | with_reducible apply Kept.trans ?_ (State.gasp_kept _ _)

theorem State.tallied_kept (s : State) (stack : Nat) (n : Nat) (size : Nat) (m : AMap Nat) :
    Kept s (State.tallied s stack n size m) := by
  unfold State.tallied
  repeat'
    first
    | with_reducible exact Kept.refl _
    | with_reducible apply Kept.trans ?_ (State.addU_kept _ _ _ _)
    | split

theorem State.histValue_kept (s : State) (src : Nat) (sel : Nat) (v : Nat) :
    Kept s (State.histValue s src sel v) := by
  unfold State.histValue
  repeat'
    first
    | with_reducible exact Kept.refl _
    | with_reducible apply Kept.trans ?_ (State.tallied_kept _ _ _ _ _)
    | simp only [Kept.mk_iff, Kept.dict_iff, Kept.recorder_iff]
    | intro _
    | split
    | with_reducible apply Kept.trans ?_ (Kept.foldl ?_ _ _)

theorem State.histValues_kept (s : State) (src : Nat) (l : List (Nat × Nat)) :
    Kept s (State.histValues s src l) := by
  unfold State.histValues
  repeat'
    first
    | with_reducible exact Kept.refl _
    | with_reducible apply Kept.trans ?_ (State.histValue_kept _ _ _ _)
    | intro _
    | with_reducible apply Kept.trans ?_ (Kept.foldl ?_ _ _)

theorem State.clearLog_kept (s : State) : Kept s (State.clearLog s) := by
  unfold State.clearLog
  dsimp only
  refine Kept.trans ?_ (Kept.foldl (fun u c => ?_) _ _)
  · refine Kept.trans ?_ (State.set_kept _ _ _)
    refine Kept.trans ?_ (State.set_kept _ _ _)
    exact Kept.of_recorder rfl rfl rfl rfl fun h => h
  · split
    · exact Kept.refl _
    · split
      · rename_i hr
        exact Kept.of_recorder rfl rfl rfl rfl fun h => Recorder.bounded_stage h hr _ rfl rfl
      · exact State.condLost_kept _ _

theorem State.recEffect_kept (s : State) (v : Nat) :
    Kept s (State.recEffect s v) := by
  unfold State.recEffect
  repeat'
    first
    | with_reducible exact Kept.refl _
    | with_reducible apply Kept.trans ?_ (State.set_kept _ _ _)
    | with_reducible apply Kept.trans ?_ (State.clearLog_kept _)
    | simp only [Kept.mk_iff, Kept.dict_iff, Kept.recorder_iff]
    | split

theorem State.recorderTick_kept (s : State) :
    Kept s (State.recorderTick s) := by
  unfold State.recorderTick
  repeat'
    first
    | with_reducible exact Kept.refl _
    | with_reducible apply Kept.trans ?_ (State.recEffect_kept _ _)
    | simp only [Kept.mk_iff, Kept.dict_iff, Kept.recorder_iff]
    | intro _
    | with_reducible apply Kept.trans ?_ (Kept.foldl ?_ _ _)

theorem State.recorderTurn_kept (s : State) :
    Kept s (State.recorderTurn s) := by
  unfold State.recorderTurn
  repeat'
    first
    | with_reducible exact Kept.refl _
    | simp only [Kept.mk_iff, Kept.dict_iff, Kept.recorder_iff]
    | split

theorem recCmd_kept {v : Nat} {mine : Bytes → Bool} (q : Req) (live : Bool) (s : State)
    (_ : (recCmd v mine).codes q live s = []) : Kept s ((recCmd v mine).run q live s).2 := by
  refine cmdService_kept (fun _ _ s => ?_) q live s ‹_›
  dsimp only
  split
  · refine Kept.trans ?_ (State.set_kept _ _ _)
    exact Kept.of_recorder rfl rfl rfl rfl fun h => h
  · exact Kept.of_recorder rfl rfl rfl rfl fun h => h

theorem Recorder.bounded_unstage {r : Recorder} (h : Recorder.bounded r = true) : Recorder.bounded r.unstage = true := by
  unfold Recorder.bounded at *
  obtain ⟨h1, h2⟩ := (Bool.and_eq_true _ _).mp h
  refine (Bool.and_eq_true _ _).mpr ⟨decide_eq_true ?_, h2⟩
  have := of_decide_eq_true h1
  unfold Recorder.unstage
  rw [List.length_drop]
  omega

theorem execLogCommit_kept (t : Nat) (readback : Bool) (s : State) :
    ∃ z, execLogCommit t readback s = .next z ∧ Kept s z := by
  unfold execLogCommit
  refine ⟨_, rfl, ?_⟩
  dsimp only
  refine (State.at_kept s t).trans (State.when_kept' fun _ => ?_)
  have hp (u : State) (n : Nat) : Kept u { u with recorder := { u.recorder.unstage with lastCommit := n } } :=
    Kept.of_recorder rfl rfl rfl rfl fun h => Recorder.bounded_unstage h
  generalize State.at s t = u
  split
  · exact Kept.refl u
  · rename_i x xs _
    have hk (pos : Nat) (l : AMap Cond) (n : Nat) : Kept u { u with recorder := { (u.recorder.unstage.keep { x.cond with pos := pos } x.ends) with lastCommit := n, log := l } } :=
      Kept.of_recorder rfl rfl rfl rfl fun h => Recorder.bounded_keep (Recorder.bounded_unstage h) _ _
    generalize hq : (if x.isNew = true then u.get E.LOG_NEXT else x.cond.pos) = pos
    split
    · exact (hp u _).trans (State.notLogged_kept _ _)
    · split
      · split
        · exact (hp u _).trans (State.notLogged_kept _ _)
        · exact ((hp u _).trans (State.latch_kept _ _ _ _)).trans (State.notLogged_kept _ _)
      · split
        · exact Kept.refl u
        · split
          · exact Kept.of_recorder rfl rfl rfl rfl fun h => h
          · split
            · exact ((hk _ _ _).trans (State.set_kept _ _ _)).trans (State.inc_kept _ _)
            · exact hk _ _ _

theorem execEventsLostRecord_kept (t : Nat) (s : State) : ∃ z, execEventsLostRecord t s = .next z ∧ Kept s z := by
  unfold execEventsLostRecord
  refine ⟨_, rfl, ?_⟩
  dsimp only
  refine (State.at_kept s t).trans (State.when_kept' fun hb => ?_)
  refine Kept.of_recorder rfl rfl rfl rfl fun h => ?_
  simp only [Recorder.bounded, Bool.and_eq_true, decide_eq_true_eq, List.length_cons, List.length_nil] at *
  omega

theorem execLogPageRetire_kept (t page : Nat) (damaged : List Nat) (s : State) :
    ∃ z, execLogPageRetire t page damaged s = .next z ∧ Kept s z := by
  unfold execLogPageRetire
  refine ⟨_, rfl, ?_⟩
  dsimp only
  refine (State.at_kept s t).trans (State.when_kept' fun _ => ?_)
  generalize State.at s t = u
  split
  · refine Kept.trans ?_ (State.latch_kept _ _ _ _)
    exact Kept.of_recorder rfl rfl rfl rfl fun h => h
  · refine Kept.trans ?_ (State.gasp_kept _ _)
    refine Kept.trans ?_ (State.cond_kept _ _ _)
    simp only [Kept.mk_iff]
    refine Kept.trans ?_ (State.set_kept _ _ _)
    refine Kept.trans ?_ (State.add_kept _ _ _)
    refine Kept.trans ?_ (State.inc_kept _ _)
    refine Kept.trans ?_ (State.set_kept _ _ _)
    exact Kept.of_recorder rfl rfl rfl rfl fun h => h

theorem execHistSet_kept (t : Nat) (rx : Rx) (s : State) : ∃ z, execHistSet t rx s = .next z ∧ Kept s z := by
  unfold execHistSet
  refine ⟨_, rfl, ?_⟩
  repeat'
    first
    | with_reducible exact Kept.refl _
    | apply cmdService_kept
    | with_reducible apply Kept.trans ?_ (State.at_kept _ _)
    | with_reducible apply Kept.trans ?_ (State.serve_kept _ _ _ ?_)
    | simp only [Kept.mk_iff, Kept.dict_iff, Kept.recorder_iff]
    | intro _

theorem execRecCmdClearLog_kept (t : Nat) (rx : Rx) (s : State) :
    ∃ z, execRecCmdClearLog t rx s = .next z ∧ Kept s z := by
  unfold execRecCmdClearLog
  refine ⟨_, rfl, ?_⟩
  repeat'
    first
    | with_reducible exact Kept.refl _
    | apply recCmd_kept
    | with_reducible apply Kept.trans ?_ (State.at_kept _ _)
    | with_reducible apply Kept.trans ?_ (State.serve_kept _ _ _ ?_)

theorem execRecCmdClearHistograms_kept (t : Nat) (rx : Rx) (s : State) :
    ∃ z, execRecCmdClearHistograms t rx s = .next z ∧ Kept s z := by
  unfold execRecCmdClearHistograms
  refine ⟨_, rfl, ?_⟩
  repeat'
    first
    | with_reducible exact Kept.refl _
    | apply recCmd_kept
    | with_reducible apply Kept.trans ?_ (State.at_kept _ _)
    | with_reducible apply Kept.trans ?_ (State.serve_kept _ _ _ ?_)

theorem execRecCmdClearGuestHistory_kept (t : Nat) (rx : Rx) (s : State) :
    ∃ z, execRecCmdClearGuestHistory t rx s = .next z ∧ Kept s z := by
  unfold execRecCmdClearGuestHistory
  refine ⟨_, rfl, ?_⟩
  repeat'
    first
    | with_reducible exact Kept.refl _
    | apply recCmd_kept
    | with_reducible apply Kept.trans ?_ (State.at_kept _ _)
    | with_reducible apply Kept.trans ?_ (State.serve_kept _ _ _ ?_)

theorem execRecCmdClearDieRainflow_kept (t : Nat) (rx : Rx) (s : State) :
    ∃ z, execRecCmdClearDieRainflow t rx s = .next z ∧ Kept s z := by
  unfold execRecCmdClearDieRainflow
  refine ⟨_, rfl, ?_⟩
  repeat'
    first
    | with_reducible exact Kept.refl _
    | apply recCmd_kept
    | with_reducible apply Kept.trans ?_ (State.at_kept _ _)
    | with_reducible apply Kept.trans ?_ (State.serve_kept _ _ _ ?_)

theorem execRecCmdClearFramLastgasp_kept (t : Nat) (rx : Rx) (s : State) :
    ∃ z, execRecCmdClearFramLastgasp t rx s = .next z ∧ Kept s z := by
  unfold execRecCmdClearFramLastgasp
  refine ⟨_, rfl, ?_⟩
  repeat'
    first
    | with_reducible exact Kept.refl _
    | apply recCmd_kept
    | with_reducible apply Kept.trans ?_ (State.at_kept _ _)
    | with_reducible apply Kept.trans ?_ (State.serve_kept _ _ _ ?_)

theorem execRecCmdComplete_kept (t : Nat) (s : State) : ∃ z, execRecCmdComplete t s = .next z ∧ Kept s z := by
  unfold execRecCmdComplete
  refine ⟨_, rfl, ?_⟩
  repeat'
    first
    | with_reducible exact Kept.refl _
    | with_reducible apply Kept.trans ?_ (State.at_kept _ _)
    | with_reducible apply Kept.trans ?_ (State.when_kept _ _ _ ?_)
    | with_reducible apply Kept.trans ?_ (State.set_kept _ _ _)
    | simp only [Kept.mk_iff, Kept.dict_iff, Kept.recorder_iff]
    | intro _

end Sys2Proof.Machine
end

