-- ==== Sys2Proof/Laws/KeptWheel.lean ====
section
/-! SUPPORT. What the operations and the meanings of `Machine/Wheel.lean` keep (see `Laws/Kept.lean`). -/

namespace Sys2Proof.Machine

open Sys2Proof

theorem State.setWheelState_kept (s : State) (v : Nat) :
    Kept s (State.setWheelState s v) := by
  unfold State.setWheelState
  repeat'
    first
    | with_reducible exact Kept.refl _
    | with_reducible apply Kept.trans ?_ (State.set_kept _ _ _)

theorem State.enterHoldover_kept (s : State) :
    Kept s (State.enterHoldover s) := by
  unfold State.enterHoldover
  repeat'
    first
    | with_reducible exact Kept.refl _
    | with_reducible apply Kept.trans ?_ (State.latch_kept _ _ _ _)
    | with_reducible apply Kept.trans ?_ (State.setWheelState_kept _ _)
    | simp only [Kept.mk_iff, Kept.dict_iff, Kept.recorder_iff]

theorem State.enterRelock_kept (s : State) :
    Kept s (State.enterRelock s) := by
  unfold State.enterRelock
  repeat'
    first
    | with_reducible exact Kept.refl _
    | with_reducible apply Kept.trans ?_ (State.setWheelState_kept _ _)
    | simp only [Kept.mk_iff, Kept.dict_iff, Kept.recorder_iff]

theorem State.sendNotice_kept (s : State) (bytes : Bytes) :
    Kept s (State.sendNotice s bytes) := by
  unfold State.sendNotice
  repeat'
    first
    | with_reducible exact Kept.refl _
    | with_reducible apply Kept.trans ?_ (State.send_kept _ _)

theorem State.beginTurn0_kept (s : State) (x len st : Nat) : Kept s (State.beginTurn0 s x len st) := by
  unfold State.beginTurn0
  lift_lets
  extract_lets n tl s1 w s2 b w2 s3 s4
  have h1 : Kept s s1 :=
    ((State.set_kept _ _ _).trans (State.set_kept _ _ _)).trans (State.setWheelState_kept _ _)
  have h2 : Kept s s2 := h1.trans ⟨Nat.le_max_left _ _, rfl, fun h => h⟩
  have h3 : Kept s s3 := h2.trans ⟨Nat.le_refl _, rfl, fun h => h⟩
  have h4 : Kept s s4 := (h3.trans (State.sendNotice_kept _ _)).trans (State.set_kept _ _ _)
  split
  · exact h4.trans (State.endStep_kept _ _)
  · exact h4

theorem State.validCycle_kept (s : State) (p : Nat) :
    Kept s (State.validCycle s p) := by
  unfold State.validCycle
  repeat'
    first
    | with_reducible exact Kept.refl _
    | with_reducible apply Kept.trans ?_ (State.when_kept _ _ _ ?_)
    | with_reducible apply Kept.trans ?_ (State.set_kept _ _ _)
    | with_reducible apply Kept.trans ?_ (State.latch_kept _ _ _ _)
    | with_reducible apply Kept.trans ?_ (State.setWheelState_kept _ _)
    | with_reducible apply Kept.trans ?_ (State.enterRelock_kept _)
    | simp only [Kept.mk_iff, Kept.dict_iff, Kept.recorder_iff]
    | intro _
    | split

theorem State.badCycle_kept (s : State) (range : Bool) :
    Kept s (State.badCycle s range) := by
  unfold State.badCycle
  repeat'
    first
    | with_reducible exact Kept.refl _
    | with_reducible apply Kept.trans ?_ (State.when_kept _ _ _ ?_)
    | with_reducible apply Kept.trans ?_ (State.latch_kept _ _ _ _)
    | with_reducible apply Kept.trans ?_ (State.enterHoldover_kept _)
    | simp only [Kept.mk_iff, Kept.dict_iff, Kept.recorder_iff]
    | intro _
    | split

theorem State.nextTickLen_kept (s : State) :
    Kept s ((State.nextTickLen s)).2 := by
  unfold State.nextTickLen
  repeat'
    first
    | with_reducible exact Kept.refl _
    | with_reducible apply Kept.trans ?_ (State.drawn_kept _)
    | simp only [Kept.mk_iff, Kept.dict_iff, Kept.recorder_iff]
    | split

theorem State.sendPtp_kept (s : State) (udp : Nat) (tag : Nat) (bytes : Bytes) :
    Kept s (State.sendPtp s udp tag bytes) := by
  unfold State.sendPtp
  repeat'
    first
    | with_reducible exact Kept.refl _
    | with_reducible apply Kept.trans ?_ (State.send_kept _ _)

theorem execWheelStep_kept (t : Nat) (s : State) : ∃ z, execWheelStep t s = .next z ∧ Kept s z := by
  unfold execWheelStep
  refine ⟨_, rfl, ?_⟩
  repeat'
    first
    | with_reducible exact Kept.refl _
    | with_reducible apply Kept.trans ?_ (State.at_kept _ _)
    | with_reducible apply Kept.trans ?_ (State.when_kept _ _ _ ?_)
    | simp only [Kept.mk_iff, Kept.dict_iff, Kept.recorder_iff]
    | intro _

theorem execWheelStartTimeout_kept (t : Nat) (s : State) : ∃ z, execWheelStartTimeout t s = .next z ∧ Kept s z := by
  unfold execWheelStartTimeout
  refine ⟨_, rfl, ?_⟩
  repeat'
    first
    | with_reducible exact Kept.refl _
    | with_reducible apply Kept.trans ?_ (State.at_kept _ _)
    | with_reducible apply Kept.trans ?_ (State.when_kept _ _ _ ?_)
    | with_reducible apply Kept.trans ?_ (State.beginTurn0_kept _ _ _ _)
    | intro _
    | split

theorem execMainsCycle_kept (t : Nat) (phase : Nat) (s : State) :
    ∃ z, execMainsCycle t phase s = .next z ∧ Kept s z := by
  unfold execMainsCycle
  refine ⟨_, rfl, ?_⟩
  repeat'
    first
    | with_reducible exact Kept.refl _
    | with_reducible apply Kept.trans ?_ (State.at_kept _ _)
    | with_reducible apply Kept.trans ?_ (State.when_kept _ _ _ ?_)
    | with_reducible apply Kept.trans ?_ (State.beginTurn0_kept _ _ _ _)
    | with_reducible apply Kept.trans ?_ (State.validCycle_kept _ _)
    | with_reducible apply Kept.trans ?_ (State.badCycle_kept _ _)
    | simp only [Kept.mk_iff, Kept.dict_iff, Kept.recorder_iff]
    | intro _
    | split

theorem execMainsAbsent_kept (t : Nat) (s : State) : ∃ z, execMainsAbsent t s = .next z ∧ Kept s z := by
  unfold execMainsAbsent
  refine ⟨_, rfl, ?_⟩
  repeat'
    first
    | with_reducible exact Kept.refl _
    | with_reducible apply Kept.trans ?_ (State.at_kept _ _)
    | with_reducible apply Kept.trans ?_ (State.when_kept _ _ _ ?_)
    | with_reducible apply Kept.trans ?_ (State.latch_kept _ _ _ _)
    | with_reducible apply Kept.trans ?_ (State.enterHoldover_kept _)
    | simp only [Kept.mk_iff, Kept.dict_iff, Kept.recorder_iff]
    | intro _

theorem execHoldoverLong_kept (t : Nat) (s : State) : ∃ z, execHoldoverLong t s = .next z ∧ Kept s z := by
  unfold execHoldoverLong
  refine ⟨_, rfl, ?_⟩
  repeat'
    first
    | with_reducible exact Kept.refl _
    | with_reducible apply Kept.trans ?_ (State.at_kept _ _)
    | with_reducible apply Kept.trans ?_ (State.when_kept _ _ _ ?_)
    | with_reducible apply Kept.trans ?_ (State.latch_kept _ _ _ _)
    | simp only [Kept.mk_iff, Kept.dict_iff, Kept.recorder_iff]
    | intro _

theorem execWheelNotice_kept (t : Nat) (s : State) : ∃ z, execWheelNotice t s = .next z ∧ Kept s z := by
  unfold execWheelNotice
  refine ⟨_, rfl, ?_⟩
  repeat'
    first
    | with_reducible exact Kept.refl _
    | with_reducible apply Kept.trans ?_ (State.at_kept _ _)
    | with_reducible apply Kept.trans ?_ (State.when_kept _ _ _ ?_)
    | with_reducible apply Kept.trans ?_ (State.sendNotice_kept _ _)
    | with_reducible apply Kept.trans ?_ (State.nextTickLen_kept _)
    | simp only [Kept.mk_iff, Kept.dict_iff, Kept.recorder_iff]
    | intro _

theorem execWheelNoticeRepeat_kept (t : Nat) (s : State) : ∃ z, execWheelNoticeRepeat t s = .next z ∧ Kept s z := by
  unfold execWheelNoticeRepeat
  refine ⟨_, rfl, ?_⟩
  repeat'
    first
    | with_reducible exact Kept.refl _
    | with_reducible apply Kept.trans ?_ (State.at_kept _ _)
    | with_reducible apply Kept.trans ?_ (State.when_kept _ _ _ ?_)
    | with_reducible apply Kept.trans ?_ (State.sendNotice_kept _ _)
    | simp only [Kept.mk_iff, Kept.dict_iff, Kept.recorder_iff]
    | intro _

theorem execPtpSync_kept (t : Nat) (s : State) : ∃ z, execPtpSync t s = .next z ∧ Kept s z := by
  unfold execPtpSync
  refine ⟨_, rfl, ?_⟩
  repeat'
    first
    | with_reducible exact Kept.refl _
    | with_reducible apply Kept.trans ?_ (State.at_kept _ _)
    | with_reducible apply Kept.trans ?_ (State.when_kept _ _ _ ?_)
    | with_reducible apply Kept.trans ?_ (State.sendPtp_kept _ _ _ _)
    | simp only [Kept.mk_iff, Kept.dict_iff, Kept.recorder_iff]
    | intro _

theorem execPtpAnnounce_kept (t : Nat) (s : State) : ∃ z, execPtpAnnounce t s = .next z ∧ Kept s z := by
  unfold execPtpAnnounce
  refine ⟨_, rfl, ?_⟩
  repeat'
    first
    | with_reducible exact Kept.refl _
    | with_reducible apply Kept.trans ?_ (State.at_kept _ _)
    | with_reducible apply Kept.trans ?_ (State.when_kept _ _ _ ?_)
    | with_reducible apply Kept.trans ?_ (State.sendPtp_kept _ _ _ _)
    | simp only [Kept.mk_iff, Kept.dict_iff, Kept.recorder_iff]
    | intro _

theorem execPtpDelayReq_kept (t : Nat) (rx : Rx) (s : State) : ∃ z, execPtpDelayReq t rx s = .next z ∧ Kept s z := by
  unfold execPtpDelayReq
  refine ⟨_, rfl, ?_⟩
  repeat'
    first
    | with_reducible exact Kept.refl _
    | with_reducible apply Kept.trans ?_ (State.at_kept _ _)
    | with_reducible apply Kept.trans ?_ (State.when_kept _ _ _ ?_)
    | with_reducible apply Kept.trans ?_ (State.take_kept _ _)
    | with_reducible apply Kept.trans ?_ (State.sendPtp_kept _ _ _ _)
    | intro _

end Sys2Proof.Machine
end

