-- ==== Sys2Proof/Laws/KeptPort.lean ====
section
/-! SUPPORT. What the operations and the meanings of `Machine/Port.lean` keep (see `Laws/Kept.lean`). -/

namespace Sys2Proof.Machine

open Sys2Proof

theorem State.portStep_kept (s : State) (k : Nat) :
    Kept s (State.portStep s k) := by
  unfold State.portStep
  repeat'
    first
    | with_reducible exact Kept.refl _
    | simp only [Kept.mk_iff, Kept.dict_iff, Kept.recorder_iff]

theorem State.portAttempt_kept (s : State) :
    Kept s (State.portAttempt s) := by
  unfold State.portAttempt
  repeat'
    first
    | with_reducible exact Kept.refl _
    | with_reducible apply Kept.trans ?_ (State.set_kept _ _ _)
    | with_reducible apply Kept.trans ?_ (State.portStep_kept _ _)

theorem State.portBegin_kept (s : State) :
    Kept s (State.portBegin s) := by
  unfold State.portBegin
  repeat'
    first
    | with_reducible exact Kept.refl _
    | with_reducible apply Kept.trans ?_ (State.portAttempt_kept _)
    | simp only [Kept.mk_iff, Kept.dict_iff, Kept.recorder_iff]

theorem State.cageResult_kept (s : State) (c : Cage) :
    Kept s (State.cageResult s c) := by
  unfold State.cageResult
  repeat'
    first
    | with_reducible exact Kept.refl _
    | with_reducible apply Kept.trans ?_ (State.set_kept _ _ _)
    | with_reducible apply Kept.trans ?_ (State.latch_kept _ _ _ _)
    | with_reducible apply Kept.trans ?_ (State.portStep_kept _ _)
    | simp only [Kept.mk_iff, Kept.dict_iff, Kept.recorder_iff]
    | split

theorem State.sendIcmp_kept (s : State) (src : Nat) (dst : Nat) (ty : Nat) (tag : Nat) (rest : Bytes) :
    Kept s (State.sendIcmp s src dst ty tag rest) := by
  unfold State.sendIcmp
  repeat'
    first
    | with_reducible exact Kept.refl _
    | with_reducible apply Kept.trans ?_ (State.send_kept _ _)

theorem State.dadStart_kept (s : State) (addr : Nat) :
    Kept s (State.dadStart s addr) := by
  unfold State.dadStart
  repeat'
    first
    | with_reducible exact Kept.refl _
    | with_reducible apply Kept.trans ?_ (State.sendIcmp_kept _ _ _ _ _ _)

theorem State.mldReport_kept (s : State) :
    Kept s (State.mldReport s) := by
  unfold State.mldReport
  repeat'
    first
    | with_reducible exact Kept.refl _
    | with_reducible apply Kept.trans ?_ (State.sendIcmp_kept _ _ _ _ _ _)

theorem State.tryOther_kept (s : State) :
    Kept s (State.tryOther s) := by
  unfold State.tryOther
  repeat'
    first
    | with_reducible exact Kept.refl _
    | with_reducible apply Kept.trans ?_ (State.dadStart_kept _ _)
    | simp only [Kept.mk_iff, Kept.dict_iff, Kept.recorder_iff]
    | split

theorem execCageCheck_kept (t : Nat) (cage : Cage) (s : State) :
    ∃ z, execCageCheck t cage s = .next z ∧ Kept s z := by
  unfold execCageCheck
  refine ⟨_, rfl, ?_⟩
  repeat'
    first
    | with_reducible exact Kept.refl _
    | with_reducible apply Kept.trans ?_ (State.at_kept _ _)
    | with_reducible apply Kept.trans ?_ (State.when_kept _ _ _ ?_)
    | with_reducible apply Kept.trans ?_ (State.cageResult_kept _ _)
    | intro _

theorem execCageRecheck_kept (t : Nat) (cage : Cage) (s : State) :
    ∃ z, execCageRecheck t cage s = .next z ∧ Kept s z := by
  unfold execCageRecheck
  refine ⟨_, rfl, ?_⟩
  repeat'
    first
    | with_reducible exact Kept.refl _
    | with_reducible apply Kept.trans ?_ (State.at_kept _ _)
    | with_reducible apply Kept.trans ?_ (State.when_kept _ _ _ ?_)
    | with_reducible apply Kept.trans ?_ (State.portAttempt_kept _)
    | with_reducible apply Kept.trans ?_ (State.cageResult_kept _ _)
    | intro _

theorem execOpticalModulePowerUp_kept (t : Nat) (ready : Bool) (s : State) :
    ∃ z, execOpticalModulePowerUp t ready s = .next z ∧ Kept s z := by
  unfold execOpticalModulePowerUp
  refine ⟨_, rfl, ?_⟩
  repeat'
    first
    | with_reducible exact Kept.refl _
    | with_reducible apply Kept.trans ?_ (State.at_kept _ _)
    | with_reducible apply Kept.trans ?_ (State.when_kept _ _ _ ?_)
    | with_reducible apply Kept.trans ?_ (State.portStep_kept _ _)
    | intro _

theorem execAutoNegotiation_kept (t : Nat) (agreed : Bool) (s : State) :
    ∃ z, execAutoNegotiation t agreed s = .next z ∧ Kept s z := by
  unfold execAutoNegotiation
  refine ⟨_, rfl, ?_⟩
  repeat'
    first
    | with_reducible exact Kept.refl _
    | with_reducible apply Kept.trans ?_ (State.at_kept _ _)
    | with_reducible apply Kept.trans ?_ (State.when_kept _ _ _ ?_)
    | with_reducible apply Kept.trans ?_ (State.portStep_kept _ _)
    | intro _

theorem execLinkTraining_kept (t : Nat) (complete : Bool) (s : State) :
    ∃ z, execLinkTraining t complete s = .next z ∧ Kept s z := by
  unfold execLinkTraining
  refine ⟨_, rfl, ?_⟩
  repeat'
    first
    | with_reducible exact Kept.refl _
    | with_reducible apply Kept.trans ?_ (State.at_kept _ _)
    | with_reducible apply Kept.trans ?_ (State.when_kept _ _ _ ?_)
    | with_reducible apply Kept.trans ?_ (State.portStep_kept _ _)
    | intro _

theorem execPcsAlignment_kept (t : Nat) (locked : Bool) (s : State) :
    ∃ z, execPcsAlignment t locked s = .next z ∧ Kept s z := by
  unfold execPcsAlignment
  refine ⟨_, rfl, ?_⟩
  repeat'
    first
    | with_reducible exact Kept.refl _
    | with_reducible apply Kept.trans ?_ (State.at_kept _ _)
    | with_reducible apply Kept.trans ?_ (State.when_kept _ _ _ ?_)
    | with_reducible apply Kept.trans ?_ (State.portStep_kept _ _)
    | simp only [Kept.mk_iff, Kept.dict_iff, Kept.recorder_iff]
    | intro _

theorem execLinkHoldUp_kept (t : Nat) (s : State) : ∃ z, execLinkHoldUp t s = .next z ∧ Kept s z := by
  unfold execLinkHoldUp
  refine ⟨_, rfl, ?_⟩
  repeat'
    first
    | with_reducible exact Kept.refl _
    | with_reducible apply Kept.trans ?_ (State.at_kept _ _)
    | with_reducible apply Kept.trans ?_ (State.when_kept _ _ _ ?_)
    | with_reducible apply Kept.trans ?_ (State.set_kept _ _ _)
    | with_reducible apply Kept.trans ?_ (State.latch_kept _ _ _ _)
    | with_reducible apply Kept.trans ?_ (State.putDiary_kept _ _)
    | with_reducible apply Kept.trans ?_ (State.endStep_kept _ _)
    | with_reducible apply Kept.trans ?_ (State.dadStart_kept _ _)
    | simp only [Kept.mk_iff, Kept.dict_iff, Kept.recorder_iff]
    | intro _

theorem execLinkAttemptFail_kept (t : Nat) (fault : Bool) (s : State) :
    ∃ z, execLinkAttemptFail t fault s = .next z ∧ Kept s z := by
  unfold execLinkAttemptFail
  refine ⟨_, rfl, ?_⟩
  repeat'
    first
    | with_reducible exact Kept.refl _
    | with_reducible apply Kept.trans ?_ (State.at_kept _ _)
    | with_reducible apply Kept.trans ?_ (State.when_kept _ _ _ ?_)
    | with_reducible apply Kept.trans ?_ (State.set_kept _ _ _)
    | with_reducible apply Kept.trans ?_ (State.portAttempt_kept _)
    | simp only [Kept.mk_iff, Kept.dict_iff, Kept.recorder_iff]
    | intro _
    | split

theorem execLaneMapRoundWait_kept (t : Nat) (s : State) : ∃ z, execLaneMapRoundWait t s = .next z ∧ Kept s z := by
  unfold execLaneMapRoundWait
  refine ⟨_, rfl, ?_⟩
  repeat'
    first
    | with_reducible exact Kept.refl _
    | with_reducible apply Kept.trans ?_ (State.at_kept _ _)
    | with_reducible apply Kept.trans ?_ (State.when_kept _ _ _ ?_)
    | with_reducible apply Kept.trans ?_ (State.portAttempt_kept _)
    | simp only [Kept.mk_iff, Kept.dict_iff, Kept.recorder_iff]
    | intro _

theorem execDuplicateAddressDetection_kept (t : Nat) (linkLocal : Bool) (ok : Bool) (s : State) :
    ∃ z, execDuplicateAddressDetection t linkLocal ok s = .next z ∧ Kept s z := by
  unfold execDuplicateAddressDetection
  refine ⟨_, rfl, ?_⟩
  repeat'
    first
    | with_reducible exact Kept.refl _
    | with_reducible apply Kept.trans ?_ (State.at_kept _ _)
    | with_reducible apply Kept.trans ?_ (State.when_kept _ _ _ ?_)
    | with_reducible apply Kept.trans ?_ (State.set_kept _ _ _)
    | with_reducible apply Kept.trans ?_ (State.latch_kept _ _ _ _)
    | with_reducible apply Kept.trans ?_ (State.mldReport_kept _)
    | with_reducible apply Kept.trans ?_ (State.tryOther_kept _)
    | simp only [Kept.mk_iff, Kept.dict_iff, Kept.recorder_iff]
    | intro _
    | split

theorem execDadRetry_kept (t : Nat) (s : State) : ∃ z, execDadRetry t s = .next z ∧ Kept s z := by
  unfold execDadRetry
  refine ⟨_, rfl, ?_⟩
  repeat'
    first
    | with_reducible exact Kept.refl _
    | with_reducible apply Kept.trans ?_ (State.at_kept _ _)
    | with_reducible apply Kept.trans ?_ (State.when_kept _ _ _ ?_)
    | with_reducible apply Kept.trans ?_ (State.dadStart_kept _ _)
    | simp only [Kept.mk_iff, Kept.dict_iff, Kept.recorder_iff]
    | intro _

theorem execRouterAdvertisement_kept (t : Nat) (pfx : Nat) (len : Nat) (autonomous : Bool) (s : State) :
    ∃ z, execRouterAdvertisement t pfx len autonomous s = .next z ∧ Kept s z := by
  unfold execRouterAdvertisement
  refine ⟨_, rfl, ?_⟩
  try dsimp only
  repeat'
    first
    | with_reducible exact Kept.refl _
    | with_reducible assumption
    | with_reducible apply Kept.trans ?_ (State.at_kept _ _)
    | with_reducible apply Kept.trans ?_ (State.when_kept _ _ _ ?_)
    | with_reducible apply Kept.trans ?_ (State.tryOther_kept _)
    | simp only [Kept.mk_iff, Kept.dict_iff, Kept.recorder_iff]
    | intro _
    | split

theorem execNeighbourSolicitation_kept (t : Nat) (src : Nat) (target : Nat) (s : State) :
    ∃ z, execNeighbourSolicitation t src target s = .next z ∧ Kept s z := by
  unfold execNeighbourSolicitation
  refine ⟨_, rfl, ?_⟩
  try dsimp only
  repeat'
    first
    | with_reducible exact Kept.refl _
    | with_reducible assumption
    | with_reducible apply Kept.trans ?_ (State.at_kept _ _)
    | with_reducible apply Kept.trans ?_ (State.when_kept _ _ _ ?_)
    | with_reducible apply Kept.trans ?_ (State.sendIcmp_kept _ _ _ _ _ _)
    | simp only [Kept.mk_iff, Kept.dict_iff, Kept.recorder_iff]
    | intro _
    | split

theorem execEchoRequest_kept (t : Nat) (src : Nat) (dst : Nat) (body : Bytes) (s : State) :
    ∃ z, execEchoRequest t src dst body s = .next z ∧ Kept s z := by
  unfold execEchoRequest
  refine ⟨_, rfl, ?_⟩
  try dsimp only
  repeat'
    first
    | with_reducible exact Kept.refl _
    | with_reducible assumption
    | with_reducible apply Kept.trans ?_ (State.at_kept _ _)
    | with_reducible apply Kept.trans ?_ (State.when_kept _ _ _ ?_)
    | with_reducible apply Kept.trans ?_ (State.sendIcmp_kept _ _ _ _ _ _)
    | simp only [Kept.mk_iff, Kept.dict_iff, Kept.recorder_iff]
    | intro _
    | split

theorem execFrameReceive_kept (t : Nat) (f : Frame) (s : State) :
    ∃ z, execFrameReceive t f s = .next z ∧ Kept s z := by
  unfold execFrameReceive
  refine ⟨_, rfl, ?_⟩
  try dsimp only
  repeat'
    first
    | with_reducible exact Kept.refl _
    | with_reducible assumption
    | with_reducible apply Kept.trans ?_ (State.at_kept _ _)
    | with_reducible apply Kept.trans ?_ (State.when_kept _ _ _ ?_)
    | with_reducible apply Kept.trans ?_ (State.add_kept _ _ _)
    | with_reducible apply Kept.trans ?_ (State.inc_kept _ _)
    | with_reducible apply Kept.trans ?_ (State.latch_kept _ _ _ _)
    | simp only [Kept.mk_iff, Kept.dict_iff, Kept.recorder_iff]
    | intro _
    | split

theorem execEgressServe_kept (t : Nat) (s : State) : ∃ z, execEgressServe t s = .next z ∧ Kept s z := by
  unfold execEgressServe
  refine ⟨_, rfl, ?_⟩
  try dsimp only
  repeat'
    first
    | with_reducible exact Kept.refl _
    | with_reducible assumption
    | with_reducible apply Kept.trans ?_ (State.at_kept _ _)
    | with_reducible apply Kept.trans ?_ (State.when_kept _ _ _ ?_)
    | with_reducible apply Kept.trans ?_ (State.add_kept _ _ _)
    | with_reducible apply Kept.trans ?_ (State.inc_kept _ _)
    | with_reducible apply Kept.trans ?_ (State.take_kept _ _)
    | simp only [Kept.mk_iff, Kept.dict_iff, Kept.recorder_iff]
    | intro _
    | split

end Sys2Proof.Machine
end

