-- ==== Sys2Proof/Laws/KeptCaps.lean ====
section
/-! SUPPORT. What the operations and the meanings of `Machine/Caps.lean` keep (see `Laws/Kept.lean`). -/

namespace Sys2Proof.Machine

open Sys2Proof

theorem State.putGuest_kept (s : State) (slot : Nat) (g : Guest) :
    Kept s (State.putGuest s slot g) := by
  unfold State.putGuest
  repeat'
    first
    | with_reducible exact Kept.refl _
    | simp only [Kept.mk_iff, Kept.dict_iff, Kept.recorder_iff]

theorem State.mapGuest_kept (s : State) (slot : Nat) (f : Guest → Guest) :
    Kept s (State.mapGuest s slot f) := by
  unfold State.mapGuest
  repeat'
    first
    | with_reducible exact Kept.refl _
    | simp only [Kept.mk_iff, Kept.dict_iff, Kept.recorder_iff]

theorem State.withGuest_kept (s : State) (slot : Nat) (f : State → Guest → State) (h_f : ∀ s x1, Kept s (f s x1)) :
    Kept s (State.withGuest s slot f) := by
  unfold State.withGuest
  repeat'
    first
    | with_reducible exact Kept.refl _
    | with_reducible apply h_f
    | split

theorem State.refreshDesk_kept (s : State) :
    Kept s (State.refreshDesk s) := by
  unfold State.refreshDesk
  repeat'
    first
    | with_reducible exact Kept.refl _
    | with_reducible apply Kept.trans ?_ (State.set_kept _ _ _)

theorem State.refreshClass_kept (s : State) (c : Nat) :
    Kept s (State.refreshClass s c) := by
  unfold State.refreshClass
  try dsimp only
  repeat'
    first
    | with_reducible exact Kept.refl _
    | with_reducible assumption
    | with_reducible apply Kept.trans ?_ (State.setU_kept _ _ _ _)
    | simp only [Kept.mk_iff, Kept.dict_iff, Kept.recorder_iff]
    | intro _
    | split

theorem State.emulTick_kept (s : State) :
    Kept s (State.emulTick s) := by
  unfold State.emulTick
  repeat'
    first
    | with_reducible exact Kept.refl _
    | simp only [Kept.mk_iff, Kept.dict_iff, Kept.recorder_iff]

theorem State.dropCut_kept (s : State) (slot : Nat) :
    Kept s (State.dropCut s slot) := by
  unfold State.dropCut
  repeat'
    first
    | with_reducible exact Kept.refl _
    | simp only [Kept.mk_iff, Kept.dict_iff, Kept.recorder_iff]

theorem State.buildRowCuts_kept (s : State) :
    Kept s (State.buildRowCuts s) := by
  unfold State.buildRowCuts
  repeat'
    first
    | with_reducible exact Kept.refl _
    | with_reducible apply Kept.trans ?_ (State.add_kept _ _ _)
    | with_reducible apply Kept.trans ?_ (State.inc_kept _ _)
    | with_reducible apply Kept.trans ?_ (State.latch_kept _ _ _ _)
    | with_reducible apply Kept.trans ?_ (State.mapGuest_kept _ _ _)
    | simp only [Kept.mk_iff, Kept.dict_iff, Kept.recorder_iff]
    | intro _
    | split
    | with_reducible apply Kept.trans ?_ (Kept.foldl ?_ _ _)

theorem State.queueCut_kept (s : State) (g : Guest) (c : CutRec) :
    Kept s (State.queueCut s g c) := by
  unfold State.queueCut
  repeat'
    first
    | with_reducible exact Kept.refl _
    | with_reducible apply Kept.trans ?_ (State.when_kept _ _ _ ?_)
    | with_reducible apply Kept.trans ?_ (State.inc_kept _ _)
    | with_reducible apply Kept.trans ?_ (State.latch_kept _ _ _ _)
    | with_reducible apply Kept.trans ?_ (State.mapGuest_kept _ _ _)
    | with_reducible apply Kept.trans ?_ (State.buildRowCuts_kept _)
    | simp only [Kept.mk_iff, Kept.dict_iff, Kept.recorder_iff]
    | intro _
    | split

theorem State.queueCap_kept (s : State) (c : CapDue) :
    Kept s (State.queueCap s c) := by
  unfold State.queueCap
  repeat'
    first
    | with_reducible exact Kept.refl _
    | simp only [Kept.mk_iff, Kept.dict_iff, Kept.recorder_iff]
    | split

theorem State.dropCaps_kept (s : State) (slot : Nat) (kinds : List Nat) :
    Kept s (State.dropCaps s slot kinds) := by
  unfold State.dropCaps
  repeat'
    first
    | with_reducible exact Kept.refl _
    | simp only [Kept.mk_iff, Kept.dict_iff, Kept.recorder_iff]

theorem State.nextSeq_kept (s : State) (ty : Nat) (addr : Nat) (port : Nat) :
    Kept s ((State.nextSeq s ty addr port)).2 := by
  unfold State.nextSeq
  repeat'
    first
    | with_reducible exact Kept.refl _
    | simp only [Kept.mk_iff, Kept.dict_iff, Kept.recorder_iff]
    | split

theorem State.sendBundle_kept (s : State) (cls : Nat) (ty : Nat) (addr : Nat) (port : Nat) (count : Nat) (records : Bytes) :
    Kept s (State.sendBundle s cls ty addr port count records) := by
  unfold State.sendBundle
  repeat'
    first
    | with_reducible exact Kept.refl _
    | with_reducible apply Kept.trans ?_ (State.send_kept _ _)
    | with_reducible apply Kept.trans ?_ (State.nextSeq_kept _ _ _ _)

theorem State.recordSent_kept (s : State) (slot : Nat) (kind : Nat) (ceiling : Nat) (slew : Nat) (hold : Nat) :
    Kept s (State.recordSent s slot kind ceiling slew hold) := by
  unfold State.recordSent
  repeat'
    first
    | with_reducible exact Kept.refl _
    | with_reducible apply Kept.trans ?_ (State.mapGuest_kept _ _ _)

theorem State.latency_kept (s : State) (c : CutRec) (firstBit : Nat) :
    Kept s (State.latency s c firstBit) := by
  unfold State.latency
  repeat'
    first
    | with_reducible exact Kept.refl _
    | with_reducible apply Kept.trans ?_ (State.when_kept _ _ _ ?_)
    | with_reducible apply Kept.trans ?_ (State.inc_kept _ _)
    | with_reducible apply Kept.trans ?_ (State.latch_kept _ _ _ _)
    | with_reducible apply Kept.trans ?_ (State.histValue_kept _ _ _ _)
    | simp only [Kept.mk_iff, Kept.dict_iff, Kept.recorder_iff]
    | intro _
    | split

theorem State.cutSent_kept (s : State) (c : CutRec) (firstBit : Nat) :
    Kept s (State.cutSent s c firstBit) := by
  unfold State.cutSent
  repeat'
    first
    | with_reducible exact Kept.refl _
    | with_reducible apply Kept.trans ?_ (State.when_kept _ _ _ ?_)
    | with_reducible apply Kept.trans ?_ (State.inc_kept _ _)
    | with_reducible apply Kept.trans ?_ (State.latch_kept _ _ _ _)
    | with_reducible apply Kept.trans ?_ (State.recordSent_kept _ _ _ _ _ _)
    | with_reducible apply Kept.trans ?_ (State.latency_kept _ _ _)
    | intro _

theorem execDeferredCutRequeue_kept (t : Nat) (s : State) : ∃ z, execDeferredCutRequeue t s = .next z ∧ Kept s z := by
  unfold execDeferredCutRequeue
  refine ⟨_, rfl, ?_⟩
  repeat'
    first
    | with_reducible exact Kept.refl _
    | with_reducible apply Kept.trans ?_ (State.at_kept _ _)
    | with_reducible apply Kept.trans ?_ (State.when_kept _ _ _ ?_)
    | with_reducible apply Kept.trans ?_ (State.mapGuest_kept _ _ _)
    | simp only [Kept.mk_iff, Kept.dict_iff, Kept.recorder_iff]
    | intro _
    | with_reducible apply Kept.trans ?_ (Kept.foldl ?_ _ _)

theorem execCapBundleBuild_kept (t : Nat) (cls : Nat) (firstBit : Nat) (s : State) :
    ∃ z, execCapBundleBuild t cls firstBit s = .next z ∧ Kept s z := by
  unfold execCapBundleBuild
  refine ⟨_, rfl, ?_⟩
  repeat'
    first
    | with_reducible exact Kept.refl _
    | with_reducible apply Kept.trans ?_ (State.at_kept _ _)
    | with_reducible apply Kept.trans ?_ (State.when_kept _ _ _ ?_)
    | with_reducible apply Kept.trans ?_ (State.sendBundle_kept _ _ _ _ _ _ _)
    | with_reducible apply Kept.trans ?_ (State.recordSent_kept _ _ _ _ _ _)
    | with_reducible apply Kept.trans ?_ (State.cutSent_kept _ _ _)
    | simp only [Kept.mk_iff, Kept.dict_iff, Kept.recorder_iff]
    | intro _
    | split
    | with_reducible apply Kept.trans ?_ (Kept.foldl ?_ _ _)

end Sys2Proof.Machine
end

