-- ==== Sys2Proof/Laws/KeptGuard.lean ====
section
/-! SUPPORT. What the operations and the meanings of `Machine/Guard.lean` keep (see `Laws/Kept.lean`). -/

namespace Sys2Proof.Machine

open Sys2Proof

theorem State.ceilingSwitch_kept (s : State) :
    Kept s (State.ceilingSwitch s) := by
  unfold State.ceilingSwitch
  repeat'
    first
    | with_reducible exact Kept.refl _
    | with_reducible apply Kept.trans ?_ (State.when_kept _ _ _ ?_)
    | with_reducible apply Kept.trans ?_ (State.latch_kept _ _ _ _)
    | simp only [Kept.mk_iff, Kept.dict_iff, Kept.recorder_iff]
    | intro _

theorem State.takeCut_kept (s : State) (slot : Nat) (g : Guest) (ceiling : Nat) (what : Nat) (bundle : Nat) (first : Option Nat) (clean : Bool) :
    Kept s ((State.takeCut s slot g ceiling what bundle first clean)).1 := by
  unfold State.takeCut
  try dsimp only
  repeat'
    first
    | with_reducible exact Kept.refl _
    | with_reducible assumption
    | with_reducible apply Kept.trans ?_ (State.putGuest_kept _ _ _)
    | with_reducible apply Kept.trans ?_ (State.queueCut_kept _ _ _)
    | with_reducible apply Kept.trans ?_ (State.dropCaps_kept _ _ _)
    | simp only [Kept.mk_iff, Kept.dict_iff, Kept.recorder_iff]
    | intro _
    | split

theorem State.guardAct_kept (s : State) (slot : Nat) (g : Guest) (es : List Exceed) (tick : Nat) (bundle : Nat) (first : Option Nat) (clean : Bool) :
    Kept s ((State.guardAct s slot g es tick bundle first clean)).1 := by
  unfold State.guardAct
  try dsimp only
  repeat'
    first
    | with_reducible exact Kept.refl _
    | with_reducible assumption
    | with_reducible apply Kept.trans ?_ (State.add_kept _ _ _)
    | with_reducible apply Kept.trans ?_ (State.latch_kept _ _ _ _)
    | with_reducible apply Kept.trans ?_ (State.takeCut_kept _ _ _ _ _ _ _ _)
    | simp only [Kept.mk_iff, Kept.dict_iff, Kept.recorder_iff]
    | intro _
    | split

theorem State.guardRecord_kept (s : State) (src : Nat) (sport : Nat) (tick : Nat) (count : Nat) (bundle : Nat) (clean : Bool) (r : TRec × Bool) (used : Bool) :
    Kept s ((State.guardRecord s src sport tick count bundle clean r used)).1 := by
  unfold State.guardRecord
  repeat'
    first
    | with_reducible exact Kept.refl _
    | with_reducible apply Kept.trans ?_ (State.add_kept _ _ _)
    | with_reducible apply Kept.trans ?_ (State.addU_kept _ _ _ _)
    | with_reducible apply Kept.trans ?_ (State.putGuest_kept _ _ _)
    | with_reducible apply Kept.trans ?_ (State.guardAct_kept _ _ _ _ _ _ _ _)
    | simp only [Kept.mk_iff, Kept.dict_iff, Kept.recorder_iff]
    | split

theorem State.guardBundle_kept (s : State) (src : Nat) (sport : Nat) (tick : Nat) (count : Nat) (rs : List (TRec × Bool)) :
    Kept s (State.guardBundle s src sport tick count rs) := by
  unfold State.guardBundle
  repeat'
    first
    | with_reducible exact Kept.refl _
    | with_reducible apply Kept.trans ?_ (State.guardRecord_kept _ _ _ _ _ _ _ _ _)
    | simp only [Kept.mk_iff, Kept.dict_iff, Kept.recorder_iff]
    | intro _
    | with_reducible apply Kept.trans ?_ (Kept.foldl_fst ?_ _ _)

theorem State.endCut_kept (s : State) (slot : Nat) :
    Kept s (State.endCut s slot) := by
  unfold State.endCut
  repeat'
    first
    | with_reducible exact Kept.refl _
    | with_reducible apply Kept.trans ?_ (State.mapGuest_kept _ _ _)
    | with_reducible apply Kept.trans ?_ (State.dropCut_kept _ _)

theorem State.resend_kept (s : State) (slot : Nat) (g : Guest) :
    Kept s (State.resend s slot g) := by
  unfold State.resend
  repeat'
    first
    | with_reducible exact Kept.refl _
    | with_reducible apply Kept.trans ?_ (State.queueCut_kept _ _ _)
    | with_reducible apply Kept.trans ?_ (State.queueCap_kept _ _)
    | split

theorem execGuardRelease_kept (t : Nat) (slot : Nat) (s : State) :
    ∃ z, execGuardRelease t slot s = .next z ∧ Kept s z := by
  unfold execGuardRelease
  refine ⟨_, rfl, ?_⟩
  repeat'
    first
    | with_reducible exact Kept.refl _
    | with_reducible apply Kept.trans ?_ (State.at_kept _ _)
    | with_reducible apply Kept.trans ?_ (State.when_kept _ _ _ ?_)
    | with_reducible apply Kept.trans ?_ (State.mapGuest_kept _ _ _)
    | with_reducible apply Kept.trans ?_ (State.withGuest_kept _ _ _ ?_)
    | with_reducible apply Kept.trans ?_ (State.endCut_kept _ _)
    | intro _
    | split

theorem execReleaseSend_kept (t : Nat) (slot : Nat) (s : State) :
    ∃ z, execReleaseSend t slot s = .next z ∧ Kept s z := by
  unfold execReleaseSend
  refine ⟨_, rfl, ?_⟩
  repeat'
    first
    | with_reducible exact Kept.refl _
    | with_reducible apply Kept.trans ?_ (State.at_kept _ _)
    | with_reducible apply Kept.trans ?_ (State.when_kept _ _ _ ?_)
    | with_reducible apply Kept.trans ?_ (State.inc_kept _ _)
    | with_reducible apply Kept.trans ?_ (State.mapGuest_kept _ _ _)
    | with_reducible apply Kept.trans ?_ (State.withGuest_kept _ _ _ ?_)
    | with_reducible apply Kept.trans ?_ (State.queueCap_kept _ _)
    | intro _
    | split

theorem execCapRefresh_kept (t : Nat) (slot : Nat) (s : State) :
    ∃ z, execCapRefresh t slot s = .next z ∧ Kept s z := by
  unfold execCapRefresh
  refine ⟨_, rfl, ?_⟩
  repeat'
    first
    | with_reducible exact Kept.refl _
    | with_reducible apply Kept.trans ?_ (State.at_kept _ _)
    | with_reducible apply Kept.trans ?_ (State.when_kept _ _ _ ?_)
    | with_reducible apply Kept.trans ?_ (State.withGuest_kept _ _ _ ?_)
    | with_reducible apply Kept.trans ?_ (State.resend_kept _ _ _)
    | intro _
    | split

theorem execRowCutRefresh_kept (t : Nat) (scope : Nat) (s : State) :
    ∃ z, execRowCutRefresh t scope s = .next z ∧ Kept s z := by
  unfold execRowCutRefresh
  refine ⟨_, rfl, ?_⟩
  repeat'
    first
    | with_reducible exact Kept.refl _
    | with_reducible apply Kept.trans ?_ (State.at_kept _ _)
    | with_reducible apply Kept.trans ?_ (State.when_kept _ _ _ ?_)
    | simp only [Kept.mk_iff, Kept.dict_iff, Kept.recorder_iff]
    | intro _
    | split

end Sys2Proof.Machine
end

