-- ==== Sys2Proof/Laws/KeptIngest.lean ====
section
/-! SUPPORT. What the operations and the meanings of `Machine/Ingest.lean` keep (see `Laws/Kept.lean`). -/

namespace Sys2Proof.Machine

open Sys2Proof

theorem State.discardBundle_kept (s : State) :
    Kept s (State.discardBundle s) := by
  unfold State.discardBundle
  repeat'
    first
    | with_reducible exact Kept.refl _
    | with_reducible apply Kept.trans ?_ (State.inc_kept _ _)
    | with_reducible apply Kept.trans ?_ (State.latch_kept _ _ _ _)

theorem State.deskDrop_kept {s t : State} {rx : Rx} (h : State.deskDrop s rx = some t) : Kept s t := by
  unfold State.deskDrop at h
  split at h
  · cases h; exact State.inc_kept _ _
  · split at h
    · cases h; exact State.inc_kept _ _
    · split at h
      · cases h; exact State.discardBundle_kept _
      · split at h
        · cases h; exact State.inc_kept _ _
        · cases h

theorem State.notice_kept (s : State) (kind : Nat) (slot : Nat) (dst : Nat) (port : Nat) :
    Kept s (State.notice s kind slot dst port) := by
  unfold State.notice
  repeat'
    first
    | with_reducible exact Kept.refl _
    | with_reducible apply Kept.trans ?_ (State.send_kept _ _)
    | simp only [Kept.mk_iff, Kept.dict_iff, Kept.recorder_iff]
    | split

theorem State.writeLook_kept (s : State) (slot : Nat) (count : Nat) (l : Look) :
    Kept s (State.writeLook s slot count l) := by
  unfold State.writeLook
  repeat'
    first
    | with_reducible exact Kept.refl _
    | simp only [Kept.mk_iff, Kept.dict_iff, Kept.recorder_iff]

theorem State.openPair_kept (s : State) (slot : Nat) (g : Guest) (samples : List Nat) :
    Kept s (State.openPair s slot g samples) := by
  unfold State.openPair
  repeat'
    first
    | with_reducible exact Kept.refl _
    | with_reducible apply Kept.trans ?_ (State.latchOpen_kept _ _ _ _)
    | with_reducible apply Kept.trans ?_ (State.putGuest_kept _ _ _)
    | intro _
    | split
    | with_reducible apply Kept.trans ?_ (Kept.foldl ?_ _ _)

theorem State.accept_kept (s : State) (slot : Nat) (g : Guest) (l : LaneRec) (r : TRec) :
    Kept s (State.accept s slot g l r) := by
  unfold State.accept
  repeat'
    first
    | with_reducible exact Kept.refl _
    | with_reducible apply Kept.trans ?_ (State.add_kept _ _ _)
    | with_reducible apply Kept.trans ?_ (State.inc_kept _ _)
    | with_reducible apply Kept.trans ?_ (State.incU_kept _ _ _)
    | with_reducible apply Kept.trans ?_ (State.histValue_kept _ _ _ _)
    | with_reducible apply Kept.trans ?_ (State.putGuest_kept _ _ _)
    | with_reducible apply Kept.trans ?_ (State.writeLook_kept _ _ _ _)
    | with_reducible apply Kept.trans ?_ (State.openPair_kept _ _ _ _)
    | split

theorem State.recordFate_kept (s : State) (l : LaneRec) :
    Kept s (State.recordFate s l) := by
  unfold State.recordFate
  try dsimp only
  repeat'
    first
    | with_reducible exact Kept.refl _
    | with_reducible assumption
    | with_reducible apply Kept.trans ?_ (State.inc_kept _ _)
    | with_reducible apply Kept.trans ?_ (State.latch_kept _ _ _ _)
    | with_reducible apply Kept.trans ?_ (State.putGuest_kept _ _ _)
    | with_reducible apply Kept.trans ?_ (State.notice_kept _ _ _ _ _)
    | with_reducible apply Kept.trans ?_ (State.accept_kept _ _ _ _ _)
    | simp only [Kept.mk_iff, Kept.dict_iff, Kept.recorder_iff]
    | intro _
    | split

theorem State.keepAlive_kept (s : State) (l : LaneRec) :
    Kept s (State.keepAlive s l) := by
  unfold State.keepAlive
  repeat'
    first
    | with_reducible exact Kept.refl _
    | with_reducible apply Kept.trans ?_ (State.inc_kept _ _)
    | simp only [Kept.mk_iff, Kept.dict_iff, Kept.recorder_iff]

theorem State.coverTick_kept (s : State) (c : Nat) :
    Kept s (State.coverTick s c) := by
  unfold State.coverTick
  repeat'
    first
    | with_reducible exact Kept.refl _
    | simp only [Kept.mk_iff, Kept.dict_iff, Kept.recorder_iff]
    | split

theorem State.closePair_kept (s : State) (slot : Nat) (j : Nat) :
    Kept s (State.closePair s slot j) := by
  unfold State.closePair
  try dsimp only
  repeat'
    first
    | with_reducible exact Kept.refl _
    | with_reducible assumption
    | with_reducible apply Kept.trans ?_ (State.latchEnd_kept _ _ _ _ _)
    | with_reducible apply Kept.trans ?_ (State.mapGuest_kept _ _ _)
    | simp only [Kept.mk_iff, Kept.dict_iff, Kept.recorder_iff]
    | intro _
    | split

theorem State.summaryGuest_kept (s : State) (k : Nat) (slot : Nat) (g : Guest) :
    Kept s (State.summaryGuest s k slot g) := by
  unfold State.summaryGuest
  repeat'
    first
    | with_reducible exact Kept.refl _
    | with_reducible apply Kept.trans ?_ (State.tallied_kept _ _ _ _ _)
    | with_reducible apply Kept.trans ?_ (State.putGuest_kept _ _ _)
    | simp only [Kept.mk_iff, Kept.dict_iff, Kept.recorder_iff]
    | split

theorem execTelemetryBundle_kept (t : Nat) (rx : Rx) (s : State) :
    ∃ z, execTelemetryBundle t rx s = .next z ∧ Kept s z := by
  unfold execTelemetryBundle
  refine ⟨_, rfl, ?_⟩
  dsimp only
  refine ((State.at_kept s t).trans (State.take_kept _ rx)).trans (State.when_kept' fun _ => ?_)
  generalize (State.at s t).take rx = u
  split
  · rename_i v h
    exact State.deskDrop_kept h
  · repeat'
      first
      | with_reducible exact Kept.refl _
      | with_reducible apply Kept.trans ?_ (State.inc_kept _ _)
      | with_reducible apply Kept.trans ?_ (State.latch_kept _ _ _ _)
      | with_reducible apply Kept.trans ?_ (State.discardBundle_kept _)
      | with_reducible apply Kept.trans ?_ (State.guardBundle_kept _ _ _ _ _ _)
      | simp only [Kept.mk_iff]
      | split

theorem execRecordParse_kept (t : Nat) (lane : Nat) (s : State) :
    ∃ z, execRecordParse t lane s = .next z ∧ Kept s z := by
  unfold execRecordParse
  refine ⟨_, rfl, ?_⟩
  repeat'
    first
    | with_reducible exact Kept.refl _
    | with_reducible apply Kept.trans ?_ (State.at_kept _ _)
    | with_reducible apply Kept.trans ?_ (State.when_kept _ _ _ ?_)
    | with_reducible apply Kept.trans ?_ (State.recordFate_kept _ _)
    | with_reducible apply Kept.trans ?_ (State.keepAlive_kept _ _)
    | simp only [Kept.mk_iff, Kept.dict_iff, Kept.recorder_iff]
    | intro _
    | split

theorem execCountingTickEnd_kept (t : Nat) (s : State) : ∃ z, execCountingTickEnd t s = .next z ∧ Kept s z := by
  unfold execCountingTickEnd
  refine ⟨_, rfl, ?_⟩
  repeat'
    first
    | with_reducible exact Kept.refl _
    | with_reducible apply Kept.trans ?_ (State.at_kept _ _)
    | with_reducible apply Kept.trans ?_ (State.when_kept _ _ _ ?_)
    | with_reducible apply Kept.trans ?_ (State.add_kept _ _ _)
    | with_reducible apply Kept.trans ?_ (State.latch_kept _ _ _ _)
    | with_reducible apply Kept.trans ?_ (State.histValue_kept _ _ _ _)
    | with_reducible apply Kept.trans ?_ (State.coverTick_kept _ _)
    | simp only [Kept.mk_iff, Kept.dict_iff, Kept.recorder_iff]
    | intro _
    | with_reducible apply Kept.trans ?_ (Kept.foldl ?_ _ _)

theorem execGuestStale_kept (t : Nat) (slot : Nat) (s : State) :
    ∃ z, execGuestStale t slot s = .next z ∧ Kept s z := by
  unfold execGuestStale
  refine ⟨_, rfl, ?_⟩
  repeat'
    first
    | with_reducible exact Kept.refl _
    | with_reducible apply Kept.trans ?_ (State.at_kept _ _)
    | with_reducible apply Kept.trans ?_ (State.when_kept _ _ _ ?_)
    | with_reducible apply Kept.trans ?_ (State.inc_kept _ _)
    | with_reducible apply Kept.trans ?_ (State.latchOpen_kept _ _ _ _)
    | with_reducible apply Kept.trans ?_ (State.putGuest_kept _ _ _)
    | with_reducible apply Kept.trans ?_ (State.withGuest_kept _ _ _ ?_)
    | intro _

theorem execStaleCapSend_kept (t : Nat) (slot : Nat) (s : State) :
    ∃ z, execStaleCapSend t slot s = .next z ∧ Kept s z := by
  unfold execStaleCapSend
  refine ⟨_, rfl, ?_⟩
  repeat'
    first
    | with_reducible exact Kept.refl _
    | with_reducible apply Kept.trans ?_ (State.at_kept _ _)
    | with_reducible apply Kept.trans ?_ (State.when_kept _ _ _ ?_)
    | with_reducible apply Kept.trans ?_ (State.putGuest_kept _ _ _)
    | with_reducible apply Kept.trans ?_ (State.withGuest_kept _ _ _ ?_)
    | with_reducible apply Kept.trans ?_ (State.queueCap_kept _ _)
    | with_reducible apply Kept.trans ?_ (State.dropCaps_kept _ _ _)
    | intro _

theorem execStaleEnd_kept (t : Nat) (slot : Nat) (s : State) : ∃ z, execStaleEnd t slot s = .next z ∧ Kept s z := by
  unfold execStaleEnd
  refine ⟨_, rfl, ?_⟩
  try dsimp only
  repeat'
    first
    | with_reducible exact Kept.refl _
    | with_reducible assumption
    | with_reducible apply Kept.trans ?_ (State.at_kept _ _)
    | with_reducible apply Kept.trans ?_ (State.when_kept _ _ _ ?_)
    | with_reducible apply Kept.trans ?_ (State.latchEnd_kept _ _ _ _ _)
    | with_reducible apply Kept.trans ?_ (State.putGuest_kept _ _ _)
    | with_reducible apply Kept.trans ?_ (State.mapGuest_kept _ _ _)
    | with_reducible apply Kept.trans ?_ (State.withGuest_kept _ _ _ ?_)
    | with_reducible apply Kept.trans ?_ (State.queueCut_kept _ _ _)
    | with_reducible apply Kept.trans ?_ (State.dropCaps_kept _ _ _)
    | simp only [Kept.mk_iff, Kept.dict_iff, Kept.recorder_iff]
    | intro _
    | split

theorem execAbsenceTimeout_kept (t : Nat) (slot : Nat) (s : State) :
    ∃ z, execAbsenceTimeout t slot s = .next z ∧ Kept s z := by
  unfold execAbsenceTimeout
  refine ⟨_, rfl, ?_⟩
  repeat'
    first
    | with_reducible exact Kept.refl _
    | with_reducible apply Kept.trans ?_ (State.at_kept _ _)
    | with_reducible apply Kept.trans ?_ (State.when_kept _ _ _ ?_)
    | with_reducible apply Kept.trans ?_ (State.putGuest_kept _ _ _)
    | with_reducible apply Kept.trans ?_ (State.withGuest_kept _ _ _ ?_)
    | intro _

theorem execDisobeyResend_kept (t : Nat) (slot : Nat) (s : State) :
    ∃ z, execDisobeyResend t slot s = .next z ∧ Kept s z := by
  unfold execDisobeyResend
  refine ⟨_, rfl, ?_⟩
  try dsimp only
  repeat'
    first
    | with_reducible exact Kept.refl _
    | with_reducible assumption
    | with_reducible apply Kept.trans ?_ (State.at_kept _ _)
    | with_reducible apply Kept.trans ?_ (State.when_kept _ _ _ ?_)
    | with_reducible apply Kept.trans ?_ (State.putGuest_kept _ _ _)
    | with_reducible apply Kept.trans ?_ (State.withGuest_kept _ _ _ ?_)
    | with_reducible apply Kept.trans ?_ (State.resend_kept _ _ _)
    | simp only [Kept.mk_iff, Kept.dict_iff, Kept.recorder_iff]
    | intro _
    | split

theorem execGuestDisobedient_kept (t : Nat) (slot : Nat) (s : State) :
    ∃ z, execGuestDisobedient t slot s = .next z ∧ Kept s z := by
  unfold execGuestDisobedient
  refine ⟨_, rfl, ?_⟩
  try dsimp only
  repeat'
    first
    | with_reducible exact Kept.refl _
    | with_reducible assumption
    | with_reducible apply Kept.trans ?_ (State.at_kept _ _)
    | with_reducible apply Kept.trans ?_ (State.when_kept _ _ _ ?_)
    | with_reducible apply Kept.trans ?_ (State.inc_kept _ _)
    | with_reducible apply Kept.trans ?_ (State.latchOpen_kept _ _ _ _)
    | with_reducible apply Kept.trans ?_ (State.putGuest_kept _ _ _)
    | with_reducible apply Kept.trans ?_ (State.withGuest_kept _ _ _ ?_)
    | simp only [Kept.mk_iff, Kept.dict_iff, Kept.recorder_iff]
    | intro _
    | split

theorem execDisobeyClear_kept (t : Nat) (slot : Nat) (s : State) :
    ∃ z, execDisobeyClear t slot s = .next z ∧ Kept s z := by
  unfold execDisobeyClear
  refine ⟨_, rfl, ?_⟩
  try dsimp only
  repeat'
    first
    | with_reducible exact Kept.refl _
    | with_reducible assumption
    | with_reducible apply Kept.trans ?_ (State.at_kept _ _)
    | with_reducible apply Kept.trans ?_ (State.when_kept _ _ _ ?_)
    | with_reducible apply Kept.trans ?_ (State.latchEnd_kept _ _ _ _ _)
    | with_reducible apply Kept.trans ?_ (State.putGuest_kept _ _ _)
    | with_reducible apply Kept.trans ?_ (State.withGuest_kept _ _ _ ?_)
    | simp only [Kept.mk_iff, Kept.dict_iff, Kept.recorder_iff]
    | intro _
    | split

theorem execPairEpisodeEnd_kept (t : Nat) (slot : Nat) (pair : Nat) (s : State) :
    ∃ z, execPairEpisodeEnd t slot pair s = .next z ∧ Kept s z := by
  unfold execPairEpisodeEnd
  refine ⟨_, rfl, ?_⟩
  try dsimp only
  repeat'
    first
    | with_reducible exact Kept.refl _
    | with_reducible assumption
    | with_reducible apply Kept.trans ?_ (State.at_kept _ _)
    | with_reducible apply Kept.trans ?_ (State.when_kept _ _ _ ?_)
    | with_reducible apply Kept.trans ?_ (State.withGuest_kept _ _ _ ?_)
    | with_reducible apply Kept.trans ?_ (State.closePair_kept _ _ _)
    | simp only [Kept.mk_iff, Kept.dict_iff, Kept.recorder_iff]
    | intro _
    | split

theorem execPairPersistReached_kept (t : Nat) (slot : Nat) (pair : Nat) (s : State) :
    ∃ z, execPairPersistReached t slot pair s = .next z ∧ Kept s z := by
  unfold execPairPersistReached
  refine ⟨_, rfl, ?_⟩
  try dsimp only
  repeat'
    first
    | with_reducible exact Kept.refl _
    | with_reducible assumption
    | with_reducible apply Kept.trans ?_ (State.at_kept _ _)
    | with_reducible apply Kept.trans ?_ (State.when_kept _ _ _ ?_)
    | with_reducible apply Kept.trans ?_ (State.set_kept _ _ _)
    | with_reducible apply Kept.trans ?_ (State.inc_kept _ _)
    | with_reducible apply Kept.trans ?_ (State.cond_kept _ _ _)
    | with_reducible apply Kept.trans ?_ (State.latch_kept _ _ _ _)
    | with_reducible apply Kept.trans ?_ (State.putGuest_kept _ _ _)
    | with_reducible apply Kept.trans ?_ (State.withGuest_kept _ _ _ ?_)
    | with_reducible apply Kept.trans ?_ (State.closePair_kept _ _ _)
    | simp only [Kept.mk_iff, Kept.dict_iff, Kept.recorder_iff]
    | intro _
    | split

theorem execSummaryStepEnd_kept (t : Nat) (s : State) : ∃ z, execSummaryStepEnd t s = .next z ∧ Kept s z := by
  unfold execSummaryStepEnd
  refine ⟨_, rfl, ?_⟩
  try dsimp only
  repeat'
    first
    | with_reducible exact Kept.refl _
    | with_reducible assumption
    | with_reducible apply Kept.trans ?_ (State.at_kept _ _)
    | with_reducible apply Kept.trans ?_ (State.when_kept _ _ _ ?_)
    | with_reducible apply Kept.trans ?_ (State.summaryGuest_kept _ _ _ _)
    | simp only [Kept.mk_iff, Kept.dict_iff, Kept.recorder_iff]
    | intro _
    | split
    | with_reducible apply Kept.trans ?_ (Kept.foldl ?_ _ _)
    | with_reducible apply Kept.trans ?_ (Kept.foldl_fst ?_ _ _)

end Sys2Proof.Machine
end

