-- ==== Sys2Proof/Laws/KeptPlacement.lean ====
section
/-! SUPPORT. What the operations and the meanings of `Machine/Placement.lean` keep (see `Laws/Kept.lean`). -/

namespace Sys2Proof.Machine

open Sys2Proof

theorem State.refreshHosted_kept (s : State) :
    Kept s (State.refreshHosted s) := by
  unfold State.refreshHosted
  repeat'
    first
    | with_reducible exact Kept.refl _
    | with_reducible apply Kept.trans ?_ (State.setU_kept _ _ _ _)
    | intro _
    | with_reducible apply Kept.trans ?_ (Kept.foldl ?_ _ _)

theorem State.refreshStore_kept (s : State) :
    Kept s (State.refreshStore s) := by
  unfold State.refreshStore
  repeat'
    first
    | with_reducible exact Kept.refl _
    | with_reducible apply Kept.trans ?_ (State.set_kept _ _ _)

theorem State.unloadProg_kept (s : State) (p : Nat) (result : Nat) :
    Kept s (State.unloadProg s p result) := by
  unfold State.unloadProg
  repeat'
    first
    | with_reducible exact Kept.refl _
    | with_reducible apply Kept.trans ?_ (State.setU_kept _ _ _ _)
    | with_reducible apply Kept.trans ?_ (State.refreshStore_kept _)
    | simp only [Kept.mk_iff, Kept.dict_iff, Kept.recorder_iff]
    | intro _
    | with_reducible apply Kept.trans ?_ (Kept.foldl ?_ _ _)

theorem State.evict_kept (s : State) (k n : Nat) : Kept s (State.evict s k n) := by
  induction n generalizing s with
  | zero => exact Kept.refl s
  | succ n ih =>
    unfold State.evict
    split
    · exact Kept.refl s
    · split
      · exact Kept.refl s
      · dsimp only
        split
        · refine Kept.trans ?_ (ih _)
          refine Kept.trans ?_ (State.refreshStore_kept _)
          refine Kept.trans ?_ (State.setU_kept _ _ _ _)
          exact Kept.of_same rfl rfl rfl rfl rfl
        · refine Kept.trans ?_ (ih _)
          refine Kept.trans ?_ (State.refreshStore_kept _)
          refine Kept.trans ?_ (State.latch_kept _ _ _ _)
          refine Kept.trans ?_ (State.setU_kept _ _ _ _)
          simp only [Kept.mk_iff]
          exact State.unloadProg_kept s _ _

theorem State.carve_kept (s : State) (back : Bool) : Kept s (State.carve s back) := by
  unfold State.carve
  lift_lets
  extract_lets s1 s2
  refine Kept.trans ?_ (State.refreshStore_kept _)
  refine (State.refreshHosted_kept s).trans (Kept.foldl (fun u k => ?_) _ _)
  lift_lets
  extract_lets
  split
  · exact Kept.refl _
  · refine Kept.trans ?_ (State.evict_kept _ _ _)
    exact Kept.of_same rfl rfl rfl rfl rfl

theorem State.placeClass_kept (s : State) (c : Nat) :
    Kept s (State.placeClass s c) := by
  unfold State.placeClass
  repeat'
    first
    | with_reducible exact Kept.refl _
    | with_reducible apply Kept.trans ?_ (State.setU_kept _ _ _ _)
    | with_reducible apply Kept.trans ?_ (State.carve_kept _ _)
    | simp only [Kept.mk_iff, Kept.dict_iff, Kept.recorder_iff]
    | split

theorem State.placeClasses_kept (s : State) (cs : List Nat) :
    Kept s (State.placeClasses s cs) := by
  unfold State.placeClasses
  repeat'
    first
    | with_reducible exact Kept.refl _
    | with_reducible apply Kept.trans ?_ (State.placeClass_kept _ _)
    | intro _
    | with_reducible apply Kept.trans ?_ (Kept.foldl ?_ _ _)

theorem State.classChanged_kept (s : State) (c : Nat) :
    Kept s (State.classChanged s c) := by
  unfold State.classChanged
  try dsimp only
  repeat'
    first
    | with_reducible exact Kept.refl _
    | with_reducible assumption
    | with_reducible apply Kept.trans ?_ (State.refreshClass_kept _ _)
    | with_reducible apply Kept.trans ?_ (State.refreshHosted_kept _)
    | with_reducible apply Kept.trans ?_ (State.placeClass_kept _ _)
    | simp only [Kept.mk_iff, Kept.dict_iff, Kept.recorder_iff]
    | intro _
    | split

end Sys2Proof.Machine
end

