-- ==== Sys2Proof/Laws/KeptDesk.lean ====
section
/-! SUPPORT. What the operations and the meanings of `Machine/Desk.lean` keep (see `Laws/Kept.lean`). -/

namespace Sys2Proof.Machine

open Sys2Proof

theorem State.deskReply_kept (s : State) (dst : Nat) (port : Nat) (bytes : Bytes) :
    Kept s (State.deskReply s dst port bytes) := by
  unfold State.deskReply
  try dsimp only
  repeat'
    first
    | with_reducible exact Kept.refl _
    | with_reducible assumption
    | with_reducible apply Kept.trans ?_ (State.inc_kept _ _)
    | with_reducible apply Kept.trans ?_ (State.send_kept _ _)
    | simp only [Kept.mk_iff, Kept.dict_iff, Kept.recorder_iff]
    | intro _
    | split

theorem State.refuseCheckIn_kept (s : State) (rx : Rx) (reason : Nat) (retry : Nat) (detail : Nat) :
    Kept s (State.refuseCheckIn s rx reason retry detail) := by
  unfold State.refuseCheckIn
  repeat'
    first
    | with_reducible exact Kept.refl _
    | with_reducible apply Kept.trans ?_ (State.inc_kept _ _)
    | with_reducible apply Kept.trans ?_ (State.latch_kept _ _ _ _)
    | with_reducible apply Kept.trans ?_ (State.deskReply_kept _ _ _ _)
    | split

theorem State.freeSlot_kept (s : State) (slot : Nat) :
    Kept s (State.freeSlot s slot) := by
  unfold State.freeSlot
  repeat'
    first
    | with_reducible exact Kept.refl _
    | with_reducible apply Kept.trans ?_ (State.latchEnd_kept _ _ _ _ _)
    | with_reducible apply Kept.trans ?_ (State.refreshDesk_kept _)
    | with_reducible apply Kept.trans ?_ (State.dropCaps_kept _ _ _)
    | with_reducible apply Kept.trans ?_ (State.endCut_kept _ _)
    | with_reducible apply Kept.trans ?_ (State.classChanged_kept _ _)
    | simp only [Kept.mk_iff, Kept.dict_iff, Kept.recorder_iff]
    | split

theorem State.takeIn_kept (s : State) (rx : Rx) (slot : Nat) :
    Kept s (State.takeIn s rx slot) := by
  unfold State.takeIn
  repeat'
    first
    | with_reducible exact Kept.refl _
    | with_reducible apply Kept.trans ?_ (State.inc_kept _ _)
    | with_reducible apply Kept.trans ?_ (State.putGuest_kept _ _ _)
    | with_reducible apply Kept.trans ?_ (State.refreshDesk_kept _)
    | with_reducible apply Kept.trans ?_ (State.classChanged_kept _ _)
    | with_reducible apply Kept.trans ?_ (State.deskReply_kept _ _ _ _)
    | simp only [Kept.mk_iff, Kept.dict_iff, Kept.recorder_iff]

theorem State.rejoin_kept (s : State) (rx : Rx) (slot : Nat) (g : Guest) :
    Kept s (State.rejoin s rx slot g) := by
  unfold State.rejoin
  repeat'
    first
    | with_reducible exact Kept.refl _
    | with_reducible apply Kept.trans ?_ (State.inc_kept _ _)
    | with_reducible apply Kept.trans ?_ (State.putGuest_kept _ _ _)
    | with_reducible apply Kept.trans ?_ (State.endCut_kept _ _)
    | with_reducible apply Kept.trans ?_ (State.deskReply_kept _ _ _ _)
    | split

theorem State.serveCheckIn_kept (s : State) (rx : Rx) :
    Kept s (State.serveCheckIn s rx) := by
  unfold State.serveCheckIn
  try dsimp only
  repeat'
    first
    | with_reducible exact Kept.refl _
    | with_reducible assumption
    | with_reducible apply Kept.trans ?_ (State.inc_kept _ _)
    | with_reducible apply Kept.trans ?_ (State.latch_kept _ _ _ _)
    | with_reducible apply Kept.trans ?_ (State.refuseCheckIn_kept _ _ _ _ _)
    | with_reducible apply Kept.trans ?_ (State.freeSlot_kept _ _)
    | with_reducible apply Kept.trans ?_ (State.takeIn_kept _ _ _)
    | with_reducible apply Kept.trans ?_ (State.rejoin_kept _ _ _ _)
    | simp only [Kept.mk_iff, Kept.dict_iff, Kept.recorder_iff]
    | intro _
    | split

theorem execCheckInRequest_kept (t : Nat) (rx : Rx) (s : State) :
    ∃ z, execCheckInRequest t rx s = .next z ∧ Kept s z := by
  unfold execCheckInRequest
  refine ⟨_, rfl, ?_⟩
  repeat'
    first
    | with_reducible exact Kept.refl _
    | with_reducible apply Kept.trans ?_ (State.at_kept _ _)
    | with_reducible apply Kept.trans ?_ (State.when_kept _ _ _ ?_)
    | with_reducible apply Kept.trans ?_ (State.inc_kept _ _)
    | with_reducible apply Kept.trans ?_ (State.latch_kept _ _ _ _)
    | with_reducible apply Kept.trans ?_ (State.take_kept _ _)
    | simp only [Kept.mk_iff, Kept.dict_iff, Kept.recorder_iff]
    | intro _
    | split

theorem execCheckInServe_kept (t : Nat) (s : State) : ∃ z, execCheckInServe t s = .next z ∧ Kept s z := by
  unfold execCheckInServe
  refine ⟨_, rfl, ?_⟩
  repeat'
    first
    | with_reducible exact Kept.refl _
    | with_reducible apply Kept.trans ?_ (State.at_kept _ _)
    | with_reducible apply Kept.trans ?_ (State.when_kept _ _ _ ?_)
    | with_reducible apply Kept.trans ?_ (State.serveCheckIn_kept _ _)
    | simp only [Kept.mk_iff, Kept.dict_iff, Kept.recorder_iff]
    | intro _
    | split

theorem execPassportTakeForce_kept (t : Nat) (slot : Nat) (s : State) :
    ∃ z, execPassportTakeForce t slot s = .next z ∧ Kept s z := by
  unfold execPassportTakeForce
  refine ⟨_, rfl, ?_⟩
  repeat'
    first
    | with_reducible exact Kept.refl _
    | with_reducible apply Kept.trans ?_ (State.at_kept _ _)
    | with_reducible apply Kept.trans ?_ (State.when_kept _ _ _ ?_)
    | with_reducible apply Kept.trans ?_ (State.latchEnd_kept _ _ _ _ _)
    | with_reducible apply Kept.trans ?_ (State.putGuest_kept _ _ _)
    | with_reducible apply Kept.trans ?_ (State.refreshDesk_kept _)
    | with_reducible apply Kept.trans ?_ (State.classChanged_kept _ _)
    | intro _
    | split

theorem execRejoinCutResend_kept (t : Nat) (slot : Nat) (s : State) :
    ∃ z, execRejoinCutResend t slot s = .next z ∧ Kept s z := by
  unfold execRejoinCutResend
  refine ⟨_, rfl, ?_⟩
  repeat'
    first
    | with_reducible exact Kept.refl _
    | with_reducible apply Kept.trans ?_ (State.at_kept _ _)
    | with_reducible apply Kept.trans ?_ (State.when_kept _ _ _ ?_)
    | with_reducible apply Kept.trans ?_ (State.putGuest_kept _ _ _)
    | with_reducible apply Kept.trans ?_ (State.withGuest_kept _ _ _ ?_)
    | with_reducible apply Kept.trans ?_ (State.resend_kept _ _ _)
    | intro _
    | split

theorem execCheckOutRequest_kept (t : Nat) (rx : Rx) (s : State) :
    ∃ z, execCheckOutRequest t rx s = .next z ∧ Kept s z := by
  unfold execCheckOutRequest
  refine ⟨_, rfl, ?_⟩
  try dsimp only
  repeat'
    first
    | with_reducible exact Kept.refl _
    | with_reducible assumption
    | with_reducible apply Kept.trans ?_ (State.at_kept _ _)
    | with_reducible apply Kept.trans ?_ (State.when_kept _ _ _ ?_)
    | with_reducible apply Kept.trans ?_ (State.inc_kept _ _)
    | with_reducible apply Kept.trans ?_ (State.take_kept _ _)
    | with_reducible apply Kept.trans ?_ (State.mapGuest_kept _ _ _)
    | with_reducible apply Kept.trans ?_ (State.deskReply_kept _ _ _ _)
    | simp only [Kept.mk_iff, Kept.dict_iff, Kept.recorder_iff]
    | intro _
    | split

theorem execCheckOutFree_kept (t : Nat) (slot : Nat) (s : State) :
    ∃ z, execCheckOutFree t slot s = .next z ∧ Kept s z := by
  unfold execCheckOutFree
  refine ⟨_, rfl, ?_⟩
  repeat'
    first
    | with_reducible exact Kept.refl _
    | with_reducible apply Kept.trans ?_ (State.at_kept _ _)
    | with_reducible apply Kept.trans ?_ (State.when_kept _ _ _ ?_)
    | with_reducible apply Kept.trans ?_ (State.freeSlot_kept _ _)
    | intro _
    | split

theorem execGuestLapse_kept (t : Nat) (slot : Nat) (s : State) :
    ∃ z, execGuestLapse t slot s = .next z ∧ Kept s z := by
  unfold execGuestLapse
  refine ⟨_, rfl, ?_⟩
  repeat'
    first
    | with_reducible exact Kept.refl _
    | with_reducible apply Kept.trans ?_ (State.at_kept _ _)
    | with_reducible apply Kept.trans ?_ (State.when_kept _ _ _ ?_)
    | with_reducible apply Kept.trans ?_ (State.inc_kept _ _)
    | with_reducible apply Kept.trans ?_ (State.latchEnd_kept _ _ _ _ _)
    | with_reducible apply Kept.trans ?_ (State.mapGuest_kept _ _ _)
    | with_reducible apply Kept.trans ?_ (State.withGuest_kept _ _ _ ?_)
    | with_reducible apply Kept.trans ?_ (State.refreshDesk_kept _)
    | with_reducible apply Kept.trans ?_ (State.queueCap_kept _ _)
    | with_reducible apply Kept.trans ?_ (State.dropCaps_kept _ _ _)
    | with_reducible apply Kept.trans ?_ (State.endCut_kept _ _)
    | with_reducible apply Kept.trans ?_ (State.notice_kept _ _ _ _ _)
    | with_reducible apply Kept.trans ?_ (State.classChanged_kept _ _)
    | intro _
    | split

theorem execReserveExpiry_kept (t : Nat) (slot : Nat) (s : State) :
    ∃ z, execReserveExpiry t slot s = .next z ∧ Kept s z := by
  unfold execReserveExpiry
  refine ⟨_, rfl, ?_⟩
  try dsimp only
  repeat'
    first
    | with_reducible exact Kept.refl _
    | with_reducible assumption
    | with_reducible apply Kept.trans ?_ (State.at_kept _ _)
    | with_reducible apply Kept.trans ?_ (State.when_kept _ _ _ ?_)
    | with_reducible apply Kept.trans ?_ (State.freeSlot_kept _ _)
    | with_reducible apply Kept.trans ?_ (State.serve_kept _ _ _ ?_)
    | simp only [Kept.mk_iff, Kept.dict_iff, Kept.recorder_iff]
    | intro _
    | split

theorem execClassLift_kept (t : Nat) (s : State) : ∃ z, execClassLift t s = .next z ∧ Kept s z := by
  unfold execClassLift
  refine ⟨_, rfl, ?_⟩
  try dsimp only
  repeat'
    first
    | with_reducible exact Kept.refl _
    | with_reducible assumption
    | with_reducible apply Kept.trans ?_ (State.at_kept _ _)
    | with_reducible apply Kept.trans ?_ (State.when_kept _ _ _ ?_)
    | with_reducible apply Kept.trans ?_ (State.set_kept _ _ _)
    | simp only [Kept.mk_iff, Kept.dict_iff, Kept.recorder_iff]
    | intro _
    | split

end Sys2Proof.Machine
end

