-- ==== Sys2Proof/Laws/KeptPrograms.lean ====
section
/-! SUPPORT. What the operations and the meanings of `Machine/Programs.lean` keep (see `Laws/Kept.lean`). -/

namespace Sys2Proof.Machine

open Sys2Proof

theorem State.putProg_kept (s : State) (p : Nat) (g : Prog) :
    Kept s (State.putProg s p g) := by
  unfold State.putProg
  repeat'
    first
    | with_reducible exact Kept.refl _
    | simp only [Kept.mk_iff, Kept.dict_iff, Kept.recorder_iff]

theorem State.countBr_kept (s : State) (k : BrCnt) :
    Kept s (State.countBr s k) := by
  unfold State.countBr
  try dsimp only
  repeat'
    first
    | with_reducible exact Kept.refl _
    | with_reducible assumption
    | with_reducible apply Kept.trans ?_ (State.add_kept _ _ _)
    | simp only [Kept.mk_iff, Kept.dict_iff, Kept.recorder_iff]
    | intro _
    | split

theorem State.refreshProg_kept (s : State) (p : Nat) :
    Kept s (State.refreshProg s p) := by
  unfold State.refreshProg
  repeat'
    first
    | with_reducible exact Kept.refl _
    | with_reducible apply Kept.trans ?_ (State.set_kept _ _ _)
    | with_reducible apply Kept.trans ?_ (State.setU_kept _ _ _ _)
    | split

theorem State.fitLoop_kept (s : State) (n : Nat) : Kept s (State.fitLoop s n) := by
  induction n generalizing s with
  | zero => exact Kept.refl s
  | succ n ih =>
    unfold State.fitLoop
    dsimp only
    repeat' split
    all_goals first
      | exact Kept.refl s
      | exact (State.putProg_kept _ _ _).trans (ih _)

theorem State.loseStep_kept (s : State) (p : Nat) :
    Kept s (State.loseStep s p) := by
  unfold State.loseStep
  try dsimp only
  repeat'
    first
    | with_reducible exact Kept.refl _
    | with_reducible assumption
    | with_reducible apply Kept.trans ?_ (State.inc_kept _ _)
    | with_reducible apply Kept.trans ?_ (State.incU_kept _ _ _)
    | with_reducible apply Kept.trans ?_ (State.putProg_kept _ _ _)
    | simp only [Kept.mk_iff, Kept.dict_iff, Kept.recorder_iff]
    | intro _
    | split

theorem restartHinges_kept (base : Nat) (hs : AMap Hinge) (s : State) :
    Kept s (restartHinges base hs s) := by
  unfold restartHinges
  try dsimp only
  repeat'
    first
    | with_reducible exact Kept.refl _
    | with_reducible assumption
    | with_reducible apply Kept.trans ?_ (State.setU_kept _ _ _ _)
    | with_reducible apply Kept.trans ?_ (State.incU_kept _ _ _)
    | simp only [Kept.mk_iff, Kept.dict_iff, Kept.recorder_iff]
    | intro _
    | split
    | with_reducible apply Kept.trans ?_ (Kept.foldl ?_ _ _)
    | with_reducible apply Kept.trans ?_ (Kept.foldl_fst ?_ _ _)

theorem State.replace_kept (s : State) : Kept s (State.replace s) := by
  unfold State.replace
  lift_lets
  extract_lets before s1 s2 s3 raised s4
  have h1 : Kept s s1 := (State.releaseHeld_kept _ _).trans (State.inc_kept _ _)
  have h2 : Kept s s2 := h1.trans (Kept.foldl (fun _ _ => State.putProg_kept _ _ _) _ _)
  have h3 : Kept s s3 := h2.trans (State.fitLoop_kept _ _)
  have h4 : Kept s s4 := by
    refine h3.trans (Kept.foldl (fun u q => ?_) _ _)
    refine Kept.trans ?_ (State.refreshProg_kept _ _)
    refine Kept.trans ?_ (State.when_kept _ _ _ fun _ => (State.loseStep_kept _ _).trans (restartHinges_kept _ _ _))
    refine Kept.trans ?_ (State.when_kept _ _ _ fun _ => State.latch_kept _ _ _ _)
    exact State.drawn_kept _
  exact h4.trans (State.when_kept _ _ _ fun _ => State.latch_kept _ _ _ _)

theorem State.rateTest_kept (s : State) :
    Kept s (State.rateTest s) := by
  unfold State.rateTest
  repeat'
    first
    | with_reducible exact Kept.refl _
    | with_reducible apply Kept.trans ?_ (State.when_kept _ _ _ ?_)
    | with_reducible apply Kept.trans ?_ (State.latch_kept _ _ _ _)
    | with_reducible apply Kept.trans ?_ (State.putProg_kept _ _ _)
    | with_reducible apply Kept.trans ?_ (State.refreshProg_kept _ _)
    | intro _
    | with_reducible apply Kept.trans ?_ (Kept.foldl ?_ _ _)

theorem State.resetHingeEntries_kept (s : State) (base : Nat) (hs : AMap Hinge) :
    Kept s (State.resetHingeEntries s base hs) := by
  unfold State.resetHingeEntries
  repeat'
    first
    | with_reducible exact Kept.refl _
    | with_reducible apply Kept.trans ?_ (State.setU_kept _ _ _ _)
    | intro _
    | split
    | with_reducible apply Kept.trans ?_ (Kept.foldl ?_ _ _)

theorem State.publish_kept (s : State) (p : Nat) (x : Step) :
    Kept s (State.publish s p x) := by
  unfold State.publish
  try dsimp only
  repeat'
    first
    | with_reducible exact Kept.refl _
    | with_reducible assumption
    | with_reducible apply Kept.trans ?_ (State.setU_kept _ _ _ _)
    | with_reducible apply Kept.trans ?_ (State.putProg_kept _ _ _)
    | with_reducible apply Kept.trans ?_ (State.countBr_kept _ _)
    | simp only [Kept.mk_iff, Kept.dict_iff, Kept.recorder_iff]
    | intro _
    | split

theorem State.putHinge_kept (s : State) (p : Nat) (k : Nat) (h : Hinge) :
    Kept s (State.putHinge s p k h) := by
  unfold State.putHinge
  repeat'
    first
    | with_reducible exact Kept.refl _
    | with_reducible apply Kept.trans ?_ (State.putProg_kept _ _ _)
    | simp only [Kept.mk_iff, Kept.dict_iff, Kept.recorder_iff]
    | split

theorem State.hingeFail_kept (s : State) (slot : Nat) (k : Nat) :
    Kept s (State.hingeFail s slot k) := by
  unfold State.hingeFail
  repeat'
    first
    | with_reducible exact Kept.refl _
    | with_reducible apply Kept.trans ?_ (State.setU_kept _ _ _ _)
    | with_reducible apply Kept.trans ?_ (State.inc_kept _ _)
    | with_reducible apply Kept.trans ?_ (State.incU_kept _ _ _)
    | with_reducible apply Kept.trans ?_ (State.latch_kept _ _ _ _)

theorem State.hingePass_kept (s : State) (slot : Nat) (k : Nat) (h : Hinge) :
    Kept s (State.hingePass s slot k h) := by
  unfold State.hingePass
  repeat'
    first
    | with_reducible exact Kept.refl _
    | with_reducible apply Kept.trans ?_ (State.setU_kept _ _ _ _)
    | with_reducible apply Kept.trans ?_ (State.putHinge_kept _ _ _ _)

theorem State.validateProg_kept (s : State) (slot : Nat) (k : Nat) (h : Hinge) :
    Kept s (State.validateProg s slot k h) := by
  unfold State.validateProg
  try dsimp only
  repeat'
    first
    | with_reducible exact Kept.refl _
    | with_reducible assumption
    | with_reducible apply Kept.trans ?_ (State.drawn_kept _)
    | with_reducible apply Kept.trans ?_ (State.countBr_kept _ _)
    | with_reducible apply Kept.trans ?_ (State.hingeFail_kept _ _ _)
    | with_reducible apply Kept.trans ?_ (State.hingePass_kept _ _ _ _)
    | simp only [Kept.mk_iff, Kept.dict_iff, Kept.recorder_iff]
    | intro _
    | split

theorem progUpload_kept {arg : Bytes → Bool} {codes : Nat → Bytes → State → List Nat}
    {run : Nat → Bytes → State → State} (h : ∀ p b s, Kept s (run p b s)) (q : Req) (live : Bool) (s : State)
    (_ : (progUpload arg codes run).codes q live s = []) : Kept s ((progUpload arg codes run).run q live s).2 :=
  cmdService_kept (fun _ _ _ => h _ _ _) q live s ‹_›

theorem execProgUploadBegin_kept (t : Nat) (rx : Rx) (s : State) :
    ∃ z, execProgUploadBegin t rx s = .next z ∧ Kept s z := by
  unfold execProgUploadBegin
  refine ⟨_, rfl, ?_⟩
  repeat'
    first
    | with_reducible exact Kept.refl _
    | apply progUpload_kept
    | with_reducible apply Kept.trans ?_ (State.at_kept _ _)
    | with_reducible apply Kept.trans ?_ (State.refreshStore_kept _)
    | with_reducible apply Kept.trans ?_ (State.putProg_kept _ _ _)
    | with_reducible apply Kept.trans ?_ (State.refreshProg_kept _ _)
    | with_reducible apply Kept.trans ?_ (State.serve_kept _ _ _ ?_)
    | intro _

theorem execProgUploadChunk_kept (t : Nat) (rx : Rx) (s : State) :
    ∃ z, execProgUploadChunk t rx s = .next z ∧ Kept s z := by
  unfold execProgUploadChunk
  refine ⟨_, rfl, ?_⟩
  repeat'
    first
    | with_reducible exact Kept.refl _
    | apply progUpload_kept
    | with_reducible apply Kept.trans ?_ (State.at_kept _ _)
    | with_reducible apply Kept.trans ?_ (State.putProg_kept _ _ _)
    | with_reducible apply Kept.trans ?_ (State.serve_kept _ _ _ ?_)
    | intro _

theorem execProgUploadCommit_kept (t : Nat) (rx : Rx) (s : State) :
    ∃ z, execProgUploadCommit t rx s = .next z ∧ Kept s z := by
  unfold execProgUploadCommit
  refine ⟨_, rfl, ?_⟩
  repeat'
    first
    | with_reducible exact Kept.refl _
    | apply progUpload_kept
    | with_reducible apply Kept.trans ?_ (State.at_kept _ _)
    | with_reducible apply Kept.trans ?_ (State.putProg_kept _ _ _)
    | with_reducible apply Kept.trans ?_ (State.refreshProg_kept _ _)
    | with_reducible apply Kept.trans ?_ (State.serve_kept _ _ _ ?_)
    | intro _

theorem execProgUploadUnload_kept (t : Nat) (rx : Rx) (s : State) :
    ∃ z, execProgUploadUnload t rx s = .next z ∧ Kept s z := by
  unfold execProgUploadUnload
  refine ⟨_, rfl, ?_⟩
  repeat'
    first
    | with_reducible exact Kept.refl _
    | apply progUpload_kept
    | with_reducible apply Kept.trans ?_ (State.at_kept _ _)
    | with_reducible apply Kept.trans ?_ (State.putProg_kept _ _ _)
    | with_reducible apply Kept.trans ?_ (State.serve_kept _ _ _ ?_)
    | intro _

theorem execProgFitComplete_kept (t : Nat) (slot : Nat) (s : State) :
    ∃ z, execProgFitComplete t slot s = .next z ∧ Kept s z := by
  unfold execProgFitComplete
  refine ⟨_, rfl, ?_⟩
  repeat'
    first
    | with_reducible exact Kept.refl _
    | with_reducible apply Kept.trans ?_ (State.at_kept _ _)
    | with_reducible apply Kept.trans ?_ (State.when_kept _ _ _ ?_)
    | with_reducible apply Kept.trans ?_ (State.setU_kept _ _ _ _)
    | with_reducible apply Kept.trans ?_ (State.inc_kept _ _)
    | with_reducible apply Kept.trans ?_ (State.latch_kept _ _ _ _)
    | with_reducible apply Kept.trans ?_ (State.refreshStore_kept _)
    | with_reducible apply Kept.trans ?_ (State.putProg_kept _ _ _)
    | with_reducible apply Kept.trans ?_ (State.refreshProg_kept _ _)
    | intro _
    | split

theorem execProgInstall_kept (t : Nat) (slot : Nat) (s : State) :
    ∃ z, execProgInstall t slot s = .next z ∧ Kept s z := by
  unfold execProgInstall
  refine ⟨_, rfl, ?_⟩
  try dsimp only
  repeat'
    first
    | with_reducible exact Kept.refl _
    | with_reducible assumption
    | with_reducible apply Kept.trans ?_ (State.at_kept _ _)
    | with_reducible apply Kept.trans ?_ (State.when_kept _ _ _ ?_)
    | with_reducible apply Kept.trans ?_ (State.setU_kept _ _ _ _)
    | with_reducible apply Kept.trans ?_ (State.inc_kept _ _)
    | with_reducible apply Kept.trans ?_ (State.drawn_kept _)
    | with_reducible apply Kept.trans ?_ (State.refreshStore_kept _)
    | with_reducible apply Kept.trans ?_ (State.putProg_kept _ _ _)
    | with_reducible apply Kept.trans ?_ (State.refreshProg_kept _ _)
    | with_reducible apply Kept.trans ?_ (State.replace_kept _)
    | with_reducible apply Kept.trans ?_ (State.resetHingeEntries_kept _ _ _)
    | with_reducible apply Kept.trans ?_ (State.store_kept _ _ _ _ _)
    | simp only [Kept.mk_iff, Kept.dict_iff, Kept.recorder_iff]
    | intro _
    | split

theorem execProgStop_kept (t : Nat) (slot : Nat) (s : State) : ∃ z, execProgStop t slot s = .next z ∧ Kept s z := by
  unfold execProgStop
  refine ⟨_, rfl, ?_⟩
  try dsimp only
  repeat'
    first
    | with_reducible exact Kept.refl _
    | with_reducible assumption
    | with_reducible apply Kept.trans ?_ (State.at_kept _ _)
    | with_reducible apply Kept.trans ?_ (State.when_kept _ _ _ ?_)
    | with_reducible apply Kept.trans ?_ (State.set_kept _ _ _)
    | with_reducible apply Kept.trans ?_ (State.unloadProg_kept _ _ _)
    | with_reducible apply Kept.trans ?_ (State.putProg_kept _ _ _)
    | with_reducible apply Kept.trans ?_ (State.refreshProg_kept _ _)
    | with_reducible apply Kept.trans ?_ (State.replace_kept _)
    | simp only [Kept.mk_iff, Kept.dict_iff, Kept.recorder_iff]
    | intro _
    | split

theorem execProgStorageMoveDone_kept (t : Nat) (slot : Nat) (s : State) :
    ∃ z, execProgStorageMoveDone t slot s = .next z ∧ Kept s z := by
  unfold execProgStorageMoveDone
  refine ⟨_, rfl, ?_⟩
  try dsimp only
  repeat'
    first
    | with_reducible exact Kept.refl _
    | with_reducible assumption
    | with_reducible apply Kept.trans ?_ (State.at_kept _ _)
    | with_reducible apply Kept.trans ?_ (State.when_kept _ _ _ ?_)
    | with_reducible apply Kept.trans ?_ (State.putProg_kept _ _ _)
    | with_reducible apply Kept.trans ?_ (State.refreshProg_kept _ _)
    | simp only [Kept.mk_iff, Kept.dict_iff, Kept.recorder_iff]
    | intro _
    | split

theorem execProgFeed_kept (t : Nat) (rx : Rx) (s : State) : ∃ z, execProgFeed t rx s = .next z ∧ Kept s z := by
  unfold execProgFeed
  refine ⟨_, rfl, ?_⟩
  try dsimp only
  repeat'
    first
    | with_reducible exact Kept.refl _
    | with_reducible assumption
    | apply cmdService_kept
    | with_reducible apply Kept.trans ?_ (State.at_kept _ _)
    | with_reducible apply Kept.trans ?_ (State.serve_kept _ _ _)
    | with_reducible apply Kept.trans ?_ (State.putProg_kept _ _ _)
    | with_reducible apply Kept.trans ?_ (State.serve_kept _ _ _ ?_)
    | simp only [Kept.mk_iff, Kept.dict_iff, Kept.recorder_iff]
    | intro _
    | split

theorem execProgFeedApply_kept (t : Nat) (slot : Nat) (s : State) :
    ∃ z, execProgFeedApply t slot s = .next z ∧ Kept s z := by
  unfold execProgFeedApply
  refine ⟨_, rfl, ?_⟩
  try dsimp only
  repeat'
    first
    | with_reducible exact Kept.refl _
    | with_reducible assumption
    | with_reducible apply Kept.trans ?_ (State.at_kept _ _)
    | with_reducible apply Kept.trans ?_ (State.when_kept _ _ _ ?_)
    | with_reducible apply Kept.trans ?_ (State.putProg_kept _ _ _)
    | simp only [Kept.mk_iff, Kept.dict_iff, Kept.recorder_iff]
    | intro _
    | split
    | with_reducible apply Kept.trans ?_ (Kept.foldl ?_ _ _)
    | with_reducible apply Kept.trans ?_ (Kept.foldl_fst ?_ _ _)

theorem execProgPublish_kept (t : Nat) (slot : Nat) (s : State) :
    ∃ z, execProgPublish t slot s = .next z ∧ Kept s z := by
  unfold execProgPublish
  refine ⟨_, rfl, ?_⟩
  try dsimp only
  repeat'
    first
    | with_reducible exact Kept.refl _
    | with_reducible assumption
    | with_reducible apply Kept.trans ?_ (State.at_kept _ _)
    | with_reducible apply Kept.trans ?_ (State.when_kept _ _ _ ?_)
    | with_reducible apply Kept.trans ?_ (State.publish_kept _ _ _)
    | simp only [Kept.mk_iff, Kept.dict_iff, Kept.recorder_iff]
    | intro _
    | split

theorem execProgStepStart_kept (t : Nat) (slot : Nat) (s : State) :
    ∃ z, execProgStepStart t slot s = .next z ∧ Kept s z := by
  unfold execProgStepStart
  refine ⟨_, rfl, ?_⟩
  try dsimp only
  repeat'
    first
    | with_reducible exact Kept.refl _
    | with_reducible assumption
    | with_reducible apply Kept.trans ?_ (State.at_kept _ _)
    | with_reducible apply Kept.trans ?_ (State.when_kept _ _ _ ?_)
    | with_reducible apply Kept.trans ?_ (State.incU_kept _ _ _)
    | with_reducible apply Kept.trans ?_ (State.latch_kept _ _ _ _)
    | with_reducible apply Kept.trans ?_ (State.putProg_kept _ _ _)
    | with_reducible apply Kept.trans ?_ (State.countBr_kept _ _)
    | with_reducible apply Kept.trans ?_ (State.publish_kept _ _ _)
    | simp only [Kept.mk_iff, Kept.dict_iff, Kept.recorder_iff]
    | intro _
    | split

theorem execProgStepComplete_kept (t : Nat) (slot : Nat) (poison : List (Nat × Nat)) (s : State) :
    ∃ z, execProgStepComplete t slot poison s = .next z ∧ Kept s z := by
  unfold execProgStepComplete
  refine ⟨_, rfl, ?_⟩
  try dsimp only
  repeat'
    first
    | with_reducible exact Kept.refl _
    | with_reducible assumption
    | with_reducible apply Kept.trans ?_ (State.at_kept _ _)
    | with_reducible apply Kept.trans ?_ (State.when_kept _ _ _ ?_)
    | with_reducible apply Kept.trans ?_ (State.set_kept _ _ _)
    | with_reducible apply Kept.trans ?_ (State.add_kept _ _ _)
    | with_reducible apply Kept.trans ?_ (State.incU_kept _ _ _)
    | with_reducible apply Kept.trans ?_ (State.drawn_kept _)
    | with_reducible apply Kept.trans ?_ (State.latch_kept _ _ _ _)
    | with_reducible apply Kept.trans ?_ (State.putProg_kept _ _ _)
    | with_reducible apply Kept.trans ?_ (State.countBr_kept _ _)
    | with_reducible apply Kept.trans ?_ (State.poison_kept _ _ _)
    | simp only [Kept.mk_iff, Kept.dict_iff, Kept.recorder_iff]
    | intro _
    | split
    | with_reducible apply Kept.trans ?_ (Kept.foldl ?_ _ _)
    | with_reducible apply Kept.trans ?_ (Kept.foldl_fst ?_ _ _)

theorem execHingeRebuildStart_kept (t : Nat) (slot : Nat) (k : Nat) (s : State) :
    ∃ z, execHingeRebuildStart t slot k s = .next z ∧ Kept s z := by
  unfold execHingeRebuildStart
  refine ⟨_, rfl, ?_⟩
  try dsimp only
  repeat'
    first
    | with_reducible exact Kept.refl _
    | with_reducible assumption
    | with_reducible apply Kept.trans ?_ (State.at_kept _ _)
    | with_reducible apply Kept.trans ?_ (State.when_kept _ _ _ ?_)
    | with_reducible apply Kept.trans ?_ (State.setU_kept _ _ _ _)
    | with_reducible apply Kept.trans ?_ (State.putHinge_kept _ _ _ _)
    | simp only [Kept.mk_iff, Kept.dict_iff, Kept.recorder_iff]
    | intro _
    | split

theorem execHingeRebuild_kept (t : Nat) (rx : Rx) (s : State) :
    ∃ z, execHingeRebuild t rx s = .next z ∧ Kept s z := by
  unfold execHingeRebuild
  refine ⟨_, rfl, ?_⟩
  try dsimp only
  repeat'
    first
    | with_reducible exact Kept.refl _
    | with_reducible assumption
    | apply cmdService_kept
    | with_reducible apply Kept.trans ?_ (State.at_kept _ _)
    | with_reducible apply Kept.trans ?_ (State.serve_kept _ _ _)
    | with_reducible apply Kept.trans ?_ (State.putHinge_kept _ _ _ _)
    | with_reducible apply Kept.trans ?_ (State.serve_kept _ _ _ ?_)
    | simp only [Kept.mk_iff, Kept.dict_iff, Kept.recorder_iff]
    | intro _
    | split

theorem execHingePreloadDone_kept (t : Nat) (slot : Nat) (k : Nat) (s : State) :
    ∃ z, execHingePreloadDone t slot k s = .next z ∧ Kept s z := by
  unfold execHingePreloadDone
  refine ⟨_, rfl, ?_⟩
  try dsimp only
  repeat'
    first
    | with_reducible exact Kept.refl _
    | with_reducible assumption
    | with_reducible apply Kept.trans ?_ (State.at_kept _ _)
    | with_reducible apply Kept.trans ?_ (State.when_kept _ _ _ ?_)
    | with_reducible apply Kept.trans ?_ (State.setU_kept _ _ _ _)
    | with_reducible apply Kept.trans ?_ (State.putHinge_kept _ _ _ _)
    | simp only [Kept.mk_iff, Kept.dict_iff, Kept.recorder_iff]
    | intro _
    | split

theorem execHingeStale_kept (t : Nat) (slot : Nat) (k : Nat) (s : State) :
    ∃ z, execHingeStale t slot k s = .next z ∧ Kept s z := by
  unfold execHingeStale
  refine ⟨_, rfl, ?_⟩
  try dsimp only
  repeat'
    first
    | with_reducible exact Kept.refl _
    | with_reducible assumption
    | with_reducible apply Kept.trans ?_ (State.at_kept _ _)
    | with_reducible apply Kept.trans ?_ (State.when_kept _ _ _ ?_)
    | with_reducible apply Kept.trans ?_ (State.latch_kept _ _ _ _)
    | with_reducible apply Kept.trans ?_ (State.putHinge_kept _ _ _ _)
    | simp only [Kept.mk_iff, Kept.dict_iff, Kept.recorder_iff]
    | intro _
    | split

end Sys2Proof.Machine
end

