-- ==== Sys2Proof/Laws/KeptArrays.lean ====
section
/-! SUPPORT. What the operations and the meanings of `Machine/Arrays.lean` keep (see `Laws/Kept.lean`). -/

namespace Sys2Proof.Machine

open Sys2Proof

theorem State.putArr_kept (s : State) (a : Nat) (x : Arr) :
    Kept s (State.putArr s a x) := by
  unfold State.putArr
  repeat'
    first
    | with_reducible exact Kept.refl _
    | simp only [Kept.mk_iff, Kept.dict_iff, Kept.recorder_iff]

theorem State.refreshArrays_kept (s : State) :
    Kept s (State.refreshArrays s) := by
  unfold State.refreshArrays
  repeat'
    first
    | with_reducible exact Kept.refl _
    | with_reducible apply Kept.trans ?_ (State.set_kept _ _ _)
    | simp only [Kept.mk_iff, Kept.dict_iff, Kept.recorder_iff]
    | split

theorem State.giveRole_kept (s : State) (a : Nat) (isRow : Bool) (borrowed : Bool) :
    Kept s (State.giveRole s a isRow borrowed) := by
  unfold State.giveRole
  repeat'
    first
    | with_reducible exact Kept.refl _
    | with_reducible apply Kept.trans ?_ (State.setRole_kept _ _ _ _)
    | with_reducible apply Kept.trans ?_ (State.putArr_kept _ _ _)

theorem State.rowTo_kept (s : State) (r : Nat) (q : Nat) :
    Kept s (State.rowTo s r q) := by
  unfold State.rowTo
  try dsimp only
  repeat'
    first
    | with_reducible exact Kept.refl _
    | with_reducible assumption
    | with_reducible apply Kept.trans ?_ (State.drawn_kept _)
    | with_reducible apply Kept.trans ?_ (State.giveRole_kept _ _ _ _)
    | simp only [Kept.mk_iff, Kept.dict_iff, Kept.recorder_iff]
    | intro _
    | split
    | with_reducible apply Kept.trans ?_ (Kept.foldl ?_ _ _)
    | with_reducible apply Kept.trans ?_ (Kept.foldl_fst ?_ _ _)

theorem State.reserve_kept (s : State) (n : Nat) :
    Kept s (State.reserve s n) := by
  unfold State.reserve
  repeat'
    first
    | with_reducible exact Kept.refl _
    | with_reducible apply Kept.trans ?_ (State.enterRest_kept _ _)
    | with_reducible apply Kept.trans ?_ (State.refreshArrays_kept _)
    | with_reducible apply Kept.trans ?_ (State.rowTo_kept _ _ _)
    | simp only [Kept.mk_iff, Kept.dict_iff, Kept.recorder_iff]
    | intro _
    | split
    | with_reducible apply Kept.trans ?_ (Kept.foldl ?_ _ _)

theorem State.arraysTaken_kept (s : State) (isRow : Bool) :
    Kept s (State.arraysTaken s isRow) := by
  unfold State.arraysTaken
  repeat'
    first
    | with_reducible exact Kept.refl _
    | with_reducible apply Kept.trans ?_ (State.when_kept _ _ _ ?_)
    | with_reducible apply Kept.trans ?_ (State.drawn_kept _)
    | with_reducible apply Kept.trans ?_ (State.loseStep_kept _ _)
    | with_reducible apply Kept.trans ?_ (restartHinges_kept _ _ _)
    | intro _
    | split
    | with_reducible apply Kept.trans ?_ (Kept.foldl ?_ _ _)

theorem State.abandonAlloc_kept (s : State) :
    Kept s (State.abandonAlloc s) := by
  unfold State.abandonAlloc
  repeat'
    first
    | with_reducible exact Kept.refl _
    | with_reducible apply Kept.trans ?_ (State.inc_kept _ _)
    | simp only [Kept.mk_iff, Kept.dict_iff, Kept.recorder_iff]
    | split

theorem State.noResults_kept (s : State) (a : Nat) :
    Kept s (State.noResults s a) := by
  unfold State.noResults
  repeat'
    first
    | with_reducible exact Kept.refl _
    | with_reducible apply Kept.trans ?_ (State.putGuest_kept _ _ _)
    | simp only [Kept.mk_iff, Kept.dict_iff, Kept.recorder_iff]
    | intro _
    | split
    | with_reducible apply Kept.trans ?_ (Kept.foldl ?_ _ _)

theorem State.arrayError_kept (s : State) (a : Nat) :
    Kept s (State.arrayError s a) := by
  unfold State.arrayError
  try dsimp only
  repeat'
    first
    | with_reducible exact Kept.refl _
    | with_reducible assumption
    | with_reducible apply Kept.trans ?_ (State.inc_kept _ _)
    | with_reducible apply Kept.trans ?_ (State.latch_kept _ _ _ _)
    | with_reducible apply Kept.trans ?_ (State.putUnit_kept _ _ _)
    | with_reducible apply Kept.trans ?_ (State.fenceUnit_kept _ _)
    | with_reducible apply Kept.trans ?_ (State.putArr_kept _ _ _)
    | with_reducible apply Kept.trans ?_ (State.refreshArrays_kept _)
    | with_reducible apply Kept.trans ?_ (State.arraysTaken_kept _ _)
    | with_reducible apply Kept.trans ?_ (State.abandonAlloc_kept _)
    | with_reducible apply Kept.trans ?_ (State.noResults_kept _ _)
    | simp only [Kept.mk_iff, Kept.dict_iff, Kept.recorder_iff]
    | intro _
    | split

theorem State.fenceRegion_kept (s : State) (r : Nat) :
    Kept s (State.fenceRegion s r) := by
  unfold State.fenceRegion
  repeat'
    first
    | with_reducible exact Kept.refl _
    | with_reducible apply Kept.trans ?_ (State.set_kept _ _ _)
    | with_reducible apply Kept.trans ?_ (State.latch_kept _ _ _ _)
    | with_reducible apply Kept.trans ?_ (State.putDiary_kept _ _)
    | with_reducible apply Kept.trans ?_ (State.putUnit_kept _ _ _)
    | with_reducible apply Kept.trans ?_ (State.setRole_kept _ _ _ _)
    | with_reducible apply Kept.trans ?_ (State.putArr_kept _ _ _)
    | with_reducible apply Kept.trans ?_ (State.refreshArrays_kept _)
    | with_reducible apply Kept.trans ?_ (State.arraysTaken_kept _ _)
    | with_reducible apply Kept.trans ?_ (State.abandonAlloc_kept _)
    | with_reducible apply Kept.trans ?_ (State.noResults_kept _ _)
    | simp only [Kept.mk_iff, Kept.dict_iff, Kept.recorder_iff]
    | intro _
    | split
    | with_reducible apply Kept.trans ?_ (Kept.foldl ?_ _ _)

theorem execParityError_kept (t : Nat) (array : Nat) (s : State) :
    ∃ z, execParityError t array s = .next z ∧ Kept s z := by
  unfold execParityError
  refine ⟨_, rfl, ?_⟩
  repeat'
    first
    | with_reducible exact Kept.refl _
    | with_reducible apply Kept.trans ?_ (State.at_kept _ _)
    | with_reducible apply Kept.trans ?_ (State.inc_kept _ _)
    | with_reducible apply Kept.trans ?_ (State.incU_kept _ _ _)
    | with_reducible apply Kept.trans ?_ (State.latch_kept _ _ _ _)
    | with_reducible apply Kept.trans ?_ (State.putArr_kept _ _ _)
    | with_reducible apply Kept.trans ?_ (State.arrayError_kept _ _)
    | split

theorem execStepOverrun_kept (t : Nat) (array : Nat) (s : State) :
    ∃ z, execStepOverrun t array s = .next z ∧ Kept s z := by
  unfold execStepOverrun
  refine ⟨_, rfl, ?_⟩
  try dsimp only
  repeat'
    first
    | with_reducible exact Kept.refl _
    | with_reducible assumption
    | with_reducible apply Kept.trans ?_ (State.at_kept _ _)
    | with_reducible apply Kept.trans ?_ (State.when_kept _ _ _ ?_)
    | with_reducible apply Kept.trans ?_ (State.inc_kept _ _)
    | with_reducible apply Kept.trans ?_ (State.latch_kept _ _ _ _)
    | with_reducible apply Kept.trans ?_ (State.putArr_kept _ _ _)
    | with_reducible apply Kept.trans ?_ (State.noResults_kept _ _)
    | with_reducible apply Kept.trans ?_ (State.arrayError_kept _ _)
    | simp only [Kept.mk_iff, Kept.dict_iff, Kept.recorder_iff]
    | intro _
    | split

theorem execArrayBlockError_kept (t : Nat) (array : Nat) (sram : Bool) (s : State) :
    ∃ z, execArrayBlockError t array sram s = .next z ∧ Kept s z := by
  unfold execArrayBlockError
  refine ⟨_, rfl, ?_⟩
  repeat'
    first
    | with_reducible exact Kept.refl _
    | with_reducible apply Kept.trans ?_ (State.at_kept _ _)
    | with_reducible apply Kept.trans ?_ (State.when_kept _ _ _ ?_)
    | with_reducible apply Kept.trans ?_ (State.inc_kept _ _)
    | with_reducible apply Kept.trans ?_ (State.arrayError_kept _ _)
    | intro _

theorem execRegionFence_kept (t : Nat) (region : Nat) (s : State) :
    ∃ z, execRegionFence t region s = .next z ∧ Kept s z := by
  unfold execRegionFence
  refine ⟨_, rfl, ?_⟩
  repeat'
    first
    | with_reducible exact Kept.refl _
    | with_reducible apply Kept.trans ?_ (State.at_kept _ _)
    | with_reducible apply Kept.trans ?_ (State.when_kept _ _ _ ?_)
    | with_reducible apply Kept.trans ?_ (State.fenceRegion_kept _ _)
    | intro _

theorem execRegionReconfigure_kept (t : Nat) (region : Nat) (s : State) :
    ∃ z, execRegionReconfigure t region s = .next z ∧ Kept s z := by
  unfold execRegionReconfigure
  refine ⟨_, rfl, ?_⟩
  try dsimp only
  repeat'
    first
    | with_reducible exact Kept.refl _
    | with_reducible assumption
    | with_reducible apply Kept.trans ?_ (State.at_kept _ _)
    | with_reducible apply Kept.trans ?_ (State.when_kept _ _ _ ?_)
    | with_reducible apply Kept.trans ?_ (State.setU_kept _ _ _ _)
    | with_reducible apply Kept.trans ?_ (State.carve_kept _ _)
    | with_reducible apply Kept.trans ?_ (State.placeClasses_kept _ _)
    | with_reducible apply Kept.trans ?_ (State.reserve_kept _ _)
    | with_reducible apply Kept.trans ?_ (State.serve_kept _ _ _ ?_)
    | simp only [Kept.mk_iff, Kept.dict_iff, Kept.recorder_iff]
    | intro _
    | split
    | with_reducible apply Kept.trans ?_ (Kept.foldl ?_ _ _)
    | with_reducible apply Kept.trans ?_ (Kept.foldl_fst ?_ _ _)

theorem execMigration_kept (t : Nat) (array : Nat) (s : State) :
    ∃ z, execMigration t array s = .next z ∧ Kept s z := by
  unfold execMigration
  refine ⟨_, rfl, ?_⟩
  try dsimp only
  repeat'
    first
    | with_reducible exact Kept.refl _
    | with_reducible assumption
    | with_reducible apply Kept.trans ?_ (State.at_kept _ _)
    | with_reducible apply Kept.trans ?_ (State.when_kept _ _ _ ?_)
    | with_reducible apply Kept.trans ?_ (State.inc_kept _ _)
    | with_reducible apply Kept.trans ?_ (State.latch_kept _ _ _ _)
    | with_reducible apply Kept.trans ?_ (State.promote_kept _ _ _)
    | with_reducible apply Kept.trans ?_ (State.putArr_kept _ _ _)
    | with_reducible apply Kept.trans ?_ (State.refreshArrays_kept _)
    | with_reducible apply Kept.trans ?_ (State.giveRole_kept _ _ _ _)
    | with_reducible apply Kept.trans ?_ (State.arraysTaken_kept _ _)
    | with_reducible apply Kept.trans ?_ (State.fenceRegion_kept _ _)
    | simp only [Kept.mk_iff, Kept.dict_iff, Kept.recorder_iff]
    | intro _
    | split

theorem execRotationPreload_kept (t : Nat) (region : Nat) (s : State) :
    ∃ z, execRotationPreload t region s = .next z ∧ Kept s z := by
  unfold execRotationPreload
  refine ⟨_, rfl, ?_⟩
  try dsimp only
  repeat'
    first
    | with_reducible exact Kept.refl _
    | with_reducible assumption
    | with_reducible apply Kept.trans ?_ (State.at_kept _ _)
    | with_reducible apply Kept.trans ?_ (State.when_kept _ _ _ ?_)
    | with_reducible apply Kept.trans ?_ (State.putArr_kept _ _ _)
    | simp only [Kept.mk_iff, Kept.dict_iff, Kept.recorder_iff]
    | intro _
    | split

theorem execRotation_kept (t : Nat) (region : Nat) (s : State) :
    ∃ z, execRotation t region s = .next z ∧ Kept s z := by
  unfold execRotation
  refine ⟨_, rfl, ?_⟩
  try dsimp only
  repeat'
    first
    | with_reducible exact Kept.refl _
    | with_reducible assumption
    | with_reducible apply Kept.trans ?_ (State.at_kept _ _)
    | with_reducible apply Kept.trans ?_ (State.when_kept _ _ _ ?_)
    | with_reducible apply Kept.trans ?_ (State.set_kept _ _ _)
    | with_reducible apply Kept.trans ?_ (State.inc_kept _ _)
    | with_reducible apply Kept.trans ?_ (State.latch_kept _ _ _ _)
    | with_reducible apply Kept.trans ?_ (State.putUnit_kept _ _ _)
    | with_reducible apply Kept.trans ?_ (State.setRole_kept _ _ _ _)
    | with_reducible apply Kept.trans ?_ (State.putArr_kept _ _ _)
    | with_reducible apply Kept.trans ?_ (State.refreshArrays_kept _)
    | with_reducible apply Kept.trans ?_ (State.giveRole_kept _ _ _ _)
    | with_reducible apply Kept.trans ?_ (State.arraysTaken_kept _ _)
    | simp only [Kept.mk_iff, Kept.dict_iff, Kept.recorder_iff]
    | intro _
    | split

end Sys2Proof.Machine
end

