-- ==== Sys2Proof/Laws/KeptStacks.lean ====
section
/-! SUPPORT. What the operations and the meanings of `Machine/Stacks.lean` keep (see `Laws/Kept.lean`). -/

namespace Sys2Proof.Machine

open Sys2Proof

theorem State.putStack_kept (s : State) (k : Nat) (x : Stack) :
    Kept s (State.putStack s k x) := by
  unfold State.putStack
  repeat'
    first
    | with_reducible exact Kept.refl _
    | simp only [Kept.mk_iff, Kept.dict_iff, Kept.recorder_iff]

theorem State.setSlotChan_kept (s : State) (k : Nat) (slot : Nat) (c : Nat) :
    Kept s (State.setSlotChan s k slot c) := by
  unfold State.setSlotChan
  repeat'
    first
    | with_reducible exact Kept.refl _
    | with_reducible apply Kept.trans ?_ (State.setU_kept _ _ _ _)

theorem State.poison_kept (s : State) (k : Nat) (lost : Nat → Bool) :
    Kept s (State.poison s k lost) := by
  unfold State.poison
  repeat'
    first
    | with_reducible exact Kept.refl _
    | simp only [Kept.mk_iff, Kept.dict_iff, Kept.recorder_iff]

theorem State.eccCorrected_kept (s : State) (k : Nat) (c : Nat) (n : Nat) :
    Kept s (State.eccCorrected s k c n) := by
  unfold State.eccCorrected
  repeat'
    first
    | with_reducible exact Kept.refl _
    | with_reducible apply Kept.trans ?_ (State.addU_kept _ _ _ _)
    | with_reducible apply Kept.trans ?_ (State.putUnit_kept _ _ _)

theorem State.loseLog_kept (s : State) :
    Kept s (State.loseLog s) := by
  unfold State.loseLog
  repeat'
    first
    | with_reducible exact Kept.refl _
    | with_reducible apply Kept.trans ?_ (State.latch_kept _ _ _ _)
    | simp only [Kept.mk_iff, Kept.dict_iff, Kept.recorder_iff]

theorem State.loseStack_kept (s : State) (k : Nat) :
    Kept s (State.loseStack s k) := by
  unfold State.loseStack
  repeat'
    first
    | with_reducible exact Kept.refl _
    | with_reducible apply Kept.trans ?_ (State.set_kept _ _ _)
    | with_reducible apply Kept.trans ?_ (State.setU_kept _ _ _ _)
    | with_reducible apply Kept.trans ?_ (State.latch_kept _ _ _ _)
    | with_reducible apply Kept.trans ?_ (State.refreshStore_kept _)
    | with_reducible apply Kept.trans ?_ (State.fenceRegion_kept _ _)
    | with_reducible apply Kept.trans ?_ (State.putStack_kept _ _ _)
    | with_reducible apply Kept.trans ?_ (State.poison_kept _ _ _)
    | with_reducible apply Kept.trans ?_ (State.loseLog_kept _)
    | intro _
    | split
    | with_reducible apply Kept.trans ?_ (Kept.foldl ?_ _ _)

theorem State.areaWritten_kept (s : State) (slot : Nat) (g : Guest) :
    Kept s (State.areaWritten s slot g) := by
  unfold State.areaWritten
  repeat'
    first
    | with_reducible exact Kept.refl _
    | with_reducible apply Kept.trans ?_ (State.putStack_kept _ _ _)

theorem execLineUncorrectable_kept (t : Nat) (stack : Nat) (line : Nat) (s : State) :
    ∃ z, execLineUncorrectable t stack line s = .next z ∧ Kept s z := by
  unfold execLineUncorrectable
  refine ⟨_, rfl, ?_⟩
  repeat'
    first
    | with_reducible exact Kept.refl _
    | with_reducible apply Kept.trans ?_ (State.at_kept _ _)
    | with_reducible apply Kept.trans ?_ (State.when_kept _ _ _ ?_)
    | with_reducible apply Kept.trans ?_ (State.incU_kept _ _ _)
    | with_reducible apply Kept.trans ?_ (State.latch_kept _ _ _ _)
    | with_reducible apply Kept.trans ?_ (State.putStack_kept _ _ _)
    | with_reducible apply Kept.trans ?_ (State.poison_kept _ _ _)
    | intro _

theorem execRowSpare_kept (t : Nat) (stack : Nat) (bank : Nat) (_row : Nat) (s : State) :
    ∃ z, execRowSpare t stack bank _row s = .next z ∧ Kept s z := by
  unfold execRowSpare
  refine ⟨_, rfl, ?_⟩
  repeat'
    first
    | with_reducible exact Kept.refl _
    | with_reducible apply Kept.trans ?_ (State.at_kept _ _)
    | with_reducible apply Kept.trans ?_ (State.when_kept _ _ _ ?_)
    | with_reducible apply Kept.trans ?_ (State.incU_kept _ _ _)
    | with_reducible apply Kept.trans ?_ (State.putStack_kept _ _ _)
    | intro _

theorem execPageRetire_kept (t : Nat) (stack : Nat) (page : Nat) (s : State) :
    ∃ z, execPageRetire t stack page s = .next z ∧ Kept s z := by
  unfold execPageRetire
  refine ⟨_, rfl, ?_⟩
  repeat'
    first
    | with_reducible exact Kept.refl _
    | with_reducible apply Kept.trans ?_ (State.at_kept _ _)
    | with_reducible apply Kept.trans ?_ (State.when_kept _ _ _ ?_)
    | with_reducible apply Kept.trans ?_ (State.setU_kept _ _ _ _)
    | with_reducible apply Kept.trans ?_ (State.incU_kept _ _ _)
    | with_reducible apply Kept.trans ?_ (State.latch_kept _ _ _ _)
    | with_reducible apply Kept.trans ?_ (State.putStack_kept _ _ _)
    | intro _
    | split

theorem execPatrolScrubPass_kept (t : Nat) (stack : Nat) (corrected : List (Nat × Nat)) (s : State) :
    ∃ z, execPatrolScrubPass t stack corrected s = .next z ∧ Kept s z := by
  unfold execPatrolScrubPass
  refine ⟨_, rfl, ?_⟩
  repeat'
    first
    | with_reducible exact Kept.refl _
    | with_reducible apply Kept.trans ?_ (State.at_kept _ _)
    | with_reducible apply Kept.trans ?_ (State.when_kept _ _ _ ?_)
    | with_reducible apply Kept.trans ?_ (State.putStack_kept _ _ _)
    | with_reducible apply Kept.trans ?_ (State.eccCorrected_kept _ _ _ _)
    | intro _
    | with_reducible apply Kept.trans ?_ (Kept.foldl ?_ _ _)

theorem execStackLoss_kept (t : Nat) (stack : Nat) (s : State) :
    ∃ z, execStackLoss t stack s = .next z ∧ Kept s z := by
  unfold execStackLoss
  refine ⟨_, rfl, ?_⟩
  repeat'
    first
    | with_reducible exact Kept.refl _
    | with_reducible apply Kept.trans ?_ (State.at_kept _ _)
    | with_reducible apply Kept.trans ?_ (State.loseStack_kept _ _)

theorem execChannelLoss_kept (t : Nat) (stack : Nat) (channel : Nat) (s : State) :
    ∃ z, execChannelLoss t stack channel s = .next z ∧ Kept s z := by
  unfold execChannelLoss
  refine ⟨_, rfl, ?_⟩
  repeat'
    first
    | with_reducible exact Kept.refl _
    | with_reducible apply Kept.trans ?_ (State.at_kept _ _)
    | with_reducible apply Kept.trans ?_ (State.when_kept _ _ _ ?_)
    | with_reducible apply Kept.trans ?_ (State.setU_kept _ _ _ _)
    | with_reducible apply Kept.trans ?_ (State.noteFailure_kept _ _)
    | with_reducible apply Kept.trans ?_ (State.fenceUnit_kept _ _)
    | with_reducible apply Kept.trans ?_ (State.putStack_kept _ _ _)
    | with_reducible apply Kept.trans ?_ (State.poison_kept _ _ _)
    | intro _
    | split

theorem execChannelSpare_kept (t : Nat) (stack : Nat) (slot : Nat) (s : State) :
    ∃ z, execChannelSpare t stack slot s = .next z ∧ Kept s z := by
  unfold execChannelSpare
  refine ⟨_, rfl, ?_⟩
  repeat'
    first
    | with_reducible exact Kept.refl _
    | with_reducible apply Kept.trans ?_ (State.at_kept _ _)
    | with_reducible apply Kept.trans ?_ (State.when_kept _ _ _ ?_)
    | with_reducible apply Kept.trans ?_ (State.setU_kept _ _ _ _)
    | with_reducible apply Kept.trans ?_ (State.latch_kept _ _ _ _)
    | with_reducible apply Kept.trans ?_ (State.promote_kept _ _ _)
    | with_reducible apply Kept.trans ?_ (State.putStack_kept _ _ _)
    | with_reducible apply Kept.trans ?_ (State.setSlotChan_kept _ _ _ _)
    | with_reducible apply Kept.trans ?_ (State.loseStack_kept _ _)
    | intro _
    | split

theorem execZeroFillDone_kept (t : Nat) (stack : Nat) (channel : Nat) (s : State) :
    ∃ z, execZeroFillDone t stack channel s = .next z ∧ Kept s z := by
  unfold execZeroFillDone
  refine ⟨_, rfl, ?_⟩
  repeat'
    first
    | with_reducible exact Kept.refl _
    | with_reducible apply Kept.trans ?_ (State.at_kept _ _)
    | with_reducible apply Kept.trans ?_ (State.when_kept _ _ _ ?_)
    | with_reducible apply Kept.trans ?_ (State.setU_kept _ _ _ _)
    | with_reducible apply Kept.trans ?_ (State.putStack_kept _ _ _)
    | intro _

theorem execStackHot_kept (t : Nat) (stack : Nat) (temp : Nat) (s : State) :
    ∃ z, execStackHot t stack temp s = .next z ∧ Kept s z := by
  unfold execStackHot
  refine ⟨_, rfl, ?_⟩
  try dsimp only
  repeat'
    first
    | with_reducible exact Kept.refl _
    | with_reducible assumption
    | with_reducible apply Kept.trans ?_ (State.at_kept _ _)
    | with_reducible apply Kept.trans ?_ (State.when_kept _ _ _ ?_)
    | with_reducible apply Kept.trans ?_ (State.setU_kept _ _ _ _)
    | with_reducible apply Kept.trans ?_ (State.latchOpen_kept _ _ _ _)
    | with_reducible apply Kept.trans ?_ (State.latchEnd_kept _ _ _ _ _)
    | with_reducible apply Kept.trans ?_ (State.putStack_kept _ _ _)
    | with_reducible apply Kept.trans ?_ (State.loseStack_kept _ _)
    | simp only [Kept.mk_iff, Kept.dict_iff, Kept.recorder_iff]
    | intro _
    | split

end Sys2Proof.Machine
end

