-- ==== Sys2Proof/Laws/KeptRowModel.lean ====
section
/-! SUPPORT. What the operations and the meanings of `Machine/RowModel.lean` keep (see `Laws/Kept.lean`). -/

namespace Sys2Proof.Machine

open Sys2Proof

theorem State.stepModel_kept (s : State) (slot : Nat) (g : Guest) (values : List (Nat × Nat)) :
    Kept s (State.stepModel s slot g values) := by
  unfold State.stepModel
  repeat'
    first
    | with_reducible exact Kept.refl _
    | with_reducible apply Kept.trans ?_ (State.when_kept _ _ _ ?_)
    | with_reducible apply Kept.trans ?_ (State.inc_kept _ _)
    | with_reducible apply Kept.trans ?_ (State.latch_kept _ _ _ _)
    | with_reducible apply Kept.trans ?_ (State.putGuest_kept _ _ _)
    | with_reducible apply Kept.trans ?_ (State.countBr_kept _ _)
    | simp only [Kept.mk_iff, Kept.dict_iff, Kept.recorder_iff]
    | intro _
    | split

theorem State.stepGuest_kept (s : State) (slot : Nat) (g : Guest) (meas : Bool) :
    Kept s (State.stepGuest s slot g meas) := by
  unfold State.stepGuest
  try dsimp only
  repeat'
    first
    | with_reducible exact Kept.refl _
    | with_reducible assumption
    | with_reducible apply Kept.trans ?_ (State.addU_kept _ _ _ _)
    | with_reducible apply Kept.trans ?_ (State.latch_kept _ _ _ _)
    | with_reducible apply Kept.trans ?_ (State.putGuest_kept _ _ _)
    | with_reducible apply Kept.trans ?_ (State.areaWritten_kept _ _ _)
    | with_reducible apply Kept.trans ?_ (State.stepModel_kept _ _ _ _)
    | simp only [Kept.mk_iff, Kept.dict_iff, Kept.recorder_iff]
    | intro _
    | split

end Sys2Proof.Machine
end

