-- ==== Sys2Proof/Laws/KeptRowProgram.lean ====
section
/-! SUPPORT. What the operations and the meanings of `Machine/RowProgram.lean` keep (see `Laws/Kept.lean`). -/

namespace Sys2Proof.Machine

open Sys2Proof

theorem State.stepAll_kept (s : State) (f : Guest → Option Bool) :
    Kept s (State.stepAll s f) := by
  unfold State.stepAll
  repeat'
    first
    | with_reducible exact Kept.refl _
    | with_reducible apply Kept.trans ?_ (State.stepGuest_kept _ _ _ _)
    | intro _
    | split
    | with_reducible apply Kept.trans ?_ (Kept.foldl ?_ _ _)

theorem State.leakTick_kept (s : State) :
    Kept s (State.leakTick s) := by
  unfold State.leakTick
  repeat'
    first
    | with_reducible exact Kept.refl _
    | with_reducible apply Kept.trans ?_ (State.set_kept _ _ _)
    | with_reducible apply Kept.trans ?_ (State.countBr_kept _ _)
    | simp only [Kept.mk_iff, Kept.dict_iff, Kept.recorder_iff]
    | intro _
    | split
    | with_reducible apply Kept.trans ?_ (Kept.foldl ?_ _ _)

theorem State.classTurn_kept (s : State) :
    Kept s (State.classTurn s) := by
  unfold State.classTurn
  repeat'
    first
    | with_reducible exact Kept.refl _
    | with_reducible apply Kept.trans ?_ (State.setU_kept _ _ _ _)
    | with_reducible apply Kept.trans ?_ (State.latch_kept _ _ _ _)
    | simp only [Kept.mk_iff, Kept.dict_iff, Kept.recorder_iff]
    | intro _
    | split
    | with_reducible apply Kept.trans ?_ (Kept.foldl ?_ _ _)

theorem State.detectorTick_kept (s : State) :
    Kept s (State.detectorTick s) := by
  unfold State.detectorTick
  repeat'
    first
    | with_reducible exact Kept.refl _
    | simp only [Kept.mk_iff, Kept.dict_iff, Kept.recorder_iff]

theorem State.detect_kept (s : State) (n : Nat) :
    Kept s (State.detect s n) := by
  unfold State.detect
  repeat'
    first
    | with_reducible exact Kept.refl _
    | with_reducible apply Kept.trans ?_ (State.setU_kept _ _ _ _)
    | simp only [Kept.mk_iff, Kept.dict_iff, Kept.recorder_iff]
    | split

theorem State.restartDetector_kept (s : State) (n : Nat) :
    Kept s (State.restartDetector s n) := by
  unfold State.restartDetector
  repeat'
    first
    | with_reducible exact Kept.refl _
    | with_reducible apply Kept.trans ?_ (State.setU_kept _ _ _ _)
    | simp only [Kept.mk_iff, Kept.dict_iff, Kept.recorder_iff]

theorem execRowProgramStep_kept (t : Nat) (s : State) : ∃ z, execRowProgramStep t s = .next z ∧ Kept s z := by
  unfold execRowProgramStep
  refine ⟨_, rfl, ?_⟩
  repeat'
    first
    | with_reducible exact Kept.refl _
    | with_reducible apply Kept.trans ?_ (State.at_kept _ _)
    | with_reducible apply Kept.trans ?_ (State.when_kept _ _ _ ?_)
    | with_reducible apply Kept.trans ?_ (State.stepAll_kept _ _)
    | with_reducible apply Kept.trans ?_ (State.leakTick_kept _)
    | simp only [Kept.mk_iff, Kept.dict_iff, Kept.recorder_iff]
    | intro _

theorem execMeasurementCutoff_kept (t : Nat) (s : State) : ∃ z, execMeasurementCutoff t s = .next z ∧ Kept s z := by
  unfold execMeasurementCutoff
  refine ⟨_, rfl, ?_⟩
  repeat'
    first
    | with_reducible exact Kept.refl _
    | with_reducible apply Kept.trans ?_ (State.at_kept _ _)
    | with_reducible apply Kept.trans ?_ (State.when_kept _ _ _ ?_)
    | with_reducible apply Kept.trans ?_ (State.add_kept _ _ _)
    | with_reducible apply Kept.trans ?_ (State.stepAll_kept _ _)
    | simp only [Kept.mk_iff, Kept.dict_iff, Kept.recorder_iff]
    | intro _

theorem execSettleEnd_kept (t : Nat) (slot : Nat) (s : State) : ∃ z, execSettleEnd t slot s = .next z ∧ Kept s z := by
  unfold execSettleEnd
  refine ⟨_, rfl, ?_⟩
  repeat'
    first
    | with_reducible exact Kept.refl _
    | with_reducible apply Kept.trans ?_ (State.at_kept _ _)
    | with_reducible apply Kept.trans ?_ (State.when_kept _ _ _ ?_)
    | with_reducible apply Kept.trans ?_ (State.putGuest_kept _ _ _)
    | with_reducible apply Kept.trans ?_ (State.withGuest_kept _ _ _ ?_)
    | intro _

theorem execClassFallback_kept (t : Nat) (cls : Nat) (s : State) :
    ∃ z, execClassFallback t cls s = .next z ∧ Kept s z := by
  unfold execClassFallback
  refine ⟨_, rfl, ?_⟩
  repeat'
    first
    | with_reducible exact Kept.refl _
    | with_reducible apply Kept.trans ?_ (State.at_kept _ _)
    | with_reducible apply Kept.trans ?_ (State.when_kept _ _ _ ?_)
    | with_reducible apply Kept.trans ?_ (State.setU_kept _ _ _ _)
    | with_reducible apply Kept.trans ?_ (State.latch_kept _ _ _ _)
    | intro _

theorem execClassWidenLower_kept (t : Nat) (cls : Nat) (s : State) :
    ∃ z, execClassWidenLower t cls s = .next z ∧ Kept s z := by
  unfold execClassWidenLower
  refine ⟨_, rfl, ?_⟩
  repeat'
    first
    | with_reducible exact Kept.refl _
    | with_reducible apply Kept.trans ?_ (State.at_kept _ _)
    | with_reducible apply Kept.trans ?_ (State.when_kept _ _ _ ?_)
    | with_reducible apply Kept.trans ?_ (State.setU_kept _ _ _ _)
    | simp only [Kept.mk_iff, Kept.dict_iff, Kept.recorder_iff]
    | intro _

theorem execLeakSuspect_kept (t : Nat) (branch : Nat) (transient : Nat) (s : State) :
    ∃ z, execLeakSuspect t branch transient s = .next z ∧ Kept s z := by
  unfold execLeakSuspect
  refine ⟨_, rfl, ?_⟩
  repeat'
    first
    | with_reducible exact Kept.refl _
    | with_reducible apply Kept.trans ?_ (State.at_kept _ _)
    | with_reducible apply Kept.trans ?_ (State.when_kept _ _ _ ?_)
    | with_reducible apply Kept.trans ?_ (State.set_kept _ _ _)
    | with_reducible apply Kept.trans ?_ (State.latch_kept _ _ _ _)
    | simp only [Kept.mk_iff, Kept.dict_iff, Kept.recorder_iff]
    | intro _

theorem execPeriodPublish_kept (t : Nat) (n : Nat) (s : State) :
    ∃ z, execPeriodPublish t n s = .next z ∧ Kept s z := by
  unfold execPeriodPublish
  refine ⟨_, rfl, ?_⟩
  repeat'
    first
    | with_reducible exact Kept.refl _
    | with_reducible apply Kept.trans ?_ (State.at_kept _ _)
    | with_reducible apply Kept.trans ?_ (State.when_kept _ _ _ ?_)
    | with_reducible apply Kept.trans ?_ (State.setU_kept _ _ _ _)
    | simp only [Kept.mk_iff, Kept.dict_iff, Kept.recorder_iff]
    | intro _

theorem execPeriodWithdraw_kept (t : Nat) (n : Nat) (s : State) :
    ∃ z, execPeriodWithdraw t n s = .next z ∧ Kept s z := by
  unfold execPeriodWithdraw
  refine ⟨_, rfl, ?_⟩
  repeat'
    first
    | with_reducible exact Kept.refl _
    | with_reducible apply Kept.trans ?_ (State.at_kept _ _)
    | with_reducible apply Kept.trans ?_ (State.when_kept _ _ _ ?_)
    | with_reducible apply Kept.trans ?_ (State.setU_kept _ _ _ _)
    | simp only [Kept.mk_iff, Kept.dict_iff, Kept.recorder_iff]
    | intro _

end Sys2Proof.Machine
end

