-- ==== Sys2Proof/Laws/KeptAllocator.lean ====
section
/-! SUPPORT. What the operations and the meanings of `Machine/Allocator.lean` keep (see `Laws/Kept.lean`). -/

namespace Sys2Proof.Machine

open Sys2Proof

theorem State.sendAlloc_kept (s : State) (slot : Nat) (value : Nat) :
    Kept s (State.sendAlloc s slot value) := by
  unfold State.sendAlloc
  try dsimp only
  repeat'
    first
    | with_reducible exact Kept.refl _
    | with_reducible assumption
    | with_reducible apply Kept.trans ?_ (State.inc_kept _ _)
    | with_reducible apply Kept.trans ?_ (State.mapGuest_kept _ _ _)
    | with_reducible apply Kept.trans ?_ (State.withGuest_kept _ _ _ ?_)
    | with_reducible apply Kept.trans ?_ (State.queueCap_kept _ _)
    | with_reducible apply Kept.trans ?_ (State.endCut_kept _ _)
    | simp only [Kept.mk_iff, Kept.dict_iff, Kept.recorder_iff]
    | intro _
    | split

theorem State.egressBranches_kept (s : State) :
    Kept s (State.egressBranches s) := by
  unfold State.egressBranches
  repeat'
    first
    | with_reducible exact Kept.refl _
    | simp only [Kept.mk_iff, Kept.dict_iff, Kept.recorder_iff]

theorem execAllocationPeriodStart_kept (t : Nat) (s : State) :
    ∃ z, execAllocationPeriodStart t s = .next z ∧ Kept s z := by
  unfold execAllocationPeriodStart
  refine ⟨_, rfl, ?_⟩
  repeat'
    first
    | with_reducible exact Kept.refl _
    | with_reducible apply Kept.trans ?_ (State.at_kept _ _)
    | with_reducible apply Kept.trans ?_ (State.when_kept _ _ _ ?_)
    | with_reducible apply Kept.trans ?_ (State.set_kept _ _ _)
    | with_reducible apply Kept.trans ?_ (State.releaseHeld_kept _ _)
    | simp only [Kept.mk_iff, Kept.dict_iff, Kept.recorder_iff]
    | intro _

theorem execAllocationPeriodEnd_kept (t : Nat) (s : State) :
    ∃ z, execAllocationPeriodEnd t s = .next z ∧ Kept s z := by
  unfold execAllocationPeriodEnd
  refine ⟨_, rfl, ?_⟩
  repeat'
    first
    | with_reducible exact Kept.refl _
    | with_reducible apply Kept.trans ?_ (State.at_kept _ _)
    | with_reducible apply Kept.trans ?_ (State.when_kept _ _ _ ?_)
    | with_reducible apply Kept.trans ?_ (State.set_kept _ _ _)
    | with_reducible apply Kept.trans ?_ (State.setU_kept _ _ _ _)
    | with_reducible apply Kept.trans ?_ (State.inc_kept _ _)
    | with_reducible apply Kept.trans ?_ (State.drawn_kept _)
    | with_reducible apply Kept.trans ?_ (State.latch_kept _ _ _ _)
    | simp only [Kept.mk_iff, Kept.dict_iff, Kept.recorder_iff]
    | intro _
    | split
    | with_reducible apply Kept.trans ?_ (Kept.foldl ?_ _ _)

theorem execAllocateEgressTick_kept (t : Nat) (s : State) : ∃ z, execAllocateEgressTick t s = .next z ∧ Kept s z := by
  unfold execAllocateEgressTick
  refine ⟨_, rfl, ?_⟩
  repeat'
    first
    | with_reducible exact Kept.refl _
    | with_reducible apply Kept.trans ?_ (State.at_kept _ _)
    | with_reducible apply Kept.trans ?_ (State.when_kept _ _ _ ?_)
    | with_reducible apply Kept.trans ?_ (State.sendAlloc_kept _ _ _)
    | with_reducible apply Kept.trans ?_ (State.egressBranches_kept _)
    | simp only [Kept.mk_iff, Kept.dict_iff, Kept.recorder_iff]
    | intro _
    | split
    | with_reducible apply Kept.trans ?_ (Kept.foldl ?_ _ _)

end Sys2Proof.Machine
end

