-- ==== Sys2Proof/Laws/KeptRowBack.lean ====
section
/-! SUPPORT. What the operations and the meanings of `Machine/RowBack.lean` keep (see `Laws/Kept.lean`). -/

namespace Sys2Proof.Machine

open Sys2Proof

theorem State.validateRow_kept (s : State) (k : Nat) (h : Hinge) :
    Kept s (State.validateRow s k h) := by
  unfold State.validateRow
  repeat'
    first
    | with_reducible exact Kept.refl _
    | with_reducible apply Kept.trans ?_ (State.drawn_kept _)
    | with_reducible apply Kept.trans ?_ (State.hingeFail_kept _ _ _)
    | with_reducible apply Kept.trans ?_ (State.hingePass_kept _ _ _ _)
    | simp only [Kept.mk_iff, Kept.dict_iff, Kept.recorder_iff]
    | split

theorem State.swapRow_kept (s : State) (k : Nat) (h : Hinge) :
    Kept s (State.swapRow s k h) := by
  unfold State.swapRow
  repeat'
    first
    | with_reducible exact Kept.refl _
    | with_reducible apply Kept.trans ?_ (State.setU_kept _ _ _ _)
    | simp only [Kept.mk_iff, Kept.dict_iff, Kept.recorder_iff]
    | intro _
    | split
    | with_reducible apply Kept.trans ?_ (Kept.foldl ?_ _ _)

theorem execHingeValidate_kept (t : Nat) (slot : Nat) (k : Nat) (s : State) :
    ∃ z, execHingeValidate t slot k s = .next z ∧ Kept s z := by
  unfold execHingeValidate
  refine ⟨_, rfl, ?_⟩
  repeat'
    first
    | with_reducible exact Kept.refl _
    | with_reducible apply Kept.trans ?_ (State.at_kept _ _)
    | with_reducible apply Kept.trans ?_ (State.when_kept _ _ _ ?_)
    | with_reducible apply Kept.trans ?_ (State.validateProg_kept _ _ _ _)
    | with_reducible apply Kept.trans ?_ (State.validateRow_kept _ _ _)
    | intro _
    | split

theorem execHingeSwap_kept (t : Nat) (slot : Nat) (k : Nat) (s : State) :
    ∃ z, execHingeSwap t slot k s = .next z ∧ Kept s z := by
  unfold execHingeSwap
  refine ⟨_, rfl, ?_⟩
  repeat'
    first
    | with_reducible exact Kept.refl _
    | with_reducible apply Kept.trans ?_ (State.at_kept _ _)
    | with_reducible apply Kept.trans ?_ (State.when_kept _ _ _ ?_)
    | with_reducible apply Kept.trans ?_ (State.setU_kept _ _ _ _)
    | with_reducible apply Kept.trans ?_ (State.inc_kept _ _)
    | with_reducible apply Kept.trans ?_ (State.incU_kept _ _ _)
    | with_reducible apply Kept.trans ?_ (State.putHinge_kept _ _ _ _)
    | with_reducible apply Kept.trans ?_ (State.swapRow_kept _ _ _)
    | intro _
    | split

end Sys2Proof.Machine
end

