-- ==== Sys2Proof/Laws/KeptIocOps.lean ====
section
/-! SUPPORT. What the operations and the meanings of `Machine/IocOps.lean` keep (see `Laws/Kept.lean`). -/

namespace Sys2Proof.Machine

open Sys2Proof

theorem State.putEng_kept (s : State) (n : Nat) (x : Eng) :
    Kept s (State.putEng s n x) := by
  unfold State.putEng
  repeat'
    first
    | with_reducible exact Kept.refl _
    | simp only [Kept.mk_iff, Kept.dict_iff, Kept.recorder_iff]

theorem State.putValve_kept (s : State) (c : Nat) (x : Valve) :
    Kept s (State.putValve s c x) := by
  unfold State.putValve
  repeat'
    first
    | with_reducible exact Kept.refl _
    | simp only [Kept.mk_iff, Kept.dict_iff, Kept.recorder_iff]

theorem State.putBank_kept (s : State) (b : Nat) (x : Bank) :
    Kept s (State.putBank s b x) := by
  unfold State.putBank
  repeat'
    first
    | with_reducible exact Kept.refl _
    | simp only [Kept.mk_iff, Kept.dict_iff, Kept.recorder_iff]

theorem State.putFan_kept (s : State) (c : Nat) (x : Fan) :
    Kept s (State.putFan s c x) := by
  unfold State.putFan
  repeat'
    first
    | with_reducible exact Kept.refl _
    | simp only [Kept.mk_iff, Kept.dict_iff, Kept.recorder_iff]

theorem State.putRx_kept (s : State) (k : Nat) (x : RxObj) :
    Kept s (State.putRx s k x) := by
  unfold State.putRx
  repeat'
    first
    | with_reducible exact Kept.refl _
    | simp only [Kept.mk_iff, Kept.dict_iff, Kept.recorder_iff]

theorem State.putTx_kept (s : State) (k : Nat) (x : TxObj) :
    Kept s (State.putTx s k x) := by
  unfold State.putTx
  repeat'
    first
    | with_reducible exact Kept.refl _
    | simp only [Kept.mk_iff, Kept.dict_iff, Kept.recorder_iff]

theorem State.putPort_kept (s : State) (p : Nat) (x : FbPort) :
    Kept s (State.putPort s p x) := by
  unfold State.putPort
  repeat'
    first
    | with_reducible exact Kept.refl _
    | simp only [Kept.mk_iff, Kept.dict_iff, Kept.recorder_iff]

theorem State.putAin_kept (s : State) (n : Nat) (x : Ain) :
    Kept s (State.putAin s n x) := by
  unfold State.putAin
  repeat'
    first
    | with_reducible exact Kept.refl _
    | simp only [Kept.mk_iff, Kept.dict_iff, Kept.recorder_iff]

theorem State.putAngle_kept (s : State) (n : Nat) (x : Angle) :
    Kept s (State.putAngle s n x) := by
  unfold State.putAngle
  repeat'
    first
    | with_reducible exact Kept.refl _
    | simp only [Kept.mk_iff, Kept.dict_iff, Kept.recorder_iff]

theorem State.putBranch_kept (s : State) (b : Nat) (x : Branch) :
    Kept s (State.putBranch s b x) := by
  unfold State.putBranch
  repeat'
    first
    | with_reducible exact Kept.refl _
    | simp only [Kept.mk_iff, Kept.dict_iff, Kept.recorder_iff]

theorem State.setObj_kept (s : State) (e : Ent) (k : Nat) (v : Nat) :
    Kept s (State.setObj s e k v) := by
  unfold State.setObj
  repeat'
    first
    | with_reducible exact Kept.refl _
    | with_reducible apply Kept.trans ?_ (State.setU_kept _ _ _ _)

theorem State.putKey_kept (s : State) (key : Nat) (v : Option Nat) : Kept s (State.putKey s key v) := by
  refine Kept.of_regs rfl rfl (fun h => ?_) rfl rfl
  unfold State.putKey
  cases v with
  | none => exact AMap.wf_erase h _
  | some x => exact AMap.wf_set h _ _

theorem State.copyKey_kept (s : State) (src : Nat) (dst : Nat) :
    Kept s (State.copyKey s src dst) := by
  unfold State.copyKey
  repeat'
    first
    | with_reducible exact Kept.refl _
    | with_reducible apply Kept.trans ?_ (State.putKey_kept _ _ _)

end Sys2Proof.Machine
end

