-- ==== Sys2Proof/Laws/KeptLoops.lean ====
section
/-! SUPPORT. What the operations and the meanings of `Machine/Loops.lean` keep (see `Laws/Kept.lean`). -/

namespace Sys2Proof.Machine

open Sys2Proof

theorem State.putOutput_kept (s : State) (n : Nat) (x : Eng) (out : Nat) :
    Kept s (State.putOutput s n x out) := by
  unfold State.putOutput
  repeat'
    first
    | with_reducible exact Kept.refl _
    | with_reducible apply Kept.trans ?_ (State.setU_kept _ _ _ _)
    | with_reducible apply Kept.trans ?_ (State.putEng_kept _ _ _)

theorem State.loopLaw_kept (s : State) (n : Nat) (m : Nat) (entry : Bool) (preset : Bool) :
    Kept s (State.loopLaw s n m entry preset) := by
  unfold State.loopLaw
  repeat'
    first
    | with_reducible exact Kept.refl _
    | with_reducible apply Kept.trans ?_ (State.setU_kept _ _ _ _)
    | with_reducible apply Kept.trans ?_ (State.histValue_kept _ _ _ _)
    | with_reducible apply Kept.trans ?_ (State.putOutput_kept _ _ _ _)

theorem State.startWait_kept (s : State) (n : Nat) (why : Nat) :
    Kept s (State.startWait s n why) := by
  unfold State.startWait
  try dsimp only
  repeat'
    first
    | with_reducible exact Kept.refl _
    | with_reducible assumption
    | with_reducible apply Kept.trans ?_ (State.latchU_kept _ _ _ _ _)
    | with_reducible apply Kept.trans ?_ (State.putEng_kept _ _ _)
    | simp only [Kept.mk_iff, Kept.dict_iff, Kept.recorder_iff]
    | intro _
    | split

theorem State.trackMeas_kept (s : State) (n : Nat) (m : Option Nat) :
    Kept s (State.trackMeas s n m) := by
  unfold State.trackMeas
  repeat'
    first
    | with_reducible exact Kept.refl _
    | with_reducible apply Kept.trans ?_ (State.setU_kept _ _ _ _)
    | with_reducible apply Kept.trans ?_ (State.putEng_kept _ _ _)
    | split

theorem State.plainRun_kept (s : State) (n : Nat) (u : Nat) (x : Eng) (m : Option Nat) :
    Kept s (State.plainRun s n u x m) := by
  unfold State.plainRun
  repeat'
    first
    | with_reducible exact Kept.refl _
    | with_reducible apply Kept.trans ?_ (State.putOutput_kept _ _ _ _)
    | with_reducible apply Kept.trans ?_ (State.trackMeas_kept _ _ _)

theorem State.holdRun_kept (s : State) (n : Nat) (cause : Nat) :
    Kept s (State.holdRun s n cause) := by
  unfold State.holdRun
  try dsimp only
  repeat'
    first
    | with_reducible exact Kept.refl _
    | with_reducible assumption
    | with_reducible apply Kept.trans ?_ (State.latchU_kept _ _ _ _ _)
    | with_reducible apply Kept.trans ?_ (State.putEng_kept _ _ _)
    | simp only [Kept.mk_iff, Kept.dict_iff, Kept.recorder_iff]
    | intro _
    | split

theorem State.toRest_kept (s : State) (n : Nat) (m : Option Nat) :
    Kept s (State.toRest s n m) := by
  unfold State.toRest
  repeat'
    first
    | with_reducible exact Kept.refl _
    | with_reducible apply Kept.trans ?_ (State.setU_kept _ _ _ _)
    | with_reducible apply Kept.trans ?_ (State.putOutput_kept _ _ _ _)
    | with_reducible apply Kept.trans ?_ (State.trackMeas_kept _ _ _)

theorem State.runLoop_kept (s : State) (n : Nat) (m : Option Nat) :
    Kept s (State.runLoop s n m) := by
  unfold State.runLoop
  try dsimp only
  repeat'
    first
    | with_reducible exact Kept.refl _
    | with_reducible assumption
    | with_reducible apply Kept.trans ?_ (State.putEng_kept _ _ _)
    | with_reducible apply Kept.trans ?_ (State.loopLaw_kept _ _ _ _ _)
    | with_reducible apply Kept.trans ?_ (State.holdRun_kept _ _ _)
    | simp only [Kept.mk_iff, Kept.dict_iff, Kept.recorder_iff]
    | intro _
    | split

theorem State.runManual_kept (s : State) (n : Nat) (m : Option Nat) :
    Kept s (State.runManual s n m) := by
  unfold State.runManual
  try dsimp only
  repeat'
    first
    | with_reducible exact Kept.refl _
    | with_reducible assumption
    | with_reducible apply Kept.trans ?_ (State.startWait_kept _ _ _)
    | with_reducible apply Kept.trans ?_ (State.plainRun_kept _ _ _ _ _)
    | simp only [Kept.mk_iff, Kept.dict_iff, Kept.recorder_iff]
    | intro _
    | split

theorem State.runFollow_kept (s : State) (n : Nat) (m : Option Nat) :
    Kept s (State.runFollow s n m) := by
  unfold State.runFollow
  repeat'
    first
    | with_reducible exact Kept.refl _
    | with_reducible apply Kept.trans ?_ (State.plainRun_kept _ _ _ _ _)
    | with_reducible apply Kept.trans ?_ (State.holdRun_kept _ _ _)
    | split

theorem State.runActive_kept (s : State) (n : Nat) (m : Option Nat) :
    Kept s (State.runActive s n m) := by
  unfold State.runActive
  repeat'
    first
    | with_reducible exact Kept.refl _
    | with_reducible apply Kept.trans ?_ (State.putOutput_kept _ _ _ _)
    | with_reducible apply Kept.trans ?_ (State.trackMeas_kept _ _ _)
    | with_reducible apply Kept.trans ?_ (State.runLoop_kept _ _ _)
    | with_reducible apply Kept.trans ?_ (State.runManual_kept _ _ _)
    | with_reducible apply Kept.trans ?_ (State.runFollow_kept _ _ _)
    | split

theorem State.changeMode_kept (s : State) (n : Nat) (mode : Nat) (m : Option Nat) :
    Kept s (State.changeMode s n mode m) := by
  unfold State.changeMode
  try dsimp only
  repeat'
    first
    | with_reducible exact Kept.refl _
    | with_reducible assumption
    | with_reducible apply Kept.trans ?_ (State.setU_kept _ _ _ _)
    | with_reducible apply Kept.trans ?_ (State.accept_kept _ _ _ _ _)
    | with_reducible apply Kept.trans ?_ (State.putEng_kept _ _ _)
    | with_reducible apply Kept.trans ?_ (State.loopLaw_kept _ _ _ _ _)
    | with_reducible apply Kept.trans ?_ (State.startWait_kept _ _ _)
    | with_reducible apply Kept.trans ?_ (State.plainRun_kept _ _ _ _ _)
    | with_reducible apply Kept.trans ?_ (State.toRest_kept _ _ _)
    | with_reducible apply Kept.trans ?_ (State.runActive_kept _ _ _)
    | simp only [Kept.mk_iff, Kept.dict_iff, Kept.recorder_iff]
    | intro _
    | split

theorem State.loopFault_kept (s : State) (n : Nat) (cause : Nat) :
    Kept s (State.loopFault s n cause) := by
  unfold State.loopFault
  repeat'
    first
    | with_reducible exact Kept.refl _
    | with_reducible apply Kept.trans ?_ (State.setU_kept _ _ _ _)
    | with_reducible apply Kept.trans ?_ (State.incU_kept _ _ _)
    | with_reducible apply Kept.trans ?_ (State.latchU_kept _ _ _ _ _)
    | with_reducible apply Kept.trans ?_ (State.toRest_kept _ _ _)

theorem State.engError_kept (s : State) (n : Nat) :
    Kept s (State.engError s n) := by
  unfold State.engError
  try dsimp only
  repeat'
    first
    | with_reducible exact Kept.refl _
    | with_reducible assumption
    | with_reducible apply Kept.trans ?_ (State.latchU_kept _ _ _ _ _)
    | with_reducible apply Kept.trans ?_ (State.send_kept _ _)
    | with_reducible apply Kept.trans ?_ (State.putUnit_kept _ _ _)
    | with_reducible apply Kept.trans ?_ (State.fenceUnit_kept _ _)
    | with_reducible apply Kept.trans ?_ (State.putEng_kept _ _ _)
    | simp only [Kept.mk_iff, Kept.dict_iff, Kept.recorder_iff]
    | intro _
    | split

theorem State.rebindEngine_kept (s : State) (e : Ent) (n : Nat) (a : Nat) :
    Kept s (State.rebindEngine s e n a) := by
  unfold State.rebindEngine
  try dsimp only
  repeat'
    first
    | with_reducible exact Kept.refl _
    | with_reducible assumption
    | with_reducible apply Kept.trans ?_ (State.setU_kept _ _ _ _)
    | simp only [Kept.mk_iff, Kept.dict_iff, Kept.recorder_iff]
    | intro _
    | split
    | with_reducible apply Kept.trans ?_ (Kept.foldl ?_ _ _)
    | with_reducible apply Kept.trans ?_ (Kept.foldl_fst ?_ _ _)

theorem State.moveLoop_kept (s : State) (n : Nat) (a : Nat) (saved : Bool) :
    Kept s (State.moveLoop s n a saved) := by
  unfold State.moveLoop
  repeat'
    first
    | with_reducible exact Kept.refl _
    | with_reducible apply Kept.trans ?_ (State.set_kept _ _ _)
    | with_reducible apply Kept.trans ?_ (State.setU_kept _ _ _ _)
    | with_reducible apply Kept.trans ?_ (State.latchU_kept _ _ _ _ _)
    | with_reducible apply Kept.trans ?_ (State.putEng_kept _ _ _)
    | with_reducible apply Kept.trans ?_ (State.copyKey_kept _ _ _)
    | with_reducible apply Kept.trans ?_ (State.rebindEngine_kept _ _ _ _)
    | intro _
    | split
    | with_reducible apply Kept.trans ?_ (Kept.foldl ?_ _ _)

theorem State.restSink_kept (s : State) (n : Nat) :
    Kept s (State.restSink s n) := by
  unfold State.restSink
  try dsimp only
  repeat'
    first
    | with_reducible exact Kept.refl _
    | with_reducible assumption
    | with_reducible apply Kept.trans ?_ (State.putValve_kept _ _ _)
    | with_reducible apply Kept.trans ?_ (State.putFan_kept _ _ _)
    | with_reducible apply Kept.trans ?_ (State.putTx_kept _ _ _)
    | with_reducible apply Kept.trans ?_ (State.setObj_kept _ _ _ _)
    | simp only [Kept.mk_iff, Kept.dict_iff, Kept.recorder_iff]
    | intro _
    | split

theorem loopCmd_kept {v : Nat} {mine : Bytes → Bool} {run : Eng → Eng} (q : Req) (live : Bool) (s : State)
    (_ : (loopCmd v mine run).codes q live s = []) : Kept s ((loopCmd v mine run).run q live s).2 :=
  cmdService_kept (fun _ _ _ => State.putEng_kept _ _ _) q live s ‹_›

theorem execLoopRun_kept (t : Nat) (engine : Nat) (s : State) : ∃ z, execLoopRun t engine s = .next z ∧ Kept s z := by
  unfold execLoopRun
  refine ⟨_, rfl, ?_⟩
  try dsimp only
  repeat'
    first
    | with_reducible exact Kept.refl _
    | with_reducible assumption
    | with_reducible apply Kept.trans ?_ (State.at_kept _ _)
    | with_reducible apply Kept.trans ?_ (State.when_kept _ _ _ ?_)
    | with_reducible apply Kept.trans ?_ (State.setU_kept _ _ _ _)
    | with_reducible apply Kept.trans ?_ (State.incU_kept _ _ _)
    | with_reducible apply Kept.trans ?_ (State.accept_kept _ _ _ _ _)
    | with_reducible apply Kept.trans ?_ (State.putEng_kept _ _ _)
    | with_reducible apply Kept.trans ?_ (State.runActive_kept _ _ _)
    | with_reducible apply Kept.trans ?_ (State.changeMode_kept _ _ _ _)
    | simp only [Kept.mk_iff, Kept.dict_iff, Kept.recorder_iff]
    | intro _
    | split

theorem execFeedbackHoldTimeout_kept (t : Nat) (engine : Nat) (s : State) :
    ∃ z, execFeedbackHoldTimeout t engine s = .next z ∧ Kept s z := by
  unfold execFeedbackHoldTimeout
  refine ⟨_, rfl, ?_⟩
  try dsimp only
  repeat'
    first
    | with_reducible exact Kept.refl _
    | with_reducible assumption
    | with_reducible apply Kept.trans ?_ (State.at_kept _ _)
    | with_reducible apply Kept.trans ?_ (State.when_kept _ _ _ ?_)
    | with_reducible apply Kept.trans ?_ (State.loopFault_kept _ _ _)
    | simp only [Kept.mk_iff, Kept.dict_iff, Kept.recorder_iff]
    | intro _
    | split

theorem execFollowingErrorFault_kept (t : Nat) (engine : Nat) (s : State) :
    ∃ z, execFollowingErrorFault t engine s = .next z ∧ Kept s z := by
  unfold execFollowingErrorFault
  refine ⟨_, rfl, ?_⟩
  try dsimp only
  repeat'
    first
    | with_reducible exact Kept.refl _
    | with_reducible assumption
    | with_reducible apply Kept.trans ?_ (State.at_kept _ _)
    | with_reducible apply Kept.trans ?_ (State.when_kept _ _ _ ?_)
    | with_reducible apply Kept.trans ?_ (State.latchU_kept _ _ _ _ _)
    | with_reducible apply Kept.trans ?_ (State.loopFault_kept _ _ _)
    | simp only [Kept.mk_iff, Kept.dict_iff, Kept.recorder_iff]
    | intro _
    | split

theorem execLoopSlotMissed_kept (t : Nat) (engine : Nat) (s : State) :
    ∃ z, execLoopSlotMissed t engine s = .next z ∧ Kept s z := by
  unfold execLoopSlotMissed
  refine ⟨_, rfl, ?_⟩
  try dsimp only
  repeat'
    first
    | with_reducible exact Kept.refl _
    | with_reducible assumption
    | with_reducible apply Kept.trans ?_ (State.at_kept _ _)
    | with_reducible apply Kept.trans ?_ (State.when_kept _ _ _ ?_)
    | with_reducible apply Kept.trans ?_ (State.setU_kept _ _ _ _)
    | with_reducible apply Kept.trans ?_ (State.incU_kept _ _ _)
    | with_reducible apply Kept.trans ?_ (State.latchU_kept _ _ _ _ _)
    | with_reducible apply Kept.trans ?_ (State.putEng_kept _ _ _)
    | with_reducible apply Kept.trans ?_ (State.engError_kept _ _)
    | simp only [Kept.mk_iff, Kept.dict_iff, Kept.recorder_iff]
    | intro _
    | split

theorem execEngineBlockError_kept (t : Nat) (engine : Nat) (s : State) :
    ∃ z, execEngineBlockError t engine s = .next z ∧ Kept s z := by
  unfold execEngineBlockError
  refine ⟨_, rfl, ?_⟩
  try dsimp only
  repeat'
    first
    | with_reducible exact Kept.refl _
    | with_reducible assumption
    | with_reducible apply Kept.trans ?_ (State.at_kept _ _)
    | with_reducible apply Kept.trans ?_ (State.when_kept _ _ _ ?_)
    | with_reducible apply Kept.trans ?_ (State.engError_kept _ _)
    | simp only [Kept.mk_iff, Kept.dict_iff, Kept.recorder_iff]
    | intro _
    | split

theorem execEngineTakeover_kept (t : Nat) (engine : Nat) (saved : Bool) (s : State) :
    ∃ z, execEngineTakeover t engine saved s = .next z ∧ Kept s z := by
  unfold execEngineTakeover
  refine ⟨_, rfl, ?_⟩
  try dsimp only
  repeat'
    first
    | with_reducible exact Kept.refl _
    | with_reducible assumption
    | with_reducible apply Kept.trans ?_ (State.at_kept _ _)
    | with_reducible apply Kept.trans ?_ (State.when_kept _ _ _ ?_)
    | with_reducible apply Kept.trans ?_ (State.setU_kept _ _ _ _)
    | with_reducible apply Kept.trans ?_ (State.latchU_kept _ _ _ _ _)
    | with_reducible apply Kept.trans ?_ (State.promote_kept _ _ _)
    | with_reducible apply Kept.trans ?_ (State.putEng_kept _ _ _)
    | with_reducible apply Kept.trans ?_ (State.moveLoop_kept _ _ _ _)
    | with_reducible apply Kept.trans ?_ (State.restSink_kept _ _)
    | simp only [Kept.mk_iff, Kept.dict_iff, Kept.recorder_iff]
    | intro _
    | split

theorem execLoopCmdAccept_kept (t : Nat) (rx : Rx) (s : State) :
    ∃ z, execLoopCmdAccept t rx s = .next z ∧ Kept s z := by
  unfold execLoopCmdAccept
  refine ⟨_, rfl, ?_⟩
  try dsimp only
  repeat'
    first
    | with_reducible exact Kept.refl _
    | with_reducible assumption
    | apply loopCmd_kept
    | with_reducible apply Kept.trans ?_ (State.at_kept _ _)
    | with_reducible apply Kept.trans ?_ (State.serve_kept _ _ _)
    | with_reducible apply Kept.trans ?_ (State.accept_kept _ _ _ _ _)
    | with_reducible apply Kept.trans ?_ (State.serve_kept _ _ _ ?_)
    | simp only [Kept.mk_iff, Kept.dict_iff, Kept.recorder_iff]
    | intro _
    | split

theorem execLoopCmdClearTable_kept (t : Nat) (rx : Rx) (s : State) :
    ∃ z, execLoopCmdClearTable t rx s = .next z ∧ Kept s z := by
  unfold execLoopCmdClearTable
  refine ⟨_, rfl, ?_⟩
  try dsimp only
  repeat'
    first
    | with_reducible exact Kept.refl _
    | with_reducible assumption
    | apply loopCmd_kept
    | with_reducible apply Kept.trans ?_ (State.at_kept _ _)
    | with_reducible apply Kept.trans ?_ (State.serve_kept _ _ _)
    | with_reducible apply Kept.trans ?_ (State.serve_kept _ _ _ ?_)
    | simp only [Kept.mk_iff, Kept.dict_iff, Kept.recorder_iff]
    | intro _
    | split

end Sys2Proof.Machine
end

