-- ==== Sys2Proof/Laws/KeptValves.lean ====
section
/-! SUPPORT. What the operations and the meanings of `Machine/Valves.lean` keep (see `Laws/Kept.lean`). -/

namespace Sys2Proof.Machine

open Sys2Proof

theorem State.setPhase_kept (s : State) (c : Nat) (ph : Nat) :
    Kept s (State.setPhase s c ph) := by
  unfold State.setPhase
  repeat'
    first
    | with_reducible exact Kept.refl _
    | with_reducible apply Kept.trans ?_ (State.setU_kept _ _ _ _)
    | with_reducible apply Kept.trans ?_ (State.putValve_kept _ _ _)

theorem State.leaveQueue_kept (s : State) (c : Nat) :
    Kept s (State.leaveQueue s c) := by
  unfold State.leaveQueue
  try dsimp only
  repeat'
    first
    | with_reducible exact Kept.refl _
    | with_reducible assumption
    | with_reducible apply Kept.trans ?_ (State.putBank_kept _ _ _)
    | simp only [Kept.mk_iff, Kept.dict_iff, Kept.recorder_iff]
    | intro _
    | split

theorem State.endSeat_kept (s : State) (c : Nat) (result : Nat) (tick : Nat) (delay : Nat) :
    Kept s (State.endSeat s c result tick delay) := by
  unfold State.endSeat
  try dsimp only
  repeat'
    first
    | with_reducible exact Kept.refl _
    | with_reducible assumption
    | with_reducible apply Kept.trans ?_ (State.putValve_kept _ _ _)
    | simp only [Kept.mk_iff, Kept.dict_iff, Kept.recorder_iff]
    | intro _
    | split

theorem State.abandonSeat_kept (s : State) (c : Nat) :
    Kept s (State.abandonSeat s c) := by
  unfold State.abandonSeat
  repeat'
    first
    | with_reducible exact Kept.refl _
    | with_reducible apply Kept.trans ?_ (State.endSeat_kept _ _ _ _ _)

theorem State.openSeat_kept (s : State) (c : Nat) (event : Nat) :
    Kept s (State.openSeat s c event) := by
  unfold State.openSeat
  repeat'
    first
    | with_reducible exact Kept.refl _
    | with_reducible apply Kept.trans ?_ (State.putValve_kept _ _ _)

theorem State.startBoost_kept (s : State) (c : Nat) :
    Kept s (State.startBoost s c) := by
  unfold State.startBoost
  repeat'
    first
    | with_reducible exact Kept.refl _
    | with_reducible apply Kept.trans ?_ (State.incU_kept _ _ _)
    | with_reducible apply Kept.trans ?_ (State.setPhase_kept _ _ _)
    | with_reducible apply Kept.trans ?_ (State.leaveQueue_kept _ _)
    | with_reducible apply Kept.trans ?_ (State.abandonSeat_kept _ _)

theorem State.energise_kept (s : State) (c : Nat) :
    Kept s (State.energise s c) := by
  unfold State.energise
  try dsimp only
  repeat'
    first
    | with_reducible exact Kept.refl _
    | with_reducible assumption
    | with_reducible apply Kept.trans ?_ (State.incU_kept _ _ _)
    | with_reducible apply Kept.trans ?_ (State.latch_kept _ _ _ _)
    | with_reducible apply Kept.trans ?_ (State.putValve_kept _ _ _)
    | with_reducible apply Kept.trans ?_ (State.putBank_kept _ _ _)
    | with_reducible apply Kept.trans ?_ (State.setPhase_kept _ _ _)
    | with_reducible apply Kept.trans ?_ (State.abandonSeat_kept _ _)
    | with_reducible apply Kept.trans ?_ (State.startBoost_kept _ _)
    | simp only [Kept.mk_iff, Kept.dict_iff, Kept.recorder_iff]
    | intro _
    | split

theorem State.deenergise_kept (s : State) (c : Nat) :
    Kept s (State.deenergise s c) := by
  unfold State.deenergise
  try dsimp only
  repeat'
    first
    | with_reducible exact Kept.refl _
    | with_reducible assumption
    | with_reducible apply Kept.trans ?_ (State.setPhase_kept _ _ _)
    | with_reducible apply Kept.trans ?_ (State.leaveQueue_kept _ _)
    | with_reducible apply Kept.trans ?_ (State.abandonSeat_kept _ _)
    | with_reducible apply Kept.trans ?_ (State.openSeat_kept _ _ _)
    | simp only [Kept.mk_iff, Kept.dict_iff, Kept.recorder_iff]
    | intro _
    | split

theorem State.toDescent_kept (s : State) (c : Nat) (cut : Bool) :
    Kept s (State.toDescent s c cut) := by
  unfold State.toDescent
  repeat'
    first
    | with_reducible exact Kept.refl _
    | with_reducible apply Kept.trans ?_ (State.latch_kept _ _ _ _)
    | with_reducible apply Kept.trans ?_ (State.putValve_kept _ _ _)
    | with_reducible apply Kept.trans ?_ (State.setPhase_kept _ _ _)
    | with_reducible apply Kept.trans ?_ (State.openSeat_kept _ _ _)
    | split

theorem State.cutPeaks_kept (s : State) (b : Nat) :
    Kept s (State.cutPeaks s b) := by
  unfold State.cutPeaks
  repeat'
    first
    | with_reducible exact Kept.refl _
    | with_reducible apply Kept.trans ?_ (State.toDescent_kept _ _ _)
    | intro _
    | split
    | with_reducible apply Kept.trans ?_ (Kept.foldl ?_ _ _)

theorem State.toPeak_kept (s : State) (c : Nat) (short : Bool) :
    Kept s (State.toPeak s c short) := by
  unfold State.toPeak
  try dsimp only
  repeat'
    first
    | with_reducible exact Kept.refl _
    | with_reducible assumption
    | with_reducible apply Kept.trans ?_ (State.putValve_kept _ _ _)
    | with_reducible apply Kept.trans ?_ (State.setPhase_kept _ _ _)
    | with_reducible apply Kept.trans ?_ (State.cutPeaks_kept _ _)
    | simp only [Kept.mk_iff, Kept.dict_iff, Kept.recorder_iff]
    | intro _
    | split

theorem State.plantValve_kept (s : State) (c : Nat) (d : Nat) :
    Kept s (State.plantValve s c d) := by
  unfold State.plantValve
  repeat'
    first
    | with_reducible exact Kept.refl _
    | with_reducible apply Kept.trans ?_ (State.putValve_kept _ _ _)

theorem State.demandClose_kept (s : State) (b : Nat) (c : Nat) :
    Kept s (State.demandClose s b c) := by
  unfold State.demandClose
  repeat'
    first
    | with_reducible exact Kept.refl _
    | with_reducible apply Kept.trans ?_ (State.putBranch_kept _ _ _)
    | with_reducible apply Kept.trans ?_ (State.plantValve_kept _ _ _)

theorem State.isolationConfirm_kept (s : State) (c : Nat) (r : SeatEnd) :
    Kept s (State.isolationConfirm s c r) := by
  unfold State.isolationConfirm
  try dsimp only
  repeat'
    first
    | with_reducible exact Kept.refl _
    | with_reducible assumption
    | with_reducible apply Kept.trans ?_ (State.latch_kept _ _ _ _)
    | with_reducible apply Kept.trans ?_ (State.putBranch_kept _ _ _)
    | with_reducible apply Kept.trans ?_ (State.plantValve_kept _ _ _)
    | simp only [Kept.mk_iff, Kept.dict_iff, Kept.recorder_iff]
    | intro _
    | split
    | with_reducible apply Kept.trans ?_ (Kept.foldl ?_ _ _)
    | with_reducible apply Kept.trans ?_ (Kept.foldl_fst ?_ _ _)

theorem State.clearValveFault_kept (s : State) (c : Nat) (b : Nat) :
    Kept s (State.clearValveFault s c b) := by
  unfold State.clearValveFault
  repeat'
    first
    | with_reducible exact Kept.refl _
    | with_reducible apply Kept.trans ?_ (State.setU_kept _ _ _ _)

theorem State.tryEnergise_kept (s : State) (c : Nat) :
    Kept s (State.tryEnergise s c) := by
  unfold State.tryEnergise
  repeat'
    first
    | with_reducible exact Kept.refl _
    | with_reducible apply Kept.trans ?_ (State.energise_kept _ _)
    | with_reducible apply Kept.trans ?_ (State.clearValveFault_kept _ _ _)
    | split

theorem State.latchValve_kept (s : State) (c : Nat) :
    Kept s (State.latchValve s c) := by
  unfold State.latchValve
  try dsimp only
  repeat'
    first
    | with_reducible exact Kept.refl _
    | with_reducible assumption
    | with_reducible apply Kept.trans ?_ (State.setU_kept _ _ _ _)
    | with_reducible apply Kept.trans ?_ (State.putValve_kept _ _ _)
    | with_reducible apply Kept.trans ?_ (State.deenergise_kept _ _)
    | with_reducible apply Kept.trans ?_ (State.tryEnergise_kept _ _)
    | simp only [Kept.mk_iff, Kept.dict_iff, Kept.recorder_iff]
    | intro _
    | split

theorem State.latchValves_kept (s : State) :
    Kept s (State.latchValves s) := by
  unfold State.latchValves
  repeat'
    first
    | with_reducible exact Kept.refl _
    | with_reducible apply Kept.trans ?_ (State.latchValve_kept _ _)
    | intro _
    | with_reducible apply Kept.trans ?_ (Kept.foldl ?_ _ _)

theorem State.hostValve_kept (s : State) (c : Nat) (d : Nat) :
    Kept s (State.hostValve s c d) := by
  unfold State.hostValve
  repeat'
    first
    | with_reducible exact Kept.refl _
    | with_reducible apply Kept.trans ?_ (State.putValve_kept _ _ _)

theorem State.valveFault_kept (s : State) (c : Nat) (b : Nat) :
    Kept s (State.valveFault s c b) := by
  unfold State.valveFault
  repeat'
    first
    | with_reducible exact Kept.refl _
    | with_reducible apply Kept.trans ?_ (State.setU_kept _ _ _ _)
    | with_reducible apply Kept.trans ?_ (State.inc_kept _ _)
    | with_reducible apply Kept.trans ?_ (State.latch_kept _ _ _ _)

theorem State.faultOff_kept (s : State) (c : Nat) :
    Kept s (State.faultOff s c) := by
  unfold State.faultOff
  repeat'
    first
    | with_reducible exact Kept.refl _
    | with_reducible apply Kept.trans ?_ (State.setPhase_kept _ _ _)
    | with_reducible apply Kept.trans ?_ (State.leaveQueue_kept _ _)

theorem State.valveOffCheck_kept (s : State) (noCoil : List Nat) :
    Kept s (State.valveOffCheck s noCoil) := by
  unfold State.valveOffCheck
  repeat'
    first
    | with_reducible exact Kept.refl _
    | with_reducible apply Kept.trans ?_ (State.clearValveFault_kept _ _ _)
    | with_reducible apply Kept.trans ?_ (State.valveFault_kept _ _ _)
    | intro _
    | split
    | with_reducible apply Kept.trans ?_ (Kept.foldl ?_ _ _)

theorem State.fenceValve_kept (s : State) (c : Nat) :
    Kept s (State.fenceValve s c) := by
  unfold State.fenceValve
  try dsimp only
  repeat'
    first
    | with_reducible exact Kept.refl _
    | with_reducible assumption
    | with_reducible apply Kept.trans ?_ (State.putUnit_kept _ _ _)
    | with_reducible apply Kept.trans ?_ (State.fenceUnit_kept _ _)
    | with_reducible apply Kept.trans ?_ (State.putValve_kept _ _ _)
    | with_reducible apply Kept.trans ?_ (State.valveFault_kept _ _ _)
    | with_reducible apply Kept.trans ?_ (State.faultOff_kept _ _)
    | simp only [Kept.mk_iff, Kept.dict_iff, Kept.recorder_iff]
    | intro _
    | split

theorem State.rebindSink_kept (s : State) (kind : Nat) (n : Nat) (a : Nat) :
    Kept s (State.rebindSink s kind n a) := by
  unfold State.rebindSink
  try dsimp only
  repeat'
    first
    | with_reducible exact Kept.refl _
    | with_reducible assumption
    | with_reducible apply Kept.trans ?_ (State.setU_kept _ _ _ _)
    | simp only [Kept.mk_iff, Kept.dict_iff, Kept.recorder_iff]
    | intro _
    | split
    | with_reducible apply Kept.trans ?_ (Kept.foldl ?_ _ _)
    | with_reducible apply Kept.trans ?_ (Kept.foldl_fst ?_ _ _)

theorem State.moveValve_kept (s : State) (c : Nat) (a : Nat) :
    Kept s (State.moveValve s c a) := by
  unfold State.moveValve
  try dsimp only
  repeat'
    first
    | with_reducible exact Kept.refl _
    | with_reducible assumption
    | with_reducible apply Kept.trans ?_ (State.setU_kept _ _ _ _)
    | with_reducible apply Kept.trans ?_ (State.inc_kept _ _)
    | with_reducible apply Kept.trans ?_ (State.latch_kept _ _ _ _)
    | with_reducible apply Kept.trans ?_ (State.putValve_kept _ _ _)
    | with_reducible apply Kept.trans ?_ (State.copyKey_kept _ _ _)
    | with_reducible apply Kept.trans ?_ (State.rebindSink_kept _ _ _ _)
    | simp only [Kept.mk_iff, Kept.dict_iff, Kept.recorder_iff]
    | intro _
    | split
    | with_reducible apply Kept.trans ?_ (Kept.foldl ?_ _ _)
    | with_reducible apply Kept.trans ?_ (Kept.foldl_fst ?_ _ _)

theorem State.valvesOff_kept (s : State) :
    Kept s (State.valvesOff s) := by
  unfold State.valvesOff
  try dsimp only
  repeat'
    first
    | with_reducible exact Kept.refl _
    | with_reducible assumption
    | with_reducible apply Kept.trans ?_ (State.setPhase_kept _ _ _)
    | with_reducible apply Kept.trans ?_ (State.leaveQueue_kept _ _)
    | simp only [Kept.mk_iff, Kept.dict_iff, Kept.recorder_iff]
    | intro _
    | split
    | with_reducible apply Kept.trans ?_ (Kept.foldl ?_ _ _)
    | with_reducible apply Kept.trans ?_ (Kept.foldl_fst ?_ _ _)

theorem State.valvesLose_kept (s : State) :
    Kept s (State.valvesLose s) := by
  unfold State.valvesLose
  try dsimp only
  repeat'
    first
    | with_reducible exact Kept.refl _
    | with_reducible assumption
    | with_reducible apply Kept.trans ?_ (State.latch_kept _ _ _ _)
    | with_reducible apply Kept.trans ?_ (State.valvesOff_kept _)
    | simp only [Kept.mk_iff, Kept.dict_iff, Kept.recorder_iff]
    | intro _
    | split

theorem State.valvesRegain_kept (s : State) :
    Kept s (State.valvesRegain s) := by
  unfold State.valvesRegain
  try dsimp only
  repeat'
    first
    | with_reducible exact Kept.refl _
    | with_reducible assumption
    | with_reducible apply Kept.trans ?_ (State.putValve_kept _ _ _)
    | simp only [Kept.mk_iff, Kept.dict_iff, Kept.recorder_iff]
    | intro _
    | split
    | with_reducible apply Kept.trans ?_ (Kept.foldl ?_ _ _)
    | with_reducible apply Kept.trans ?_ (Kept.foldl_fst ?_ _ _)

theorem State.valveTick_kept (s : State) (coils : List (Nat × Nat)) (banks : List Nat) (rail : Nat) :
    Kept s (State.valveTick s coils banks rail) := by
  unfold State.valveTick
  try dsimp only
  repeat'
    first
    | with_reducible exact Kept.refl _
    | with_reducible assumption
    | with_reducible apply Kept.trans ?_ (State.set_kept _ _ _)
    | with_reducible apply Kept.trans ?_ (State.setU_kept _ _ _ _)
    | simp only [Kept.mk_iff, Kept.dict_iff, Kept.recorder_iff]
    | intro _
    | split
    | with_reducible apply Kept.trans ?_ (Kept.foldl ?_ _ _)
    | with_reducible apply Kept.trans ?_ (Kept.foldl_fst ?_ _ _)

theorem State.valveTurn_kept (s : State) :
    Kept s (State.valveTurn s) := by
  unfold State.valveTurn
  try dsimp only
  repeat'
    first
    | with_reducible exact Kept.refl _
    | with_reducible assumption
    | with_reducible apply Kept.trans ?_ (State.when_kept _ _ _ ?_)
    | with_reducible apply Kept.trans ?_ (State.setU_kept _ _ _ _)
    | with_reducible apply Kept.trans ?_ (State.putBank_kept _ _ _)
    | simp only [Kept.mk_iff, Kept.dict_iff, Kept.recorder_iff]
    | intro _
    | split
    | with_reducible apply Kept.trans ?_ (Kept.foldl ?_ _ _)
    | with_reducible apply Kept.trans ?_ (Kept.foldl_fst ?_ _ _)

theorem valveCmd_kept {v : Nat} {mine : Bytes → Bool} {run : Nat → State → State} (h : ∀ c s, Kept s (run c s)) (q : Req) (live : Bool) (s : State)
    (_ : (valveCmd v mine run).codes q live s = []) : Kept s ((valveCmd v mine run).run q live s).2 :=
  cmdService_kept (fun _ _ _ => h _ _) q live s ‹_›

theorem execBoostAdmit_kept (t : Nat) (bank : Nat) (s : State) :
    ∃ z, execBoostAdmit t bank s = .next z ∧ Kept s z := by
  unfold execBoostAdmit
  refine ⟨_, rfl, ?_⟩
  try dsimp only
  repeat'
    first
    | with_reducible exact Kept.refl _
    | with_reducible assumption
    | with_reducible apply Kept.trans ?_ (State.at_kept _ _)
    | with_reducible apply Kept.trans ?_ (State.when_kept _ _ _ ?_)
    | with_reducible apply Kept.trans ?_ (State.startBoost_kept _ _)
    | simp only [Kept.mk_iff, Kept.dict_iff, Kept.recorder_iff]
    | intro _
    | split

theorem execBoostEnd_kept (t : Nat) (ch : Nat) (current : Nat) (s : State) :
    ∃ z, execBoostEnd t ch current s = .next z ∧ Kept s z := by
  unfold execBoostEnd
  refine ⟨_, rfl, ?_⟩
  try dsimp only
  repeat'
    first
    | with_reducible exact Kept.refl _
    | with_reducible assumption
    | with_reducible apply Kept.trans ?_ (State.at_kept _ _)
    | with_reducible apply Kept.trans ?_ (State.when_kept _ _ _ ?_)
    | with_reducible apply Kept.trans ?_ (State.toPeak_kept _ _ _)
    | simp only [Kept.mk_iff, Kept.dict_iff, Kept.recorder_iff]
    | intro _
    | split

theorem execBoostTimeout_kept (t : Nat) (ch : Nat) (s : State) :
    ∃ z, execBoostTimeout t ch s = .next z ∧ Kept s z := by
  unfold execBoostTimeout
  refine ⟨_, rfl, ?_⟩
  try dsimp only
  repeat'
    first
    | with_reducible exact Kept.refl _
    | with_reducible assumption
    | with_reducible apply Kept.trans ?_ (State.at_kept _ _)
    | with_reducible apply Kept.trans ?_ (State.when_kept _ _ _ ?_)
    | with_reducible apply Kept.trans ?_ (State.latch_kept _ _ _ _)
    | with_reducible apply Kept.trans ?_ (State.toPeak_kept _ _ _)
    | simp only [Kept.mk_iff, Kept.dict_iff, Kept.recorder_iff]
    | intro _
    | split

theorem execPeakEnd_kept (t : Nat) (ch : Nat) (s : State) : ∃ z, execPeakEnd t ch s = .next z ∧ Kept s z := by
  unfold execPeakEnd
  refine ⟨_, rfl, ?_⟩
  try dsimp only
  repeat'
    first
    | with_reducible exact Kept.refl _
    | with_reducible assumption
    | with_reducible apply Kept.trans ?_ (State.at_kept _ _)
    | with_reducible apply Kept.trans ?_ (State.when_kept _ _ _ ?_)
    | with_reducible apply Kept.trans ?_ (State.toDescent_kept _ _ _)
    | simp only [Kept.mk_iff, Kept.dict_iff, Kept.recorder_iff]
    | intro _
    | split

theorem execBoostWaitLong_kept (t : Nat) (bank : Nat) (s : State) :
    ∃ z, execBoostWaitLong t bank s = .next z ∧ Kept s z := by
  unfold execBoostWaitLong
  refine ⟨_, rfl, ?_⟩
  try dsimp only
  repeat'
    first
    | with_reducible exact Kept.refl _
    | with_reducible assumption
    | with_reducible apply Kept.trans ?_ (State.at_kept _ _)
    | with_reducible apply Kept.trans ?_ (State.when_kept _ _ _ ?_)
    | with_reducible apply Kept.trans ?_ (State.latch_kept _ _ _ _)
    | with_reducible apply Kept.trans ?_ (State.putBank_kept _ _ _)
    | with_reducible apply Kept.trans ?_ (State.cutPeaks_kept _ _)
    | simp only [Kept.mk_iff, Kept.dict_iff, Kept.recorder_iff]
    | intro _
    | split

theorem execDescentEnd_kept (t : Nat) (ch : Nat) (current : Nat) (s : State) :
    ∃ z, execDescentEnd t ch current s = .next z ∧ Kept s z := by
  unfold execDescentEnd
  refine ⟨_, rfl, ?_⟩
  try dsimp only
  repeat'
    first
    | with_reducible exact Kept.refl _
    | with_reducible assumption
    | with_reducible apply Kept.trans ?_ (State.at_kept _ _)
    | with_reducible apply Kept.trans ?_ (State.when_kept _ _ _ ?_)
    | with_reducible apply Kept.trans ?_ (State.setU_kept _ _ _ _)
    | with_reducible apply Kept.trans ?_ (State.putValve_kept _ _ _)
    | with_reducible apply Kept.trans ?_ (State.setPhase_kept _ _ _)
    | simp only [Kept.mk_iff, Kept.dict_iff, Kept.recorder_iff]
    | intro _
    | split

theorem execReleaseEnd_kept (t : Nat) (ch : Nat) (current : Nat) (s : State) :
    ∃ z, execReleaseEnd t ch current s = .next z ∧ Kept s z := by
  unfold execReleaseEnd
  refine ⟨_, rfl, ?_⟩
  try dsimp only
  repeat'
    first
    | with_reducible exact Kept.refl _
    | with_reducible assumption
    | with_reducible apply Kept.trans ?_ (State.at_kept _ _)
    | with_reducible apply Kept.trans ?_ (State.when_kept _ _ _ ?_)
    | with_reducible apply Kept.trans ?_ (State.putValve_kept _ _ _)
    | with_reducible apply Kept.trans ?_ (State.setPhase_kept _ _ _)
    | simp only [Kept.mk_iff, Kept.dict_iff, Kept.recorder_iff]
    | intro _
    | split

theorem execSeatKink_kept (t : Nat) (ch : Nat) (kink : Nat) (s : State) :
    ∃ z, execSeatKink t ch kink s = .next z ∧ Kept s z := by
  unfold execSeatKink
  refine ⟨_, rfl, ?_⟩
  try dsimp only
  repeat'
    first
    | with_reducible exact Kept.refl _
    | with_reducible assumption
    | with_reducible apply Kept.trans ?_ (State.at_kept _ _)
    | with_reducible apply Kept.trans ?_ (State.when_kept _ _ _ ?_)
    | with_reducible apply Kept.trans ?_ (State.endSeat_kept _ _ _ _ _)
    | simp only [Kept.mk_iff, Kept.dict_iff, Kept.recorder_iff]
    | intro _
    | split

theorem execSeatWindowEnd_kept (t : Nat) (ch : Nat) (s : State) :
    ∃ z, execSeatWindowEnd t ch s = .next z ∧ Kept s z := by
  unfold execSeatWindowEnd
  refine ⟨_, rfl, ?_⟩
  try dsimp only
  repeat'
    first
    | with_reducible exact Kept.refl _
    | with_reducible assumption
    | with_reducible apply Kept.trans ?_ (State.at_kept _ _)
    | with_reducible apply Kept.trans ?_ (State.when_kept _ _ _ ?_)
    | with_reducible apply Kept.trans ?_ (State.endSeat_kept _ _ _ _ _)
    | simp only [Kept.mk_iff, Kept.dict_iff, Kept.recorder_iff]
    | intro _
    | split

theorem execSeatResultPublish_kept (t : Nat) (ch : Nat) (s : State) :
    ∃ z, execSeatResultPublish t ch s = .next z ∧ Kept s z := by
  unfold execSeatResultPublish
  refine ⟨_, rfl, ?_⟩
  try dsimp only
  repeat'
    first
    | with_reducible exact Kept.refl _
    | with_reducible assumption
    | with_reducible apply Kept.trans ?_ (State.at_kept _ _)
    | with_reducible apply Kept.trans ?_ (State.when_kept _ _ _ ?_)
    | with_reducible apply Kept.trans ?_ (State.setU_kept _ _ _ _)
    | with_reducible apply Kept.trans ?_ (State.latch_kept _ _ _ _)
    | with_reducible apply Kept.trans ?_ (State.putValve_kept _ _ _)
    | with_reducible apply Kept.trans ?_ (State.isolationConfirm_kept _ _ _)
    | simp only [Kept.mk_iff, Kept.dict_iff, Kept.recorder_iff]
    | intro _
    | split

theorem execValveCmdDeenergise_kept (t : Nat) (rx : Rx) (s : State) :
    ∃ z, execValveCmdDeenergise t rx s = .next z ∧ Kept s z := by
  unfold execValveCmdDeenergise
  refine ⟨_, rfl, ?_⟩
  try dsimp only
  repeat'
    first
    | with_reducible exact Kept.refl _
    | with_reducible assumption
    | apply valveCmd_kept
    | with_reducible apply Kept.trans ?_ (State.at_kept _ _)
    | with_reducible apply Kept.trans ?_ (State.serve_kept _ _ _)
    | with_reducible apply Kept.trans ?_ (State.hostValve_kept _ _ _)
    | with_reducible apply Kept.trans ?_ (State.serve_kept _ _ _ ?_)
    | simp only [Kept.mk_iff, Kept.dict_iff, Kept.recorder_iff]
    | intro _
    | split

theorem execValveCmdEnergise_kept (t : Nat) (rx : Rx) (s : State) :
    ∃ z, execValveCmdEnergise t rx s = .next z ∧ Kept s z := by
  unfold execValveCmdEnergise
  refine ⟨_, rfl, ?_⟩
  try dsimp only
  repeat'
    first
    | with_reducible exact Kept.refl _
    | with_reducible assumption
    | apply valveCmd_kept
    | with_reducible apply Kept.trans ?_ (State.at_kept _ _)
    | with_reducible apply Kept.trans ?_ (State.serve_kept _ _ _)
    | with_reducible apply Kept.trans ?_ (State.hostValve_kept _ _ _)
    | with_reducible apply Kept.trans ?_ (State.serve_kept _ _ _ ?_)
    | simp only [Kept.mk_iff, Kept.dict_iff, Kept.recorder_iff]
    | intro _
    | split

theorem execValveOpenOn_kept (t : Nat) (ch : Nat) (current : Nat) (s : State) :
    ∃ z, execValveOpenOn t ch current s = .next z ∧ Kept s z := by
  unfold execValveOpenOn
  refine ⟨_, rfl, ?_⟩
  try dsimp only
  repeat'
    first
    | with_reducible exact Kept.refl _
    | with_reducible assumption
    | with_reducible apply Kept.trans ?_ (State.at_kept _ _)
    | with_reducible apply Kept.trans ?_ (State.when_kept _ _ _ ?_)
    | with_reducible apply Kept.trans ?_ (State.valveFault_kept _ _ _)
    | with_reducible apply Kept.trans ?_ (State.faultOff_kept _ _)
    | simp only [Kept.mk_iff, Kept.dict_iff, Kept.recorder_iff]
    | intro _
    | split

theorem execValveShort_kept (t : Nat) (ch : Nat) (s : State) : ∃ z, execValveShort t ch s = .next z ∧ Kept s z := by
  unfold execValveShort
  refine ⟨_, rfl, ?_⟩
  try dsimp only
  repeat'
    first
    | with_reducible exact Kept.refl _
    | with_reducible assumption
    | with_reducible apply Kept.trans ?_ (State.at_kept _ _)
    | with_reducible apply Kept.trans ?_ (State.when_kept _ _ _ ?_)
    | with_reducible apply Kept.trans ?_ (State.putValve_kept _ _ _)
    | with_reducible apply Kept.trans ?_ (State.valveFault_kept _ _ _)
    | with_reducible apply Kept.trans ?_ (State.faultOff_kept _ _)
    | simp only [Kept.mk_iff, Kept.dict_iff, Kept.recorder_iff]
    | intro _
    | split

theorem execValveShortRetry_kept (t : Nat) (ch : Nat) (s : State) :
    ∃ z, execValveShortRetry t ch s = .next z ∧ Kept s z := by
  unfold execValveShortRetry
  refine ⟨_, rfl, ?_⟩
  try dsimp only
  repeat'
    first
    | with_reducible exact Kept.refl _
    | with_reducible assumption
    | with_reducible apply Kept.trans ?_ (State.at_kept _ _)
    | with_reducible apply Kept.trans ?_ (State.when_kept _ _ _ ?_)
    | with_reducible apply Kept.trans ?_ (State.putValve_kept _ _ _)
    | with_reducible apply Kept.trans ?_ (State.energise_kept _ _)
    | simp only [Kept.mk_iff, Kept.dict_iff, Kept.recorder_iff]
    | intro _
    | split

theorem execBankOvercurrent_kept (t : Nat) (bank : Nat) (current : Nat) (s : State) :
    ∃ z, execBankOvercurrent t bank current s = .next z ∧ Kept s z := by
  unfold execBankOvercurrent
  refine ⟨_, rfl, ?_⟩
  try dsimp only
  repeat'
    first
    | with_reducible exact Kept.refl _
    | with_reducible assumption
    | with_reducible apply Kept.trans ?_ (State.at_kept _ _)
    | with_reducible apply Kept.trans ?_ (State.when_kept _ _ _ ?_)
    | with_reducible apply Kept.trans ?_ (State.putBank_kept _ _ _)
    | with_reducible apply Kept.trans ?_ (State.valveFault_kept _ _ _)
    | with_reducible apply Kept.trans ?_ (State.faultOff_kept _ _)
    | simp only [Kept.mk_iff, Kept.dict_iff, Kept.recorder_iff]
    | intro _
    | split
    | with_reducible apply Kept.trans ?_ (Kept.foldl ?_ _ _)
    | with_reducible apply Kept.trans ?_ (Kept.foldl_fst ?_ _ _)

theorem execValveHot_kept (t : Nat) (ch : Nat) (temp : Nat) (s : State) :
    ∃ z, execValveHot t ch temp s = .next z ∧ Kept s z := by
  unfold execValveHot
  refine ⟨_, rfl, ?_⟩
  try dsimp only
  repeat'
    first
    | with_reducible exact Kept.refl _
    | with_reducible assumption
    | with_reducible apply Kept.trans ?_ (State.at_kept _ _)
    | with_reducible apply Kept.trans ?_ (State.when_kept _ _ _ ?_)
    | with_reducible apply Kept.trans ?_ (State.putValve_kept _ _ _)
    | with_reducible apply Kept.trans ?_ (State.valveFault_kept _ _ _)
    | with_reducible apply Kept.trans ?_ (State.faultOff_kept _ _)
    | simp only [Kept.mk_iff, Kept.dict_iff, Kept.recorder_iff]
    | intro _
    | split

theorem execValveCmdClear_kept (t : Nat) (rx : Rx) (s : State) :
    ∃ z, execValveCmdClear t rx s = .next z ∧ Kept s z := by
  unfold execValveCmdClear
  refine ⟨_, rfl, ?_⟩
  try dsimp only
  repeat'
    first
    | with_reducible exact Kept.refl _
    | with_reducible assumption
    | apply valveCmd_kept
    | with_reducible apply Kept.trans ?_ (State.at_kept _ _)
    | with_reducible apply Kept.trans ?_ (State.setU_kept _ _ _ _)
    | with_reducible apply Kept.trans ?_ (State.serve_kept _ _ _)
    | with_reducible apply Kept.trans ?_ (State.putValve_kept _ _ _)
    | with_reducible apply Kept.trans ?_ (State.putBank_kept _ _ _)
    | with_reducible apply Kept.trans ?_ (State.clearValveFault_kept _ _ _)
    | with_reducible apply Kept.trans ?_ (State.serve_kept _ _ _ ?_)
    | simp only [Kept.mk_iff, Kept.dict_iff, Kept.recorder_iff]
    | intro _
    | split
    | with_reducible apply Kept.trans ?_ (Kept.foldl ?_ _ _)
    | with_reducible apply Kept.trans ?_ (Kept.foldl_fst ?_ _ _)

theorem execValveDriverFault_kept (t : Nat) (ch : Nat) (highSide : Bool) (s : State) :
    ∃ z, execValveDriverFault t ch highSide s = .next z ∧ Kept s z := by
  unfold execValveDriverFault
  refine ⟨_, rfl, ?_⟩
  try dsimp only
  repeat'
    first
    | with_reducible exact Kept.refl _
    | with_reducible assumption
    | with_reducible apply Kept.trans ?_ (State.at_kept _ _)
    | with_reducible apply Kept.trans ?_ (State.when_kept _ _ _ ?_)
    | with_reducible apply Kept.trans ?_ (State.fenceValve_kept _ _)
    | simp only [Kept.mk_iff, Kept.dict_iff, Kept.recorder_iff]
    | intro _
    | split
    | with_reducible apply Kept.trans ?_ (Kept.foldl ?_ _ _)
    | with_reducible apply Kept.trans ?_ (Kept.foldl_fst ?_ _ _)

theorem execValveTakeover_kept (t : Nat) (ch : Nat) (s : State) :
    ∃ z, execValveTakeover t ch s = .next z ∧ Kept s z := by
  unfold execValveTakeover
  refine ⟨_, rfl, ?_⟩
  try dsimp only
  repeat'
    first
    | with_reducible exact Kept.refl _
    | with_reducible assumption
    | with_reducible apply Kept.trans ?_ (State.at_kept _ _)
    | with_reducible apply Kept.trans ?_ (State.when_kept _ _ _ ?_)
    | with_reducible apply Kept.trans ?_ (State.setU_kept _ _ _ _)
    | with_reducible apply Kept.trans ?_ (State.latch_kept _ _ _ _)
    | with_reducible apply Kept.trans ?_ (State.promote_kept _ _ _)
    | with_reducible apply Kept.trans ?_ (State.putValve_kept _ _ _)
    | with_reducible apply Kept.trans ?_ (State.moveValve_kept _ _ _)
    | simp only [Kept.mk_iff, Kept.dict_iff, Kept.recorder_iff]
    | intro _
    | split

theorem execValveSwitchDone_kept (t : Nat) (ch : Nat) (s : State) :
    ∃ z, execValveSwitchDone t ch s = .next z ∧ Kept s z := by
  unfold execValveSwitchDone
  refine ⟨_, rfl, ?_⟩
  try dsimp only
  repeat'
    first
    | with_reducible exact Kept.refl _
    | with_reducible assumption
    | with_reducible apply Kept.trans ?_ (State.at_kept _ _)
    | with_reducible apply Kept.trans ?_ (State.setU_kept _ _ _ _)
    | with_reducible apply Kept.trans ?_ (State.putValve_kept _ _ _)
    | with_reducible apply Kept.trans ?_ (State.tryEnergise_kept _ _)
    | simp only [Kept.mk_iff, Kept.dict_iff, Kept.recorder_iff]
    | intro _
    | split

theorem execValveFeedLow_kept (t : Nat) (volts : Nat) (s : State) :
    ∃ z, execValveFeedLow t volts s = .next z ∧ Kept s z := by
  unfold execValveFeedLow
  refine ⟨_, rfl, ?_⟩
  try dsimp only
  repeat'
    first
    | with_reducible exact Kept.refl _
    | with_reducible assumption
    | with_reducible apply Kept.trans ?_ (State.at_kept _ _)
    | with_reducible apply Kept.trans ?_ (State.when_kept _ _ _ ?_)
    | with_reducible apply Kept.trans ?_ (State.valvesLose_kept _)
    | simp only [Kept.mk_iff, Kept.dict_iff, Kept.recorder_iff]
    | intro _
    | split

theorem execValveFeedRestore_kept (t : Nat) (volts : Nat) (s : State) :
    ∃ z, execValveFeedRestore t volts s = .next z ∧ Kept s z := by
  unfold execValveFeedRestore
  refine ⟨_, rfl, ?_⟩
  try dsimp only
  repeat'
    first
    | with_reducible exact Kept.refl _
    | with_reducible assumption
    | with_reducible apply Kept.trans ?_ (State.at_kept _ _)
    | with_reducible apply Kept.trans ?_ (State.when_kept _ _ _ ?_)
    | with_reducible apply Kept.trans ?_ (State.valvesRegain_kept _)
    | simp only [Kept.mk_iff, Kept.dict_iff, Kept.recorder_iff]
    | intro _
    | split

theorem execBoostVApply_kept (t : Nat) (s : State) : ∃ z, execBoostVApply t s = .next z ∧ Kept s z := by
  unfold execBoostVApply
  refine ⟨_, rfl, ?_⟩
  try dsimp only
  repeat'
    first
    | with_reducible exact Kept.refl _
    | with_reducible assumption
    | with_reducible apply Kept.trans ?_ (State.at_kept _ _)
    | with_reducible apply Kept.trans ?_ (State.when_kept _ _ _ ?_)
    | simp only [Kept.mk_iff, Kept.dict_iff, Kept.recorder_iff]
    | intro _
    | split

end Sys2Proof.Machine
end

