-- ==== Sys2Proof/Laws/KeptFans.lean ====
section
/-! SUPPORT. What the operations and the meanings of `Machine/Fans.lean` keep (see `Laws/Kept.lean`). -/

namespace Sys2Proof.Machine

open Sys2Proof

theorem State.fanSet_kept (s : State) (c : Nat) (e : Ent) (i : Ent) (v : Nat) :
    Kept s (State.fanSet s c e i v) := by
  unfold State.fanSet
  repeat'
    first
    | with_reducible exact Kept.refl _
    | with_reducible apply Kept.trans ?_ (State.setU_kept _ _ _ _)
    | split

theorem State.setFanState_kept (s : State) (c : Nat) (v : Nat) :
    Kept s (State.setFanState s c v) := by
  unfold State.setFanState
  repeat'
    first
    | with_reducible exact Kept.refl _
    | with_reducible apply Kept.trans ?_ (State.fanSet_kept _ _ _ _ _)

theorem State.setFanFault_kept (s : State) (c : Nat) (v : Nat) :
    Kept s (State.setFanFault s c v) := by
  unfold State.setFanFault
  repeat'
    first
    | with_reducible exact Kept.refl _
    | with_reducible apply Kept.trans ?_ (State.fanSet_kept _ _ _ _ _)

theorem State.setVolts_kept (s : State) (c : Nat) (v : Nat) :
    Kept s (State.setVolts s c v) := by
  unfold State.setVolts
  repeat'
    first
    | with_reducible exact Kept.refl _
    | with_reducible apply Kept.trans ?_ (State.setU_kept _ _ _ _)
    | with_reducible apply Kept.trans ?_ (State.putFan_kept _ _ _)
    | split

theorem State.measureFan_kept (s : State) (c : Nat) (i : FanIn) :
    Kept s (State.measureFan s c i) := by
  unfold State.measureFan
  repeat'
    first
    | with_reducible exact Kept.refl _
    | with_reducible apply Kept.trans ?_ (State.putFan_kept _ _ _)
    | with_reducible apply Kept.trans ?_ (State.fanSet_kept _ _ _ _ _)

theorem State.endRaise_kept (s : State) (c : Nat) :
    Kept s (State.endRaise s c) := by
  unfold State.endRaise
  try dsimp only
  repeat'
    first
    | with_reducible exact Kept.refl _
    | with_reducible assumption
    | with_reducible apply Kept.trans ?_ (State.putFan_kept _ _ _)
    | simp only [Kept.mk_iff, Kept.dict_iff, Kept.recorder_iff]
    | intro _
    | split
    | with_reducible apply Kept.trans ?_ (Kept.foldl ?_ _ _)
    | with_reducible apply Kept.trans ?_ (Kept.foldl_fst ?_ _ _)

theorem State.raiseGroup_kept (s : State) (c : Nat) :
    Kept s (State.raiseGroup s c) := by
  unfold State.raiseGroup
  try dsimp only
  repeat'
    first
    | with_reducible exact Kept.refl _
    | with_reducible assumption
    | with_reducible apply Kept.trans ?_ (State.putFan_kept _ _ _)
    | simp only [Kept.mk_iff, Kept.dict_iff, Kept.recorder_iff]
    | intro _
    | split
    | with_reducible apply Kept.trans ?_ (Kept.foldl ?_ _ _)
    | with_reducible apply Kept.trans ?_ (Kept.foldl_fst ?_ _ _)

theorem State.enterRunning_kept (s : State) (c : Nat) :
    Kept s (State.enterRunning s c) := by
  unfold State.enterRunning
  repeat'
    first
    | with_reducible exact Kept.refl _
    | with_reducible apply Kept.trans ?_ (State.putFan_kept _ _ _)
    | with_reducible apply Kept.trans ?_ (State.setFanState_kept _ _ _)
    | with_reducible apply Kept.trans ?_ (State.setFanFault_kept _ _ _)
    | with_reducible apply Kept.trans ?_ (State.endRaise_kept _ _)
    | simp only [Kept.mk_iff, Kept.dict_iff, Kept.recorder_iff]
    | split

theorem State.startFan_kept (s : State) (c : Nat) :
    Kept s (State.startFan s c) := by
  unfold State.startFan
  repeat'
    first
    | with_reducible exact Kept.refl _
    | with_reducible apply Kept.trans ?_ (State.incU_kept _ _ _)
    | with_reducible apply Kept.trans ?_ (State.putFan_kept _ _ _)
    | with_reducible apply Kept.trans ?_ (State.setFanState_kept _ _ _)
    | with_reducible apply Kept.trans ?_ (State.setVolts_kept _ _ _)
    | split

theorem State.fanLaw_kept (s : State) (c : Nat) (target : Nat) :
    Kept s (State.fanLaw s c target) := by
  unfold State.fanLaw
  repeat'
    first
    | with_reducible exact Kept.refl _
    | with_reducible apply Kept.trans ?_ (State.putFan_kept _ _ _)
    | with_reducible apply Kept.trans ?_ (State.setVolts_kept _ _ _)

theorem State.fanFall_kept (s : State) (c : Nat) :
    Kept s (State.fanFall s c) := by
  unfold State.fanFall
  repeat'
    first
    | with_reducible exact Kept.refl _
    | with_reducible apply Kept.trans ?_ (State.setVolts_kept _ _ _)

theorem State.fanRise_kept (s : State) (c : Nat) :
    Kept s (State.fanRise s c) := by
  unfold State.fanRise
  repeat'
    first
    | with_reducible exact Kept.refl _
    | with_reducible apply Kept.trans ?_ (State.setVolts_kept _ _ _)

theorem State.fanStep_kept (s : State) (c : Nat) :
    Kept s (State.fanStep s c) := by
  unfold State.fanStep
  try dsimp only
  repeat'
    first
    | with_reducible exact Kept.refl _
    | with_reducible assumption
    | with_reducible apply Kept.trans ?_ (State.setFanState_kept _ _ _)
    | with_reducible apply Kept.trans ?_ (State.setVolts_kept _ _ _)
    | with_reducible apply Kept.trans ?_ (State.enterRunning_kept _ _)
    | with_reducible apply Kept.trans ?_ (State.startFan_kept _ _)
    | with_reducible apply Kept.trans ?_ (State.fanLaw_kept _ _ _)
    | with_reducible apply Kept.trans ?_ (State.fanFall_kept _ _)
    | with_reducible apply Kept.trans ?_ (State.fanRise_kept _ _)
    | simp only [Kept.mk_iff, Kept.dict_iff, Kept.recorder_iff]
    | intro _
    | split

theorem State.coolingLaw_kept (s : State) :
    Kept s (State.coolingLaw s) := by
  unfold State.coolingLaw
  repeat'
    first
    | with_reducible exact Kept.refl _
    | with_reducible apply Kept.trans ?_ (State.set_kept _ _ _)

theorem State.beginStagger_kept (s : State) (l : List Nat) :
    Kept s (State.beginStagger s l) := by
  unfold State.beginStagger
  repeat'
    first
    | with_reducible exact Kept.refl _
    | with_reducible apply Kept.trans ?_ (State.putFan_kept _ _ _)
    | simp only [Kept.mk_iff, Kept.dict_iff, Kept.recorder_iff]
    | intro _
    | split
    | with_reducible apply Kept.trans ?_ (Kept.foldl ?_ _ _)

theorem State.fanOwners_kept (s : State) :
    Kept s (State.fanOwners s) := by
  unfold State.fanOwners
  repeat'
    first
    | with_reducible exact Kept.refl _
    | with_reducible apply Kept.trans ?_ (State.beginStagger_kept _ _)
    | simp only [Kept.mk_iff, Kept.dict_iff, Kept.recorder_iff]
    | split

theorem State.fanFaultOff_kept (s : State) (c : Nat) (bit : Nat) :
    Kept s (State.fanFaultOff s c bit) := by
  unfold State.fanFaultOff
  repeat'
    first
    | with_reducible exact Kept.refl _
    | with_reducible apply Kept.trans ?_ (State.inc_kept _ _)
    | with_reducible apply Kept.trans ?_ (State.latch_kept _ _ _ _)
    | with_reducible apply Kept.trans ?_ (State.putFan_kept _ _ _)
    | with_reducible apply Kept.trans ?_ (State.setFanState_kept _ _ _)
    | with_reducible apply Kept.trans ?_ (State.setFanFault_kept _ _ _)
    | with_reducible apply Kept.trans ?_ (State.setVolts_kept _ _ _)
    | with_reducible apply Kept.trans ?_ (State.raiseGroup_kept _ _)
    | split

theorem State.kickFan_kept (s : State) (c : Nat) :
    Kept s (State.kickFan s c) := by
  unfold State.kickFan
  repeat'
    first
    | with_reducible exact Kept.refl _
    | with_reducible apply Kept.trans ?_ (State.incU_kept _ _ _)
    | with_reducible apply Kept.trans ?_ (State.putFan_kept _ _ _)
    | with_reducible apply Kept.trans ?_ (State.setFanState_kept _ _ _)
    | with_reducible apply Kept.trans ?_ (State.setVolts_kept _ _ _)
    | split

theorem State.fansLose_kept (s : State) :
    Kept s (State.fansLose s) := by
  unfold State.fansLose
  repeat'
    first
    | with_reducible exact Kept.refl _
    | with_reducible apply Kept.trans ?_ (State.latch_kept _ _ _ _)
    | with_reducible apply Kept.trans ?_ (State.setFanState_kept _ _ _)
    | with_reducible apply Kept.trans ?_ (State.setVolts_kept _ _ _)
    | simp only [Kept.mk_iff, Kept.dict_iff, Kept.recorder_iff]
    | intro _
    | split
    | with_reducible apply Kept.trans ?_ (Kept.foldl ?_ _ _)

theorem State.fansRegain_kept (s : State) :
    Kept s (State.fansRegain s) := by
  unfold State.fansRegain
  repeat'
    first
    | with_reducible exact Kept.refl _
    | with_reducible apply Kept.trans ?_ (State.putFan_kept _ _ _)
    | with_reducible apply Kept.trans ?_ (State.setFanState_kept _ _ _)
    | simp only [Kept.mk_iff, Kept.dict_iff, Kept.recorder_iff]
    | intro _
    | split
    | with_reducible apply Kept.trans ?_ (Kept.foldl ?_ _ _)

theorem State.moveFan_kept (s : State) (c : Nat) (a : Nat) :
    Kept s (State.moveFan s c a) := by
  unfold State.moveFan
  try dsimp only
  repeat'
    first
    | with_reducible exact Kept.refl _
    | with_reducible assumption
    | with_reducible apply Kept.trans ?_ (State.setU_kept _ _ _ _)
    | with_reducible apply Kept.trans ?_ (State.inc_kept _ _)
    | with_reducible apply Kept.trans ?_ (State.latch_kept _ _ _ _)
    | with_reducible apply Kept.trans ?_ (State.putFan_kept _ _ _)
    | with_reducible apply Kept.trans ?_ (State.copyKey_kept _ _ _)
    | with_reducible apply Kept.trans ?_ (State.rebindSink_kept _ _ _ _)
    | simp only [Kept.mk_iff, Kept.dict_iff, Kept.recorder_iff]
    | intro _
    | split
    | with_reducible apply Kept.trans ?_ (Kept.foldl ?_ _ _)
    | with_reducible apply Kept.trans ?_ (Kept.foldl_fst ?_ _ _)

theorem execSpeedLoopRun_kept (t : Nat) (ch : Nat) (x : FanIn) (s : State) :
    ∃ z, execSpeedLoopRun t ch x s = .next z ∧ Kept s z := by
  unfold execSpeedLoopRun
  refine ⟨_, rfl, ?_⟩
  try dsimp only
  repeat'
    first
    | with_reducible exact Kept.refl _
    | with_reducible assumption
    | with_reducible apply Kept.trans ?_ (State.at_kept _ _)
    | with_reducible apply Kept.trans ?_ (State.when_kept _ _ _ ?_)
    | with_reducible apply Kept.trans ?_ (State.setU_kept _ _ _ _)
    | with_reducible apply Kept.trans ?_ (State.putFan_kept _ _ _)
    | with_reducible apply Kept.trans ?_ (State.fanSet_kept _ _ _ _ _)
    | with_reducible apply Kept.trans ?_ (State.measureFan_kept _ _ _)
    | with_reducible apply Kept.trans ?_ (State.fanStep_kept _ _)
    | with_reducible apply Kept.trans ?_ (State.coolingLaw_kept _)
    | with_reducible apply Kept.trans ?_ (State.fanOwners_kept _)
    | simp only [Kept.mk_iff, Kept.dict_iff, Kept.recorder_iff]
    | intro _
    | split

theorem execFanWatchdog_kept (t : Nat) (s : State) : ∃ z, execFanWatchdog t s = .next z ∧ Kept s z := by
  unfold execFanWatchdog
  refine ⟨_, rfl, ?_⟩
  try dsimp only
  repeat'
    first
    | with_reducible exact Kept.refl _
    | with_reducible assumption
    | with_reducible apply Kept.trans ?_ (State.at_kept _ _)
    | with_reducible apply Kept.trans ?_ (State.when_kept _ _ _ ?_)
    | with_reducible apply Kept.trans ?_ (State.latch_kept _ _ _ _)
    | with_reducible apply Kept.trans ?_ (State.beginStagger_kept _ _)
    | simp only [Kept.mk_iff, Kept.dict_iff, Kept.recorder_iff]
    | intro _
    | split

theorem execFanStaggerStart_kept (t : Nat) (s : State) : ∃ z, execFanStaggerStart t s = .next z ∧ Kept s z := by
  unfold execFanStaggerStart
  refine ⟨_, rfl, ?_⟩
  try dsimp only
  repeat'
    first
    | with_reducible exact Kept.refl _
    | with_reducible assumption
    | with_reducible apply Kept.trans ?_ (State.at_kept _ _)
    | with_reducible apply Kept.trans ?_ (State.when_kept _ _ _ ?_)
    | with_reducible apply Kept.trans ?_ (State.putFan_kept _ _ _)
    | with_reducible apply Kept.trans ?_ (State.setFanState_kept _ _ _)
    | simp only [Kept.mk_iff, Kept.dict_iff, Kept.recorder_iff]
    | intro _
    | split

theorem execFanStartEnd_kept (t : Nat) (ch : Nat) (s : State) : ∃ z, execFanStartEnd t ch s = .next z ∧ Kept s z := by
  unfold execFanStartEnd
  refine ⟨_, rfl, ?_⟩
  try dsimp only
  repeat'
    first
    | with_reducible exact Kept.refl _
    | with_reducible assumption
    | with_reducible apply Kept.trans ?_ (State.at_kept _ _)
    | with_reducible apply Kept.trans ?_ (State.when_kept _ _ _ ?_)
    | with_reducible apply Kept.trans ?_ (State.enterRunning_kept _ _)
    | with_reducible apply Kept.trans ?_ (State.fanFaultOff_kept _ _ _)
    | with_reducible apply Kept.trans ?_ (State.kickFan_kept _ _)
    | simp only [Kept.mk_iff, Kept.dict_iff, Kept.recorder_iff]
    | intro _
    | split

theorem execFanKickEnd_kept (t : Nat) (ch : Nat) (s : State) : ∃ z, execFanKickEnd t ch s = .next z ∧ Kept s z := by
  unfold execFanKickEnd
  refine ⟨_, rfl, ?_⟩
  try dsimp only
  repeat'
    first
    | with_reducible exact Kept.refl _
    | with_reducible assumption
    | with_reducible apply Kept.trans ?_ (State.at_kept _ _)
    | with_reducible apply Kept.trans ?_ (State.when_kept _ _ _ ?_)
    | with_reducible apply Kept.trans ?_ (State.putFan_kept _ _ _)
    | with_reducible apply Kept.trans ?_ (State.setFanState_kept _ _ _)
    | with_reducible apply Kept.trans ?_ (State.setVolts_kept _ _ _)
    | with_reducible apply Kept.trans ?_ (State.enterRunning_kept _ _)
    | with_reducible apply Kept.trans ?_ (State.fanFaultOff_kept _ _ _)
    | simp only [Kept.mk_iff, Kept.dict_iff, Kept.recorder_iff]
    | intro _
    | split

theorem execFanPauseEnd_kept (t : Nat) (ch : Nat) (s : State) : ∃ z, execFanPauseEnd t ch s = .next z ∧ Kept s z := by
  unfold execFanPauseEnd
  refine ⟨_, rfl, ?_⟩
  try dsimp only
  repeat'
    first
    | with_reducible exact Kept.refl _
    | with_reducible assumption
    | with_reducible apply Kept.trans ?_ (State.at_kept _ _)
    | with_reducible apply Kept.trans ?_ (State.when_kept _ _ _ ?_)
    | with_reducible apply Kept.trans ?_ (State.kickFan_kept _ _)
    | simp only [Kept.mk_iff, Kept.dict_iff, Kept.recorder_iff]
    | intro _
    | split

theorem execFanStallRetry_kept (t : Nat) (ch : Nat) (s : State) :
    ∃ z, execFanStallRetry t ch s = .next z ∧ Kept s z := by
  unfold execFanStallRetry
  refine ⟨_, rfl, ?_⟩
  try dsimp only
  repeat'
    first
    | with_reducible exact Kept.refl _
    | with_reducible assumption
    | with_reducible apply Kept.trans ?_ (State.at_kept _ _)
    | with_reducible apply Kept.trans ?_ (State.when_kept _ _ _ ?_)
    | with_reducible apply Kept.trans ?_ (State.setFanState_kept _ _ _)
    | simp only [Kept.mk_iff, Kept.dict_iff, Kept.recorder_iff]
    | intro _
    | split

theorem execTachAbsent_kept (t : Nat) (ch : Nat) (s : State) : ∃ z, execTachAbsent t ch s = .next z ∧ Kept s z := by
  unfold execTachAbsent
  refine ⟨_, rfl, ?_⟩
  try dsimp only
  repeat'
    first
    | with_reducible exact Kept.refl _
    | with_reducible assumption
    | with_reducible apply Kept.trans ?_ (State.at_kept _ _)
    | with_reducible apply Kept.trans ?_ (State.when_kept _ _ _ ?_)
    | with_reducible apply Kept.trans ?_ (State.inc_kept _ _)
    | with_reducible apply Kept.trans ?_ (State.latch_kept _ _ _ _)
    | with_reducible apply Kept.trans ?_ (State.setFanState_kept _ _ _)
    | with_reducible apply Kept.trans ?_ (State.setFanFault_kept _ _ _)
    | with_reducible apply Kept.trans ?_ (State.setVolts_kept _ _ _)
    | with_reducible apply Kept.trans ?_ (State.fanFaultOff_kept _ _ _)
    | simp only [Kept.mk_iff, Kept.dict_iff, Kept.recorder_iff]
    | intro _
    | split

theorem execTachRestored_kept (t : Nat) (ch : Nat) (s : State) :
    ∃ z, execTachRestored t ch s = .next z ∧ Kept s z := by
  unfold execTachRestored
  refine ⟨_, rfl, ?_⟩
  try dsimp only
  repeat'
    first
    | with_reducible exact Kept.refl _
    | with_reducible assumption
    | with_reducible apply Kept.trans ?_ (State.at_kept _ _)
    | with_reducible apply Kept.trans ?_ (State.when_kept _ _ _ ?_)
    | with_reducible apply Kept.trans ?_ (State.setFanFault_kept _ _ _)
    | with_reducible apply Kept.trans ?_ (State.enterRunning_kept _ _)
    | simp only [Kept.mk_iff, Kept.dict_iff, Kept.recorder_iff]
    | intro _
    | split

theorem execFanOverload_kept (t : Nat) (ch : Nat) (s : State) : ∃ z, execFanOverload t ch s = .next z ∧ Kept s z := by
  unfold execFanOverload
  refine ⟨_, rfl, ?_⟩
  try dsimp only
  repeat'
    first
    | with_reducible exact Kept.refl _
    | with_reducible assumption
    | with_reducible apply Kept.trans ?_ (State.at_kept _ _)
    | with_reducible apply Kept.trans ?_ (State.when_kept _ _ _ ?_)
    | with_reducible apply Kept.trans ?_ (State.fanFaultOff_kept _ _ _)
    | simp only [Kept.mk_iff, Kept.dict_iff, Kept.recorder_iff]
    | intro _
    | split

theorem execFanHot_kept (t : Nat) (ch : Nat) (temp : Nat) (s : State) :
    ∃ z, execFanHot t ch temp s = .next z ∧ Kept s z := by
  unfold execFanHot
  refine ⟨_, rfl, ?_⟩
  try dsimp only
  repeat'
    first
    | with_reducible exact Kept.refl _
    | with_reducible assumption
    | with_reducible apply Kept.trans ?_ (State.at_kept _ _)
    | with_reducible apply Kept.trans ?_ (State.when_kept _ _ _ ?_)
    | with_reducible apply Kept.trans ?_ (State.putFan_kept _ _ _)
    | with_reducible apply Kept.trans ?_ (State.setFanState_kept _ _ _)
    | with_reducible apply Kept.trans ?_ (State.setFanFault_kept _ _ _)
    | with_reducible apply Kept.trans ?_ (State.endRaise_kept _ _)
    | with_reducible apply Kept.trans ?_ (State.fanFaultOff_kept _ _ _)
    | simp only [Kept.mk_iff, Kept.dict_iff, Kept.recorder_iff]
    | intro _
    | split

theorem execFanCmd_kept (t : Nat) (rx : Rx) (s : State) : ∃ z, execFanCmd t rx s = .next z ∧ Kept s z := by
  unfold execFanCmd
  refine ⟨_, rfl, ?_⟩
  try dsimp only
  repeat'
    first
    | with_reducible exact Kept.refl _
    | with_reducible assumption
    | apply cmdService_kept
    | with_reducible apply Kept.trans ?_ (State.at_kept _ _)
    | with_reducible apply Kept.trans ?_ (State.serve_kept _ _ _)
    | with_reducible apply Kept.trans ?_ (State.setFanState_kept _ _ _)
    | with_reducible apply Kept.trans ?_ (State.setFanFault_kept _ _ _)
    | with_reducible apply Kept.trans ?_ (State.endRaise_kept _ _)
    | with_reducible apply Kept.trans ?_ (State.serve_kept _ _ _ ?_)
    | simp only [Kept.mk_iff, Kept.dict_iff, Kept.recorder_iff]
    | intro _
    | split

theorem execFanFeedLow_kept (t : Nat) (volts : Nat) (s : State) :
    ∃ z, execFanFeedLow t volts s = .next z ∧ Kept s z := by
  unfold execFanFeedLow
  refine ⟨_, rfl, ?_⟩
  try dsimp only
  repeat'
    first
    | with_reducible exact Kept.refl _
    | with_reducible assumption
    | with_reducible apply Kept.trans ?_ (State.at_kept _ _)
    | with_reducible apply Kept.trans ?_ (State.when_kept _ _ _ ?_)
    | with_reducible apply Kept.trans ?_ (State.fansLose_kept _)
    | simp only [Kept.mk_iff, Kept.dict_iff, Kept.recorder_iff]
    | intro _
    | split

theorem execFanFeedRestore_kept (t : Nat) (volts : Nat) (s : State) :
    ∃ z, execFanFeedRestore t volts s = .next z ∧ Kept s z := by
  unfold execFanFeedRestore
  refine ⟨_, rfl, ?_⟩
  try dsimp only
  repeat'
    first
    | with_reducible exact Kept.refl _
    | with_reducible assumption
    | with_reducible apply Kept.trans ?_ (State.at_kept _ _)
    | with_reducible apply Kept.trans ?_ (State.when_kept _ _ _ ?_)
    | with_reducible apply Kept.trans ?_ (State.fansRegain_kept _)
    | simp only [Kept.mk_iff, Kept.dict_iff, Kept.recorder_iff]
    | intro _
    | split

theorem execFanDriverFault_kept (t : Nat) (ch : Nat) (s : State) :
    ∃ z, execFanDriverFault t ch s = .next z ∧ Kept s z := by
  unfold execFanDriverFault
  refine ⟨_, rfl, ?_⟩
  try dsimp only
  repeat'
    first
    | with_reducible exact Kept.refl _
    | with_reducible assumption
    | with_reducible apply Kept.trans ?_ (State.at_kept _ _)
    | with_reducible apply Kept.trans ?_ (State.when_kept _ _ _ ?_)
    | with_reducible apply Kept.trans ?_ (State.inc_kept _ _)
    | with_reducible apply Kept.trans ?_ (State.latch_kept _ _ _ _)
    | with_reducible apply Kept.trans ?_ (State.putUnit_kept _ _ _)
    | with_reducible apply Kept.trans ?_ (State.fenceUnit_kept _ _)
    | with_reducible apply Kept.trans ?_ (State.putFan_kept _ _ _)
    | with_reducible apply Kept.trans ?_ (State.setFanState_kept _ _ _)
    | with_reducible apply Kept.trans ?_ (State.setFanFault_kept _ _ _)
    | with_reducible apply Kept.trans ?_ (State.setVolts_kept _ _ _)
    | simp only [Kept.mk_iff, Kept.dict_iff, Kept.recorder_iff]
    | intro _
    | split

theorem execFanTakeover_kept (t : Nat) (ch : Nat) (s : State) : ∃ z, execFanTakeover t ch s = .next z ∧ Kept s z := by
  unfold execFanTakeover
  refine ⟨_, rfl, ?_⟩
  try dsimp only
  repeat'
    first
    | with_reducible exact Kept.refl _
    | with_reducible assumption
    | with_reducible apply Kept.trans ?_ (State.at_kept _ _)
    | with_reducible apply Kept.trans ?_ (State.when_kept _ _ _ ?_)
    | with_reducible apply Kept.trans ?_ (State.setU_kept _ _ _ _)
    | with_reducible apply Kept.trans ?_ (State.latch_kept _ _ _ _)
    | with_reducible apply Kept.trans ?_ (State.promote_kept _ _ _)
    | with_reducible apply Kept.trans ?_ (State.putFan_kept _ _ _)
    | with_reducible apply Kept.trans ?_ (State.raiseGroup_kept _ _)
    | with_reducible apply Kept.trans ?_ (State.moveFan_kept _ _ _)
    | simp only [Kept.mk_iff, Kept.dict_iff, Kept.recorder_iff]
    | intro _
    | split

theorem execFanSwitchDone_kept (t : Nat) (ch : Nat) (s : State) :
    ∃ z, execFanSwitchDone t ch s = .next z ∧ Kept s z := by
  unfold execFanSwitchDone
  refine ⟨_, rfl, ?_⟩
  try dsimp only
  repeat'
    first
    | with_reducible exact Kept.refl _
    | with_reducible assumption
    | with_reducible apply Kept.trans ?_ (State.at_kept _ _)
    | with_reducible apply Kept.trans ?_ (State.setU_kept _ _ _ _)
    | with_reducible apply Kept.trans ?_ (State.putFan_kept _ _ _)
    | with_reducible apply Kept.trans ?_ (State.setFanState_kept _ _ _)
    | with_reducible apply Kept.trans ?_ (State.enterRunning_kept _ _)
    | simp only [Kept.mk_iff, Kept.dict_iff, Kept.recorder_iff]
    | intro _
    | split

theorem execIfanTakeover_kept (t : Nat) (n : Nat) (s : State) : ∃ z, execIfanTakeover t n s = .next z ∧ Kept s z := by
  unfold execIfanTakeover
  refine ⟨_, rfl, ?_⟩
  try dsimp only
  repeat'
    first
    | with_reducible exact Kept.refl _
    | with_reducible assumption
    | with_reducible apply Kept.trans ?_ (State.at_kept _ _)
    | with_reducible apply Kept.trans ?_ (State.when_kept _ _ _ ?_)
    | with_reducible apply Kept.trans ?_ (State.latch_kept _ _ _ _)
    | with_reducible apply Kept.trans ?_ (State.setRole_kept _ _ _ _)
    | with_reducible apply Kept.trans ?_ (State.promote_kept _ _ _)
    | with_reducible apply Kept.trans ?_ (State.putFan_kept _ _ _)
    | with_reducible apply Kept.trans ?_ (State.setFanState_kept _ _ _)
    | simp only [Kept.mk_iff, Kept.dict_iff, Kept.recorder_iff]
    | intro _
    | split

end Sys2Proof.Machine
end

