-- ==== Sys2Proof/Laws/KeptFieldBus.lean ====
section
/-! SUPPORT. What the operations and the meanings of `Machine/FieldBus.lean` keep (see `Laws/Kept.lean`). -/

namespace Sys2Proof.Machine

open Sys2Proof

theorem State.fbRefresh_kept (s : State) (p : Nat) :
    Kept s (State.fbRefresh s p) := by
  unfold State.fbRefresh
  try dsimp only
  repeat'
    first
    | with_reducible exact Kept.refl _
    | with_reducible assumption
    | with_reducible apply Kept.trans ?_ (State.setU_kept _ _ _ _)
    | with_reducible apply Kept.trans ?_ (State.latchU_kept _ _ _ _ _)
    | simp only [Kept.mk_iff, Kept.dict_iff, Kept.recorder_iff]
    | intro _
    | split

theorem State.offer_kept (s : State) (p : Nat) :
    Kept s (State.offer s p) := by
  unfold State.offer
  try dsimp only
  repeat'
    first
    | with_reducible exact Kept.refl _
    | with_reducible assumption
    | with_reducible apply Kept.trans ?_ (State.putTx_kept _ _ _)
    | with_reducible apply Kept.trans ?_ (State.putPort_kept _ _ _)
    | simp only [Kept.mk_iff, Kept.dict_iff, Kept.recorder_iff]
    | intro _
    | split

theorem State.storeFrame_kept (s : State) (k : Nat) (f : CanFrame) :
    Kept s (State.storeFrame s k f) := by
  unfold State.storeFrame
  try dsimp only
  repeat'
    first
    | with_reducible exact Kept.refl _
    | with_reducible assumption
    | with_reducible apply Kept.trans ?_ (State.incU_kept _ _ _)
    | with_reducible apply Kept.trans ?_ (State.latchU_kept _ _ _ _ _)
    | with_reducible apply Kept.trans ?_ (State.putRx_kept _ _ _)
    | with_reducible apply Kept.trans ?_ (State.setObj_kept _ _ _ _)
    | simp only [Kept.mk_iff, Kept.dict_iff, Kept.recorder_iff]
    | intro _
    | split

theorem State.rxSuccess_kept (s : State) (p : Nat) :
    Kept s (State.rxSuccess s p) := by
  unfold State.rxSuccess
  try dsimp only
  repeat'
    first
    | with_reducible exact Kept.refl _
    | with_reducible assumption
    | with_reducible apply Kept.trans ?_ (State.setU_kept _ _ _ _)
    | with_reducible apply Kept.trans ?_ (State.drawn_kept _)
    | with_reducible apply Kept.trans ?_ (State.fbRefresh_kept _ _)
    | simp only [Kept.mk_iff, Kept.dict_iff, Kept.recorder_iff]
    | intro _
    | split

theorem State.rxConfigApply_kept (s : State) (k : Nat) :
    Kept s (State.rxConfigApply s k) := by
  unfold State.rxConfigApply
  repeat'
    first
    | with_reducible exact Kept.refl _
    | with_reducible apply Kept.trans ?_ (State.putRx_kept _ _ _)
    | with_reducible apply Kept.trans ?_ (State.setObj_kept _ _ _ _)

theorem State.writeTx_kept (s : State) (k : Nat) (off : Nat) (new : Bytes) :
    Kept s (State.writeTx s k off new) := by
  unfold State.writeTx
  repeat'
    first
    | with_reducible exact Kept.refl _
    | with_reducible apply Kept.trans ?_ (State.putTx_kept _ _ _)
    | with_reducible apply Kept.trans ?_ (State.setObj_kept _ _ _ _)

theorem State.writeTxBit_kept (s : State) (k : Nat) (pos : Nat) (v : Bool) :
    Kept s (State.writeTxBit s k pos v) := by
  unfold State.writeTxBit
  repeat'
    first
    | with_reducible exact Kept.refl _
    | with_reducible apply Kept.trans ?_ (State.writeTx_kept _ _ _ _)

theorem State.queueTx_kept (s : State) (k : Nat) (periodic : Bool) :
    Kept s (State.queueTx s k periodic) := by
  unfold State.queueTx
  try dsimp only
  repeat'
    first
    | with_reducible exact Kept.refl _
    | with_reducible assumption
    | with_reducible apply Kept.trans ?_ (State.incU_kept _ _ _)
    | with_reducible apply Kept.trans ?_ (State.latchU_kept _ _ _ _ _)
    | with_reducible apply Kept.trans ?_ (State.take_kept _ _)
    | with_reducible apply Kept.trans ?_ (State.putTx_kept _ _ _)
    | simp only [Kept.mk_iff, Kept.dict_iff, Kept.recorder_iff]
    | intro _
    | split

theorem State.queueDue_kept (s : State) (k : Nat) :
    Kept s (State.queueDue s k) := by
  unfold State.queueDue
  try dsimp only
  repeat'
    first
    | with_reducible exact Kept.refl _
    | with_reducible assumption
    | with_reducible apply Kept.trans ?_ (State.incU_kept _ _ _)
    | with_reducible apply Kept.trans ?_ (State.putTx_kept _ _ _)
    | with_reducible apply Kept.trans ?_ (State.putPort_kept _ _ _)
    | with_reducible apply Kept.trans ?_ (State.queueTx_kept _ _ _)
    | simp only [Kept.mk_iff, Kept.dict_iff, Kept.recorder_iff]
    | intro _
    | split

theorem State.queuePorts_kept (s : State) :
    Kept s (State.queuePorts s) := by
  unfold State.queuePorts
  try dsimp only
  repeat'
    first
    | with_reducible exact Kept.refl _
    | with_reducible assumption
    | with_reducible apply Kept.trans ?_ (State.offer_kept _ _)
    | with_reducible apply Kept.trans ?_ (State.queueDue_kept _ _)
    | simp only [Kept.mk_iff, Kept.dict_iff, Kept.recorder_iff]
    | intro _
    | split
    | with_reducible apply Kept.trans ?_ (Kept.foldl ?_ _ _)
    | with_reducible apply Kept.trans ?_ (Kept.foldl_fst ?_ _ _)

theorem State.leaveAlone_kept (s : State) (p : Nat) :
    Kept s (State.leaveAlone s p) := by
  unfold State.leaveAlone
  repeat'
    first
    | with_reducible exact Kept.refl _
    | with_reducible apply Kept.trans ?_ (State.setU_kept _ _ _ _)
    | split

theorem State.busOff_kept (s : State) (p : Nat) :
    Kept s (State.busOff s p) := by
  unfold State.busOff
  repeat'
    first
    | with_reducible exact Kept.refl _
    | with_reducible apply Kept.trans ?_ (State.setU_kept _ _ _ _)
    | with_reducible apply Kept.trans ?_ (State.incU_kept _ _ _)
    | with_reducible apply Kept.trans ?_ (State.latchU_kept _ _ _ _ _)
    | with_reducible apply Kept.trans ?_ (State.putPort_kept _ _ _)

theorem State.countError_kept (s : State) (p : Nat) (e : CanErr) :
    Kept s (State.countError s p e) := by
  unfold State.countError
  repeat'
    first
    | with_reducible exact Kept.refl _
    | with_reducible apply Kept.trans ?_ (State.setU_kept _ _ _ _)

theorem State.fbModeApply_kept (s : State) (p : Nat) :
    Kept s (State.fbModeApply s p) := by
  unfold State.fbModeApply
  repeat'
    first
    | with_reducible exact Kept.refl _
    | with_reducible apply Kept.trans ?_ (State.setU_kept _ _ _ _)
    | with_reducible apply Kept.trans ?_ (State.putPort_kept _ _ _)
    | simp only [Kept.mk_iff, Kept.dict_iff, Kept.recorder_iff]
    | split

theorem State.txConfigApply_kept (s : State) (k : Nat) (old : Nat) :
    Kept s (State.txConfigApply s k old) := by
  unfold State.txConfigApply
  repeat'
    first
    | with_reducible exact Kept.refl _
    | with_reducible apply Kept.trans ?_ (State.putTx_kept _ _ _)
    | split

theorem State.fencePort_kept (s : State) (p : Nat) :
    Kept s (State.fencePort s p) := by
  unfold State.fencePort
  repeat'
    first
    | with_reducible exact Kept.refl _
    | with_reducible apply Kept.trans ?_ (State.setU_kept _ _ _ _)
    | with_reducible apply Kept.trans ?_ (State.latchU_kept _ _ _ _ _)
    | with_reducible apply Kept.trans ?_ (State.putPort_kept _ _ _)
    | split

theorem State.suppress_kept (s : State) (p : Nat) :
    Kept s (State.suppress s p) := by
  unfold State.suppress
  try dsimp only
  repeat'
    first
    | with_reducible exact Kept.refl _
    | with_reducible apply Kept.trans ?_ (State.latchOpenU_kept _ _ _ _ _)
    | with_reducible apply Kept.trans ?_ (State.putTx_kept _ _ _)
    | with_reducible apply Kept.trans ?_ (State.putPort_kept _ _ _)
    | intro _
    | split
    | with_reducible apply Kept.trans ?_ (Kept.foldl ?_ _ _)

theorem State.loadCheck_kept (s : State) (p : Nat) (len : Nat) (busy : Nat) :
    Kept s (State.loadCheck s p len busy) := by
  unfold State.loadCheck
  try dsimp only
  repeat'
    first
    | with_reducible exact Kept.refl _
    | with_reducible assumption
    | with_reducible apply Kept.trans ?_ (State.take_kept _ _)
    | with_reducible apply Kept.trans ?_ (State.putPort_kept _ _ _)
    | with_reducible apply Kept.trans ?_ (State.suppress_kept _ _)
    | simp only [Kept.mk_iff, Kept.dict_iff, Kept.recorder_iff]
    | intro _
    | split

theorem State.fbTick_kept (s : State) (len : Nat) (busy : List Nat) :
    Kept s (State.fbTick s len busy) := by
  unfold State.fbTick
  try dsimp only
  repeat'
    first
    | with_reducible exact Kept.refl _
    | with_reducible assumption
    | with_reducible apply Kept.trans ?_ (State.setU_kept _ _ _ _)
    | with_reducible apply Kept.trans ?_ (State.rejoin_kept _ _ _ _)
    | with_reducible apply Kept.trans ?_ (State.putPort_kept _ _ _)
    | with_reducible apply Kept.trans ?_ (State.loadCheck_kept _ _ _ _)
    | simp only [Kept.mk_iff, Kept.dict_iff, Kept.recorder_iff]
    | intro _
    | split
    | with_reducible apply Kept.trans ?_ (Kept.foldl ?_ _ _)
    | with_reducible apply Kept.trans ?_ (Kept.foldl_fst ?_ _ _)

theorem State.fbTurn_kept (s : State) :
    Kept s (State.fbTurn s) := by
  unfold State.fbTurn
  try dsimp only
  repeat'
    first
    | with_reducible exact Kept.refl _
    | with_reducible assumption
    | with_reducible apply Kept.trans ?_ (State.setU_kept _ _ _ _)
    | with_reducible apply Kept.trans ?_ (State.putPort_kept _ _ _)
    | simp only [Kept.mk_iff, Kept.dict_iff, Kept.recorder_iff]
    | intro _
    | split
    | with_reducible apply Kept.trans ?_ (Kept.foldl ?_ _ _)
    | with_reducible apply Kept.trans ?_ (Kept.foldl_fst ?_ _ _)

theorem fbCmd_kept {v : Nat} {mine : Bytes → Bool} {codes : Nat → State → List Nat} {run : Nat → State → State} (h : ∀ c s, Kept s (run c s)) (q : Req) (live : Bool) (s : State)
    (_ : (fbCmd v mine codes run).codes q live s = []) : Kept s ((fbCmd v mine codes run).run q live s).2 :=
  cmdService_kept (fun _ _ _ => h _ _) q live s ‹_›

theorem execCanFrameReceive_kept (t : Nat) (port : Nat) (f : CanFrame) (s : State) :
    ∃ z, execCanFrameReceive t port f s = .next z ∧ Kept s z := by
  unfold execCanFrameReceive
  refine ⟨_, rfl, ?_⟩
  try dsimp only
  repeat'
    first
    | with_reducible exact Kept.refl _
    | with_reducible assumption
    | with_reducible apply Kept.trans ?_ (State.at_kept _ _)
    | with_reducible apply Kept.trans ?_ (State.when_kept _ _ _ ?_)
    | with_reducible apply Kept.trans ?_ (State.incU_kept _ _ _)
    | with_reducible apply Kept.trans ?_ (State.putPort_kept _ _ _)
    | with_reducible apply Kept.trans ?_ (State.offer_kept _ _)
    | with_reducible apply Kept.trans ?_ (State.storeFrame_kept _ _ _)
    | with_reducible apply Kept.trans ?_ (State.rxSuccess_kept _ _)
    | simp only [Kept.mk_iff, Kept.dict_iff, Kept.recorder_iff]
    | intro _
    | split

theorem execRxObjectStale_kept (t : Nat) (obj : Nat) (s : State) :
    ∃ z, execRxObjectStale t obj s = .next z ∧ Kept s z := by
  unfold execRxObjectStale
  refine ⟨_, rfl, ?_⟩
  try dsimp only
  repeat'
    first
    | with_reducible exact Kept.refl _
    | with_reducible assumption
    | with_reducible apply Kept.trans ?_ (State.at_kept _ _)
    | with_reducible apply Kept.trans ?_ (State.when_kept _ _ _ ?_)
    | with_reducible apply Kept.trans ?_ (State.latchU_kept _ _ _ _ _)
    | with_reducible apply Kept.trans ?_ (State.setObj_kept _ _ _ _)
    | simp only [Kept.mk_iff, Kept.dict_iff, Kept.recorder_iff]
    | intro _
    | split

theorem execCanTxDone_kept (t : Nat) (port : Nat) (time : Nat) (s : State) :
    ∃ z, execCanTxDone t port time s = .next z ∧ Kept s z := by
  unfold execCanTxDone
  refine ⟨_, rfl, ?_⟩
  try dsimp only
  repeat'
    first
    | with_reducible exact Kept.refl _
    | with_reducible assumption
    | with_reducible apply Kept.trans ?_ (State.at_kept _ _)
    | with_reducible apply Kept.trans ?_ (State.when_kept _ _ _ ?_)
    | with_reducible apply Kept.trans ?_ (State.setU_kept _ _ _ _)
    | with_reducible apply Kept.trans ?_ (State.incU_kept _ _ _)
    | with_reducible apply Kept.trans ?_ (State.putTx_kept _ _ _)
    | with_reducible apply Kept.trans ?_ (State.putPort_kept _ _ _)
    | with_reducible apply Kept.trans ?_ (State.fbRefresh_kept _ _)
    | with_reducible apply Kept.trans ?_ (State.offer_kept _ _)
    | with_reducible apply Kept.trans ?_ (State.leaveAlone_kept _ _)
    | simp only [Kept.mk_iff, Kept.dict_iff, Kept.recorder_iff]
    | intro _
    | split

theorem execCanError_kept (t : Nat) (port : Nat) (e : CanErr) (s : State) :
    ∃ z, execCanError t port e s = .next z ∧ Kept s z := by
  unfold execCanError
  refine ⟨_, rfl, ?_⟩
  try dsimp only
  repeat'
    first
    | with_reducible exact Kept.refl _
    | with_reducible assumption
    | with_reducible apply Kept.trans ?_ (State.at_kept _ _)
    | with_reducible apply Kept.trans ?_ (State.when_kept _ _ _ ?_)
    | with_reducible apply Kept.trans ?_ (State.setU_kept _ _ _ _)
    | with_reducible apply Kept.trans ?_ (State.incU_kept _ _ _)
    | with_reducible apply Kept.trans ?_ (State.putPort_kept _ _ _)
    | with_reducible apply Kept.trans ?_ (State.fbRefresh_kept _ _)
    | with_reducible apply Kept.trans ?_ (State.offer_kept _ _)
    | with_reducible apply Kept.trans ?_ (State.busOff_kept _ _)
    | with_reducible apply Kept.trans ?_ (State.countError_kept _ _ _)
    | simp only [Kept.mk_iff, Kept.dict_iff, Kept.recorder_iff]
    | intro _
    | split

theorem execFbCmdRejoin_kept (t : Nat) (rx : Rx) (s : State) : ∃ z, execFbCmdRejoin t rx s = .next z ∧ Kept s z := by
  unfold execFbCmdRejoin
  refine ⟨_, rfl, ?_⟩
  try dsimp only
  repeat'
    first
    | with_reducible exact Kept.refl _
    | with_reducible assumption
    | apply fbCmd_kept
    | with_reducible apply Kept.trans ?_ (State.at_kept _ _)
    | with_reducible apply Kept.trans ?_ (State.serve_kept _ _ _)
    | with_reducible apply Kept.trans ?_ (State.rejoin_kept _ _ _ _)
    | with_reducible apply Kept.trans ?_ (State.putPort_kept _ _ _)
    | with_reducible apply Kept.trans ?_ (State.serve_kept _ _ _ ?_)
    | simp only [Kept.mk_iff, Kept.dict_iff, Kept.recorder_iff]
    | intro _
    | split

theorem execFbCmdProbe_kept (t : Nat) (rx : Rx) (s : State) : ∃ z, execFbCmdProbe t rx s = .next z ∧ Kept s z := by
  unfold execFbCmdProbe
  refine ⟨_, rfl, ?_⟩
  try dsimp only
  repeat'
    first
    | with_reducible exact Kept.refl _
    | with_reducible assumption
    | apply fbCmd_kept
    | with_reducible apply Kept.trans ?_ (State.at_kept _ _)
    | with_reducible apply Kept.trans ?_ (State.serve_kept _ _ _)
    | with_reducible apply Kept.trans ?_ (State.putPort_kept _ _ _)
    | with_reducible apply Kept.trans ?_ (State.serve_kept _ _ _ ?_)
    | simp only [Kept.mk_iff, Kept.dict_iff, Kept.recorder_iff]
    | intro _
    | split

theorem execBusOffRecoveryDone_kept (t : Nat) (port : Nat) (s : State) :
    ∃ z, execBusOffRecoveryDone t port s = .next z ∧ Kept s z := by
  unfold execBusOffRecoveryDone
  refine ⟨_, rfl, ?_⟩
  try dsimp only
  repeat'
    first
    | with_reducible exact Kept.refl _
    | with_reducible assumption
    | with_reducible apply Kept.trans ?_ (State.at_kept _ _)
    | with_reducible apply Kept.trans ?_ (State.when_kept _ _ _ ?_)
    | with_reducible apply Kept.trans ?_ (State.setU_kept _ _ _ _)
    | with_reducible apply Kept.trans ?_ (State.offer_kept _ _)
    | simp only [Kept.mk_iff, Kept.dict_iff, Kept.recorder_iff]
    | intro _
    | split

theorem execFbIntegrateDone_kept (t : Nat) (port : Nat) (s : State) :
    ∃ z, execFbIntegrateDone t port s = .next z ∧ Kept s z := by
  unfold execFbIntegrateDone
  refine ⟨_, rfl, ?_⟩
  try dsimp only
  repeat'
    first
    | with_reducible exact Kept.refl _
    | with_reducible assumption
    | with_reducible apply Kept.trans ?_ (State.at_kept _ _)
    | with_reducible apply Kept.trans ?_ (State.when_kept _ _ _ ?_)
    | with_reducible apply Kept.trans ?_ (State.setU_kept _ _ _ _)
    | with_reducible apply Kept.trans ?_ (State.offer_kept _ _)
    | simp only [Kept.mk_iff, Kept.dict_iff, Kept.recorder_iff]
    | intro _
    | split

theorem execFbPortFence_kept (t : Nat) (port : Nat) (s : State) :
    ∃ z, execFbPortFence t port s = .next z ∧ Kept s z := by
  unfold execFbPortFence
  refine ⟨_, rfl, ?_⟩
  try dsimp only
  repeat'
    first
    | with_reducible exact Kept.refl _
    | with_reducible assumption
    | with_reducible apply Kept.trans ?_ (State.at_kept _ _)
    | with_reducible apply Kept.trans ?_ (State.when_kept _ _ _ ?_)
    | with_reducible apply Kept.trans ?_ (State.fencePort_kept _ _)
    | simp only [Kept.mk_iff, Kept.dict_iff, Kept.recorder_iff]
    | intro _
    | split

theorem execAloneEnter_kept (t : Nat) (port : Nat) (s : State) :
    ∃ z, execAloneEnter t port s = .next z ∧ Kept s z := by
  unfold execAloneEnter
  refine ⟨_, rfl, ?_⟩
  try dsimp only
  repeat'
    first
    | with_reducible exact Kept.refl _
    | with_reducible assumption
    | with_reducible apply Kept.trans ?_ (State.at_kept _ _)
    | with_reducible apply Kept.trans ?_ (State.when_kept _ _ _ ?_)
    | with_reducible apply Kept.trans ?_ (State.setU_kept _ _ _ _)
    | with_reducible apply Kept.trans ?_ (State.incU_kept _ _ _)
    | with_reducible apply Kept.trans ?_ (State.latchU_kept _ _ _ _ _)
    | with_reducible apply Kept.trans ?_ (State.putTx_kept _ _ _)
    | with_reducible apply Kept.trans ?_ (State.putPort_kept _ _ _)
    | simp only [Kept.mk_iff, Kept.dict_iff, Kept.recorder_iff]
    | intro _
    | split

theorem execAloneProbe_kept (t : Nat) (port : Nat) (s : State) :
    ∃ z, execAloneProbe t port s = .next z ∧ Kept s z := by
  unfold execAloneProbe
  refine ⟨_, rfl, ?_⟩
  try dsimp only
  repeat'
    first
    | with_reducible exact Kept.refl _
    | with_reducible assumption
    | with_reducible apply Kept.trans ?_ (State.at_kept _ _)
    | with_reducible apply Kept.trans ?_ (State.when_kept _ _ _ ?_)
    | with_reducible apply Kept.trans ?_ (State.putPort_kept _ _ _)
    | simp only [Kept.mk_iff, Kept.dict_iff, Kept.recorder_iff]
    | intro _
    | split

theorem execSuppressionEnd_kept (t : Nat) (port : Nat) (s : State) :
    ∃ z, execSuppressionEnd t port s = .next z ∧ Kept s z := by
  unfold execSuppressionEnd
  refine ⟨_, rfl, ?_⟩
  try dsimp only
  repeat'
    first
    | with_reducible exact Kept.refl _
    | with_reducible assumption
    | with_reducible apply Kept.trans ?_ (State.at_kept _ _)
    | with_reducible apply Kept.trans ?_ (State.when_kept _ _ _ ?_)
    | with_reducible apply Kept.trans ?_ (State.latchEnd_kept _ _ _ _ _)
    | with_reducible apply Kept.trans ?_ (State.putPort_kept _ _ _)
    | simp only [Kept.mk_iff, Kept.dict_iff, Kept.recorder_iff]
    | intro _
    | split

end Sys2Proof.Machine
end

