-- ==== Sys2Proof/Laws/KeptSensors.lean ====
section
/-! SUPPORT. What the operations and the meanings of `Machine/Sensors.lean` keep (see `Laws/Kept.lean`). -/

namespace Sys2Proof.Machine

open Sys2Proof

theorem State.ainFaultTo_kept (s : State) (n : Nat) (f : Nat) :
    Kept s (State.ainFaultTo s n f) := by
  unfold State.ainFaultTo
  try dsimp only
  repeat'
    first
    | with_reducible exact Kept.refl _
    | with_reducible assumption
    | with_reducible apply Kept.trans ?_ (State.setU_kept _ _ _ _)
    | with_reducible apply Kept.trans ?_ (State.latchOpen_kept _ _ _ _)
    | with_reducible apply Kept.trans ?_ (State.latchEnd_kept _ _ _ _ _)
    | simp only [Kept.mk_iff, Kept.dict_iff, Kept.recorder_iff]
    | intro _
    | split

theorem State.ainLatch_kept (s : State) (n : Nat) (x : Int) :
    Kept s (State.ainLatch s n x) := by
  unfold State.ainLatch
  try dsimp only
  repeat'
    first
    | with_reducible exact Kept.refl _
    | with_reducible assumption
    | with_reducible apply Kept.trans ?_ (State.setU_kept _ _ _ _)
    | with_reducible apply Kept.trans ?_ (State.latch_kept _ _ _ _)
    | with_reducible apply Kept.trans ?_ (State.putAin_kept _ _ _)
    | with_reducible apply Kept.trans ?_ (State.ainFaultTo_kept _ _ _)
    | simp only [Kept.mk_iff, Kept.dict_iff, Kept.recorder_iff]
    | intro _
    | split

theorem State.ainTick_kept (s : State) (xs : List Int) :
    Kept s (State.ainTick s xs) := by
  unfold State.ainTick
  repeat'
    first
    | with_reducible exact Kept.refl _
    | with_reducible apply Kept.trans ?_ (State.ainLatch_kept _ _ _)
    | intro _
    | with_reducible apply Kept.trans ?_ (Kept.foldl ?_ _ _)

theorem State.ainReference_kept (s : State) (bad : List Nat) :
    Kept s (State.ainReference s bad) := by
  unfold State.ainReference
  try dsimp only
  repeat'
    first
    | with_reducible exact Kept.refl _
    | with_reducible assumption
    | with_reducible apply Kept.trans ?_ (State.latch_kept _ _ _ _)
    | with_reducible apply Kept.trans ?_ (State.fenceUnit_kept _ _)
    | with_reducible apply Kept.trans ?_ (State.putAin_kept _ _ _)
    | with_reducible apply Kept.trans ?_ (State.ainFaultTo_kept _ _ _)
    | simp only [Kept.mk_iff, Kept.dict_iff, Kept.recorder_iff]
    | intro _
    | split
    | with_reducible apply Kept.trans ?_ (Kept.foldl ?_ _ _)
    | with_reducible apply Kept.trans ?_ (Kept.foldl_fst ?_ _ _)

theorem State.rebindAin_kept (s : State) (n : Nat) (a : Nat) :
    Kept s (State.rebindAin s n a) := by
  unfold State.rebindAin
  try dsimp only
  repeat'
    first
    | with_reducible exact Kept.refl _
    | with_reducible assumption
    | with_reducible apply Kept.trans ?_ (State.setU_kept _ _ _ _)
    | simp only [Kept.mk_iff, Kept.dict_iff, Kept.recorder_iff]
    | intro _
    | split
    | with_reducible apply Kept.trans ?_ (Kept.foldl ?_ _ _)
    | with_reducible apply Kept.trans ?_ (Kept.foldl_fst ?_ _ _)

theorem State.angleLatch_kept (s : State) (n : Nat) (len : Nat) (x : AngleIn) :
    Kept s (State.angleLatch s n len x) := by
  unfold State.angleLatch
  try dsimp only
  repeat'
    first
    | with_reducible exact Kept.refl _
    | with_reducible assumption
    | with_reducible apply Kept.trans ?_ (State.setU_kept _ _ _ _)
    | with_reducible apply Kept.trans ?_ (State.latch_kept _ _ _ _)
    | with_reducible apply Kept.trans ?_ (State.latchOpen_kept _ _ _ _)
    | with_reducible apply Kept.trans ?_ (State.latchEnd_kept _ _ _ _ _)
    | with_reducible apply Kept.trans ?_ (State.take_kept _ _)
    | with_reducible apply Kept.trans ?_ (State.putAngle_kept _ _ _)
    | simp only [Kept.mk_iff, Kept.dict_iff, Kept.recorder_iff]
    | intro _
    | split

theorem State.angleTick_kept (s : State) (len : Nat) (xs : List AngleIn) :
    Kept s (State.angleTick s len xs) := by
  unfold State.angleTick
  repeat'
    first
    | with_reducible exact Kept.refl _
    | with_reducible apply Kept.trans ?_ (State.angleLatch_kept _ _ _ _)
    | intro _
    | with_reducible apply Kept.trans ?_ (Kept.foldl ?_ _ _)

theorem State.mainsTurn_kept (s : State) (v : List Nat) (rotation : Nat) :
    Kept s (State.mainsTurn s v rotation) := by
  unfold State.mainsTurn
  try dsimp only
  repeat'
    first
    | with_reducible exact Kept.refl _
    | with_reducible assumption
    | with_reducible apply Kept.trans ?_ (State.set_kept _ _ _)
    | with_reducible apply Kept.trans ?_ (State.latch_kept _ _ _ _)
    | simp only [Kept.mk_iff, Kept.dict_iff, Kept.recorder_iff]
    | intro _
    | split
    | with_reducible apply Kept.trans ?_ (Kept.foldl ?_ _ _)
    | with_reducible apply Kept.trans ?_ (Kept.foldl_fst ?_ _ _)

theorem State.deliver_kept (s : State) (late : List Nat) :
    Kept s (State.deliver s late) := by
  unfold State.deliver
  try dsimp only
  repeat'
    first
    | with_reducible exact Kept.refl _
    | with_reducible assumption
    | with_reducible apply Kept.trans ?_ (State.setU_kept _ _ _ _)
    | with_reducible apply Kept.trans ?_ (State.latch_kept _ _ _ _)
    | with_reducible apply Kept.trans ?_ (State.take_kept _ _)
    | with_reducible apply Kept.trans ?_ (State.histValue_kept _ _ _ _)
    | with_reducible apply Kept.trans ?_ (State.putFan_kept _ _ _)
    | with_reducible apply Kept.trans ?_ (State.putRx_kept _ _ _)
    | with_reducible apply Kept.trans ?_ (State.putAin_kept _ _ _)
    | with_reducible apply Kept.trans ?_ (State.putAngle_kept _ _ _)
    | with_reducible apply Kept.trans ?_ (State.setObj_kept _ _ _ _)
    | simp only [Kept.mk_iff, Kept.dict_iff, Kept.recorder_iff]
    | intro _
    | split
    | with_reducible apply Kept.trans ?_ (Kept.foldl ?_ _ _)
    | with_reducible apply Kept.trans ?_ (Kept.foldl_fst ?_ _ _)

theorem State.handOff_kept (s : State) (n : Nat) :
    Kept s (State.handOff s n) := by
  unfold State.handOff
  try dsimp only
  repeat'
    first
    | with_reducible exact Kept.refl _
    | with_reducible assumption
    | with_reducible apply Kept.trans ?_ (State.send_kept _ _)
    | with_reducible apply Kept.trans ?_ (State.putEng_kept _ _ _)
    | with_reducible apply Kept.trans ?_ (State.putValve_kept _ _ _)
    | with_reducible apply Kept.trans ?_ (State.putFan_kept _ _ _)
    | with_reducible apply Kept.trans ?_ (State.writeTx_kept _ _ _ _)
    | simp only [Kept.mk_iff, Kept.dict_iff, Kept.recorder_iff]
    | intro _
    | split
    | with_reducible apply Kept.trans ?_ (Kept.foldl ?_ _ _)
    | with_reducible apply Kept.trans ?_ (Kept.foldl_fst ?_ _ _)

theorem execAinTakeover_kept (t : Nat) (ch : Nat) (s : State) : ∃ z, execAinTakeover t ch s = .next z ∧ Kept s z := by
  unfold execAinTakeover
  refine ⟨_, rfl, ?_⟩
  repeat'
    first
    | with_reducible exact Kept.refl _
    | with_reducible apply Kept.trans ?_ (State.at_kept _ _)
    | with_reducible apply Kept.trans ?_ (State.when_kept _ _ _ ?_)
    | with_reducible apply Kept.trans ?_ (State.setU_kept _ _ _ _)
    | with_reducible apply Kept.trans ?_ (State.latch_kept _ _ _ _)
    | with_reducible apply Kept.trans ?_ (State.promote_kept _ _ _)
    | with_reducible apply Kept.trans ?_ (State.putAin_kept _ _ _)
    | with_reducible apply Kept.trans ?_ (State.copyKey_kept _ _ _)
    | with_reducible apply Kept.trans ?_ (State.rebindAin_kept _ _ _)
    | intro _
    | split
    | with_reducible apply Kept.trans ?_ (Kept.foldl ?_ _ _)

theorem execAinSwitchDone_kept (t : Nat) (ch : Nat) (s : State) :
    ∃ z, execAinSwitchDone t ch s = .next z ∧ Kept s z := by
  unfold execAinSwitchDone
  refine ⟨_, rfl, ?_⟩
  repeat'
    first
    | with_reducible exact Kept.refl _
    | with_reducible apply Kept.trans ?_ (State.at_kept _ _)
    | with_reducible apply Kept.trans ?_ (State.setU_kept _ _ _ _)
    | with_reducible apply Kept.trans ?_ (State.putAin_kept _ _ _)
    | split

theorem execRopeMeasure_kept (t : Nat) (rope : Nat) (x : RopeIn) (s : State) :
    ∃ z, execRopeMeasure t rope x s = .next z ∧ Kept s z := by
  unfold execRopeMeasure
  refine ⟨_, rfl, ?_⟩
  repeat'
    first
    | with_reducible exact Kept.refl _
    | with_reducible apply Kept.trans ?_ (State.at_kept _ _)
    | with_reducible apply Kept.trans ?_ (State.when_kept _ _ _ ?_)
    | with_reducible apply Kept.trans ?_ (State.setU_kept _ _ _ _)
    | with_reducible apply Kept.trans ?_ (State.latch_kept _ _ _ _)
    | simp only [Kept.mk_iff, Kept.dict_iff, Kept.recorder_iff]
    | intro _
    | split

theorem execSensorDelivery_kept (t : Nat) (x : SensorIn) (s : State) :
    ∃ z, execSensorDelivery t x s = .next z ∧ Kept s z := by
  unfold execSensorDelivery
  refine ⟨_, rfl, ?_⟩
  repeat'
    first
    | with_reducible exact Kept.refl _
    | with_reducible apply Kept.trans ?_ (State.at_kept _ _)
    | with_reducible apply Kept.trans ?_ (State.when_kept _ _ _ ?_)
    | with_reducible apply Kept.trans ?_ (State.deliver_kept _ _)
    | simp only [Kept.mk_iff, Kept.dict_iff, Kept.recorder_iff]
    | intro _

theorem execOutputHandoff_kept (t : Nat) (s : State) : ∃ z, execOutputHandoff t s = .next z ∧ Kept s z := by
  unfold execOutputHandoff
  refine ⟨_, rfl, ?_⟩
  repeat'
    first
    | with_reducible exact Kept.refl _
    | with_reducible apply Kept.trans ?_ (State.at_kept _ _)
    | with_reducible apply Kept.trans ?_ (State.when_kept _ _ _ ?_)
    | with_reducible apply Kept.trans ?_ (State.handOff_kept _ _)
    | simp only [Kept.mk_iff, Kept.dict_iff, Kept.recorder_iff]
    | intro _
    | split
    | with_reducible apply Kept.trans ?_ (Kept.foldl ?_ _ _)

theorem execActuatorUpdate_kept (t : Nat) (s : State) : ∃ z, execActuatorUpdate t s = .next z ∧ Kept s z := by
  unfold execActuatorUpdate
  refine ⟨_, rfl, ?_⟩
  try dsimp only
  repeat'
    first
    | with_reducible exact Kept.refl _
    | with_reducible assumption
    | with_reducible apply Kept.trans ?_ (State.at_kept _ _)
    | with_reducible apply Kept.trans ?_ (State.when_kept _ _ _ ?_)
    | with_reducible apply Kept.trans ?_ (State.latchValves_kept _)
    | with_reducible apply Kept.trans ?_ (State.queuePorts_kept _)
    | simp only [Kept.mk_iff, Kept.dict_iff, Kept.recorder_iff]
    | intro _
    | split

end Sys2Proof.Machine
end

