-- ==== Sys2Proof/Laws/KeptPlant.lean ====
section
/-! SUPPORT. What the operations and the meanings of `Machine/Plant.lean` keep (see `Laws/Kept.lean`). -/

namespace Sys2Proof.Machine

open Sys2Proof

theorem State.putQuantity_kept (s : State) (n : Nat) (v : Br) (tick : Option Nat) :
    Kept s (State.putQuantity s n v tick) := by
  unfold State.putQuantity
  repeat'
    first
    | with_reducible exact Kept.refl _
    | simp only [Kept.mk_iff, Kept.dict_iff, Kept.recorder_iff]

theorem State.readSources_kept (s : State) :
    Kept s (State.readSources s) := by
  unfold State.readSources
  repeat'
    first
    | with_reducible exact Kept.refl _
    | with_reducible apply Kept.trans ?_ (State.putQuantity_kept _ _ _ _)
    | intro _
    | with_reducible apply Kept.trans ?_ (Kept.foldl ?_ _ _)

theorem State.capacityRun_kept (s : State) :
    Kept s (State.capacityRun s) := by
  unfold State.capacityRun
  repeat'
    first
    | with_reducible exact Kept.refl _
    | with_reducible apply Kept.trans ?_ (State.set_kept _ _ _)
    | with_reducible apply Kept.trans ?_ (State.setU_kept _ _ _ _)
    | with_reducible apply Kept.trans ?_ (State.putBranch_kept _ _ _)
    | with_reducible apply Kept.trans ?_ (State.putQuantity_kept _ _ _ _)
    | simp only [Kept.mk_iff, Kept.dict_iff, Kept.recorder_iff]
    | intro _
    | split
    | with_reducible apply Kept.trans ?_ (Kept.foldl ?_ _ _)

theorem State.sendPlantCuts_kept (s : State) (bs : List Nat) :
    Kept s (State.sendPlantCuts s bs) := by
  unfold State.sendPlantCuts
  repeat'
    first
    | with_reducible exact Kept.refl _
    | simp only [Kept.mk_iff, Kept.dict_iff, Kept.recorder_iff]
    | split

theorem State.showBranches_kept (s : State) :
    Kept s (State.showBranches s) := by
  unfold State.showBranches
  try dsimp only
  repeat'
    first
    | with_reducible exact Kept.refl _
    | with_reducible assumption
    | with_reducible apply Kept.trans ?_ (State.setU_kept _ _ _ _)
    | with_reducible apply Kept.trans ?_ (State.drawn_kept _)
    | with_reducible apply Kept.trans ?_ (State.putQuantity_kept _ _ _ _)
    | simp only [Kept.mk_iff, Kept.dict_iff, Kept.recorder_iff]
    | intro _
    | split
    | with_reducible apply Kept.trans ?_ (Kept.foldl ?_ _ _)
    | with_reducible apply Kept.trans ?_ (Kept.foldl_fst ?_ _ _)

end Sys2Proof.Machine
end

