-- ==== Sys2Proof/Laws/KeptPumps.lean ====
section
/-! SUPPORT. What the operations and the meanings of `Machine/Pumps.lean` keep (see `Laws/Kept.lean`). -/

namespace Sys2Proof.Machine

open Sys2Proof

theorem State.putPump_kept (s : State) (i : Nat) (x : Pump) :
    Kept s (State.putPump s i x) := by
  unfold State.putPump
  repeat'
    first
    | with_reducible exact Kept.refl _
    | simp only [Kept.mk_iff, Kept.dict_iff, Kept.recorder_iff]

theorem State.putSet_kept (s : State) (k : Nat) (x : PumpSet) :
    Kept s (State.putSet s k x) := by
  unfold State.putSet
  repeat'
    first
    | with_reducible exact Kept.refl _
    | simp only [Kept.mk_iff, Kept.dict_iff, Kept.recorder_iff]

theorem State.commandRun_kept (s : State) (i : Nat) (v : Bool) :
    Kept s (State.commandRun s i v) := by
  unfold State.commandRun
  repeat'
    first
    | with_reducible exact Kept.refl _
    | with_reducible apply Kept.trans ?_ (State.writeTxBit_kept _ _ _ _)
    | with_reducible apply Kept.trans ?_ (State.putPump_kept _ _ _)

theorem State.writeStart_kept (s : State) (i : Nat) :
    Kept s (State.writeStart s i) := by
  unfold State.writeStart
  try dsimp only
  repeat'
    first
    | with_reducible exact Kept.refl _
    | with_reducible assumption
    | with_reducible apply Kept.trans ?_ (State.writeTx_kept _ _ _ _)
    | with_reducible apply Kept.trans ?_ (State.commandRun_kept _ _ _)
    | simp only [Kept.mk_iff, Kept.dict_iff, Kept.recorder_iff]
    | intro _
    | split

theorem State.startPump_kept (s : State) (i : Nat) :
    Kept s (State.startPump s i) := by
  unfold State.startPump
  repeat'
    first
    | with_reducible exact Kept.refl _
    | with_reducible apply Kept.trans ?_ (State.putPump_kept _ _ _)
    | with_reducible apply Kept.trans ?_ (State.writeStart_kept _ _)

theorem State.startStandby_kept (s : State) (k : Nat) :
    Kept s (State.startStandby s k) := by
  unfold State.startStandby
  repeat'
    first
    | with_reducible exact Kept.refl _
    | with_reducible apply Kept.trans ?_ (State.latch_kept _ _ _ _)
    | with_reducible apply Kept.trans ?_ (State.startPump_kept _ _)
    | split

theorem State.newLead_kept (s : State) (i : Nat) :
    Kept s (State.newLead s i) := by
  unfold State.newLead
  repeat'
    first
    | with_reducible exact Kept.refl _
    | with_reducible apply Kept.trans ?_ (State.setU_kept _ _ _ _)
    | with_reducible apply Kept.trans ?_ (State.putSet_kept _ _ _)

theorem State.stopPump_kept (s : State) (i : Nat) (role : Nat) :
    Kept s (State.stopPump s i role) := by
  unfold State.stopPump
  repeat'
    first
    | with_reducible exact Kept.refl _
    | with_reducible apply Kept.trans ?_ (State.setU_kept _ _ _ _)
    | with_reducible apply Kept.trans ?_ (State.putPump_kept _ _ _)
    | with_reducible apply Kept.trans ?_ (State.commandRun_kept _ _ _)

theorem State.loseLead_kept (s : State) (i : Nat) :
    Kept s (State.loseLead s i) := by
  unfold State.loseLead
  try dsimp only
  repeat'
    first
    | with_reducible exact Kept.refl _
    | with_reducible assumption
    | with_reducible apply Kept.trans ?_ (State.setU_kept _ _ _ _)
    | with_reducible apply Kept.trans ?_ (State.newLead_kept _ _)
    | simp only [Kept.mk_iff, Kept.dict_iff, Kept.recorder_iff]
    | intro _
    | split

theorem State.pumpStarted_kept (s : State) (i : Nat) :
    Kept s (State.pumpStarted s i) := by
  unfold State.pumpStarted
  try dsimp only
  repeat'
    first
    | with_reducible exact Kept.refl _
    | with_reducible assumption
    | with_reducible apply Kept.trans ?_ (State.setU_kept _ _ _ _)
    | with_reducible apply Kept.trans ?_ (State.putPump_kept _ _ _)
    | with_reducible apply Kept.trans ?_ (State.putSet_kept _ _ _)
    | with_reducible apply Kept.trans ?_ (State.newLead_kept _ _)
    | with_reducible apply Kept.trans ?_ (State.stopPump_kept _ _ _)
    | simp only [Kept.mk_iff, Kept.dict_iff, Kept.recorder_iff]
    | intro _
    | split

theorem State.tripPump_kept (s : State) (i : Nat) :
    Kept s (State.tripPump s i) := by
  unfold State.tripPump
  try dsimp only
  repeat'
    first
    | with_reducible exact Kept.refl _
    | with_reducible assumption
    | with_reducible apply Kept.trans ?_ (State.incU_kept _ _ _)
    | with_reducible apply Kept.trans ?_ (State.latch_kept _ _ _ _)
    | with_reducible apply Kept.trans ?_ (State.startPump_kept _ _)
    | with_reducible apply Kept.trans ?_ (State.stopPump_kept _ _ _)
    | with_reducible apply Kept.trans ?_ (State.loseLead_kept _ _)
    | simp only [Kept.mk_iff, Kept.dict_iff, Kept.recorder_iff]
    | intro _
    | split

theorem State.pumpRun_kept (s : State) (i : Nat) :
    Kept s (State.pumpRun s i) := by
  unfold State.pumpRun
  try dsimp only
  repeat'
    first
    | with_reducible exact Kept.refl _
    | with_reducible assumption
    | with_reducible apply Kept.trans ?_ (State.putPump_kept _ _ _)
    | with_reducible apply Kept.trans ?_ (State.writeStart_kept _ _)
    | with_reducible apply Kept.trans ?_ (State.pumpStarted_kept _ _)
    | with_reducible apply Kept.trans ?_ (State.tripPump_kept _ _)
    | simp only [Kept.mk_iff, Kept.dict_iff, Kept.recorder_iff]
    | intro _
    | split

theorem State.setEdge_kept (s : State) (k : Nat) :
    Kept s (State.setEdge s k) := by
  unfold State.setEdge
  try dsimp only
  repeat'
    first
    | with_reducible exact Kept.refl _
    | with_reducible assumption
    | with_reducible apply Kept.trans ?_ (State.setU_kept _ _ _ _)
    | with_reducible apply Kept.trans ?_ (State.putSet_kept _ _ _)
    | with_reducible apply Kept.trans ?_ (State.stopPump_kept _ _ _)
    | simp only [Kept.mk_iff, Kept.dict_iff, Kept.recorder_iff]
    | intro _
    | split
    | with_reducible apply Kept.trans ?_ (Kept.foldl ?_ _ _)
    | with_reducible apply Kept.trans ?_ (Kept.foldl_fst ?_ _ _)

theorem State.chainStarts_kept (s : State) :
    Kept s (State.chainStarts s) := by
  unfold State.chainStarts
  repeat'
    first
    | with_reducible exact Kept.refl _
    | with_reducible apply Kept.trans ?_ (State.putSet_kept _ _ _)
    | with_reducible apply Kept.trans ?_ (State.startPump_kept _ _)
    | simp only [Kept.mk_iff, Kept.dict_iff, Kept.recorder_iff]
    | split

theorem State.pumpsRun_kept (s : State) :
    Kept s (State.pumpsRun s) := by
  unfold State.pumpsRun
  repeat'
    first
    | with_reducible exact Kept.refl _
    | with_reducible apply Kept.trans ?_ (State.putQuantity_kept _ _ _ _)
    | with_reducible apply Kept.trans ?_ (State.pumpRun_kept _ _)
    | with_reducible apply Kept.trans ?_ (State.setEdge_kept _ _)
    | with_reducible apply Kept.trans ?_ (State.chainStarts_kept _)
    | intro _
    | split
    | with_reducible apply Kept.trans ?_ (Kept.foldl ?_ _ _)

theorem State.pumpTurn_kept (s : State) :
    Kept s (State.pumpTurn s) := by
  unfold State.pumpTurn
  repeat'
    first
    | with_reducible exact Kept.refl _
    | with_reducible apply Kept.trans ?_ (State.incU_kept _ _ _)
    | intro _
    | split
    | with_reducible apply Kept.trans ?_ (Kept.foldl ?_ _ _)

theorem execPumpStartTimeout_kept (t : Nat) (set : Nat) (pump : Nat) (s : State) :
    ∃ z, execPumpStartTimeout t set pump s = .next z ∧ Kept s z := by
  unfold execPumpStartTimeout
  refine ⟨_, rfl, ?_⟩
  try dsimp only
  repeat'
    first
    | with_reducible exact Kept.refl _
    | with_reducible assumption
    | with_reducible apply Kept.trans ?_ (State.at_kept _ _)
    | with_reducible apply Kept.trans ?_ (State.when_kept _ _ _ ?_)
    | with_reducible apply Kept.trans ?_ (State.set_kept _ _ _)
    | with_reducible apply Kept.trans ?_ (State.latch_kept _ _ _ _)
    | with_reducible apply Kept.trans ?_ (State.putSet_kept _ _ _)
    | with_reducible apply Kept.trans ?_ (State.startStandby_kept _ _)
    | with_reducible apply Kept.trans ?_ (State.stopPump_kept _ _ _)
    | simp only [Kept.mk_iff, Kept.dict_iff, Kept.recorder_iff]
    | intro _
    | split

theorem execPumpStandbyReturn_kept (t : Nat) (set : Nat) (pump : Nat) (s : State) :
    ∃ z, execPumpStandbyReturn t set pump s = .next z ∧ Kept s z := by
  unfold execPumpStandbyReturn
  refine ⟨_, rfl, ?_⟩
  repeat'
    first
    | with_reducible exact Kept.refl _
    | with_reducible apply Kept.trans ?_ (State.at_kept _ _)
    | with_reducible apply Kept.trans ?_ (State.when_kept _ _ _ ?_)
    | with_reducible apply Kept.trans ?_ (State.setU_kept _ _ _ _)
    | with_reducible apply Kept.trans ?_ (State.putPump_kept _ _ _)
    | intro _
    | split

theorem execLeadRebind_kept (t : Nat) (set : Nat) (s : State) : ∃ z, execLeadRebind t set s = .next z ∧ Kept s z := by
  unfold execLeadRebind
  refine ⟨_, rfl, ?_⟩
  try dsimp only
  repeat'
    first
    | with_reducible exact Kept.refl _
    | with_reducible assumption
    | with_reducible apply Kept.trans ?_ (State.at_kept _ _)
    | with_reducible apply Kept.trans ?_ (State.when_kept _ _ _ ?_)
    | with_reducible apply Kept.trans ?_ (State.set_kept _ _ _)
    | with_reducible apply Kept.trans ?_ (State.setU_kept _ _ _ _)
    | with_reducible apply Kept.trans ?_ (State.putSet_kept _ _ _)
    | simp only [Kept.mk_iff, Kept.dict_iff, Kept.recorder_iff]
    | intro _
    | split

theorem execPumpRotation_kept (t : Nat) (set : Nat) (s : State) :
    ∃ z, execPumpRotation t set s = .next z ∧ Kept s z := by
  unfold execPumpRotation
  refine ⟨_, rfl, ?_⟩
  try dsimp only
  repeat'
    first
    | with_reducible exact Kept.refl _
    | with_reducible assumption
    | with_reducible apply Kept.trans ?_ (State.at_kept _ _)
    | with_reducible apply Kept.trans ?_ (State.when_kept _ _ _ ?_)
    | with_reducible apply Kept.trans ?_ (State.set_kept _ _ _)
    | with_reducible apply Kept.trans ?_ (State.putSet_kept _ _ _)
    | with_reducible apply Kept.trans ?_ (State.startPump_kept _ _)
    | simp only [Kept.mk_iff, Kept.dict_iff, Kept.recorder_iff]
    | intro _
    | split

theorem execPsCmd_kept (t : Nat) (rx : Rx) (s : State) : ∃ z, execPsCmd t rx s = .next z ∧ Kept s z := by
  unfold execPsCmd
  refine ⟨_, rfl, ?_⟩
  try dsimp only
  repeat'
    first
    | with_reducible exact Kept.refl _
    | with_reducible assumption
    | apply cmdService_kept
    | with_reducible apply Kept.trans ?_ (State.at_kept _ _)
    | with_reducible apply Kept.trans ?_ (State.serve_kept _ _ _)
    | with_reducible apply Kept.trans ?_ (State.putSet_kept _ _ _)
    | with_reducible apply Kept.trans ?_ (State.serve_kept _ _ _ ?_)
    | simp only [Kept.mk_iff, Kept.dict_iff, Kept.recorder_iff]
    | intro _
    | split

end Sys2Proof.Machine
end

