-- ==== Sys2Proof/Laws/KeptFlow.lean ====
section
/-! SUPPORT. What the operations and the meanings of `Machine/Flow.lean` keep (see `Laws/Kept.lean`). -/

namespace Sys2Proof.Machine

open Sys2Proof

theorem State.enterStop_kept (s : State) (b : Nat) :
    Kept s (State.enterStop s b) := by
  unfold State.enterStop
  repeat'
    first
    | with_reducible exact Kept.refl _
    | with_reducible apply Kept.trans ?_ (State.latch_kept _ _ _ _)
    | with_reducible apply Kept.trans ?_ (State.latchEnd_kept _ _ _ _ _)
    | with_reducible apply Kept.trans ?_ (State.putBranch_kept _ _ _)
    | split

theorem State.trendRun_kept (s : State) (b : Nat) :
    Kept s (State.trendRun s b) := by
  unfold State.trendRun
  try dsimp only
  repeat'
    first
    | with_reducible exact Kept.refl _
    | with_reducible assumption
    | with_reducible apply Kept.trans ?_ (State.latchOpen_kept _ _ _ _)
    | with_reducible apply Kept.trans ?_ (State.putBranch_kept _ _ _)
    | simp only [Kept.mk_iff, Kept.dict_iff, Kept.recorder_iff]
    | intro _
    | split

theorem State.branchRun_kept (s : State) (b : Nat) :
    Kept s (State.branchRun s b) := by
  unfold State.branchRun
  try dsimp only
  repeat'
    first
    | with_reducible exact Kept.refl _
    | with_reducible assumption
    | with_reducible apply Kept.trans ?_ (State.take_kept _ _)
    | with_reducible apply Kept.trans ?_ (State.putBranch_kept _ _ _)
    | with_reducible apply Kept.trans ?_ (State.enterStop_kept _ _)
    | with_reducible apply Kept.trans ?_ (State.trendRun_kept _ _)
    | simp only [Kept.mk_iff, Kept.dict_iff, Kept.recorder_iff]
    | intro _
    | split

theorem State.branchEdge_kept (s : State) (b : Nat) :
    Kept s (State.branchEdge s b) := by
  unfold State.branchEdge
  try dsimp only
  repeat'
    first
    | with_reducible exact Kept.refl _
    | with_reducible assumption
    | with_reducible apply Kept.trans ?_ (State.latchEnd_kept _ _ _ _ _)
    | with_reducible apply Kept.trans ?_ (State.putBranch_kept _ _ _)
    | simp only [Kept.mk_iff, Kept.dict_iff, Kept.recorder_iff]
    | intro _
    | split

theorem State.declareLeak_kept (s : State) (b : Nat) :
    Kept s (State.declareLeak s b) := by
  unfold State.declareLeak
  try dsimp only
  repeat'
    first
    | with_reducible exact Kept.refl _
    | with_reducible assumption
    | with_reducible apply Kept.trans ?_ (State.latch_kept _ _ _ _)
    | with_reducible apply Kept.trans ?_ (State.latchEnd_kept _ _ _ _ _)
    | with_reducible apply Kept.trans ?_ (State.leakTick_kept _)
    | with_reducible apply Kept.trans ?_ (State.putBranch_kept _ _ _)
    | simp only [Kept.mk_iff, Kept.dict_iff, Kept.recorder_iff]
    | intro _
    | split

theorem State.takeLeaks_kept (s : State) :
    Kept s (State.takeLeaks s) := by
  unfold State.takeLeaks
  repeat'
    first
    | with_reducible exact Kept.refl _
    | with_reducible apply Kept.trans ?_ (State.declareLeak_kept _ _)
    | simp only [Kept.mk_iff, Kept.dict_iff, Kept.recorder_iff]
    | intro _
    | with_reducible apply Kept.trans ?_ (Kept.foldl ?_ _ _)

theorem State.endIsolation_kept (s : State) (b : Nat) :
    Kept s (State.endIsolation s b) := by
  unfold State.endIsolation
  try dsimp only
  repeat'
    first
    | with_reducible exact Kept.refl _
    | with_reducible assumption
    | with_reducible apply Kept.trans ?_ (State.setU_kept _ _ _ _)
    | with_reducible apply Kept.trans ?_ (State.putValve_kept _ _ _)
    | with_reducible apply Kept.trans ?_ (State.putBranch_kept _ _ _)
    | simp only [Kept.mk_iff, Kept.dict_iff, Kept.recorder_iff]
    | intro _
    | split

theorem State.refreshFanHolds_kept (s : State) :
    Kept s (State.refreshFanHolds s) := by
  unfold State.refreshFanHolds
  repeat'
    first
    | with_reducible exact Kept.refl _
    | simp only [Kept.mk_iff, Kept.dict_iff, Kept.recorder_iff]

theorem State.fanHolds_kept (s : State) :
    Kept s (State.fanHolds s) := by
  unfold State.fanHolds
  repeat'
    first
    | with_reducible exact Kept.refl _
    | with_reducible apply Kept.trans ?_ (State.refreshFanHolds_kept _)
    | simp only [Kept.mk_iff, Kept.dict_iff, Kept.recorder_iff]
    | intro _
    | split
    | with_reducible apply Kept.trans ?_ (Kept.foldl ?_ _ _)

theorem State.redeclareLeaks_kept (s : State) :
    Kept s (State.redeclareLeaks s) := by
  unfold State.redeclareLeaks
  repeat'
    first
    | with_reducible exact Kept.refl _
    | with_reducible apply Kept.trans ?_ (State.putBranch_kept _ _ _)
    | simp only [Kept.mk_iff, Kept.dict_iff, Kept.recorder_iff]
    | intro _
    | with_reducible apply Kept.trans ?_ (Kept.foldl ?_ _ _)

theorem execIsolationCloseDemand_kept (t : Nat) (branch : Nat) (s : State) :
    ∃ z, execIsolationCloseDemand t branch s = .next z ∧ Kept s z := by
  unfold execIsolationCloseDemand
  refine ⟨_, rfl, ?_⟩
  repeat'
    first
    | with_reducible exact Kept.refl _
    | with_reducible apply Kept.trans ?_ (State.at_kept _ _)
    | with_reducible apply Kept.trans ?_ (State.when_kept _ _ _ ?_)
    | with_reducible apply Kept.trans ?_ (State.setU_kept _ _ _ _)
    | with_reducible apply Kept.trans ?_ (State.putBranch_kept _ _ _)
    | with_reducible apply Kept.trans ?_ (State.demandClose_kept _ _ _)
    | intro _
    | split

theorem execIsolationRetryClose_kept (t : Nat) (branch : Nat) (s : State) :
    ∃ z, execIsolationRetryClose t branch s = .next z ∧ Kept s z := by
  unfold execIsolationRetryClose
  refine ⟨_, rfl, ?_⟩
  repeat'
    first
    | with_reducible exact Kept.refl _
    | with_reducible apply Kept.trans ?_ (State.at_kept _ _)
    | with_reducible apply Kept.trans ?_ (State.when_kept _ _ _ ?_)
    | with_reducible apply Kept.trans ?_ (State.demandClose_kept _ _ _)
    | intro _
    | split

theorem execBrCmdEndIsolation_kept (t : Nat) (rx : Rx) (s : State) :
    ∃ z, execBrCmdEndIsolation t rx s = .next z ∧ Kept s z := by
  unfold execBrCmdEndIsolation
  refine ⟨_, rfl, ?_⟩
  repeat'
    first
    | with_reducible exact Kept.refl _
    | apply cmdService_kept
    | with_reducible apply Kept.trans ?_ (State.at_kept _ _)
    | with_reducible apply Kept.trans ?_ (State.endIsolation_kept _ _)
    | with_reducible apply Kept.trans ?_ (State.serve_kept _ _ _ ?_)
    | intro _

theorem execBrCmdDeclareLeak_kept (t : Nat) (rx : Rx) (s : State) :
    ∃ z, execBrCmdDeclareLeak t rx s = .next z ∧ Kept s z := by
  unfold execBrCmdDeclareLeak
  refine ⟨_, rfl, ?_⟩
  repeat'
    first
    | with_reducible exact Kept.refl _
    | apply cmdService_kept
    | with_reducible apply Kept.trans ?_ (State.at_kept _ _)
    | with_reducible apply Kept.trans ?_ (State.serve_kept _ _ _ ?_)
    | simp only [Kept.mk_iff, Kept.dict_iff, Kept.recorder_iff]
    | intro _

theorem execPlantFanHoldRelease_kept (t : Nat) (s : State) :
    ∃ z, execPlantFanHoldRelease t s = .next z ∧ Kept s z := by
  unfold execPlantFanHoldRelease
  refine ⟨_, rfl, ?_⟩
  repeat'
    first
    | with_reducible exact Kept.refl _
    | with_reducible apply Kept.trans ?_ (State.at_kept _ _)
    | with_reducible apply Kept.trans ?_ (State.when_kept _ _ _ ?_)
    | with_reducible apply Kept.trans ?_ (State.refreshFanHolds_kept _)
    | simp only [Kept.mk_iff, Kept.dict_iff, Kept.recorder_iff]
    | intro _

theorem execPlantSupervisorRun_kept (t : Nat) (s : State) : ∃ z, execPlantSupervisorRun t s = .next z ∧ Kept s z := by
  unfold execPlantSupervisorRun
  refine ⟨_, rfl, ?_⟩
  repeat'
    first
    | with_reducible exact Kept.refl _
    | with_reducible apply Kept.trans ?_ (State.at_kept _ _)
    | with_reducible apply Kept.trans ?_ (State.when_kept _ _ _ ?_)
    | with_reducible apply Kept.trans ?_ (State.histValues_kept _ _ _)
    | with_reducible apply Kept.trans ?_ (State.readSources_kept _)
    | with_reducible apply Kept.trans ?_ (State.capacityRun_kept _)
    | with_reducible apply Kept.trans ?_ (State.sendPlantCuts_kept _ _)
    | with_reducible apply Kept.trans ?_ (State.showBranches_kept _)
    | with_reducible apply Kept.trans ?_ (State.startStandby_kept _ _)
    | with_reducible apply Kept.trans ?_ (State.pumpsRun_kept _)
    | with_reducible apply Kept.trans ?_ (State.enterStop_kept _ _)
    | with_reducible apply Kept.trans ?_ (State.branchRun_kept _ _)
    | with_reducible apply Kept.trans ?_ (State.branchEdge_kept _ _)
    | with_reducible apply Kept.trans ?_ (State.takeLeaks_kept _)
    | with_reducible apply Kept.trans ?_ (State.fanHolds_kept _)
    | simp only [Kept.mk_iff, Kept.dict_iff, Kept.recorder_iff]
    | intro _
    | with_reducible apply Kept.trans ?_ (Kept.foldl ?_ _ _)

theorem execPlantRowCutRefresh_kept (t : Nat) (branch : Nat) (s : State) :
    ∃ z, execPlantRowCutRefresh t branch s = .next z ∧ Kept s z := by
  unfold execPlantRowCutRefresh
  refine ⟨_, rfl, ?_⟩
  repeat'
    first
    | with_reducible exact Kept.refl _
    | with_reducible apply Kept.trans ?_ (State.at_kept _ _)
    | with_reducible apply Kept.trans ?_ (State.when_kept _ _ _ ?_)
    | with_reducible apply Kept.trans ?_ (State.sendPlantCuts_kept _ _)
    | intro _

theorem execTrendEnd_kept (t : Nat) (branch : Nat) (s : State) :
    ∃ z, execTrendEnd t branch s = .next z ∧ Kept s z := by
  unfold execTrendEnd
  refine ⟨_, rfl, ?_⟩
  try dsimp only
  repeat'
    first
    | with_reducible exact Kept.refl _
    | with_reducible assumption
    | with_reducible apply Kept.trans ?_ (State.at_kept _ _)
    | with_reducible apply Kept.trans ?_ (State.when_kept _ _ _ ?_)
    | with_reducible apply Kept.trans ?_ (State.latchEnd_kept _ _ _ _ _)
    | with_reducible apply Kept.trans ?_ (State.putBranch_kept _ _ _)
    | simp only [Kept.mk_iff, Kept.dict_iff, Kept.recorder_iff]
    | intro _
    | split

theorem execFlowRecovery_kept (t : Nat) (branch : Nat) (s : State) :
    ∃ z, execFlowRecovery t branch s = .next z ∧ Kept s z := by
  unfold execFlowRecovery
  refine ⟨_, rfl, ?_⟩
  try dsimp only
  repeat'
    first
    | with_reducible exact Kept.refl _
    | with_reducible assumption
    | with_reducible apply Kept.trans ?_ (State.at_kept _ _)
    | with_reducible apply Kept.trans ?_ (State.when_kept _ _ _ ?_)
    | with_reducible apply Kept.trans ?_ (State.putBranch_kept _ _ _)
    | simp only [Kept.mk_iff, Kept.dict_iff, Kept.recorder_iff]
    | intro _
    | split

theorem execPlantClassLift_kept (t : Nat) (branch : Nat) (s : State) :
    ∃ z, execPlantClassLift t branch s = .next z ∧ Kept s z := by
  unfold execPlantClassLift
  refine ⟨_, rfl, ?_⟩
  try dsimp only
  repeat'
    first
    | with_reducible exact Kept.refl _
    | with_reducible assumption
    | with_reducible apply Kept.trans ?_ (State.at_kept _ _)
    | with_reducible apply Kept.trans ?_ (State.when_kept _ _ _ ?_)
    | with_reducible apply Kept.trans ?_ (State.mapGuest_kept _ _ _)
    | with_reducible apply Kept.trans ?_ (State.putBranch_kept _ _ _)
    | simp only [Kept.mk_iff, Kept.dict_iff, Kept.recorder_iff]
    | intro _
    | split
    | with_reducible apply Kept.trans ?_ (Kept.foldl ?_ _ _)
    | with_reducible apply Kept.trans ?_ (Kept.foldl_fst ?_ _ _)

end Sys2Proof.Machine
end

