-- ==== Sys2Proof/Laws/KeptCooling.lean ====
section
/-! SUPPORT. What the operations and the meanings of `Machine/Cooling.lean` keep (see `Laws/Kept.lean`). -/

namespace Sys2Proof.Machine

open Sys2Proof

theorem State.coolQuarantine_kept (s : State) (k : Nat) :
    Kept s (State.coolQuarantine s k) := by
  unfold State.coolQuarantine
  repeat'
    first
    | with_reducible exact Kept.refl _
    | with_reducible apply Kept.trans ?_ (State.set_kept _ _ _)
    | with_reducible apply Kept.trans ?_ (State.latch_kept _ _ _ _)

theorem State.coolPairs_kept (s : State) (x : TickIn) :
    Kept s (State.coolPairs s x) := by
  unfold State.coolPairs
  repeat'
    first
    | with_reducible exact Kept.refl _
    | with_reducible apply Kept.trans ?_ (State.coolQuarantine_kept _ _)
    | simp only [Kept.mk_iff, Kept.dict_iff, Kept.recorder_iff]
    | intro _
    | split
    | with_reducible apply Kept.trans ?_ (Kept.foldl ?_ _ _)

theorem State.refreshCeiling_kept (s : State) :
    Kept s (State.refreshCeiling s) := by
  unfold State.refreshCeiling
  repeat'
    first
    | with_reducible exact Kept.refl _
    | with_reducible apply Kept.trans ?_ (State.set_kept _ _ _)

theorem State.coolGuard_kept (s : State) (inlet : Int) (die : Int) :
    Kept s (State.coolGuard s inlet die) := by
  unfold State.coolGuard
  repeat'
    first
    | with_reducible exact Kept.refl _
    | with_reducible apply Kept.trans ?_ (State.latchOpen_kept _ _ _ _)
    | with_reducible apply Kept.trans ?_ (State.latchEnd_kept _ _ _ _ _)
    | with_reducible apply Kept.trans ?_ (State.refreshCeiling_kept _)
    | simp only [Kept.mk_iff, Kept.dict_iff, Kept.recorder_iff]
    | split

theorem State.coolingTick_kept (s : State) (x : TickIn) :
    Kept s (State.coolingTick s x) := by
  unfold State.coolingTick
  try dsimp only
  repeat'
    first
    | with_reducible exact Kept.refl _
    | with_reducible assumption
    | with_reducible apply Kept.trans ?_ (State.set_kept _ _ _)
    | with_reducible apply Kept.trans ?_ (State.putQuantity_kept _ _ _ _)
    | with_reducible apply Kept.trans ?_ (State.coolPairs_kept _ _)
    | with_reducible apply Kept.trans ?_ (State.coolGuard_kept _ _ _)
    | simp only [Kept.mk_iff, Kept.dict_iff, Kept.recorder_iff]
    | intro _
    | split

theorem execDieOvertempError_kept (t : Nat) (s : State) : ∃ z, execDieOvertempError t s = .next z ∧ Kept s z := by
  unfold execDieOvertempError
  refine ⟨_, rfl, ?_⟩
  repeat'
    first
    | with_reducible exact Kept.refl _
    | with_reducible apply Kept.trans ?_ (State.at_kept _ _)
    | with_reducible apply Kept.trans ?_ (State.when_kept _ _ _ ?_)
    | with_reducible apply Kept.trans ?_ (State.enterRest_kept _ _)
    | intro _

end Sys2Proof.Machine
end

