-- ==== Sys2Proof/Laws/KeptStartSeq.lean ====
section
/-! SUPPORT. What the operations and the meanings of `Machine/StartSeq.lean` keep (see `Laws/Kept.lean`). -/

namespace Sys2Proof.Machine

open Sys2Proof

theorem State.fanFull_kept (s : State) (c : Nat) :
    Kept s (State.fanFull s c) := by
  unfold State.fanFull
  repeat'
    first
    | with_reducible exact Kept.refl _
    | with_reducible apply Kept.trans ?_ (State.putFan_kept _ _ _)
    | with_reducible apply Kept.trans ?_ (State.setFanState_kept _ _ _)
    | with_reducible apply Kept.trans ?_ (State.setVolts_kept _ _ _)
    | split

theorem State.chipReset_kept (s : State) : Kept s (State.chipReset s) := by
  unfold State.chipReset
  refine Kept.trans ?_ (State.set_kept _ _ _)
  exact ⟨Nat.le_refl _, rfl, fun _ => rfl⟩

theorem State.restartFrom2_kept (s : State) (cause : Nat) :
    Kept s (State.restartFrom2 s cause) := by
  unfold State.restartFrom2
  repeat'
    first
    | with_reducible exact Kept.refl _
    | with_reducible apply Kept.trans ?_ (State.beginStep_kept _ _)
    | with_reducible apply Kept.trans ?_ (State.fanFull_kept _ _)
    | with_reducible apply Kept.trans ?_ (State.chipReset_kept _)
    | simp only [Kept.mk_iff, Kept.dict_iff, Kept.recorder_iff]
    | intro _
    | with_reducible apply Kept.trans ?_ (Kept.foldl ?_ _ _)

theorem State.readLedger_kept (s : State) (life : AMap Life) :
    Kept s (State.readLedger s life) := by
  unfold State.readLedger
  repeat'
    first
    | with_reducible exact Kept.refl _
    | simp only [Kept.mk_iff, Kept.dict_iff, Kept.recorder_iff]

theorem State.startUnit_kept (s : State) (row : Nat) (role : Nat) (serves : Nat) (leftOut : Bool) :
    Kept s (State.startUnit s row role serves leftOut) := by
  unfold State.startUnit
  repeat'
    first
    | with_reducible exact Kept.refl _
    | with_reducible apply Kept.trans ?_ (State.putUnit_kept _ _ _)

theorem State.startPass_kept (s : State) (row : Nat) :
    Kept s (State.startPass s row) := by
  unfold State.startPass
  repeat'
    first
    | with_reducible exact Kept.refl _
    | with_reducible apply Kept.trans ?_ (State.when_kept _ _ _ ?_)
    | with_reducible apply Kept.trans ?_ (State.inc_kept _ _)
    | with_reducible apply Kept.trans ?_ (State.putUnit_kept _ _ _)
    | intro _

theorem State.startMismatch_kept (s : State) (row : Nat) :
    Kept s (State.startMismatch s row) := by
  unfold State.startMismatch
  repeat'
    first
    | with_reducible exact Kept.refl _
    | with_reducible apply Kept.trans ?_ (State.when_kept _ _ _ ?_)
    | with_reducible apply Kept.trans ?_ (State.inc_kept _ _)
    | with_reducible apply Kept.trans ?_ (State.latch_kept _ _ _ _)
    | with_reducible apply Kept.trans ?_ (State.putDiary_kept _ _)
    | with_reducible apply Kept.trans ?_ (State.putUnit_kept _ _ _)
    | with_reducible apply Kept.trans ?_ (State.retire_kept _ _ _)
    | intro _

theorem State.useAlternative_kept (s : State) (step : Nat) :
    Kept s (State.useAlternative s step) := by
  unfold State.useAlternative
  repeat'
    first
    | with_reducible exact Kept.refl _
    | with_reducible apply Kept.trans ?_ (State.putDiary_kept _ _)

theorem State.leaveOut_kept (s : State) (k : Nat) (step : Nat) :
    Kept s (State.leaveOut s k step) := by
  unfold State.leaveOut
  try dsimp only
  repeat'
    first
    | with_reducible exact Kept.refl _
    | with_reducible assumption
    | with_reducible apply Kept.trans ?_ (State.startUnit_kept _ _ _ _ _)
    | with_reducible apply Kept.trans ?_ (State.useAlternative_kept _ _)
    | simp only [Kept.mk_iff, Kept.dict_iff, Kept.recorder_iff]
    | intro _
    | split
    | with_reducible apply Kept.trans ?_ (Kept.foldl ?_ _ _)
    | with_reducible apply Kept.trans ?_ (Kept.foldl_fst ?_ _ _)

theorem State.takeRoles_kept (s : State) (pass : List Nat) (n : Nat) (serves : Nat → Nat) :
    Kept s (State.takeRoles s pass n serves) := by
  unfold State.takeRoles
  repeat'
    first
    | with_reducible exact Kept.refl _
    | with_reducible apply Kept.trans ?_ (State.startUnit_kept _ _ _ _ _)
    | intro _
    | with_reducible apply Kept.trans ?_ (Kept.foldl ?_ _ _)

theorem State.sendBoot_kept (s : State) (dst : Nat) (dport : Nat) (ty : Nat) (body : Bytes) :
    Kept s (State.sendBoot s dst dport ty body) := by
  unfold State.sendBoot
  repeat'
    first
    | with_reducible exact Kept.refl _
    | with_reducible apply Kept.trans ?_ (State.send_kept _ _)

theorem State.sendRead_kept (s : State) (r : BootRead) :
    Kept s (State.sendRead s r) := by
  unfold State.sendRead
  repeat'
    first
    | with_reducible exact Kept.refl _
    | with_reducible apply Kept.trans ?_ (State.sendBoot_kept _ _ _ _ _)
    | split

theorem State.issueReads_kept (s : State) (len n : Nat) : Kept s (State.issueReads s len n) := by
  induction n generalizing s with
  | zero => exact Kept.refl s
  | succ n ih =>
    unfold State.issueReads
    lift_lets
    extract_lets
    split
    · exact Kept.refl s
    · refine Kept.trans ?_ (ih _)
      refine Kept.trans ?_ (State.sendRead_kept _ _)
      exact Kept.of_same rfl rfl rfl rfl rfl

theorem State.sendResult_kept (s : State) (result : Nat) (step : Nat) :
    Kept s (State.sendResult s result step) := by
  unfold State.sendResult
  repeat'
    first
    | with_reducible exact Kept.refl _
    | with_reducible apply Kept.trans ?_ (State.sendBoot_kept _ _ _ _ _)
    | split

theorem State.dropAttempt_kept (s : State) (next : Nat) :
    Kept s (State.dropAttempt s next) := by
  unfold State.dropAttempt
  repeat'
    first
    | with_reducible exact Kept.refl _
    | simp only [Kept.mk_iff, Kept.dict_iff, Kept.recorder_iff]

theorem State.refuseImage_kept (s : State) (result : Nat) (step : Nat) :
    Kept s (State.refuseImage s result step) := by
  unfold State.refuseImage
  repeat'
    first
    | with_reducible exact Kept.refl _
    | with_reducible apply Kept.trans ?_ (State.putDiary_kept _ _)
    | with_reducible apply Kept.trans ?_ (State.beginStep_kept _ _)
    | with_reducible apply Kept.trans ?_ (State.sendResult_kept _ _ _)
    | with_reducible apply Kept.trans ?_ (State.dropAttempt_kept _ _)
    | simp only [Kept.mk_iff, Kept.dict_iff, Kept.recorder_iff]
    | split

theorem State.startStack_kept (s : State) (k : Nat) (x : StackStart) :
    Kept s (State.startStack s k x) := by
  unfold State.startStack
  try dsimp only
  repeat'
    first
    | with_reducible exact Kept.refl _
    | with_reducible assumption
    | with_reducible apply Kept.trans ?_ (State.set_kept _ _ _)
    | with_reducible apply Kept.trans ?_ (State.setU_kept _ _ _ _)
    | with_reducible apply Kept.trans ?_ (State.latch_kept _ _ _ _)
    | with_reducible apply Kept.trans ?_ (State.take_kept _ _)
    | with_reducible apply Kept.trans ?_ (State.noteFailure_kept _ _)
    | with_reducible apply Kept.trans ?_ (State.fenceRegion_kept _ _)
    | with_reducible apply Kept.trans ?_ (State.setSlotChan_kept _ _ _ _)
    | with_reducible apply Kept.trans ?_ (State.startUnit_kept _ _ _ _ _)
    | simp only [Kept.mk_iff, Kept.dict_iff, Kept.recorder_iff]
    | intro _
    | split
    | with_reducible apply Kept.trans ?_ (Kept.foldl ?_ _ _)
    | with_reducible apply Kept.trans ?_ (Kept.foldl_fst ?_ _ _)

theorem State.homeRoles_kept (s : State) (k : Nat) (serves : Bool) :
    Kept s (State.homeRoles s k serves) := by
  unfold State.homeRoles
  repeat'
    first
    | with_reducible exact Kept.refl _
    | with_reducible apply Kept.trans ?_ (State.takeRoles_kept _ _ _ _)

theorem State.showOutputs_kept (s : State) (k : Nat) (e : Ent) :
    Kept s (State.showOutputs s k e) := by
  unfold State.showOutputs
  repeat'
    first
    | with_reducible exact Kept.refl _
    | with_reducible apply Kept.trans ?_ (State.setU_kept _ _ _ _)
    | intro _
    | with_reducible apply Kept.trans ?_ (Kept.foldl ?_ _ _)

theorem State.imageEntries_kept (s : State) (f : Bytes) :
    Kept s (State.imageEntries s f) := by
  unfold State.imageEntries
  repeat'
    first
    | with_reducible exact Kept.refl _
    | with_reducible apply Kept.trans ?_ (State.set_kept _ _ _)
    | with_reducible apply Kept.trans ?_ (State.setU_kept _ _ _ _)
    | simp only [Kept.mk_iff, Kept.dict_iff, Kept.recorder_iff]
    | intro _
    | split
    | with_reducible apply Kept.trans ?_ (Kept.foldl ?_ _ _)

theorem State.loadRow_kept (s : State) (form : Bytes) :
    Kept s (State.loadRow s form) := by
  unfold State.loadRow
  repeat'
    first
    | with_reducible exact Kept.refl _
    | with_reducible apply Kept.trans ?_ (State.setU_kept _ _ _ _)
    | with_reducible apply Kept.trans ?_ (State.resetHingeEntries_kept _ _ _)
    | simp only [Kept.mk_iff, Kept.dict_iff, Kept.recorder_iff]

theorem State.startLatches_kept (s : State) :
    Kept s (State.startLatches s) := by
  unfold State.startLatches
  try dsimp only
  repeat'
    first
    | with_reducible exact Kept.refl _
    | with_reducible assumption
    | with_reducible apply Kept.trans ?_ (State.when_kept _ _ _ ?_)
    | with_reducible apply Kept.trans ?_ (State.latch_kept _ _ _ _)
    | simp only [Kept.mk_iff, Kept.dict_iff, Kept.recorder_iff]
    | intro _
    | split
    | with_reducible apply Kept.trans ?_ (Kept.foldl ?_ _ _)
    | with_reducible apply Kept.trans ?_ (Kept.foldl_fst ?_ _ _)

theorem State.firmwareRuns_kept (s : State) : Kept s (State.firmwareRuns s) := by
  unfold State.firmwareRuns
  lift_lets
  extract_lets f s1 s2 s3 s4 s5 r5 d5 i5 s6 running s7 s8 gasp s9 s10 s11 s12 s13
  have h1 : Kept s s1 := State.imageEntries_kept _ _
  have h2 : Kept s s2 := ((((h1.trans (State.homeRoles_kept _ _ _)).trans (State.homeRoles_kept _ _ _)).trans
    (State.homeRoles_kept _ _ _)).trans (State.homeRoles_kept _ _ _)).trans (State.homeRoles_kept _ _ _)
  have h3 : Kept s s3 := ((h2.trans (State.showOutputs_kept _ _ _)).trans (State.showOutputs_kept _ _ _)).trans
    (State.showOutputs_kept _ _ _)
  have h4 : Kept s s4 := h3.trans (State.setU_kept _ _ _ _)
  have h5 : Kept s s5 := h4.trans (Kept.foldl (fun _ _ => State.refreshKind_kept _ _) _ _)
  clear_value s5
  have h6 : Kept s s6 := h5.trans (Kept.of_lists rfl rfl rfl rfl rfl rfl rfl rfl rfl)
  have h7 : Kept s s7 := h6.trans (State.set_kept _ _ _)
  have h8 : Kept s s8 := h7.trans (State.startLatches_kept _)
  have h9 : Kept s s9 := h8.trans (State.set_kept _ _ _)
  have h10 : Kept s s10 := by
    refine h9.trans (Kept.foldl (fun u c => ?_) _ _)
    extract_lets st
    split
    · rename_i hr
      exact Kept.of_recorder rfl rfl rfl rfl fun h => Recorder.bounded_stage h hr _ rfl rfl
    · exact State.condLost_kept _ _
  have h11 : Kept s s11 := by
    unfold s11
    generalize gasp.isEmpty = b
    split
    · exact h10
    · exact h10.trans (State.latch_kept _ _ _ _)
  have h12 : Kept s s12 := h11.trans (State.loadRow_kept _ _)
  have h13 : Kept s s13 := h12.trans (State.reserve_kept _ _)
  exact (h13.trans (State.refreshStore_kept _)).trans (State.refreshArrays_kept _)

theorem State.copyToFram_kept (s : State) :
    Kept s (State.copyToFram s) := by
  unfold State.copyToFram
  repeat'
    first
    | with_reducible exact Kept.refl _
    | simp only [Kept.mk_iff, Kept.dict_iff, Kept.recorder_iff]

theorem execPowerGood_kept (t : Nat) (s : State) : ∃ z, execPowerGood t s = .next z ∧ Kept s z := by
  unfold execPowerGood
  refine ⟨_, rfl, ?_⟩
  try dsimp only
  repeat'
    first
    | with_reducible exact Kept.refl _
    | with_reducible assumption
    | with_reducible apply Kept.trans ?_ (State.at_kept _ _)
    | with_reducible apply Kept.trans ?_ (State.when_kept _ _ _ ?_)
    | with_reducible apply Kept.trans ?_ (State.beginStep_kept _ _)
    | with_reducible apply Kept.trans ?_ (State.fanFull_kept _ _)
    | with_reducible apply Kept.trans ?_ (State.chipReset_kept _)
    | simp only [Kept.mk_iff, Kept.dict_iff, Kept.recorder_iff]
    | intro _
    | split

theorem execFanPowerUpStagger_kept (t : Nat) (s : State) : ∃ z, execFanPowerUpStagger t s = .next z ∧ Kept s z := by
  unfold execFanPowerUpStagger
  refine ⟨_, rfl, ?_⟩
  try dsimp only
  repeat'
    first
    | with_reducible exact Kept.refl _
    | with_reducible assumption
    | with_reducible apply Kept.trans ?_ (State.at_kept _ _)
    | with_reducible apply Kept.trans ?_ (State.when_kept _ _ _ ?_)
    | with_reducible apply Kept.trans ?_ (State.fanFull_kept _ _)
    | simp only [Kept.mk_iff, Kept.dict_iff, Kept.recorder_iff]
    | intro _
    | split

theorem execBootRomAndFuses_kept (t : Nat) (ok : Bool) (s : State) :
    ∃ z, execBootRomAndFuses t ok s = .next z ∧ Kept s z := by
  unfold execBootRomAndFuses
  refine ⟨_, rfl, ?_⟩
  try dsimp only
  repeat'
    first
    | with_reducible exact Kept.refl _
    | with_reducible assumption
    | with_reducible apply Kept.trans ?_ (State.at_kept _ _)
    | with_reducible apply Kept.trans ?_ (State.when_kept _ _ _ ?_)
    | with_reducible apply Kept.trans ?_ (State.set_kept _ _ _)
    | with_reducible apply Kept.trans ?_ (State.endStep_kept _ _)
    | with_reducible apply Kept.trans ?_ (State.failStep_kept _ _ _)
    | simp only [Kept.mk_iff, Kept.dict_iff, Kept.recorder_iff]
    | intro _
    | split

theorem execFramRead_kept (t : Nat) (ok lifeOk : Bool) (s : State) :
    ∃ z, execFramRead t ok lifeOk s = .next z ∧ Kept s z := by
  unfold execFramRead
  refine ⟨_, rfl, ?_⟩
  dsimp only
  refine (State.at_kept s t).trans (State.when_kept' fun _ => ?_)
  generalize State.at s t = u
  split
  · refine Kept.trans ?_ (State.endStep_kept _ _)
    refine Kept.trans ?_ (State.readLedger_kept _ _)
    refine Kept.trans ?_ (State.set_kept _ _ _)
    refine Kept.trans ?_ (State.set_kept _ _ _)
    refine Kept.of_regs rfl rfl (fun h => ?_) rfl rfl
    exact AMap.wf_foldl _ (fun m b h => AMap.wf_set h _ _) _ _ h
  · simp only [Kept.mk_iff]
    refine Kept.trans ?_ (State.endStep_kept _ _)
    refine Kept.trans ?_ (State.readLedger_kept _ _)
    refine Kept.trans ?_ (State.set_kept _ _ _)
    refine Kept.trans ?_ (State.set_kept _ _ _)
    simp only [Kept.mk_iff]
    exact State.drawn_kept _

theorem execHubAndKeepersBist_kept (t : Nat) (hubOk : Bool) (keepersPass : List Nat) (s : State) :
    ∃ z, execHubAndKeepersBist t hubOk keepersPass s = .next z ∧ Kept s z := by
  unfold execHubAndKeepersBist
  refine ⟨_, rfl, ?_⟩
  try dsimp only
  repeat'
    first
    | with_reducible exact Kept.refl _
    | with_reducible assumption
    | with_reducible apply Kept.trans ?_ (State.at_kept _ _)
    | with_reducible apply Kept.trans ?_ (State.when_kept _ _ _ ?_)
    | with_reducible apply Kept.trans ?_ (State.endStep_kept _ _)
    | with_reducible apply Kept.trans ?_ (State.failStep_kept _ _ _)
    | with_reducible apply Kept.trans ?_ (State.startPass_kept _ _)
    | with_reducible apply Kept.trans ?_ (State.startMismatch_kept _ _)
    | with_reducible apply Kept.trans ?_ (State.leaveOut_kept _ _ _)
    | with_reducible apply Kept.trans ?_ (State.takeRoles_kept _ _ _ _)
    | simp only [Kept.mk_iff, Kept.dict_iff, Kept.recorder_iff]
    | intro _
    | split
    | with_reducible apply Kept.trans ?_ (Kept.foldl ?_ _ _)
    | with_reducible apply Kept.trans ?_ (Kept.foldl_fst ?_ _ _)

theorem execArrayGroupPower_kept (t : Nat) (s : State) : ∃ z, execArrayGroupPower t s = .next z ∧ Kept s z := by
  unfold execArrayGroupPower
  refine ⟨_, rfl, ?_⟩
  try dsimp only
  repeat'
    first
    | with_reducible exact Kept.refl _
    | with_reducible assumption
    | with_reducible apply Kept.trans ?_ (State.at_kept _ _)
    | with_reducible apply Kept.trans ?_ (State.when_kept _ _ _ ?_)
    | simp only [Kept.mk_iff, Kept.dict_iff, Kept.recorder_iff]
    | intro _
    | split

theorem execArraysBist_kept (t : Nat) (pass : List Nat) (s : State) :
    ∃ z, execArraysBist t pass s = .next z ∧ Kept s z := by
  unfold execArraysBist
  refine ⟨_, rfl, ?_⟩
  try dsimp only
  repeat'
    first
    | with_reducible exact Kept.refl _
    | with_reducible assumption
    | with_reducible apply Kept.trans ?_ (State.at_kept _ _)
    | with_reducible apply Kept.trans ?_ (State.when_kept _ _ _ ?_)
    | with_reducible apply Kept.trans ?_ (State.set_kept _ _ _)
    | with_reducible apply Kept.trans ?_ (State.endStep_kept _ _)
    | with_reducible apply Kept.trans ?_ (State.failStep_kept _ _ _)
    | with_reducible apply Kept.trans ?_ (State.refreshArrays_kept _)
    | with_reducible apply Kept.trans ?_ (State.startUnit_kept _ _ _ _ _)
    | with_reducible apply Kept.trans ?_ (State.startPass_kept _ _)
    | with_reducible apply Kept.trans ?_ (State.startMismatch_kept _ _)
    | with_reducible apply Kept.trans ?_ (State.useAlternative_kept _ _)
    | with_reducible apply Kept.trans ?_ (State.takeRoles_kept _ _ _ _)
    | simp only [Kept.mk_iff, Kept.dict_iff, Kept.recorder_iff]
    | intro _
    | split
    | with_reducible apply Kept.trans ?_ (Kept.foldl ?_ _ _)
    | with_reducible apply Kept.trans ?_ (Kept.foldl_fst ?_ _ _)

theorem execIocLinkStart_kept (t : Nat) (lanesFail : List Nat) (s : State) :
    ∃ z, execIocLinkStart t lanesFail s = .next z ∧ Kept s z := by
  unfold execIocLinkStart
  refine ⟨_, rfl, ?_⟩
  try dsimp only
  repeat'
    first
    | with_reducible exact Kept.refl _
    | with_reducible assumption
    | with_reducible apply Kept.trans ?_ (State.at_kept _ _)
    | with_reducible apply Kept.trans ?_ (State.when_kept _ _ _ ?_)
    | with_reducible apply Kept.trans ?_ (State.endStep_kept _ _)
    | with_reducible apply Kept.trans ?_ (State.failStep_kept _ _ _)
    | with_reducible apply Kept.trans ?_ (State.noteFailure_kept _ _)
    | with_reducible apply Kept.trans ?_ (State.portBegin_kept _)
    | with_reducible apply Kept.trans ?_ (State.startUnit_kept _ _ _ _ _)
    | with_reducible apply Kept.trans ?_ (State.leaveOut_kept _ _ _)
    | with_reducible apply Kept.trans ?_ (State.takeRoles_kept _ _ _ _)
    | simp only [Kept.mk_iff, Kept.dict_iff, Kept.recorder_iff]
    | intro _
    | split
    | with_reducible apply Kept.trans ?_ (Kept.foldl ?_ _ _)
    | with_reducible apply Kept.trans ?_ (Kept.foldl_fst ?_ _ _)

theorem execBootRequest_kept (t : Nat) (s : State) : ∃ z, execBootRequest t s = .next z ∧ Kept s z := by
  unfold execBootRequest
  refine ⟨_, rfl, ?_⟩
  try dsimp only
  repeat'
    first
    | with_reducible exact Kept.refl _
    | with_reducible assumption
    | with_reducible apply Kept.trans ?_ (State.at_kept _ _)
    | with_reducible apply Kept.trans ?_ (State.when_kept _ _ _ ?_)
    | with_reducible apply Kept.trans ?_ (State.drawn_kept _)
    | with_reducible apply Kept.trans ?_ (State.offer_kept _ _)
    | with_reducible apply Kept.trans ?_ (State.sendBoot_kept _ _ _ _ _)
    | simp only [Kept.mk_iff, Kept.dict_iff, Kept.recorder_iff]
    | intro _
    | split

theorem execBootOffer_kept (t : Nat) (rx : Rx) (s : State) : ∃ z, execBootOffer t rx s = .next z ∧ Kept s z := by
  unfold execBootOffer
  refine ⟨_, rfl, ?_⟩
  dsimp only
  refine (State.at_kept s t).trans (State.when_kept' fun _ => ?_)
  refine (State.take_kept _ rx).trans ?_
  split
  · refine Kept.trans ?_ (State.refuseImage_kept _ _ _)
    exact Kept.of_same rfl rfl rfl rfl rfl
  · refine Kept.trans ?_ (State.issueReads_kept _ _ _)
    simp only [Kept.mk_iff]
    exact Kept.refl _

theorem execBootData_kept (t : Nat) (rx : Rx) (s : State) : ∃ z, execBootData t rx s = .next z ∧ Kept s z := by
  unfold execBootData
  refine ⟨_, rfl, ?_⟩
  dsimp only
  refine ((State.at_kept s t).trans (State.take_kept _ rx)).trans ?_
  generalize (State.at s t).take rx = u
  split
  · exact Kept.refl u
  · split
    · exact Kept.refl u
    · refine State.when_kept' fun _ => ?_
      split
      · refine Kept.trans ?_ (State.endStep_kept _ _)
        simp only [Kept.mk_iff]
        refine Kept.trans ?_ (State.issueReads_kept _ _ _)
        exact Kept.of_same rfl rfl rfl rfl rfl
      · refine Kept.trans ?_ (State.issueReads_kept _ _ _)
        exact Kept.of_same rfl rfl rfl rfl rfl

theorem execBootReadTimeout_kept (t : Nat) (offset : Nat) (s : State) :
    ∃ z, execBootReadTimeout t offset s = .next z ∧ Kept s z := by
  unfold execBootReadTimeout
  refine ⟨_, rfl, ?_⟩
  try dsimp only
  repeat'
    first
    | with_reducible exact Kept.refl _
    | with_reducible assumption
    | with_reducible apply Kept.trans ?_ (State.at_kept _ _)
    | with_reducible apply Kept.trans ?_ (State.when_kept _ _ _ ?_)
    | with_reducible apply Kept.trans ?_ (State.sendRead_kept _ _)
    | with_reducible apply Kept.trans ?_ (State.dropAttempt_kept _ _)
    | simp only [Kept.mk_iff, Kept.dict_iff, Kept.recorder_iff]
    | intro _
    | split

theorem execImageCheck_kept (t : Nat) (s : State) : ∃ z, execImageCheck t s = .next z ∧ Kept s z := by
  unfold execImageCheck
  refine ⟨_, rfl, ?_⟩
  try dsimp only
  repeat'
    first
    | with_reducible exact Kept.refl _
    | with_reducible assumption
    | with_reducible apply Kept.trans ?_ (State.at_kept _ _)
    | with_reducible apply Kept.trans ?_ (State.when_kept _ _ _ ?_)
    | with_reducible apply Kept.trans ?_ (State.putDiary_kept _ _)
    | with_reducible apply Kept.trans ?_ (State.beginStep_kept _ _)
    | with_reducible apply Kept.trans ?_ (State.endStep_kept _ _)
    | with_reducible apply Kept.trans ?_ (State.offer_kept _ _)
    | with_reducible apply Kept.trans ?_ (State.refuseImage_kept _ _ _)
    | simp only [Kept.mk_iff, Kept.dict_iff, Kept.recorder_iff]
    | intro _
    | split

theorem execStacksStart_kept (t : Nat) (found : List StackStart) (s : State) :
    ∃ z, execStacksStart t found s = .next z ∧ Kept s z := by
  unfold execStacksStart
  refine ⟨_, rfl, ?_⟩
  try dsimp only
  repeat'
    first
    | with_reducible exact Kept.refl _
    | with_reducible assumption
    | with_reducible apply Kept.trans ?_ (State.at_kept _ _)
    | with_reducible apply Kept.trans ?_ (State.when_kept _ _ _ ?_)
    | with_reducible apply Kept.trans ?_ (State.set_kept _ _ _)
    | with_reducible apply Kept.trans ?_ (State.setU_kept _ _ _ _)
    | with_reducible apply Kept.trans ?_ (State.endStep_kept _ _)
    | with_reducible apply Kept.trans ?_ (State.startUnit_kept _ _ _ _ _)
    | with_reducible apply Kept.trans ?_ (State.useAlternative_kept _ _)
    | with_reducible apply Kept.trans ?_ (State.leaveOut_kept _ _ _)
    | with_reducible apply Kept.trans ?_ (State.startStack_kept _ _ _)
    | simp only [Kept.mk_iff, Kept.dict_iff, Kept.recorder_iff]
    | intro _
    | split
    | with_reducible apply Kept.trans ?_ (Kept.foldl ?_ _ _)
    | with_reducible apply Kept.trans ?_ (Kept.foldl_fst ?_ _ _)

theorem execFirmwareStart_kept (t : Nat) (iocOk : Bool) (s : State) :
    ∃ z, execFirmwareStart t iocOk s = .next z ∧ Kept s z := by
  unfold execFirmwareStart
  refine ⟨_, rfl, ?_⟩
  try dsimp only
  repeat'
    first
    | with_reducible exact Kept.refl _
    | with_reducible assumption
    | with_reducible apply Kept.trans ?_ (State.at_kept _ _)
    | with_reducible apply Kept.trans ?_ (State.when_kept _ _ _ ?_)
    | with_reducible apply Kept.trans ?_ (State.putDiary_kept _ _)
    | with_reducible apply Kept.trans ?_ (State.endStep_kept _ _)
    | with_reducible apply Kept.trans ?_ (State.sendResult_kept _ _ _)
    | with_reducible apply Kept.trans ?_ (State.refuseImage_kept _ _ _)
    | with_reducible apply Kept.trans ?_ (State.firmwareRuns_kept _)
    | simp only [Kept.mk_iff, Kept.dict_iff, Kept.recorder_iff]
    | intro _
    | split

theorem execIocUnitsBist_kept (t : Nat) (portsFail : List Nat) (ainFail : List Nat) (s : State) :
    ∃ z, execIocUnitsBist t portsFail ainFail s = .next z ∧ Kept s z := by
  unfold execIocUnitsBist
  refine ⟨_, rfl, ?_⟩
  try dsimp only
  repeat'
    first
    | with_reducible exact Kept.refl _
    | with_reducible assumption
    | with_reducible apply Kept.trans ?_ (State.at_kept _ _)
    | with_reducible apply Kept.trans ?_ (State.when_kept _ _ _ ?_)
    | with_reducible apply Kept.trans ?_ (State.latch_kept _ _ _ _)
    | with_reducible apply Kept.trans ?_ (State.putDiary_kept _ _)
    | with_reducible apply Kept.trans ?_ (State.endStep_kept _ _)
    | with_reducible apply Kept.trans ?_ (State.refreshKind_kept _ _)
    | with_reducible apply Kept.trans ?_ (State.fencePort_kept _ _)
    | with_reducible apply Kept.trans ?_ (State.startUnit_kept _ _ _ _ _)
    | with_reducible apply Kept.trans ?_ (State.startPass_kept _ _)
    | with_reducible apply Kept.trans ?_ (State.startMismatch_kept _ _)
    | with_reducible apply Kept.trans ?_ (State.homeRoles_kept _ _ _)
    | with_reducible apply Kept.trans ?_ (State.showOutputs_kept _ _ _)
    | simp only [Kept.mk_iff, Kept.dict_iff, Kept.recorder_iff]
    | intro _
    | split
    | with_reducible apply Kept.trans ?_ (Kept.foldl ?_ _ _)
    | with_reducible apply Kept.trans ?_ (Kept.foldl_fst ?_ _ _)

theorem execArm_kept (t : Nat) (s : State) : ∃ z, execArm t s = .next z ∧ Kept s z := by
  unfold execArm
  refine ⟨_, rfl, ?_⟩
  try dsimp only
  repeat'
    first
    | with_reducible exact Kept.refl _
    | with_reducible assumption
    | with_reducible apply Kept.trans ?_ (State.at_kept _ _)
    | with_reducible apply Kept.trans ?_ (State.when_kept _ _ _ ?_)
    | with_reducible apply Kept.trans ?_ (State.set_kept _ _ _)
    | with_reducible apply Kept.trans ?_ (State.putDiary_kept _ _)
    | with_reducible apply Kept.trans ?_ (State.endStep_kept _ _)
    | with_reducible apply Kept.trans ?_ (State.reserve_kept _ _)
    | with_reducible apply Kept.trans ?_ (State.redeclareLeaks_kept _)
    | with_reducible apply Kept.trans ?_ (State.serve_kept _ _ _ ?_)
    | simp only [Kept.mk_iff, Kept.dict_iff, Kept.recorder_iff]
    | intro _
    | split

theorem execStartTimerExpiry_kept (t : Nat) (s : State) : ∃ z, execStartTimerExpiry t s = .next z ∧ Kept s z := by
  unfold execStartTimerExpiry
  refine ⟨_, rfl, ?_⟩
  try dsimp only
  repeat'
    first
    | with_reducible exact Kept.refl _
    | with_reducible assumption
    | with_reducible apply Kept.trans ?_ (State.at_kept _ _)
    | with_reducible apply Kept.trans ?_ (State.when_kept _ _ _ ?_)
    | with_reducible apply Kept.trans ?_ (State.putDiary_kept _ _)
    | with_reducible apply Kept.trans ?_ (State.restartFrom2_kept _ _)
    | simp only [Kept.mk_iff, Kept.dict_iff, Kept.recorder_iff]
    | intro _
    | split

theorem execRequiredStepRetry_kept (t : Nat) (s : State) : ∃ z, execRequiredStepRetry t s = .next z ∧ Kept s z := by
  unfold execRequiredStepRetry
  refine ⟨_, rfl, ?_⟩
  try dsimp only
  repeat'
    first
    | with_reducible exact Kept.refl _
    | with_reducible assumption
    | with_reducible apply Kept.trans ?_ (State.at_kept _ _)
    | with_reducible apply Kept.trans ?_ (State.when_kept _ _ _ ?_)
    | with_reducible apply Kept.trans ?_ (State.restartFrom2_kept _ _)
    | simp only [Kept.mk_iff, Kept.dict_iff, Kept.recorder_iff]
    | intro _
    | split

theorem execStartCmd_kept (t : Nat) (rx : Rx) (s : State) : ∃ z, execStartCmd t rx s = .next z ∧ Kept s z := by
  unfold execStartCmd
  refine ⟨_, rfl, ?_⟩
  try dsimp only
  repeat'
    first
    | with_reducible exact Kept.refl _
    | with_reducible assumption
    | apply cmdService_kept
    | with_reducible apply Kept.trans ?_ (State.at_kept _ _)
    | with_reducible apply Kept.trans ?_ (State.enterRest_kept _ _)
    | with_reducible apply Kept.trans ?_ (State.serve_kept _ _ _)
    | with_reducible apply Kept.trans ?_ (State.serve_kept _ _ _ ?_)
    | simp only [Kept.mk_iff, Kept.dict_iff, Kept.recorder_iff]
    | intro _
    | split

theorem execRestartReset_kept (t : Nat) (s : State) : ∃ z, execRestartReset t s = .next z ∧ Kept s z := by
  unfold execRestartReset
  refine ⟨_, rfl, ?_⟩
  try dsimp only
  repeat'
    first
    | with_reducible exact Kept.refl _
    | with_reducible assumption
    | with_reducible apply Kept.trans ?_ (State.at_kept _ _)
    | with_reducible apply Kept.trans ?_ (State.when_kept _ _ _ ?_)
    | with_reducible apply Kept.trans ?_ (State.restartFrom2_kept _ _)
    | with_reducible apply Kept.trans ?_ (State.copyToFram_kept _)
    | simp only [Kept.mk_iff, Kept.dict_iff, Kept.recorder_iff]
    | intro _
    | split

end Sys2Proof.Machine
end

