-- ==== Sys2Proof/Laws/KeptElec.lean ====
section
/-! SUPPORT. What the operations and the meanings of `Machine/Elec.lean` keep (see `Laws/Kept.lean`). -/

namespace Sys2Proof.Machine

open Sys2Proof

theorem State.closeFuse_kept (s : State) :
    Kept s (State.closeFuse s) := by
  unfold State.closeFuse
  try dsimp only
  repeat'
    first
    | with_reducible exact Kept.refl _
    | with_reducible assumption
    | with_reducible apply Kept.trans ?_ (State.set_kept _ _ _)
    | with_reducible apply Kept.trans ?_ (State.valvesRegain_kept _)
    | with_reducible apply Kept.trans ?_ (State.fansRegain_kept _)
    | simp only [Kept.mk_iff, Kept.dict_iff, Kept.recorder_iff]
    | intro _
    | split

theorem State.keepInFram_kept (s : State) (e : Ent) (u : Nat) :
    Kept s (State.keepInFram s e u) := by
  unfold State.keepInFram
  repeat'
    first
    | with_reducible exact Kept.refl _
    | simp only [Kept.mk_iff, Kept.dict_iff, Kept.recorder_iff]

theorem State.setKeyState_kept (s : State) (k : Nat) (v : Nat) :
    Kept s (State.setKeyState s k v) := by
  unfold State.setKeyState
  repeat'
    first
    | with_reducible exact Kept.refl _
    | with_reducible apply Kept.trans ?_ (State.setU_kept _ _ _ _)
    | with_reducible apply Kept.trans ?_ (State.latch_kept _ _ _ _)
    | with_reducible apply Kept.trans ?_ (State.keepInFram_kept _ _ _)

theorem execFeedLost_kept (t : Nat) (feed : Nat) (s : State) : ∃ z, execFeedLost t feed s = .next z ∧ Kept s z := by
  unfold execFeedLost
  refine ⟨_, rfl, ?_⟩
  repeat'
    first
    | with_reducible exact Kept.refl _
    | with_reducible apply Kept.trans ?_ (State.at_kept _ _)
    | with_reducible apply Kept.trans ?_ (State.when_kept _ _ _ ?_)
    | with_reducible apply Kept.trans ?_ (State.latch_kept _ _ _ _)
    | intro _

theorem execFeedRange_kept (t : Nat) (feed : Nat) (s : State) : ∃ z, execFeedRange t feed s = .next z ∧ Kept s z := by
  unfold execFeedRange
  refine ⟨_, rfl, ?_⟩
  repeat'
    first
    | with_reducible exact Kept.refl _
    | with_reducible apply Kept.trans ?_ (State.at_kept _ _)
    | with_reducible apply Kept.trans ?_ (State.when_kept _ _ _ ?_)
    | with_reducible apply Kept.trans ?_ (State.latch_kept _ _ _ _)
    | intro _

theorem execLogicPowerLoss_kept (t : Nat) (s : State) : ∃ z, execLogicPowerLoss t s = .next z ∧ Kept s z := by
  unfold execLogicPowerLoss
  refine ⟨_, rfl, ?_⟩
  dsimp only
  refine (State.at_kept s t).trans (State.when_kept' fun _ => ?_)
  have hk (u : State) (r : Bool) (e : Elec) (d : Rainflow) : Kept u { u.chipReset with
      recorder := { gasp := u.recorder.gasp, dieRf := d, running := r }, elec := e } := by
    refine ⟨(State.chipReset_kept u).now, (State.chipReset_kept u).pending, fun h => ?_⟩
    have hc := (State.chipReset_kept u).safe h
    rw [safe_iff] at *
    refine ⟨hc.1, hc.2.1, ?_⟩
    have hg := h.2.2
    simp only [Recorder.bounded, Bool.and_eq_true, decide_eq_true_eq, List.length_nil] at *
    omega
  generalize State.at s t = u
  split
  · exact (State.lastGasp_kept u _ _).trans (hk _ _ _ _)
  · exact hk _ _ _ _

theorem execFramCopyDone_kept (t : Nat) (s : State) : ∃ z, execFramCopyDone t s = .next z ∧ Kept s z := by
  unfold execFramCopyDone
  refine ⟨_, rfl, ?_⟩
  repeat'
    first
    | with_reducible exact Kept.refl _
    | with_reducible apply Kept.trans ?_ (State.at_kept _ _)
    | with_reducible apply Kept.trans ?_ (State.when_kept _ _ _ ?_)
    | with_reducible apply Kept.trans ?_ (State.chipReset_kept _)
    | with_reducible apply Kept.trans ?_ (State.copyToFram_kept _)
    | simp only [Kept.mk_iff, Kept.dict_iff, Kept.recorder_iff]
    | intro _
    | split

theorem execActFuseOpen_kept (t : Nat) (s : State) : ∃ z, execActFuseOpen t s = .next z ∧ Kept s z := by
  unfold execActFuseOpen
  refine ⟨_, rfl, ?_⟩
  repeat'
    first
    | with_reducible exact Kept.refl _
    | with_reducible apply Kept.trans ?_ (State.at_kept _ _)
    | with_reducible apply Kept.trans ?_ (State.when_kept _ _ _ ?_)
    | with_reducible apply Kept.trans ?_ (State.set_kept _ _ _)
    | with_reducible apply Kept.trans ?_ (State.latch_kept _ _ _ _)
    | with_reducible apply Kept.trans ?_ (State.valvesLose_kept _)
    | with_reducible apply Kept.trans ?_ (State.fansLose_kept _)
    | simp only [Kept.mk_iff, Kept.dict_iff, Kept.recorder_iff]
    | intro _

theorem execActFuseReclose_kept (t : Nat) (s : State) : ∃ z, execActFuseReclose t s = .next z ∧ Kept s z := by
  unfold execActFuseReclose
  refine ⟨_, rfl, ?_⟩
  repeat'
    first
    | with_reducible exact Kept.refl _
    | with_reducible apply Kept.trans ?_ (State.at_kept _ _)
    | with_reducible apply Kept.trans ?_ (State.when_kept _ _ _ ?_)
    | with_reducible apply Kept.trans ?_ (State.closeFuse_kept _)
    | intro _

theorem execActCmd_kept (t : Nat) (rx : Rx) (s : State) : ∃ z, execActCmd t rx s = .next z ∧ Kept s z := by
  unfold execActCmd
  refine ⟨_, rfl, ?_⟩
  repeat'
    first
    | with_reducible exact Kept.refl _
    | apply cmdService_kept
    | with_reducible apply Kept.trans ?_ (State.at_kept _ _)
    | with_reducible apply Kept.trans ?_ (State.closeFuse_kept _)
    | with_reducible apply Kept.trans ?_ (State.serve_kept _ _ _ ?_)
    | intro _

theorem execActOverload_kept (t : Nat) (s : State) : ∃ z, execActOverload t s = .next z ∧ Kept s z := by
  unfold execActOverload
  refine ⟨_, rfl, ?_⟩
  repeat'
    first
    | with_reducible exact Kept.refl _
    | with_reducible apply Kept.trans ?_ (State.at_kept _ _)
    | with_reducible apply Kept.trans ?_ (State.when_kept _ _ _ ?_)
    | with_reducible apply Kept.trans ?_ (State.latch_kept _ _ _ _)
    | intro _

theorem execKeyEnrol_kept (t : Nat) (rx : Rx) (s : State) : ∃ z, execKeyEnrol t rx s = .next z ∧ Kept s z := by
  unfold execKeyEnrol
  refine ⟨_, rfl, ?_⟩
  repeat'
    first
    | with_reducible exact Kept.refl _
    | apply cmdService_kept
    | with_reducible apply Kept.trans ?_ (State.at_kept _ _)
    | with_reducible apply Kept.trans ?_ (State.setU_kept _ _ _ _)
    | with_reducible apply Kept.trans ?_ (State.keepInFram_kept _ _ _)
    | with_reducible apply Kept.trans ?_ (State.setKeyState_kept _ _ _)
    | with_reducible apply Kept.trans ?_ (State.serve_kept _ _ _ ?_)
    | intro _

theorem execKeyRevoke_kept (t : Nat) (rx : Rx) (s : State) : ∃ z, execKeyRevoke t rx s = .next z ∧ Kept s z := by
  unfold execKeyRevoke
  refine ⟨_, rfl, ?_⟩
  repeat'
    first
    | with_reducible exact Kept.refl _
    | apply cmdService_kept
    | with_reducible apply Kept.trans ?_ (State.at_kept _ _)
    | with_reducible apply Kept.trans ?_ (State.closeSession_kept _ _)
    | with_reducible apply Kept.trans ?_ (State.setKeyState_kept _ _ _)
    | with_reducible apply Kept.trans ?_ (State.serve_kept _ _ _ ?_)
    | intro _
    | with_reducible apply Kept.trans ?_ (Kept.foldl ?_ _ _)

theorem execFuseSecRaise_kept (t : Nat) (rx : Rx) (s : State) :
    ∃ z, execFuseSecRaise t rx s = .next z ∧ Kept s z := by
  unfold execFuseSecRaise
  refine ⟨_, rfl, ?_⟩
  repeat'
    first
    | with_reducible exact Kept.refl _
    | apply cmdService_kept
    | with_reducible apply Kept.trans ?_ (State.at_kept _ _)
    | with_reducible apply Kept.trans ?_ (State.set_kept _ _ _)
    | with_reducible apply Kept.trans ?_ (State.serve_kept _ _ _ ?_)
    | simp only [Kept.mk_iff, Kept.dict_iff, Kept.recorder_iff]
    | intro _

theorem execFuseKeyRevoke_kept (t : Nat) (rx : Rx) (s : State) :
    ∃ z, execFuseKeyRevoke t rx s = .next z ∧ Kept s z := by
  unfold execFuseKeyRevoke
  refine ⟨_, rfl, ?_⟩
  repeat'
    first
    | with_reducible exact Kept.refl _
    | apply cmdService_kept
    | with_reducible apply Kept.trans ?_ (State.at_kept _ _)
    | with_reducible apply Kept.trans ?_ (State.set_kept _ _ _)
    | with_reducible apply Kept.trans ?_ (State.serve_kept _ _ _ ?_)
    | simp only [Kept.mk_iff, Kept.dict_iff, Kept.recorder_iff]
    | intro _

end Sys2Proof.Machine
end

