-- ==== Sys2Proof/Laws/KeptWear.lean ====
section
/-! SUPPORT. What the operations and the meanings of `Machine/Wear.lean` keep (see `Laws/Kept.lean`). -/

namespace Sys2Proof.Machine

open Sys2Proof

theorem State.resetEntries_kept (s : State) (index : Nat) :
    Kept s (State.resetEntries s index) := by
  unfold State.resetEntries
  repeat'
    first
    | with_reducible exact Kept.refl _
    | with_reducible apply Kept.trans ?_ (State.putKey_kept _ _ _)
    | intro _
    | with_reducible apply Kept.trans ?_ (Kept.foldl ?_ _ _)

theorem State.reinit_kept (s : State) (row : Nat) :
    Kept s (State.reinit s row) := by
  unfold State.reinit
  repeat'
    first
    | with_reducible exact Kept.refl _
    | with_reducible apply Kept.trans ?_ (State.putArr_kept _ _ _)
    | with_reducible apply Kept.trans ?_ (State.putEng_kept _ _ _)
    | with_reducible apply Kept.trans ?_ (State.putValve_kept _ _ _)
    | with_reducible apply Kept.trans ?_ (State.putFan_kept _ _ _)
    | with_reducible apply Kept.trans ?_ (State.putAin_kept _ _ _)
    | with_reducible apply Kept.trans ?_ (State.resetEntries_kept _ _)
    | split

theorem State.keeperWaits_kept (s : State) :
    Kept s (State.keeperWaits s) := by
  unfold State.keeperWaits
  repeat'
    first
    | with_reducible exact Kept.refl _
    | with_reducible apply Kept.trans ?_ (State.enterRest_kept _ _)
    | with_reducible apply Kept.trans ?_ (State.promote_kept _ _ _)
    | simp only [Kept.mk_iff, Kept.dict_iff, Kept.recorder_iff]
    | split

theorem State.ifanSwap_kept (s : State) :
    Kept s (State.ifanSwap s) := by
  unfold State.ifanSwap
  repeat'
    first
    | with_reducible exact Kept.refl _
    | with_reducible apply Kept.trans ?_ (State.putUnit_kept _ _ _)
    | with_reducible apply Kept.trans ?_ (State.setRole_kept _ _ _ _)
    | with_reducible apply Kept.trans ?_ (State.setFanState_kept _ _ _)
    | with_reducible apply Kept.trans ?_ (State.setVolts_kept _ _ _)
    | simp only [Kept.mk_iff, Kept.dict_iff, Kept.recorder_iff]
    | split

theorem State.startTests_kept (s : State) :
    Kept s (State.startTests s) := by
  unfold State.startTests
  try dsimp only
  repeat'
    first
    | with_reducible exact Kept.refl _
    | with_reducible assumption
    | with_reducible apply Kept.trans ?_ (State.startTest_kept _ _ _)
    | with_reducible apply Kept.trans ?_ (State.refreshArrays_kept _)
    | simp only [Kept.mk_iff, Kept.dict_iff, Kept.recorder_iff]
    | intro _
    | split
    | with_reducible apply Kept.trans ?_ (Kept.foldl ?_ _ _)
    | with_reducible apply Kept.trans ?_ (Kept.foldl_fst ?_ _ _)

theorem execBistComplete_kept (t : Nat) (row : Nat) (signature : Nat) (s : State) :
    ∃ z, execBistComplete t row signature s = .next z ∧ Kept s z := by
  unfold execBistComplete
  refine ⟨_, rfl, ?_⟩
  repeat'
    first
    | with_reducible exact Kept.refl _
    | with_reducible apply Kept.trans ?_ (State.at_kept _ _)
    | with_reducible apply Kept.trans ?_ (State.when_kept _ _ _ ?_)
    | with_reducible apply Kept.trans ?_ (State.putUnit_kept _ _ _)
    | intro _

theorem execBistTimeout_kept (t : Nat) (row : Nat) (s : State) :
    ∃ z, execBistTimeout t row s = .next z ∧ Kept s z := by
  unfold execBistTimeout
  refine ⟨_, rfl, ?_⟩
  repeat'
    first
    | with_reducible exact Kept.refl _
    | with_reducible apply Kept.trans ?_ (State.at_kept _ _)
    | with_reducible apply Kept.trans ?_ (State.when_kept _ _ _ ?_)
    | with_reducible apply Kept.trans ?_ (State.putUnit_kept _ _ _)
    | intro _
    | split

theorem execBistResult_kept (t : Nat) (row : Nat) (s : State) : ∃ z, execBistResult t row s = .next z ∧ Kept s z := by
  unfold execBistResult
  refine ⟨_, rfl, ?_⟩
  try dsimp only
  repeat'
    first
    | with_reducible exact Kept.refl _
    | with_reducible assumption
    | with_reducible apply Kept.trans ?_ (State.at_kept _ _)
    | with_reducible apply Kept.trans ?_ (State.when_kept _ _ _ ?_)
    | with_reducible apply Kept.trans ?_ (State.inc_kept _ _)
    | with_reducible apply Kept.trans ?_ (State.latch_kept _ _ _ _)
    | with_reducible apply Kept.trans ?_ (State.refreshKind_kept _ _)
    | with_reducible apply Kept.trans ?_ (State.putUnit_kept _ _ _)
    | with_reducible apply Kept.trans ?_ (State.setRole_kept _ _ _ _)
    | with_reducible apply Kept.trans ?_ (State.retire_kept _ _ _)
    | with_reducible apply Kept.trans ?_ (State.refreshArrays_kept _)
    | with_reducible apply Kept.trans ?_ (State.reinit_kept _ _)
    | with_reducible apply Kept.trans ?_ (State.keeperWaits_kept _)
    | simp only [Kept.mk_iff, Kept.dict_iff, Kept.recorder_iff]
    | intro _
    | split

theorem execSpareRetest_kept (t : Nat) (kind : Nat) (s : State) :
    ∃ z, execSpareRetest t kind s = .next z ∧ Kept s z := by
  unfold execSpareRetest
  refine ⟨_, rfl, ?_⟩
  repeat'
    first
    | with_reducible exact Kept.refl _
    | with_reducible apply Kept.trans ?_ (State.at_kept _ _)
    | with_reducible apply Kept.trans ?_ (State.when_kept _ _ _ ?_)
    | with_reducible apply Kept.trans ?_ (State.putUnit_kept _ _ _)
    | with_reducible apply Kept.trans ?_ (State.startTest_kept _ _ _)
    | with_reducible apply Kept.trans ?_ (State.refreshArrays_kept _)
    | intro _
    | split

theorem execPlannedTest_kept (t : Nat) (kind : Nat) (s : State) :
    ∃ z, execPlannedTest t kind s = .next z ∧ Kept s z := by
  unfold execPlannedTest
  refine ⟨_, rfl, ?_⟩
  repeat'
    first
    | with_reducible exact Kept.refl _
    | with_reducible apply Kept.trans ?_ (State.at_kept _ _)
    | with_reducible apply Kept.trans ?_ (State.when_kept _ _ _ ?_)
    | with_reducible apply Kept.trans ?_ (State.latch_kept _ _ _ _)
    | with_reducible apply Kept.trans ?_ (State.putUnit_kept _ _ _)
    | with_reducible apply Kept.trans ?_ (State.setRole_kept _ _ _ _)
    | with_reducible apply Kept.trans ?_ (State.putFan_kept _ _ _)
    | with_reducible apply Kept.trans ?_ (State.moveLoop_kept _ _ _ _)
    | with_reducible apply Kept.trans ?_ (State.setFanState_kept _ _ _)
    | simp only [Kept.mk_iff, Kept.dict_iff, Kept.recorder_iff]
    | intro _
    | split

theorem execKeeperBlockError_kept (t : Nat) (keeper : Nat) (s : State) :
    ∃ z, execKeeperBlockError t keeper s = .next z ∧ Kept s z := by
  unfold execKeeperBlockError
  refine ⟨_, rfl, ?_⟩
  repeat'
    first
    | with_reducible exact Kept.refl _
    | with_reducible apply Kept.trans ?_ (State.at_kept _ _)
    | with_reducible apply Kept.trans ?_ (State.when_kept _ _ _ ?_)
    | with_reducible apply Kept.trans ?_ (State.putUnit_kept _ _ _)
    | with_reducible apply Kept.trans ?_ (State.fenceUnit_kept _ _)
    | with_reducible apply Kept.trans ?_ (State.keeperWaits_kept _)
    | simp only [Kept.mk_iff, Kept.dict_iff, Kept.recorder_iff]
    | intro _
    | split

end Sys2Proof.Machine
end

