-- ==== Sys2Proof/Laws/KeptTick.lean ====
section
/-! SUPPORT. What the operations and the meanings of `Machine/Tick.lean` keep (see `Laws/Kept.lean`). -/

namespace Sys2Proof.Machine

open Sys2Proof

theorem State.newTurn_kept (s : State) :
    Kept s (State.newTurn s) := by
  unfold State.newTurn
  repeat'
    first
    | with_reducible exact Kept.refl _
    | with_reducible apply Kept.trans ?_ (State.set_kept _ _ _)
    | with_reducible apply Kept.trans ?_ (State.nextTickLen_kept _)
    | simp only [Kept.mk_iff, Kept.dict_iff, Kept.recorder_iff]
    | split

theorem State.newTick_kept (s : State) :
    Kept s (State.newTick s) := by
  unfold State.newTick
  repeat'
    first
    | with_reducible exact Kept.refl _
    | with_reducible apply Kept.trans ?_ (State.newTurn_kept _)
    | simp only [Kept.mk_iff, Kept.dict_iff, Kept.recorder_iff]
    | split

theorem State.phaseAdvance_kept (s : State) (n : Nat) :
    Kept s (State.phaseAdvance s n) := by
  unfold State.phaseAdvance
  repeat'
    first
    | with_reducible exact Kept.refl _
    | with_reducible apply Kept.trans ?_ (State.setU_kept _ _ _ _)
    | simp only [Kept.mk_iff, Kept.dict_iff, Kept.recorder_iff]
    | split

theorem State.diePowerTick_kept (s : State) (p : Nat) :
    Kept s (State.diePowerTick s p) := by
  unfold State.diePowerTick
  repeat'
    first
    | with_reducible exact Kept.refl _
    | with_reducible apply Kept.trans ?_ (State.inc_kept _ _)
    | with_reducible apply Kept.trans ?_ (State.latch_kept _ _ _ _)
    | with_reducible apply Kept.trans ?_ (State.histValue_kept _ _ _ _)
    | simp only [Kept.mk_iff, Kept.dict_iff, Kept.recorder_iff]
    | split

theorem State.stackTick_kept (s : State) (u : List Nat) :
    Kept s (State.stackTick s u) := by
  unfold State.stackTick
  try dsimp only
  repeat'
    first
    | with_reducible exact Kept.refl _
    | with_reducible assumption
    | with_reducible apply Kept.trans ?_ (State.incU_kept _ _ _)
    | with_reducible apply Kept.trans ?_ (State.putStack_kept _ _ _)
    | simp only [Kept.mk_iff, Kept.dict_iff, Kept.recorder_iff]
    | intro _
    | split
    | with_reducible apply Kept.trans ?_ (Kept.foldl ?_ _ _)
    | with_reducible apply Kept.trans ?_ (Kept.foldl_fst ?_ _ _)

theorem State.showTemps_kept (s : State) (e : Ent) (l : List Int) :
    Kept s (State.showTemps s e l) := by
  unfold State.showTemps
  repeat'
    first
    | with_reducible exact Kept.refl _
    | with_reducible apply Kept.trans ?_ (State.setU_kept _ _ _ _)
    | intro _
    | with_reducible apply Kept.trans ?_ (Kept.foldl ?_ _ _)

theorem State.showFeeds_kept (s : State) (x : TickIn) :
    Kept s (State.showFeeds s x) := by
  unfold State.showFeeds
  repeat'
    first
    | with_reducible exact Kept.refl _
    | with_reducible apply Kept.trans ?_ (State.set_kept _ _ _)

theorem State.countCuts_kept (s : State) :
    Kept s (State.countCuts s) := by
  unfold State.countCuts
  repeat'
    first
    | with_reducible exact Kept.refl _
    | with_reducible apply Kept.trans ?_ (State.set_kept _ _ _)

theorem State.iocTick_kept (s : State) (len : Nat) (x : TickIn) :
    Kept s (State.iocTick s len x) := by
  unfold State.iocTick
  repeat'
    first
    | with_reducible exact Kept.refl _
    | with_reducible apply Kept.trans ?_ (State.valveOffCheck_kept _ _)
    | with_reducible apply Kept.trans ?_ (State.valveTick_kept _ _ _ _)
    | with_reducible apply Kept.trans ?_ (State.fbTick_kept _ _ _)
    | with_reducible apply Kept.trans ?_ (State.ainTick_kept _ _)
    | with_reducible apply Kept.trans ?_ (State.angleTick_kept _ _ _)
    | simp only [Kept.mk_iff, Kept.dict_iff, Kept.recorder_iff]
    | split

theorem State.coherence_kept (s : State) :
    Kept s (State.coherence s) := by
  unfold State.coherence
  repeat'
    first
    | with_reducible exact Kept.refl _
    | with_reducible apply Kept.trans ?_ (State.set_kept _ _ _)
    | with_reducible apply Kept.trans ?_ (State.coverTick_kept _ _)
    | with_reducible apply Kept.trans ?_ (State.placeClasses_kept _ _)
    | simp only [Kept.mk_iff, Kept.dict_iff, Kept.recorder_iff]
    | split

theorem State.stanceApply_kept (s : State) :
    Kept s (State.stanceApply s) := by
  unfold State.stanceApply
  repeat'
    first
    | with_reducible exact Kept.refl _
    | with_reducible apply Kept.trans ?_ (State.set_kept _ _ _)
    | with_reducible apply Kept.trans ?_ (State.reserve_kept _ _)
    | simp only [Kept.mk_iff, Kept.dict_iff, Kept.recorder_iff]
    | split

theorem State.stretchAdjust_kept (s : State) :
    Kept s (State.stretchAdjust s) := by
  unfold State.stretchAdjust
  repeat'
    first
    | with_reducible exact Kept.refl _
    | with_reducible apply Kept.trans ?_ (State.set_kept _ _ _)
    | with_reducible apply Kept.trans ?_ (State.latch_kept _ _ _ _)
    | simp only [Kept.mk_iff, Kept.dict_iff, Kept.recorder_iff]
    | split

theorem State.admitLimit_kept (s : State) :
    Kept s (State.admitLimit s) := by
  unfold State.admitLimit
  repeat'
    first
    | with_reducible exact Kept.refl _
    | with_reducible apply Kept.trans ?_ (State.set_kept _ _ _)

theorem State.admitTurn_kept (s : State) (len : Nat) :
    Kept s (State.admitTurn s len) := by
  unfold State.admitTurn
  repeat'
    first
    | with_reducible exact Kept.refl _
    | with_reducible apply Kept.trans ?_ (State.set_kept _ _ _)
    | with_reducible apply Kept.trans ?_ (State.latch_kept _ _ _ _)
    | with_reducible apply Kept.trans ?_ (State.admitLimit_kept _)
    | simp only [Kept.mk_iff, Kept.dict_iff, Kept.recorder_iff]
    | split

theorem State.guardTurn_kept (s : State) :
    Kept s (State.guardTurn s) := by
  unfold State.guardTurn
  repeat'
    first
    | with_reducible exact Kept.refl _
    | with_reducible apply Kept.trans ?_ (State.set_kept _ _ _)
    | simp only [Kept.mk_iff, Kept.dict_iff, Kept.recorder_iff]

theorem State.lanesTurn_kept (s : State) (x : TurnIn) :
    Kept s (State.lanesTurn s x) := by
  unfold State.lanesTurn
  try dsimp only
  repeat'
    first
    | with_reducible exact Kept.refl _
    | with_reducible assumption
    | with_reducible apply Kept.trans ?_ (State.setU_kept _ _ _ _)
    | with_reducible apply Kept.trans ?_ (State.addU_kept _ _ _ _)
    | with_reducible apply Kept.trans ?_ (State.latch_kept _ _ _ _)
    | simp only [Kept.mk_iff, Kept.dict_iff, Kept.recorder_iff]
    | intro _
    | split
    | with_reducible apply Kept.trans ?_ (Kept.foldl ?_ _ _)
    | with_reducible apply Kept.trans ?_ (Kept.foldl_fst ?_ _ _)

theorem State.unitsTurn_kept (s : State) (x : TurnIn) :
    Kept s (State.unitsTurn s x) := by
  unfold State.unitsTurn
  try dsimp only
  repeat'
    first
    | with_reducible exact Kept.refl _
    | with_reducible assumption
    | with_reducible apply Kept.trans ?_ (State.set_kept _ _ _)
    | with_reducible apply Kept.trans ?_ (State.setU_kept _ _ _ _)
    | with_reducible apply Kept.trans ?_ (State.addU_kept _ _ _ _)
    | with_reducible apply Kept.trans ?_ (State.putStack_kept _ _ _)
    | simp only [Kept.mk_iff, Kept.dict_iff, Kept.recorder_iff]
    | intro _
    | split
    | with_reducible apply Kept.trans ?_ (Kept.foldl ?_ _ _)
    | with_reducible apply Kept.trans ?_ (Kept.foldl_fst ?_ _ _)

theorem State.everyLong_kept (s : State) (x : TurnIn) :
    Kept s (State.everyLong s x) := by
  unfold State.everyLong
  repeat'
    first
    | with_reducible exact Kept.refl _
    | with_reducible apply Kept.trans ?_ (State.set_kept _ _ _)
    | with_reducible apply Kept.trans ?_ (State.latch_kept _ _ _ _)
    | with_reducible apply Kept.trans ?_ (State.writeLife_kept _ _)
    | intro _
    | split
    | with_reducible apply Kept.trans ?_ (Kept.foldl ?_ _ _)

theorem State.loaderTurn_kept (s : State) :
    Kept s (State.loaderTurn s) := by
  unfold State.loaderTurn
  repeat'
    first
    | with_reducible exact Kept.refl _
    | with_reducible apply Kept.trans ?_ (State.replace_kept _)
    | with_reducible apply Kept.trans ?_ (State.rateTest_kept _)
    | simp only [Kept.mk_iff, Kept.dict_iff, Kept.recorder_iff]
    | split

theorem execTickBoundary_kept (t : Nat) (x : TickIn) (s : State) :
    ∃ z, execTickBoundary t x s = .next z ∧ Kept s z := by
  unfold execTickBoundary
  refine ⟨_, rfl, ?_⟩
  try dsimp only
  repeat'
    first
    | with_reducible exact Kept.refl _
    | with_reducible assumption
    | with_reducible apply Kept.trans ?_ (State.at_kept _ _)
    | with_reducible apply Kept.trans ?_ (State.when_kept _ _ _ ?_)
    | with_reducible apply Kept.trans ?_ (State.histValue_kept _ _ _ _)
    | with_reducible apply Kept.trans ?_ (State.recorderTick_kept _)
    | with_reducible apply Kept.trans ?_ (State.emulTick_kept _)
    | with_reducible apply Kept.trans ?_ (State.ceilingSwitch_kept _)
    | with_reducible apply Kept.trans ?_ (State.rateTest_kept _)
    | with_reducible apply Kept.trans ?_ (State.detectorTick_kept _)
    | with_reducible apply Kept.trans ?_ (State.coolingTick_kept _ _)
    | with_reducible apply Kept.trans ?_ (State.ifanSwap_kept _)
    | with_reducible apply Kept.trans ?_ (State.startTests_kept _)
    | with_reducible apply Kept.trans ?_ (State.newTick_kept _)
    | with_reducible apply Kept.trans ?_ (State.phaseAdvance_kept _ _)
    | with_reducible apply Kept.trans ?_ (State.diePowerTick_kept _ _)
    | with_reducible apply Kept.trans ?_ (State.stackTick_kept _ _)
    | with_reducible apply Kept.trans ?_ (State.showTemps_kept _ _ _)
    | with_reducible apply Kept.trans ?_ (State.showFeeds_kept _ _)
    | with_reducible apply Kept.trans ?_ (State.countCuts_kept _)
    | with_reducible apply Kept.trans ?_ (State.iocTick_kept _ _ _)
    | simp only [Kept.mk_iff, Kept.dict_iff, Kept.recorder_iff]
    | intro _
    | split
    | with_reducible apply Kept.trans ?_ (Kept.foldl ?_ _ _)
    | with_reducible apply Kept.trans ?_ (Kept.foldl_fst ?_ _ _)

theorem execTurnBoundary_kept (t : Nat) (x : TurnIn) (s : State) :
    ∃ z, execTurnBoundary t x s = .next z ∧ Kept s z := by
  unfold execTurnBoundary
  refine ⟨_, rfl, ?_⟩
  try dsimp only
  repeat'
    first
    | with_reducible exact Kept.refl _
    | with_reducible assumption
    | with_reducible apply Kept.trans ?_ (State.at_kept _ _)
    | with_reducible apply Kept.trans ?_ (State.when_kept _ _ _ ?_)
    | with_reducible apply Kept.trans ?_ (State.recorderTurn_kept _)
    | with_reducible apply Kept.trans ?_ (State.refreshStore_kept _)
    | with_reducible apply Kept.trans ?_ (State.carve_kept _ _)
    | with_reducible apply Kept.trans ?_ (State.classTurn_kept _)
    | with_reducible apply Kept.trans ?_ (State.detect_kept _ _)
    | with_reducible apply Kept.trans ?_ (State.valveTurn_kept _)
    | with_reducible apply Kept.trans ?_ (State.fbTurn_kept _)
    | with_reducible apply Kept.trans ?_ (State.ainReference_kept _ _)
    | with_reducible apply Kept.trans ?_ (State.mainsTurn_kept _ _ _)
    | with_reducible apply Kept.trans ?_ (State.pumpTurn_kept _)
    | with_reducible apply Kept.trans ?_ (State.coherence_kept _)
    | with_reducible apply Kept.trans ?_ (State.stanceApply_kept _)
    | with_reducible apply Kept.trans ?_ (State.stretchAdjust_kept _)
    | with_reducible apply Kept.trans ?_ (State.admitTurn_kept _ _)
    | with_reducible apply Kept.trans ?_ (State.guardTurn_kept _)
    | with_reducible apply Kept.trans ?_ (State.lanesTurn_kept _ _)
    | with_reducible apply Kept.trans ?_ (State.unitsTurn_kept _ _)
    | with_reducible apply Kept.trans ?_ (State.everyLong_kept _ _)
    | with_reducible apply Kept.trans ?_ (State.loaderTurn_kept _)
    | simp only [Kept.mk_iff, Kept.dict_iff, Kept.recorder_iff]
    | intro _
    | split
    | with_reducible apply Kept.trans ?_ (Kept.foldl ?_ _ _)
    | with_reducible apply Kept.trans ?_ (Kept.foldl_fst ?_ _ _)

theorem execChipLevelError_kept (t : Nat) (s : State) : ∃ z, execChipLevelError t s = .next z ∧ Kept s z := by
  unfold execChipLevelError
  refine ⟨_, rfl, ?_⟩
  try dsimp only
  repeat'
    first
    | with_reducible exact Kept.refl _
    | with_reducible assumption
    | with_reducible apply Kept.trans ?_ (State.at_kept _ _)
    | with_reducible apply Kept.trans ?_ (State.when_kept _ _ _ ?_)
    | with_reducible apply Kept.trans ?_ (State.enterRest_kept _ _)
    | simp only [Kept.mk_iff, Kept.dict_iff, Kept.recorder_iff]
    | intro _
    | split

theorem execIocLaneFail_kept (t : Nat) (lane : Nat) (s : State) :
    ∃ z, execIocLaneFail t lane s = .next z ∧ Kept s z := by
  unfold execIocLaneFail
  refine ⟨_, rfl, ?_⟩
  try dsimp only
  repeat'
    first
    | with_reducible exact Kept.refl _
    | with_reducible assumption
    | with_reducible apply Kept.trans ?_ (State.at_kept _ _)
    | with_reducible apply Kept.trans ?_ (State.when_kept _ _ _ ?_)
    | with_reducible apply Kept.trans ?_ (State.noteFailure_kept _ _)
    | with_reducible apply Kept.trans ?_ (State.fenceUnit_kept _ _)
    | simp only [Kept.mk_iff, Kept.dict_iff, Kept.recorder_iff]
    | intro _
    | split

theorem execIocLaneSpare_kept (t : Nat) (s : State) : ∃ z, execIocLaneSpare t s = .next z ∧ Kept s z := by
  unfold execIocLaneSpare
  refine ⟨_, rfl, ?_⟩
  try dsimp only
  repeat'
    first
    | with_reducible exact Kept.refl _
    | with_reducible assumption
    | with_reducible apply Kept.trans ?_ (State.at_kept _ _)
    | with_reducible apply Kept.trans ?_ (State.when_kept _ _ _ ?_)
    | with_reducible apply Kept.trans ?_ (State.enterRest_kept _ _)
    | with_reducible apply Kept.trans ?_ (State.promote_kept _ _ _)
    | simp only [Kept.mk_iff, Kept.dict_iff, Kept.recorder_iff]
    | intro _
    | split
    | with_reducible apply Kept.trans ?_ (Kept.foldl ?_ _ _)
    | with_reducible apply Kept.trans ?_ (Kept.foldl_fst ?_ _ _)

theorem execIocLinkLoss_kept (t : Nat) (s : State) : ∃ z, execIocLinkLoss t s = .next z ∧ Kept s z := by
  unfold execIocLinkLoss
  refine ⟨_, rfl, ?_⟩
  try dsimp only
  repeat'
    first
    | with_reducible exact Kept.refl _
    | with_reducible assumption
    | with_reducible apply Kept.trans ?_ (State.at_kept _ _)
    | with_reducible apply Kept.trans ?_ (State.when_kept _ _ _ ?_)
    | with_reducible apply Kept.trans ?_ (State.setU_kept _ _ _ _)
    | with_reducible apply Kept.trans ?_ (State.enterRest_kept _ _)
    | with_reducible apply Kept.trans ?_ (State.putPort_kept _ _ _)
    | with_reducible apply Kept.trans ?_ (State.valvesOff_kept _)
    | with_reducible apply Kept.trans ?_ (State.fanFull_kept _ _)
    | simp only [Kept.mk_iff, Kept.dict_iff, Kept.recorder_iff]
    | intro _
    | split
    | with_reducible apply Kept.trans ?_ (Kept.foldl ?_ _ _)
    | with_reducible apply Kept.trans ?_ (Kept.foldl_fst ?_ _ _)

end Sys2Proof.Machine
end

