-- ==== Sys2Proof/Laws/KeptPortLink.lean ====
section
/-! SUPPORT. What the operations and the meanings of `Machine/PortLink.lean` keep (see `Laws/Kept.lean`). -/

namespace Sys2Proof.Machine

open Sys2Proof

theorem State.flushEgress_kept (s : State) :
    Kept s (State.flushEgress s) := by
  unfold State.flushEgress
  repeat'
    first
    | with_reducible exact Kept.refl _
    | with_reducible apply Kept.trans ?_ (State.add_kept _ _ _)
    | simp only [Kept.mk_iff, Kept.dict_iff, Kept.recorder_iff]

theorem execLinkDown_kept (t : Nat) (cause : Nat) (s : State) : ∃ z, execLinkDown t cause s = .next z ∧ Kept s z := by
  unfold execLinkDown
  refine ⟨_, rfl, ?_⟩
  repeat'
    first
    | with_reducible exact Kept.refl _
    | with_reducible apply Kept.trans ?_ (State.at_kept _ _)
    | with_reducible apply Kept.trans ?_ (State.when_kept _ _ _ ?_)
    | with_reducible apply Kept.trans ?_ (State.inc_kept _ _)
    | with_reducible apply Kept.trans ?_ (State.latch_kept _ _ _ _)
    | with_reducible apply Kept.trans ?_ (State.portAttempt_kept _)
    | with_reducible apply Kept.trans ?_ (State.flushEgress_kept _)
    | simp only [Kept.mk_iff, Kept.dict_iff, Kept.recorder_iff]
    | intro _
    | split

theorem execSendResume_kept (t : Nat) (s : State) : ∃ z, execSendResume t s = .next z ∧ Kept s z := by
  unfold execSendResume
  refine ⟨_, rfl, ?_⟩
  repeat'
    first
    | with_reducible exact Kept.refl _
    | with_reducible apply Kept.trans ?_ (State.at_kept _ _)
    | with_reducible apply Kept.trans ?_ (State.when_kept _ _ _ ?_)
    | with_reducible apply Kept.trans ?_ (State.sendNotice_kept _ _)
    | with_reducible apply Kept.trans ?_ (State.queueCut_kept _ _ _)
    | simp only [Kept.mk_iff, Kept.dict_iff, Kept.recorder_iff]
    | intro _
    | split
    | with_reducible apply Kept.trans ?_ (Kept.foldl ?_ _ _)

end Sys2Proof.Machine
end

