-- ==== Sys2Proof/Laws/KeptDictTabs.lean ====
section
/-! SUPPORT. What the operations and the meanings of `Machine/DictTabs.lean` keep (see `Laws/Kept.lean`). -/

namespace Sys2Proof.Machine

open Sys2Proof

theorem State.startBulk_kept (s : State) (q : Req) (h : s.dict.bulks.length < 8) : Kept s (State.startBulk s q) := by
  unfold State.startBulk
  dsimp only
  refine Kept.of_dict rfl rfl rfl (fun b => ?_) rfl
  simp only [Dict.bounded, Bool.and_eq_true, decide_eq_true_eq, List.length_append, List.length_cons,
    List.length_nil] at *
  omega

theorem State.putBulk_kept (s : State) (id : Nat) (k : Option Bulk) : Kept s (State.putBulk s id k) := by
  unfold State.putBulk
  refine Kept.of_dict rfl rfl rfl (fun b => ?_) rfl
  simp only [Dict.bounded, Bool.and_eq_true, decide_eq_true_eq] at *
  exact ⟨⟨⟨b.1.1.1, Nat.le_trans (List.length_filterMap_le _ _) b.1.1.2⟩, b.1.2⟩, b.2⟩

theorem State.setWeights_kept (s : State) (slot : Nat) (row : Bytes) :
    Kept s (State.setWeights s slot row) := by
  unfold State.setWeights
  repeat'
    first
    | with_reducible exact Kept.refl _
    | simp only [Kept.mk_iff, Kept.dict_iff, Kept.recorder_iff]

theorem State.applyBulk_kept (s : State) (w : BulkWrite) : Kept s (State.applyBulk s w) := by
  unfold State.applyBulk
  lift_lets
  extract_lets s1 echo bytes cache d s2
  have h1 : Kept s s1 := Kept.foldl (fun _ _ => State.setWeights_kept _ _ _) _ _
  split
  · exact h1
  · refine Kept.trans ?_ (State.sendReply_kept _ _ _ _)
    refine h1.trans (Kept.of_dict rfl rfl rfl (fun b => ?_) rfl)
    simp only [Dict.bounded, s2, d, cache, List.length_map] at *
    exact b

theorem State.subscribe_kept (s : State) (q : Req)
    (h : field q.body 2 2 = 0 ∨ (s.dict.subs.any fun x => x.is q.rx.src q.rx.sport (field q.body 0 1)) = true
      ∨ s.dict.subs.length < 64) : Kept s (State.subscribe s q) := by
  unfold State.subscribe
  dsimp only
  refine Kept.of_dict rfl rfl rfl (fun b => ?_) rfl
  have hf : (s.dict.subs.filter fun x => !x.is q.rx.src q.rx.sport (field q.body 0 1)).length ≤ s.dict.subs.length :=
    List.length_filter_le _ _
  simp only [Dict.bounded, Bool.and_eq_true, decide_eq_true_eq] at *
  split
  · omega
  · rename_i h0
    simp only [List.length_append, List.length_cons, List.length_nil]
    obtain h | h | h := h
    · exact absurd h h0
    · have hl : (s.dict.subs.filter fun x => !x.is q.rx.src q.rx.sport (field q.body 0 1)).length
          < s.dict.subs.length := by
        rw [List.length_filter_lt_length_iff_exists]
        obtain ⟨x, hx, hy⟩ := List.any_eq_true.1 h
        exact ⟨x, hx, by simp [hy]⟩
      omega
    · omega

theorem execReadBulk_kept (t : Nat) (rx : Rx) (s : State) : ∃ z, execReadBulk t rx s = .next z ∧ Kept s z := by
  unfold execReadBulk
  refine ⟨_, rfl, ?_⟩
  refine (State.at_kept s t).trans (State.serve_kept _ _ _ fun q live u hc => ?_)
  dsimp only [readBulkService] at *
  split at hc
  · cases hc
  · refine State.startBulk_kept u q ?_
    unfold State.bulkCodes at hc
    have h := (List.append_eq_nil_iff.1 hc).1
    simpa [codeIf] using h

theorem execBulkFragment_kept (t : Nat) (id : Nat) (s : State) :
    ∃ z, execBulkFragment t id s = .next z ∧ Kept s z := by
  unfold execBulkFragment
  refine ⟨_, rfl, ?_⟩
  repeat'
    first
    | with_reducible exact Kept.refl _
    | with_reducible apply Kept.trans ?_ (State.at_kept _ _)
    | with_reducible apply Kept.trans ?_ (State.when_kept _ _ _ ?_)
    | with_reducible apply Kept.trans ?_ (State.send_kept _ _)
    | with_reducible apply Kept.trans ?_ (State.putBulk_kept _ _ _)
    | intro _
    | split

theorem execWriteBulk_kept (t : Nat) (rx : Rx) (s : State) : ∃ z, execWriteBulk t rx s = .next z ∧ Kept s z := by
  unfold execWriteBulk
  refine ⟨_, rfl, ?_⟩
  refine (State.at_kept s t).trans (State.serve_kept _ _ _ fun q live u hc => ?_)
  exact Kept.of_dict rfl rfl rfl (fun b => Dict.bounded_remember b _) rfl

theorem execWriteBulkApply_kept (t : Nat) (s : State) : ∃ z, execWriteBulkApply t s = .next z ∧ Kept s z := by
  unfold execWriteBulkApply
  refine ⟨_, rfl, ?_⟩
  repeat'
    first
    | with_reducible exact Kept.refl _
    | with_reducible apply Kept.trans ?_ (State.at_kept _ _)
    | with_reducible apply Kept.trans ?_ (State.when_kept _ _ _ ?_)
    | with_reducible apply Kept.trans ?_ (State.applyBulk_kept _ _)
    | simp only [Kept.mk_iff, Kept.dict_iff, Kept.recorder_iff]
    | intro _
    | with_reducible apply Kept.trans ?_ (Kept.foldl ?_ _ _)

theorem execSubscribe_kept (t : Nat) (rx : Rx) (s : State) : ∃ z, execSubscribe t rx s = .next z ∧ Kept s z := by
  unfold execSubscribe
  refine ⟨_, rfl, ?_⟩
  refine (State.at_kept s t).trans (State.serve_kept _ _ _ fun q live u hc => ?_)
  dsimp only [subscribeService] at *
  refine State.subscribe_kept u q ?_
  unfold State.subCodes at hc
  dsimp only at hc
  split at hc
  · cases hc
  · have h := (List.append_eq_nil_iff.1 hc).2
    simp only [codeIf, ite_eq_right_iff, reduceCtorEq, imp_false, Bool.and_eq_true, bne_iff_ne, ne_eq,
      Bool.not_eq_true', decide_eq_true_eq] at h
    by_cases h0 : field q.body 2 2 = 0
    · exact .inl h0
    · by_cases h1 : (u.dict.subs.any fun x => x.is q.rx.src q.rx.sport (field q.body 0 1)) = true
      · exact .inr (.inl h1)
      · refine .inr (.inr ?_)
        exact Nat.lt_of_not_le fun h2 => h ⟨⟨h0, by simpa using h1⟩, h2⟩

theorem execSubscriptionPush_kept (t src sport subId : Nat) (s : State) :
    ∃ z, execSubscriptionPush t src sport subId s = .next z ∧ Kept s z := by
  unfold execSubscriptionPush
  refine ⟨_, rfl, ?_⟩
  dsimp only
  refine (State.at_kept s t).trans ?_
  generalize State.at s t = u
  split
  · exact Kept.refl u
  · refine State.when_kept' fun _ => ?_
    refine Kept.trans ?_ (State.sendReply_kept _ _ _ _)
    refine Kept.of_dict rfl rfl rfl (fun b => ?_) rfl
    simp only [Dict.bounded, List.length_map] at *
    exact b

theorem execSubscriptionLapse_kept (t src sport subId : Nat) (s : State) :
    ∃ z, execSubscriptionLapse t src sport subId s = .next z ∧ Kept s z := by
  unfold execSubscriptionLapse
  refine ⟨_, rfl, ?_⟩
  dsimp only
  refine (State.at_kept s t).trans ?_
  generalize State.at s t = u
  split
  · exact Kept.refl u
  · refine State.when_kept' fun _ => ?_
    refine Kept.of_dict rfl rfl rfl (fun b => ?_) rfl
    simp only [Dict.bounded, Bool.and_eq_true, decide_eq_true_eq] at *
    exact ⟨⟨b.1.1, Nat.le_trans (List.length_filter_le _ _) b.1.2⟩, b.2⟩

end Sys2Proof.Machine
end

