-- ==== Sys2Proof/Laws/KeptDict.lean ====
section
/-! SUPPORT. What the operations and the meanings of `Machine/Dict.lean` keep (see `Laws/Kept.lean`). -/

namespace Sys2Proof.Machine

open Sys2Proof

theorem State.heldEffect_kept (s : State) (key : Nat) (old : Nat) :
    Kept s (State.heldEffect s key old) := by
  unfold State.heldEffect
  try dsimp only
  repeat'
    first
    | with_reducible exact Kept.refl _
    | with_reducible assumption
    | with_reducible apply Kept.trans ?_ (State.restartDetector_kept _ _)
    | with_reducible apply Kept.trans ?_ (State.rxConfigApply_kept _ _)
    | with_reducible apply Kept.trans ?_ (State.fbModeApply_kept _ _)
    | with_reducible apply Kept.trans ?_ (State.txConfigApply_kept _ _ _)
    | simp only [Kept.mk_iff, Kept.dict_iff, Kept.recorder_iff]
    | intro _
    | split

theorem State.applyHeld_kept (s : State) (key : Nat) :
    Kept s (State.applyHeld s key) := by
  unfold State.applyHeld
  repeat'
    first
    | with_reducible exact Kept.refl _
    | with_reducible apply Kept.trans ?_ (State.heldEffect_kept _ _ _)
    | simp only [Kept.mk_iff, Kept.dict_iff, Kept.recorder_iff]
    | split

theorem State.hold_kept (s : State) (key : Nat) (old : Nat) (kind : Nat) :
    Kept s (State.hold s key old kind) := by
  unfold State.hold
  repeat'
    first
    | with_reducible exact Kept.refl _
    | with_reducible apply Kept.trans ?_ (State.applyHeld_kept _ _)
    | simp only [Kept.mk_iff, Kept.dict_iff, Kept.recorder_iff]

theorem State.store_kept (s : State) (r : Row) (u : Nat) (k : Nat) (v : Nat) :
    Kept s (State.store s r u k v) := by
  unfold State.store
  repeat'
    first
    | with_reducible exact Kept.refl _
    | with_reducible apply Kept.trans ?_ (State.setU_kept _ _ _ _)
    | with_reducible apply Kept.trans ?_ (State.keepInFram_kept _ _ _)
    | with_reducible apply Kept.trans ?_ (State.hold_kept _ _ _ _)
    | split

theorem State.written_kept (s : State) (e : Ent) (u : Nat) (k : Nat) :
    Kept s (State.written s e u k) := by
  unfold State.written
  repeat'
    first
    | with_reducible exact Kept.refl _
    | with_reducible apply Kept.trans ?_ (State.setU_kept _ _ _ _)
    | with_reducible apply Kept.trans ?_ (State.putTx_kept _ _ _)
    | with_reducible apply Kept.trans ?_ (State.refreshCeiling_kept _)
    | with_reducible apply Kept.trans ?_ (State.admitLimit_kept _)
    | simp only [Kept.mk_iff, Kept.dict_iff, Kept.recorder_iff]
    | split

theorem State.openRun_kept (s : State) (q : Req) (h : s.dict.sessions.length < 4) :
    Kept s (State.openRun s q).2 := by
  unfold State.openRun
  lift_lets
  extract_lets
  refine Kept.trans ?_ (State.setSessions_kept _ _ ?_)
  · exact Kept.of_same rfl rfl rfl rfl rfl
  · intro _
    simp only [List.length_append, List.length_cons, List.length_nil]
    exact h

theorem State.proveRun_kept (s : State) (q : Req) : Kept s (State.proveRun s q).2 := by
  unfold State.proveRun
  split
  · exact Kept.refl s
  · lift_lets
    extract_lets
    split
    · exact State.mapSessions_kept _ _
    · exact ((State.closeSession_kept _ _).trans (State.inc_kept _ _)).trans (State.latch_kept _ _ _ _)

theorem writeService_kept {sel : Row → Bool} {run : Row → Nat → Nat → Nat → State → State}
    (h : ∀ r u k v s, Kept s (run r u k v s)) (q : Req) (live : Bool) (s : State)
    (_ : (writeService sel run).codes q live s = []) :
    Kept s ((writeService sel run).run q live s).2 := by
  unfold writeService
  dsimp only
  split
  · exact h _ _ _ _ _
  · exact Kept.refl s

theorem ownService_kept {l : List Ent} {run : Row → Nat → Nat → Nat → State → State}
    (h : ∀ r u k v s, Kept s (run r u k v s)) (q : Req) (live : Bool) (s : State)
    (hc : (ownService l run).codes q live s = []) :
    Kept s ((ownService l run).run q live s).2 := writeService_kept h q live s hc

theorem execRead_kept (t : Nat) (rx : Rx) (s : State) : ∃ z, execRead t rx s = .next z ∧ Kept s z := by
  unfold execRead
  refine ⟨_, rfl, ?_⟩
  repeat'
    first
    | with_reducible exact Kept.refl _
    | with_reducible apply Kept.trans ?_ (State.at_kept _ _)
    | with_reducible apply Kept.trans ?_ (State.serve_kept _ _ _ ?_)
    | simp only [Kept.mk_iff, Kept.dict_iff, Kept.recorder_iff]
    | intro _
    | dsimp only [readService]
    | split

theorem execDeferredWriteApply_kept (t : Nat) (key : Nat) (s : State) :
    ∃ z, execDeferredWriteApply t key s = .next z ∧ Kept s z := by
  unfold execDeferredWriteApply
  refine ⟨_, rfl, ?_⟩
  repeat'
    first
    | with_reducible exact Kept.refl _
    | with_reducible apply Kept.trans ?_ (State.at_kept _ _)
    | with_reducible apply Kept.trans ?_ (State.applyHeld_kept _ _)

theorem execWrite_kept (t : Nat) (rx : Rx) (s : State) : ∃ z, execWrite t rx s = .next z ∧ Kept s z := by
  unfold execWrite
  refine ⟨_, rfl, ?_⟩
  refine (State.at_kept s t).trans (State.serve_kept _ _ _ fun q live u _ => ?_)
  unfold plainWriteService writeService
  dsimp only
  split
  · exact (State.store_kept _ _ _ _ _).trans (State.written_kept _ _ _ _)
  · exact Kept.refl u

theorem execStanceWrite_kept (t : Nat) (rx : Rx) (s : State) : ∃ z, execStanceWrite t rx s = .next z ∧ Kept s z := by
  unfold execStanceWrite
  refine ⟨_, rfl, ?_⟩
  try dsimp only
  repeat'
    first
    | with_reducible exact Kept.refl _
    | with_reducible assumption
    | apply ownService_kept
    | apply writeService_kept
    | with_reducible apply Kept.trans ?_ (State.at_kept _ _)
    | with_reducible apply Kept.trans ?_ (State.set_kept _ _ _)
    | with_reducible apply Kept.trans ?_ (State.serve_kept _ _ _)
    | with_reducible apply Kept.trans ?_ (State.store_kept _ _ _ _ _)
    | with_reducible apply Kept.trans ?_ (State.serve_kept _ _ _ ?_)
    | simp only [Kept.mk_iff, Kept.dict_iff, Kept.recorder_iff]
    | intro _
    | split

theorem execWheelPhaseWrite_kept (t : Nat) (rx : Rx) (s : State) :
    ∃ z, execWheelPhaseWrite t rx s = .next z ∧ Kept s z := by
  unfold execWheelPhaseWrite
  refine ⟨_, rfl, ?_⟩
  try dsimp only
  repeat'
    first
    | with_reducible exact Kept.refl _
    | with_reducible assumption
    | apply ownService_kept
    | apply writeService_kept
    | with_reducible apply Kept.trans ?_ (State.at_kept _ _)
    | with_reducible apply Kept.trans ?_ (State.latch_kept _ _ _ _)
    | with_reducible apply Kept.trans ?_ (State.serve_kept _ _ _)
    | with_reducible apply Kept.trans ?_ (State.enterRelock_kept _)
    | with_reducible apply Kept.trans ?_ (State.store_kept _ _ _ _ _)
    | with_reducible apply Kept.trans ?_ (State.serve_kept _ _ _ ?_)
    | simp only [Kept.mk_iff, Kept.dict_iff, Kept.recorder_iff]
    | intro _
    | split

theorem execPhaseSourceWrite_kept (t : Nat) (rx : Rx) (s : State) :
    ∃ z, execPhaseSourceWrite t rx s = .next z ∧ Kept s z := by
  unfold execPhaseSourceWrite
  refine ⟨_, rfl, ?_⟩
  try dsimp only
  repeat'
    first
    | with_reducible exact Kept.refl _
    | with_reducible assumption
    | apply ownService_kept
    | apply writeService_kept
    | with_reducible apply Kept.trans ?_ (State.at_kept _ _)
    | with_reducible apply Kept.trans ?_ (State.serve_kept _ _ _)
    | with_reducible apply Kept.trans ?_ (State.putEng_kept _ _ _)
    | with_reducible apply Kept.trans ?_ (State.store_kept _ _ _ _ _)
    | with_reducible apply Kept.trans ?_ (State.serve_kept _ _ _ ?_)
    | simp only [Kept.mk_iff, Kept.dict_iff, Kept.recorder_iff]
    | intro _
    | split

theorem execLoopModeWrite_kept (t : Nat) (rx : Rx) (s : State) :
    ∃ z, execLoopModeWrite t rx s = .next z ∧ Kept s z := by
  unfold execLoopModeWrite
  refine ⟨_, rfl, ?_⟩
  try dsimp only
  repeat'
    first
    | with_reducible exact Kept.refl _
    | with_reducible assumption
    | apply ownService_kept
    | apply writeService_kept
    | with_reducible apply Kept.trans ?_ (State.at_kept _ _)
    | with_reducible apply Kept.trans ?_ (State.serve_kept _ _ _)
    | with_reducible apply Kept.trans ?_ (State.accept_kept _ _ _ _ _)
    | with_reducible apply Kept.trans ?_ (State.putEng_kept _ _ _)
    | with_reducible apply Kept.trans ?_ (State.store_kept _ _ _ _ _)
    | with_reducible apply Kept.trans ?_ (State.serve_kept _ _ _ ?_)
    | simp only [Kept.mk_iff, Kept.dict_iff, Kept.recorder_iff]
    | intro _
    | split

theorem execManualValueWrite_kept (t : Nat) (rx : Rx) (s : State) :
    ∃ z, execManualValueWrite t rx s = .next z ∧ Kept s z := by
  unfold execManualValueWrite
  refine ⟨_, rfl, ?_⟩
  try dsimp only
  repeat'
    first
    | with_reducible exact Kept.refl _
    | with_reducible assumption
    | apply ownService_kept
    | apply writeService_kept
    | with_reducible apply Kept.trans ?_ (State.at_kept _ _)
    | with_reducible apply Kept.trans ?_ (State.serve_kept _ _ _)
    | with_reducible apply Kept.trans ?_ (State.store_kept _ _ _ _ _)
    | with_reducible apply Kept.trans ?_ (State.serve_kept _ _ _ ?_)
    | simp only [Kept.mk_iff, Kept.dict_iff, Kept.recorder_iff]
    | intro _
    | split

theorem execBrEnableWrite_kept (t : Nat) (rx : Rx) (s : State) :
    ∃ z, execBrEnableWrite t rx s = .next z ∧ Kept s z := by
  unfold execBrEnableWrite
  refine ⟨_, rfl, ?_⟩
  try dsimp only
  repeat'
    first
    | with_reducible exact Kept.refl _
    | with_reducible assumption
    | apply ownService_kept
    | apply writeService_kept
    | with_reducible apply Kept.trans ?_ (State.at_kept _ _)
    | with_reducible apply Kept.trans ?_ (State.serve_kept _ _ _)
    | with_reducible apply Kept.trans ?_ (State.store_kept _ _ _ _ _)
    | with_reducible apply Kept.trans ?_ (State.serve_kept _ _ _ ?_)
    | simp only [Kept.mk_iff, Kept.dict_iff, Kept.recorder_iff]
    | intro _
    | split

theorem execHistCountWrite_kept (t : Nat) (rx : Rx) (s : State) :
    ∃ z, execHistCountWrite t rx s = .next z ∧ Kept s z := by
  unfold execHistCountWrite
  refine ⟨_, rfl, ?_⟩
  try dsimp only
  repeat'
    first
    | with_reducible exact Kept.refl _
    | with_reducible assumption
    | apply ownService_kept
    | apply writeService_kept
    | with_reducible apply Kept.trans ?_ (State.at_kept _ _)
    | with_reducible apply Kept.trans ?_ (State.serve_kept _ _ _)
    | with_reducible apply Kept.trans ?_ (State.store_kept _ _ _ _ _)
    | with_reducible apply Kept.trans ?_ (State.serve_kept _ _ _ ?_)
    | simp only [Kept.mk_iff, Kept.dict_iff, Kept.recorder_iff]
    | intro _
    | split

theorem execLatchClear_kept (t : Nat) (rx : Rx) (s : State) : ∃ z, execLatchClear t rx s = .next z ∧ Kept s z := by
  unfold execLatchClear
  refine ⟨_, rfl, ?_⟩
  repeat'
    first
    | with_reducible exact Kept.refl _
    | apply writeService_kept
    | with_reducible apply Kept.trans ?_ (State.at_kept _ _)
    | with_reducible apply Kept.trans ?_ (State.setU_kept _ _ _ _)
    | with_reducible apply Kept.trans ?_ (State.serve_kept _ _ _ ?_)
    | intro _

theorem execOpen_kept (t : Nat) (rx : Rx) (s : State) : ∃ z, execOpen t rx s = .next z ∧ Kept s z := by
  unfold execOpen
  refine ⟨_, rfl, ?_⟩
  refine (State.at_kept s t).trans (State.serve_kept _ _ _ fun q live u hc => ?_)
  dsimp only [openService] at *
  refine State.openRun_kept u q ?_
  unfold State.openCodes at hc
  split at hc
  · cases hc
  · have h := (List.append_eq_nil_iff.1 hc).2
    simpa [codeIf] using h

theorem execProve_kept (t : Nat) (rx : Rx) (s : State) : ∃ z, execProve t rx s = .next z ∧ Kept s z := by
  unfold execProve
  refine ⟨_, rfl, ?_⟩
  repeat'
    first
    | with_reducible exact Kept.refl _
    | with_reducible apply Kept.trans ?_ (State.at_kept _ _)
    | with_reducible apply Kept.trans ?_ (State.proveRun_kept _ _)
    | with_reducible apply Kept.trans ?_ (State.serve_kept _ _ _ ?_)
    | intro _
    | dsimp only [proveService]

theorem execProveTimeout_kept (t : Nat) (session : Nat) (s : State) :
    ∃ z, execProveTimeout t session s = .next z ∧ Kept s z := by
  unfold execProveTimeout
  refine ⟨_, rfl, ?_⟩
  repeat'
    first
    | with_reducible exact Kept.refl _
    | with_reducible apply Kept.trans ?_ (State.at_kept _ _)
    | with_reducible apply Kept.trans ?_ (State.when_kept _ _ _ ?_)
    | with_reducible apply Kept.trans ?_ (State.closeSession_kept _ _)
    | intro _
    | split

theorem execClose_kept (t : Nat) (rx : Rx) (s : State) : ∃ z, execClose t rx s = .next z ∧ Kept s z := by
  unfold execClose
  refine ⟨_, rfl, ?_⟩
  repeat'
    first
    | with_reducible exact Kept.refl _
    | with_reducible apply Kept.trans ?_ (State.at_kept _ _)
    | with_reducible apply Kept.trans ?_ (State.closeSession_kept _ _)
    | with_reducible apply Kept.trans ?_ (State.serve_kept _ _ _ ?_)
    | intro _
    | dsimp only [closeService]

theorem execSessionIdleTimeout_kept (t : Nat) (session : Nat) (s : State) :
    ∃ z, execSessionIdleTimeout t session s = .next z ∧ Kept s z := by
  unfold execSessionIdleTimeout
  refine ⟨_, rfl, ?_⟩
  try dsimp only
  repeat'
    first
    | with_reducible exact Kept.refl _
    | with_reducible assumption
    | with_reducible apply Kept.trans ?_ (State.at_kept _ _)
    | with_reducible apply Kept.trans ?_ (State.when_kept _ _ _ ?_)
    | with_reducible apply Kept.trans ?_ (State.closeSession_kept _ _)
    | simp only [Kept.mk_iff, Kept.dict_iff, Kept.recorder_iff]
    | intro _
    | split

theorem execReplyCacheExpiry_kept (t : Nat) (s : State) : ∃ z, execReplyCacheExpiry t s = .next z ∧ Kept s z := by
  unfold execReplyCacheExpiry
  refine ⟨_, rfl, ?_⟩
  dsimp only
  refine (State.at_kept s t).trans ?_
  refine Kept.of_dict rfl rfl rfl (fun b => ?_) rfl
  simp only [Dict.bounded, Bool.and_eq_true, decide_eq_true_eq] at *
  exact ⟨⟨⟨Nat.le_trans (List.length_filter_le _ _) b.1.1.1, b.1.1.2⟩, b.1.2⟩, b.2⟩

theorem execUnknownOp_kept (t : Nat) (rx : Rx) (s : State) : ∃ z, execUnknownOp t rx s = .next z ∧ Kept s z := by
  unfold execUnknownOp
  refine ⟨_, rfl, ?_⟩
  try dsimp only
  repeat'
    first
    | with_reducible exact Kept.refl _
    | with_reducible assumption
    | with_reducible apply Kept.trans ?_ (State.at_kept _ _)
    | with_reducible apply Kept.trans ?_ (State.serve_kept _ _ _)
    | with_reducible apply Kept.trans ?_ (State.serve_kept _ _ _ ?_)
    | simp only [Kept.mk_iff, Kept.dict_iff, Kept.recorder_iff]
    | intro _
    | dsimp only [unknownOpService]
    | split

end Sys2Proof.Machine
end

