-- ==== Sys2Proof/WellFormed.lean ====
section
/-! DEFINITION. Commands whose operands lie in the ranges the spec gives their units (R28, R137, R646), addresses of 128
bits and ports of 16 bits. The machine gives every command a meaning; an operand outside its range names no unit and its
command finds nothing to do. -/

namespace Sys2Proof

open Sys2Proof.Machine

/-- Whether a unit number lies below the number of its units. -/
def below (n u : Nat) : Bool := decide (u < n)

/-- Whether a number is an IPv6 address. -/
def address (a : Nat) : Bool := decide (a < 2 ^ 128)

/-- A datagram: IPv6 source, 16-bit ports, and no more octets than UDP carries. -/
def Machine.Rx.wf (r : Rx) : Bool :=
  address r.src && below 65536 r.sport && below 65536 r.dport && decide (r.bytes.length ≤ 65527)

/-- A CAN frame: an identifier of 11 or 29 bits, and the octets its format carries (R513). -/
def Machine.CanFrame.wf (f : CanFrame) : Bool :=
  decide (f.id < if f.ext then 2 ^ 29 else 2 ^ 11) && decide (f.data.length ≤ if f.fdf then 64 else 8)

/-- Whether a command is well formed. -/
def Instr.wf : Instr → Bool
  | .powerGood _ => true
  | .fanPowerUpStagger _ => true
  | .bootRomAndFuses _ _ => true
  | .framRead _ _ _ => true
  | .hubAndKeepersBist _ _ _ => true
  | .arrayGroupPower _ => true
  | .arraysBist _ _ => true
  | .iocLinkStart _ _ => true
  | .bootRequest _ => true
  | .bootOffer _ rx => rx.wf
  | .bootData _ rx => rx.wf
  | .bootReadTimeout _ _ => true
  | .imageCheck _ => true
  | .stacksStart _ _ => true
  | .firmwareStart _ _ => true
  | .wheelStep _ => true
  | .wheelStartTimeout _ => true
  | .iocUnitsBist _ _ _ => true
  | .arm _ => true
  | .startTimerExpiry _ => true
  | .requiredStepRetry _ => true
  | .startCmd _ rx => rx.wf
  | .restartReset _ => true
  | .classLift _ => true
  | .tickBoundary _ _ => true
  | .turnBoundary _ _ => true
  | .classWidenLower _ cls => below 256 cls
  | .periodPublish _ n => below 16 n
  | .periodWithdraw _ n => below 16 n
  | .ainTakeover _ ch => below 80 ch
  | .mainsCycle _ phase => below 3 phase
  | .mainsAbsent _ => true
  | .holdoverLong _ => true
  | .wheelNotice _ => true
  | .wheelNoticeRepeat _ => true
  | .wheelPhaseWrite _ rx => rx.wf
  | .ptpSync _ => true
  | .ptpAnnounce _ => true
  | .ptpDelayReq _ rx => rx.wf
  | .cageCheck _ _ => true
  | .cageRecheck _ _ => true
  | .opticalModulePowerUp _ _ => true
  | .autoNegotiation _ _ => true
  | .linkTraining _ _ => true
  | .pcsAlignment _ _ => true
  | .linkHoldUp _ => true
  | .linkAttemptFail _ _ => true
  | .laneMapRoundWait _ => true
  | .linkDown _ _ => true
  | .sendResume _ => true
  | .frameReceive _ f => f.rx.wf
  | .duplicateAddressDetection _ _ _ => true
  | .dadRetry _ => true
  | .routerAdvertisement _ pfx _ _ => address pfx
  | .neighbourSolicitation _ src target => address src && address target
  | .echoRequest _ src dst _ => address src && address dst
  | .egressServe _ => true
  | .read _ rx => rx.wf
  | .write _ rx => rx.wf
  | .latchClear _ rx => rx.wf
  | .deferredWriteApply _ _ => true
  | .readBulk _ rx => rx.wf
  | .bulkFragment _ _ => true
  | .writeBulk _ rx => rx.wf
  | .writeBulkApply _ => true
  | .subscribe _ rx => rx.wf
  | .subscriptionPush _ src sport subId => address src && below 65536 sport && below 64 subId
  | .subscriptionLapse _ src sport subId => address src && below 65536 sport && below 64 subId
  | .openSession _ rx => rx.wf
  | .prove _ rx => rx.wf
  | .proveTimeout _ _ => true
  | .close _ rx => rx.wf
  | .sessionIdleTimeout _ _ => true
  | .replyCacheExpiry _ => true
  | .checkInRequest _ rx => rx.wf
  | .checkInServe _ => true
  | .passportTakeForce _ slot => below 131072 slot
  | .rejoinCutResend _ slot => below 131072 slot
  | .checkOutRequest _ rx => rx.wf
  | .checkOutFree _ slot => below 131072 slot
  | .telemetryBundle _ rx => rx.wf
  | .deferredCutRequeue _ => true
  | .rowCutRefresh _ _ => true
  | .guardRelease _ slot => below 131072 slot
  | .releaseSend _ slot => below 131072 slot
  | .capBundleBuild _ cls _ => below 3 cls
  | .recordParse _ lane => below 16 lane
  | .disobeyResend _ slot => below 131072 slot
  | .guestDisobedient _ slot => below 131072 slot
  | .disobeyClear _ slot => below 131072 slot
  | .countingTickEnd _ => true
  | .guestStale _ slot => below 131072 slot
  | .staleCapSend _ slot => below 131072 slot
  | .staleEnd _ slot => below 131072 slot
  | .absenceTimeout _ slot => below 131072 slot
  | .guestLapse _ slot => below 131072 slot
  | .reserveExpiry _ slot => below 131072 slot
  | .pairEpisodeEnd _ slot _ => below 131072 slot
  | .pairPersistReached _ slot _ => below 131072 slot
  | .capRefresh _ slot => below 131072 slot
  | .summaryStepEnd _ => true
  | .allocationPeriodStart _ => true
  | .allocationPeriodEnd _ => true
  | .allocateEgressTick _ => true
  | .rowProgramStep _ => true
  | .measurementCutoff _ => true
  | .settleEnd _ slot => below 131072 slot
  | .classFallback _ cls => below 256 cls
  | .leakSuspect _ branch _ => below 40 branch
  | .hingeRebuildStart _ slot k => below 16 slot && below 8 k
  | .hingeRebuild _ rx => rx.wf
  | .hingeValidate _ slot k => below 16 slot && below 8 k
  | .hingePreloadDone _ slot k => below 16 slot && below 8 k
  | .hingeSwap _ slot k => below 16 slot && below 8 k
  | .hingeStale _ slot k => below 16 slot && below 8 k
  | .progUploadBegin _ rx => rx.wf
  | .progUploadChunk _ rx => rx.wf
  | .progUploadCommit _ rx => rx.wf
  | .progFitComplete _ slot => below 16 slot
  | .progInstall _ slot => below 16 slot
  | .progUploadUnload _ rx => rx.wf
  | .progStop _ slot => below 16 slot
  | .progFeed _ rx => rx.wf
  | .progFeedApply _ slot => below 16 slot
  | .progStepStart _ slot => below 16 slot
  | .progStepComplete _ slot _ => below 16 slot
  | .progPublish _ slot => below 16 slot
  | .parityError _ array => below 144 array
  | .stepOverrun _ array => below 144 array
  | .arrayBlockError _ array _ => below 144 array
  | .migration _ array => below 144 array
  | .rotationPreload _ region => below 4 region
  | .rotation _ region => below 4 region
  | .regionFence _ region => below 4 region
  | .regionReconfigure _ region => below 4 region
  | .chipLevelError _ => true
  | .lineUncorrectable _ stack _ => below 4 stack
  | .rowSpare _ stack _ _ => below 4 stack
  | .pageRetire _ stack _ => below 4 stack
  | .patrolScrubPass _ stack _ => below 4 stack
  | .channelLoss _ stack channel => below 4 stack && below 18 channel
  | .channelSpare _ stack slot => below 4 stack && below 16 slot
  | .zeroFillDone _ stack channel => below 4 stack && below 18 channel
  | .stackLoss _ stack => below 4 stack
  | .stackHot _ stack _ => below 4 stack
  | .iocLaneFail _ lane => below 14 lane
  | .iocLaneSpare _ => true
  | .iocLinkLoss _ => true
  | .sensorDelivery _ _ => true
  | .loopRun _ engine => below 256 engine
  | .feedbackHoldTimeout _ engine => below 256 engine
  | .followingErrorFault _ engine => below 256 engine
  | .loopSlotMissed _ engine => below 256 engine
  | .engineBlockError _ engine => below 256 engine
  | .engineTakeover _ engine _ => below 256 engine
  | .loopModeWrite _ rx => rx.wf
  | .manualValueWrite _ rx => rx.wf
  | .loopCmdAccept _ rx => rx.wf
  | .loopCmdClearTable _ rx => rx.wf
  | .phaseSourceWrite _ rx => rx.wf
  | .outputHandoff _ => true
  | .actuatorUpdate _ => true
  | .valveCmdDeenergise _ rx => rx.wf
  | .valveCmdEnergise _ rx => rx.wf
  | .valveCmdClear _ rx => rx.wf
  | .boostAdmit _ bank => below 14 bank
  | .boostEnd _ ch _ => below 56 ch
  | .boostTimeout _ ch => below 56 ch
  | .peakEnd _ ch => below 56 ch
  | .boostWaitLong _ bank => below 14 bank
  | .descentEnd _ ch _ => below 56 ch
  | .releaseEnd _ ch _ => below 56 ch
  | .seatKink _ ch _ => below 56 ch
  | .seatWindowEnd _ ch => below 56 ch
  | .seatResultPublish _ ch => below 56 ch
  | .valveOpenOn _ ch _ => below 56 ch
  | .valveShort _ ch => below 56 ch
  | .valveShortRetry _ ch => below 56 ch
  | .bankOvercurrent _ bank _ => below 14 bank
  | .valveHot _ ch _ => below 56 ch
  | .valveDriverFault _ ch _ => below 56 ch
  | .valveTakeover _ ch => below 56 ch
  | .valveSwitchDone _ ch => below 56 ch
  | .valveFeedLow _ _ => true
  | .valveFeedRestore _ _ => true
  | .boostVApply _ => true
  | .speedLoopRun _ ch _ => below 34 ch
  | .fanWatchdog _ => true
  | .fanStaggerStart _ => true
  | .fanStartEnd _ ch => below 34 ch
  | .fanKickEnd _ ch => below 34 ch
  | .fanPauseEnd _ ch => below 34 ch
  | .fanStallRetry _ ch => below 34 ch
  | .tachAbsent _ ch => below 34 ch
  | .tachRestored _ ch => below 34 ch
  | .fanOverload _ ch => below 34 ch
  | .fanHot _ ch _ => below 34 ch
  | .fanCmd _ rx => rx.wf
  | .fanFeedLow _ _ => true
  | .fanFeedRestore _ _ => true
  | .fanDriverFault _ ch => below 34 ch
  | .fanTakeover _ ch => below 34 ch
  | .fanSwitchDone _ ch => below 34 ch
  | .ifanTakeover _ n => below 6 n
  | .canFrameReceive _ port f => below 8 port && f.wf
  | .canTxDone _ port _ => below 8 port
  | .canError _ port _ => below 8 port
  | .fbCmdRejoin _ rx => rx.wf
  | .busOffRecoveryDone _ port => below 8 port
  | .aloneEnter _ port => below 8 port
  | .aloneProbe _ port => below 8 port
  | .fbCmdProbe _ rx => rx.wf
  | .rxObjectStale _ obj => below 2048 obj
  | .suppressionEnd _ port => below 8 port
  | .fbIntegrateDone _ port => below 8 port
  | .fbPortFence _ port => below 8 port
  | .plantSupervisorRun _ => true
  | .trendEnd _ branch => below 40 branch
  | .flowRecovery _ branch => below 40 branch
  | .plantClassLift _ branch => below 40 branch
  | .pumpStartTimeout _ set pump => below 8 set && below 3 pump
  | .pumpStandbyReturn _ set pump => below 8 set && below 3 pump
  | .leadRebind _ set => below 8 set
  | .pumpRotation _ set => below 8 set
  | .psCmd _ rx => rx.wf
  | .plantFanHoldRelease _ => true
  | .ropeMeasure _ rope _ => below 16 rope
  | .isolationCloseDemand _ branch => below 40 branch
  | .isolationRetryClose _ branch => below 40 branch
  | .brCmdEndIsolation _ rx => rx.wf
  | .brCmdDeclareLeak _ rx => rx.wf
  | .brEnableWrite _ rx => rx.wf
  | .plantRowCutRefresh _ branch => below 40 branch
  | .dieOvertempError _ => true
  | .logCommit _ _ => true
  | .eventsLostRecord _ => true
  | .logPageRetire _ _ _ => true
  | .histSet _ rx => rx.wf
  | .histCountWrite _ rx => rx.wf
  | .recCmdClearLog _ rx => rx.wf
  | .recCmdClearHistograms _ rx => rx.wf
  | .recCmdClearGuestHistory _ rx => rx.wf
  | .recCmdClearDieRainflow _ rx => rx.wf
  | .recCmdClearFramLastgasp _ rx => rx.wf
  | .recCmdComplete _ => true
  | .logicPowerLoss _ => true
  | .framCopyDone _ => true
  | .feedLost _ feed => below 2 feed
  | .feedRange _ feed => below 2 feed
  | .actFuseOpen _ => true
  | .actFuseReclose _ => true
  | .actCmd _ rx => rx.wf
  | .actOverload _ => true
  | .keyEnrol _ rx => rx.wf
  | .keyRevoke _ rx => rx.wf
  | .fuseSecRaise _ rx => rx.wf
  | .fuseKeyRevoke _ rx => rx.wf
  | .stanceWrite _ rx => rx.wf
  | .bistComplete _ row _ => below 674 row
  | .bistResult _ row => below 674 row
  | .bistTimeout _ row => below 674 row
  | .spareRetest _ kind => below 17 kind
  | .plannedTest _ kind => below 17 kind
  | .keeperBlockError _ keeper => below 18 keeper
  | .progStorageMoveDone _ slot => below 16 slot
  | .ainSwitchDone _ ch => below 80 ch
  | .unknownOp _ rx => rx.wf

/-- The instant a command happens at. -/
def Instr.time : Instr → Nat
  | .powerGood t => t
  | .fanPowerUpStagger t => t
  | .bootRomAndFuses t _ => t
  | .framRead t _ _ => t
  | .hubAndKeepersBist t _ _ => t
  | .arrayGroupPower t => t
  | .arraysBist t _ => t
  | .iocLinkStart t _ => t
  | .bootRequest t => t
  | .bootOffer t _ => t
  | .bootData t _ => t
  | .bootReadTimeout t _ => t
  | .imageCheck t => t
  | .stacksStart t _ => t
  | .firmwareStart t _ => t
  | .wheelStep t => t
  | .wheelStartTimeout t => t
  | .iocUnitsBist t _ _ => t
  | .arm t => t
  | .startTimerExpiry t => t
  | .requiredStepRetry t => t
  | .startCmd t _ => t
  | .restartReset t => t
  | .classLift t => t
  | .tickBoundary t _ => t
  | .turnBoundary t _ => t
  | .classWidenLower t _ => t
  | .periodPublish t _ => t
  | .periodWithdraw t _ => t
  | .ainTakeover t _ => t
  | .mainsCycle t _ => t
  | .mainsAbsent t => t
  | .holdoverLong t => t
  | .wheelNotice t => t
  | .wheelNoticeRepeat t => t
  | .wheelPhaseWrite t _ => t
  | .ptpSync t => t
  | .ptpAnnounce t => t
  | .ptpDelayReq t _ => t
  | .cageCheck t _ => t
  | .cageRecheck t _ => t
  | .opticalModulePowerUp t _ => t
  | .autoNegotiation t _ => t
  | .linkTraining t _ => t
  | .pcsAlignment t _ => t
  | .linkHoldUp t => t
  | .linkAttemptFail t _ => t
  | .laneMapRoundWait t => t
  | .linkDown t _ => t
  | .sendResume t => t
  | .frameReceive t _ => t
  | .duplicateAddressDetection t _ _ => t
  | .dadRetry t => t
  | .routerAdvertisement t _ _ _ => t
  | .neighbourSolicitation t _ _ => t
  | .echoRequest t _ _ _ => t
  | .egressServe t => t
  | .read t _ => t
  | .write t _ => t
  | .latchClear t _ => t
  | .deferredWriteApply t _ => t
  | .readBulk t _ => t
  | .bulkFragment t _ => t
  | .writeBulk t _ => t
  | .writeBulkApply t => t
  | .subscribe t _ => t
  | .subscriptionPush t _ _ _ => t
  | .subscriptionLapse t _ _ _ => t
  | .openSession t _ => t
  | .prove t _ => t
  | .proveTimeout t _ => t
  | .close t _ => t
  | .sessionIdleTimeout t _ => t
  | .replyCacheExpiry t => t
  | .checkInRequest t _ => t
  | .checkInServe t => t
  | .passportTakeForce t _ => t
  | .rejoinCutResend t _ => t
  | .checkOutRequest t _ => t
  | .checkOutFree t _ => t
  | .telemetryBundle t _ => t
  | .deferredCutRequeue t => t
  | .rowCutRefresh t _ => t
  | .guardRelease t _ => t
  | .releaseSend t _ => t
  | .capBundleBuild t _ _ => t
  | .recordParse t _ => t
  | .disobeyResend t _ => t
  | .guestDisobedient t _ => t
  | .disobeyClear t _ => t
  | .countingTickEnd t => t
  | .guestStale t _ => t
  | .staleCapSend t _ => t
  | .staleEnd t _ => t
  | .absenceTimeout t _ => t
  | .guestLapse t _ => t
  | .reserveExpiry t _ => t
  | .pairEpisodeEnd t _ _ => t
  | .pairPersistReached t _ _ => t
  | .capRefresh t _ => t
  | .summaryStepEnd t => t
  | .allocationPeriodStart t => t
  | .allocationPeriodEnd t => t
  | .allocateEgressTick t => t
  | .rowProgramStep t => t
  | .measurementCutoff t => t
  | .settleEnd t _ => t
  | .classFallback t _ => t
  | .leakSuspect t _ _ => t
  | .hingeRebuildStart t _ _ => t
  | .hingeRebuild t _ => t
  | .hingeValidate t _ _ => t
  | .hingePreloadDone t _ _ => t
  | .hingeSwap t _ _ => t
  | .hingeStale t _ _ => t
  | .progUploadBegin t _ => t
  | .progUploadChunk t _ => t
  | .progUploadCommit t _ => t
  | .progFitComplete t _ => t
  | .progInstall t _ => t
  | .progUploadUnload t _ => t
  | .progStop t _ => t
  | .progFeed t _ => t
  | .progFeedApply t _ => t
  | .progStepStart t _ => t
  | .progStepComplete t _ _ => t
  | .progPublish t _ => t
  | .parityError t _ => t
  | .stepOverrun t _ => t
  | .arrayBlockError t _ _ => t
  | .migration t _ => t
  | .rotationPreload t _ => t
  | .rotation t _ => t
  | .regionFence t _ => t
  | .regionReconfigure t _ => t
  | .chipLevelError t => t
  | .lineUncorrectable t _ _ => t
  | .rowSpare t _ _ _ => t
  | .pageRetire t _ _ => t
  | .patrolScrubPass t _ _ => t
  | .channelLoss t _ _ => t
  | .channelSpare t _ _ => t
  | .zeroFillDone t _ _ => t
  | .stackLoss t _ => t
  | .stackHot t _ _ => t
  | .iocLaneFail t _ => t
  | .iocLaneSpare t => t
  | .iocLinkLoss t => t
  | .sensorDelivery t _ => t
  | .loopRun t _ => t
  | .feedbackHoldTimeout t _ => t
  | .followingErrorFault t _ => t
  | .loopSlotMissed t _ => t
  | .engineBlockError t _ => t
  | .engineTakeover t _ _ => t
  | .loopModeWrite t _ => t
  | .manualValueWrite t _ => t
  | .loopCmdAccept t _ => t
  | .loopCmdClearTable t _ => t
  | .phaseSourceWrite t _ => t
  | .outputHandoff t => t
  | .actuatorUpdate t => t
  | .valveCmdDeenergise t _ => t
  | .valveCmdEnergise t _ => t
  | .valveCmdClear t _ => t
  | .boostAdmit t _ => t
  | .boostEnd t _ _ => t
  | .boostTimeout t _ => t
  | .peakEnd t _ => t
  | .boostWaitLong t _ => t
  | .descentEnd t _ _ => t
  | .releaseEnd t _ _ => t
  | .seatKink t _ _ => t
  | .seatWindowEnd t _ => t
  | .seatResultPublish t _ => t
  | .valveOpenOn t _ _ => t
  | .valveShort t _ => t
  | .valveShortRetry t _ => t
  | .bankOvercurrent t _ _ => t
  | .valveHot t _ _ => t
  | .valveDriverFault t _ _ => t
  | .valveTakeover t _ => t
  | .valveSwitchDone t _ => t
  | .valveFeedLow t _ => t
  | .valveFeedRestore t _ => t
  | .boostVApply t => t
  | .speedLoopRun t _ _ => t
  | .fanWatchdog t => t
  | .fanStaggerStart t => t
  | .fanStartEnd t _ => t
  | .fanKickEnd t _ => t
  | .fanPauseEnd t _ => t
  | .fanStallRetry t _ => t
  | .tachAbsent t _ => t
  | .tachRestored t _ => t
  | .fanOverload t _ => t
  | .fanHot t _ _ => t
  | .fanCmd t _ => t
  | .fanFeedLow t _ => t
  | .fanFeedRestore t _ => t
  | .fanDriverFault t _ => t
  | .fanTakeover t _ => t
  | .fanSwitchDone t _ => t
  | .ifanTakeover t _ => t
  | .canFrameReceive t _ _ => t
  | .canTxDone t _ _ => t
  | .canError t _ _ => t
  | .fbCmdRejoin t _ => t
  | .busOffRecoveryDone t _ => t
  | .aloneEnter t _ => t
  | .aloneProbe t _ => t
  | .fbCmdProbe t _ => t
  | .rxObjectStale t _ => t
  | .suppressionEnd t _ => t
  | .fbIntegrateDone t _ => t
  | .fbPortFence t _ => t
  | .plantSupervisorRun t => t
  | .trendEnd t _ => t
  | .flowRecovery t _ => t
  | .plantClassLift t _ => t
  | .pumpStartTimeout t _ _ => t
  | .pumpStandbyReturn t _ _ => t
  | .leadRebind t _ => t
  | .pumpRotation t _ => t
  | .psCmd t _ => t
  | .plantFanHoldRelease t => t
  | .ropeMeasure t _ _ => t
  | .isolationCloseDemand t _ => t
  | .isolationRetryClose t _ => t
  | .brCmdEndIsolation t _ => t
  | .brCmdDeclareLeak t _ => t
  | .brEnableWrite t _ => t
  | .plantRowCutRefresh t _ => t
  | .dieOvertempError t => t
  | .logCommit t _ => t
  | .eventsLostRecord t => t
  | .logPageRetire t _ _ => t
  | .histSet t _ => t
  | .histCountWrite t _ => t
  | .recCmdClearLog t _ => t
  | .recCmdClearHistograms t _ => t
  | .recCmdClearGuestHistory t _ => t
  | .recCmdClearDieRainflow t _ => t
  | .recCmdClearFramLastgasp t _ => t
  | .recCmdComplete t => t
  | .logicPowerLoss t => t
  | .framCopyDone t => t
  | .feedLost t _ => t
  | .feedRange t _ => t
  | .actFuseOpen t => t
  | .actFuseReclose t => t
  | .actCmd t _ => t
  | .actOverload t => t
  | .keyEnrol t _ => t
  | .keyRevoke t _ => t
  | .fuseSecRaise t _ => t
  | .fuseKeyRevoke t _ => t
  | .stanceWrite t _ => t
  | .bistComplete t _ _ => t
  | .bistResult t _ => t
  | .bistTimeout t _ => t
  | .spareRetest t _ => t
  | .plannedTest t _ => t
  | .keeperBlockError t _ => t
  | .progStorageMoveDone t _ => t
  | .ainSwitchDone t _ => t
  | .unknownOp t _ => t

/-- The datagram a command carries. -/
def Instr.datagram : Instr → Option Rx
  | .powerGood _ => none
  | .fanPowerUpStagger _ => none
  | .bootRomAndFuses _ _ => none
  | .framRead _ _ _ => none
  | .hubAndKeepersBist _ _ _ => none
  | .arrayGroupPower _ => none
  | .arraysBist _ _ => none
  | .iocLinkStart _ _ => none
  | .bootRequest _ => none
  | .bootOffer _ rx => some rx
  | .bootData _ rx => some rx
  | .bootReadTimeout _ _ => none
  | .imageCheck _ => none
  | .stacksStart _ _ => none
  | .firmwareStart _ _ => none
  | .wheelStep _ => none
  | .wheelStartTimeout _ => none
  | .iocUnitsBist _ _ _ => none
  | .arm _ => none
  | .startTimerExpiry _ => none
  | .requiredStepRetry _ => none
  | .startCmd _ rx => some rx
  | .restartReset _ => none
  | .classLift _ => none
  | .tickBoundary _ _ => none
  | .turnBoundary _ _ => none
  | .classWidenLower _ _ => none
  | .periodPublish _ _ => none
  | .periodWithdraw _ _ => none
  | .ainTakeover _ _ => none
  | .mainsCycle _ _ => none
  | .mainsAbsent _ => none
  | .holdoverLong _ => none
  | .wheelNotice _ => none
  | .wheelNoticeRepeat _ => none
  | .wheelPhaseWrite _ rx => some rx
  | .ptpSync _ => none
  | .ptpAnnounce _ => none
  | .ptpDelayReq _ rx => some rx
  | .cageCheck _ _ => none
  | .cageRecheck _ _ => none
  | .opticalModulePowerUp _ _ => none
  | .autoNegotiation _ _ => none
  | .linkTraining _ _ => none
  | .pcsAlignment _ _ => none
  | .linkHoldUp _ => none
  | .linkAttemptFail _ _ => none
  | .laneMapRoundWait _ => none
  | .linkDown _ _ => none
  | .sendResume _ => none
  | .frameReceive _ f => some f.rx
  | .duplicateAddressDetection _ _ _ => none
  | .dadRetry _ => none
  | .routerAdvertisement _ _ _ _ => none
  | .neighbourSolicitation _ _ _ => none
  | .echoRequest _ _ _ _ => none
  | .egressServe _ => none
  | .read _ rx => some rx
  | .write _ rx => some rx
  | .latchClear _ rx => some rx
  | .deferredWriteApply _ _ => none
  | .readBulk _ rx => some rx
  | .bulkFragment _ _ => none
  | .writeBulk _ rx => some rx
  | .writeBulkApply _ => none
  | .subscribe _ rx => some rx
  | .subscriptionPush _ _ _ _ => none
  | .subscriptionLapse _ _ _ _ => none
  | .openSession _ rx => some rx
  | .prove _ rx => some rx
  | .proveTimeout _ _ => none
  | .close _ rx => some rx
  | .sessionIdleTimeout _ _ => none
  | .replyCacheExpiry _ => none
  | .checkInRequest _ rx => some rx
  | .checkInServe _ => none
  | .passportTakeForce _ _ => none
  | .rejoinCutResend _ _ => none
  | .checkOutRequest _ rx => some rx
  | .checkOutFree _ _ => none
  | .telemetryBundle _ rx => some rx
  | .deferredCutRequeue _ => none
  | .rowCutRefresh _ _ => none
  | .guardRelease _ _ => none
  | .releaseSend _ _ => none
  | .capBundleBuild _ _ _ => none
  | .recordParse _ _ => none
  | .disobeyResend _ _ => none
  | .guestDisobedient _ _ => none
  | .disobeyClear _ _ => none
  | .countingTickEnd _ => none
  | .guestStale _ _ => none
  | .staleCapSend _ _ => none
  | .staleEnd _ _ => none
  | .absenceTimeout _ _ => none
  | .guestLapse _ _ => none
  | .reserveExpiry _ _ => none
  | .pairEpisodeEnd _ _ _ => none
  | .pairPersistReached _ _ _ => none
  | .capRefresh _ _ => none
  | .summaryStepEnd _ => none
  | .allocationPeriodStart _ => none
  | .allocationPeriodEnd _ => none
  | .allocateEgressTick _ => none
  | .rowProgramStep _ => none
  | .measurementCutoff _ => none
  | .settleEnd _ _ => none
  | .classFallback _ _ => none
  | .leakSuspect _ _ _ => none
  | .hingeRebuildStart _ _ _ => none
  | .hingeRebuild _ rx => some rx
  | .hingeValidate _ _ _ => none
  | .hingePreloadDone _ _ _ => none
  | .hingeSwap _ _ _ => none
  | .hingeStale _ _ _ => none
  | .progUploadBegin _ rx => some rx
  | .progUploadChunk _ rx => some rx
  | .progUploadCommit _ rx => some rx
  | .progFitComplete _ _ => none
  | .progInstall _ _ => none
  | .progUploadUnload _ rx => some rx
  | .progStop _ _ => none
  | .progFeed _ rx => some rx
  | .progFeedApply _ _ => none
  | .progStepStart _ _ => none
  | .progStepComplete _ _ _ => none
  | .progPublish _ _ => none
  | .parityError _ _ => none
  | .stepOverrun _ _ => none
  | .arrayBlockError _ _ _ => none
  | .migration _ _ => none
  | .rotationPreload _ _ => none
  | .rotation _ _ => none
  | .regionFence _ _ => none
  | .regionReconfigure _ _ => none
  | .chipLevelError _ => none
  | .lineUncorrectable _ _ _ => none
  | .rowSpare _ _ _ _ => none
  | .pageRetire _ _ _ => none
  | .patrolScrubPass _ _ _ => none
  | .channelLoss _ _ _ => none
  | .channelSpare _ _ _ => none
  | .zeroFillDone _ _ _ => none
  | .stackLoss _ _ => none
  | .stackHot _ _ _ => none
  | .iocLaneFail _ _ => none
  | .iocLaneSpare _ => none
  | .iocLinkLoss _ => none
  | .sensorDelivery _ _ => none
  | .loopRun _ _ => none
  | .feedbackHoldTimeout _ _ => none
  | .followingErrorFault _ _ => none
  | .loopSlotMissed _ _ => none
  | .engineBlockError _ _ => none
  | .engineTakeover _ _ _ => none
  | .loopModeWrite _ rx => some rx
  | .manualValueWrite _ rx => some rx
  | .loopCmdAccept _ rx => some rx
  | .loopCmdClearTable _ rx => some rx
  | .phaseSourceWrite _ rx => some rx
  | .outputHandoff _ => none
  | .actuatorUpdate _ => none
  | .valveCmdDeenergise _ rx => some rx
  | .valveCmdEnergise _ rx => some rx
  | .valveCmdClear _ rx => some rx
  | .boostAdmit _ _ => none
  | .boostEnd _ _ _ => none
  | .boostTimeout _ _ => none
  | .peakEnd _ _ => none
  | .boostWaitLong _ _ => none
  | .descentEnd _ _ _ => none
  | .releaseEnd _ _ _ => none
  | .seatKink _ _ _ => none
  | .seatWindowEnd _ _ => none
  | .seatResultPublish _ _ => none
  | .valveOpenOn _ _ _ => none
  | .valveShort _ _ => none
  | .valveShortRetry _ _ => none
  | .bankOvercurrent _ _ _ => none
  | .valveHot _ _ _ => none
  | .valveDriverFault _ _ _ => none
  | .valveTakeover _ _ => none
  | .valveSwitchDone _ _ => none
  | .valveFeedLow _ _ => none
  | .valveFeedRestore _ _ => none
  | .boostVApply _ => none
  | .speedLoopRun _ _ _ => none
  | .fanWatchdog _ => none
  | .fanStaggerStart _ => none
  | .fanStartEnd _ _ => none
  | .fanKickEnd _ _ => none
  | .fanPauseEnd _ _ => none
  | .fanStallRetry _ _ => none
  | .tachAbsent _ _ => none
  | .tachRestored _ _ => none
  | .fanOverload _ _ => none
  | .fanHot _ _ _ => none
  | .fanCmd _ rx => some rx
  | .fanFeedLow _ _ => none
  | .fanFeedRestore _ _ => none
  | .fanDriverFault _ _ => none
  | .fanTakeover _ _ => none
  | .fanSwitchDone _ _ => none
  | .ifanTakeover _ _ => none
  | .canFrameReceive _ _ _ => none
  | .canTxDone _ _ _ => none
  | .canError _ _ _ => none
  | .fbCmdRejoin _ rx => some rx
  | .busOffRecoveryDone _ _ => none
  | .aloneEnter _ _ => none
  | .aloneProbe _ _ => none
  | .fbCmdProbe _ rx => some rx
  | .rxObjectStale _ _ => none
  | .suppressionEnd _ _ => none
  | .fbIntegrateDone _ _ => none
  | .fbPortFence _ _ => none
  | .plantSupervisorRun _ => none
  | .trendEnd _ _ => none
  | .flowRecovery _ _ => none
  | .plantClassLift _ _ => none
  | .pumpStartTimeout _ _ _ => none
  | .pumpStandbyReturn _ _ _ => none
  | .leadRebind _ _ => none
  | .pumpRotation _ _ => none
  | .psCmd _ rx => some rx
  | .plantFanHoldRelease _ => none
  | .ropeMeasure _ _ _ => none
  | .isolationCloseDemand _ _ => none
  | .isolationRetryClose _ _ => none
  | .brCmdEndIsolation _ rx => some rx
  | .brCmdDeclareLeak _ rx => some rx
  | .brEnableWrite _ rx => some rx
  | .plantRowCutRefresh _ _ => none
  | .dieOvertempError _ => none
  | .logCommit _ _ => none
  | .eventsLostRecord _ => none
  | .logPageRetire _ _ _ => none
  | .histSet _ rx => some rx
  | .histCountWrite _ rx => some rx
  | .recCmdClearLog _ rx => some rx
  | .recCmdClearHistograms _ rx => some rx
  | .recCmdClearGuestHistory _ rx => some rx
  | .recCmdClearDieRainflow _ rx => some rx
  | .recCmdClearFramLastgasp _ rx => some rx
  | .recCmdComplete _ => none
  | .logicPowerLoss _ => none
  | .framCopyDone _ => none
  | .feedLost _ _ => none
  | .feedRange _ _ => none
  | .actFuseOpen _ => none
  | .actFuseReclose _ => none
  | .actCmd _ rx => some rx
  | .actOverload _ => none
  | .keyEnrol _ rx => some rx
  | .keyRevoke _ rx => some rx
  | .fuseSecRaise _ rx => some rx
  | .fuseKeyRevoke _ rx => some rx
  | .stanceWrite _ rx => some rx
  | .bistComplete _ _ _ => none
  | .bistResult _ _ => none
  | .bistTimeout _ _ => none
  | .spareRetest _ _ => none
  | .plannedTest _ _ => none
  | .keeperBlockError _ _ => none
  | .progStorageMoveDone _ _ => none
  | .ainSwitchDone _ _ => none
  | .unknownOp _ rx => some rx

end Sys2Proof
end

