-- ==== Sys2Proof/Laws/PerInstr.lean ====
section
/-! SUPPORT. The per-command family `Datagrams`: the datagram of a well-formed command is well formed. -/

namespace Sys2Proof.Laws.Datagrams

open Sys2Proof

/-- What is stated of each command. -/
def Statement (i : Instr) : Prop :=
  i.wf = true → ∀ r, i.datagram = some r → r.wf = true

theorem powerGood (t : Nat) : Statement (.powerGood t) := fun _ _ e => nomatch e
theorem fanPowerUpStagger (t : Nat) : Statement (.fanPowerUpStagger t) := fun _ _ e => nomatch e
theorem bootRomAndFuses (t : Nat) (ok : Bool) : Statement (.bootRomAndFuses t ok) := fun _ _ e => nomatch e
theorem framRead (t : Nat) (ok : Bool) (lifeOk : Bool) : Statement (.framRead t ok lifeOk) := fun _ _ e => nomatch e
theorem hubAndKeepersBist (t : Nat) (hubOk : Bool) (keepersPass : List Nat) : Statement (.hubAndKeepersBist t hubOk keepersPass) := fun _ _ e => nomatch e
theorem arrayGroupPower (t : Nat) : Statement (.arrayGroupPower t) := fun _ _ e => nomatch e
theorem arraysBist (t : Nat) (pass : List Nat) : Statement (.arraysBist t pass) := fun _ _ e => nomatch e
theorem iocLinkStart (t : Nat) (lanesFail : List Nat) : Statement (.iocLinkStart t lanesFail) := fun _ _ e => nomatch e
theorem bootRequest (t : Nat) : Statement (.bootRequest t) := fun _ _ e => nomatch e
theorem bootOffer (t : Nat) (rx : Machine.Rx) : Statement (.bootOffer t rx) := fun h _ e => Option.some.inj e ▸ h
theorem bootData (t : Nat) (rx : Machine.Rx) : Statement (.bootData t rx) := fun h _ e => Option.some.inj e ▸ h
theorem bootReadTimeout (t : Nat) (offset : Nat) : Statement (.bootReadTimeout t offset) := fun _ _ e => nomatch e
theorem imageCheck (t : Nat) : Statement (.imageCheck t) := fun _ _ e => nomatch e
theorem stacksStart (t : Nat) (found : List Machine.StackStart) : Statement (.stacksStart t found) := fun _ _ e => nomatch e
theorem firmwareStart (t : Nat) (iocOk : Bool) : Statement (.firmwareStart t iocOk) := fun _ _ e => nomatch e
theorem wheelStep (t : Nat) : Statement (.wheelStep t) := fun _ _ e => nomatch e
theorem wheelStartTimeout (t : Nat) : Statement (.wheelStartTimeout t) := fun _ _ e => nomatch e
theorem iocUnitsBist (t : Nat) (portsFail : List Nat) (ainFail : List Nat) : Statement (.iocUnitsBist t portsFail ainFail) := fun _ _ e => nomatch e
theorem arm (t : Nat) : Statement (.arm t) := fun _ _ e => nomatch e
theorem startTimerExpiry (t : Nat) : Statement (.startTimerExpiry t) := fun _ _ e => nomatch e
theorem requiredStepRetry (t : Nat) : Statement (.requiredStepRetry t) := fun _ _ e => nomatch e
theorem startCmd (t : Nat) (rx : Machine.Rx) : Statement (.startCmd t rx) := fun h _ e => Option.some.inj e ▸ h
theorem restartReset (t : Nat) : Statement (.restartReset t) := fun _ _ e => nomatch e
theorem classLift (t : Nat) : Statement (.classLift t) := fun _ _ e => nomatch e
theorem tickBoundary (t : Nat) (x : Machine.TickIn) : Statement (.tickBoundary t x) := fun _ _ e => nomatch e
theorem turnBoundary (t : Nat) (x : Machine.TurnIn) : Statement (.turnBoundary t x) := fun _ _ e => nomatch e
theorem classWidenLower (t : Nat) (cls : Nat) : Statement (.classWidenLower t cls) := fun _ _ e => nomatch e
theorem periodPublish (t : Nat) (n : Nat) : Statement (.periodPublish t n) := fun _ _ e => nomatch e
theorem periodWithdraw (t : Nat) (n : Nat) : Statement (.periodWithdraw t n) := fun _ _ e => nomatch e
theorem ainTakeover (t : Nat) (ch : Nat) : Statement (.ainTakeover t ch) := fun _ _ e => nomatch e
theorem mainsCycle (t : Nat) (phase : Nat) : Statement (.mainsCycle t phase) := fun _ _ e => nomatch e
theorem mainsAbsent (t : Nat) : Statement (.mainsAbsent t) := fun _ _ e => nomatch e
theorem holdoverLong (t : Nat) : Statement (.holdoverLong t) := fun _ _ e => nomatch e
theorem wheelNotice (t : Nat) : Statement (.wheelNotice t) := fun _ _ e => nomatch e
theorem wheelNoticeRepeat (t : Nat) : Statement (.wheelNoticeRepeat t) := fun _ _ e => nomatch e
theorem wheelPhaseWrite (t : Nat) (rx : Machine.Rx) : Statement (.wheelPhaseWrite t rx) := fun h _ e => Option.some.inj e ▸ h
theorem ptpSync (t : Nat) : Statement (.ptpSync t) := fun _ _ e => nomatch e
theorem ptpAnnounce (t : Nat) : Statement (.ptpAnnounce t) := fun _ _ e => nomatch e
theorem ptpDelayReq (t : Nat) (rx : Machine.Rx) : Statement (.ptpDelayReq t rx) := fun h _ e => Option.some.inj e ▸ h
theorem cageCheck (t : Nat) (cage : Machine.Cage) : Statement (.cageCheck t cage) := fun _ _ e => nomatch e
theorem cageRecheck (t : Nat) (cage : Machine.Cage) : Statement (.cageRecheck t cage) := fun _ _ e => nomatch e
theorem opticalModulePowerUp (t : Nat) (ready : Bool) : Statement (.opticalModulePowerUp t ready) := fun _ _ e => nomatch e
theorem autoNegotiation (t : Nat) (agreed : Bool) : Statement (.autoNegotiation t agreed) := fun _ _ e => nomatch e
theorem linkTraining (t : Nat) (complete : Bool) : Statement (.linkTraining t complete) := fun _ _ e => nomatch e
theorem pcsAlignment (t : Nat) (locked : Bool) : Statement (.pcsAlignment t locked) := fun _ _ e => nomatch e
theorem linkHoldUp (t : Nat) : Statement (.linkHoldUp t) := fun _ _ e => nomatch e
theorem linkAttemptFail (t : Nat) (fault : Bool) : Statement (.linkAttemptFail t fault) := fun _ _ e => nomatch e
theorem laneMapRoundWait (t : Nat) : Statement (.laneMapRoundWait t) := fun _ _ e => nomatch e
theorem linkDown (t : Nat) (cause : Nat) : Statement (.linkDown t cause) := fun _ _ e => nomatch e
theorem sendResume (t : Nat) : Statement (.sendResume t) := fun _ _ e => nomatch e
theorem frameReceive (t : Nat) (f : Machine.Frame) : Statement (.frameReceive t f) := fun h _ e => Option.some.inj e ▸ h
theorem duplicateAddressDetection (t : Nat) (linkLocal : Bool) (ok : Bool) : Statement (.duplicateAddressDetection t linkLocal ok) := fun _ _ e => nomatch e
theorem dadRetry (t : Nat) : Statement (.dadRetry t) := fun _ _ e => nomatch e
theorem routerAdvertisement (t : Nat) (pfx : Nat) (len : Nat) (autonomous : Bool) : Statement (.routerAdvertisement t pfx len autonomous) := fun _ _ e => nomatch e
theorem neighbourSolicitation (t : Nat) (src : Nat) (target : Nat) : Statement (.neighbourSolicitation t src target) := fun _ _ e => nomatch e
theorem echoRequest (t : Nat) (src : Nat) (dst : Nat) (body : Bytes) : Statement (.echoRequest t src dst body) := fun _ _ e => nomatch e
theorem egressServe (t : Nat) : Statement (.egressServe t) := fun _ _ e => nomatch e
theorem read (t : Nat) (rx : Machine.Rx) : Statement (.read t rx) := fun h _ e => Option.some.inj e ▸ h
theorem write (t : Nat) (rx : Machine.Rx) : Statement (.write t rx) := fun h _ e => Option.some.inj e ▸ h
theorem latchClear (t : Nat) (rx : Machine.Rx) : Statement (.latchClear t rx) := fun h _ e => Option.some.inj e ▸ h
theorem deferredWriteApply (t : Nat) (key : Nat) : Statement (.deferredWriteApply t key) := fun _ _ e => nomatch e
theorem readBulk (t : Nat) (rx : Machine.Rx) : Statement (.readBulk t rx) := fun h _ e => Option.some.inj e ▸ h
theorem bulkFragment (t : Nat) (id : Nat) : Statement (.bulkFragment t id) := fun _ _ e => nomatch e
theorem writeBulk (t : Nat) (rx : Machine.Rx) : Statement (.writeBulk t rx) := fun h _ e => Option.some.inj e ▸ h
theorem writeBulkApply (t : Nat) : Statement (.writeBulkApply t) := fun _ _ e => nomatch e
theorem subscribe (t : Nat) (rx : Machine.Rx) : Statement (.subscribe t rx) := fun h _ e => Option.some.inj e ▸ h
theorem subscriptionPush (t : Nat) (src : Nat) (sport : Nat) (subId : Nat) : Statement (.subscriptionPush t src sport subId) := fun _ _ e => nomatch e
theorem subscriptionLapse (t : Nat) (src : Nat) (sport : Nat) (subId : Nat) : Statement (.subscriptionLapse t src sport subId) := fun _ _ e => nomatch e
theorem openSession (t : Nat) (rx : Machine.Rx) : Statement (.openSession t rx) := fun h _ e => Option.some.inj e ▸ h
theorem prove (t : Nat) (rx : Machine.Rx) : Statement (.prove t rx) := fun h _ e => Option.some.inj e ▸ h
theorem proveTimeout (t : Nat) (session : Nat) : Statement (.proveTimeout t session) := fun _ _ e => nomatch e
theorem close (t : Nat) (rx : Machine.Rx) : Statement (.close t rx) := fun h _ e => Option.some.inj e ▸ h
theorem sessionIdleTimeout (t : Nat) (session : Nat) : Statement (.sessionIdleTimeout t session) := fun _ _ e => nomatch e
theorem replyCacheExpiry (t : Nat) : Statement (.replyCacheExpiry t) := fun _ _ e => nomatch e
theorem checkInRequest (t : Nat) (rx : Machine.Rx) : Statement (.checkInRequest t rx) := fun h _ e => Option.some.inj e ▸ h
theorem checkInServe (t : Nat) : Statement (.checkInServe t) := fun _ _ e => nomatch e
theorem passportTakeForce (t : Nat) (slot : Nat) : Statement (.passportTakeForce t slot) := fun _ _ e => nomatch e
theorem rejoinCutResend (t : Nat) (slot : Nat) : Statement (.rejoinCutResend t slot) := fun _ _ e => nomatch e
theorem checkOutRequest (t : Nat) (rx : Machine.Rx) : Statement (.checkOutRequest t rx) := fun h _ e => Option.some.inj e ▸ h
theorem checkOutFree (t : Nat) (slot : Nat) : Statement (.checkOutFree t slot) := fun _ _ e => nomatch e
theorem telemetryBundle (t : Nat) (rx : Machine.Rx) : Statement (.telemetryBundle t rx) := fun h _ e => Option.some.inj e ▸ h
theorem deferredCutRequeue (t : Nat) : Statement (.deferredCutRequeue t) := fun _ _ e => nomatch e
theorem rowCutRefresh (t : Nat) (scope : Nat) : Statement (.rowCutRefresh t scope) := fun _ _ e => nomatch e
theorem guardRelease (t : Nat) (slot : Nat) : Statement (.guardRelease t slot) := fun _ _ e => nomatch e
theorem releaseSend (t : Nat) (slot : Nat) : Statement (.releaseSend t slot) := fun _ _ e => nomatch e
theorem capBundleBuild (t : Nat) (cls : Nat) (firstBit : Nat) : Statement (.capBundleBuild t cls firstBit) := fun _ _ e => nomatch e
theorem recordParse (t : Nat) (lane : Nat) : Statement (.recordParse t lane) := fun _ _ e => nomatch e
theorem disobeyResend (t : Nat) (slot : Nat) : Statement (.disobeyResend t slot) := fun _ _ e => nomatch e
theorem guestDisobedient (t : Nat) (slot : Nat) : Statement (.guestDisobedient t slot) := fun _ _ e => nomatch e
theorem disobeyClear (t : Nat) (slot : Nat) : Statement (.disobeyClear t slot) := fun _ _ e => nomatch e
theorem countingTickEnd (t : Nat) : Statement (.countingTickEnd t) := fun _ _ e => nomatch e
theorem guestStale (t : Nat) (slot : Nat) : Statement (.guestStale t slot) := fun _ _ e => nomatch e
theorem staleCapSend (t : Nat) (slot : Nat) : Statement (.staleCapSend t slot) := fun _ _ e => nomatch e
theorem staleEnd (t : Nat) (slot : Nat) : Statement (.staleEnd t slot) := fun _ _ e => nomatch e
theorem absenceTimeout (t : Nat) (slot : Nat) : Statement (.absenceTimeout t slot) := fun _ _ e => nomatch e
theorem guestLapse (t : Nat) (slot : Nat) : Statement (.guestLapse t slot) := fun _ _ e => nomatch e
theorem reserveExpiry (t : Nat) (slot : Nat) : Statement (.reserveExpiry t slot) := fun _ _ e => nomatch e
theorem pairEpisodeEnd (t : Nat) (slot : Nat) (pair : Nat) : Statement (.pairEpisodeEnd t slot pair) := fun _ _ e => nomatch e
theorem pairPersistReached (t : Nat) (slot : Nat) (pair : Nat) : Statement (.pairPersistReached t slot pair) := fun _ _ e => nomatch e
theorem capRefresh (t : Nat) (slot : Nat) : Statement (.capRefresh t slot) := fun _ _ e => nomatch e
theorem summaryStepEnd (t : Nat) : Statement (.summaryStepEnd t) := fun _ _ e => nomatch e
theorem allocationPeriodStart (t : Nat) : Statement (.allocationPeriodStart t) := fun _ _ e => nomatch e
theorem allocationPeriodEnd (t : Nat) : Statement (.allocationPeriodEnd t) := fun _ _ e => nomatch e
theorem allocateEgressTick (t : Nat) : Statement (.allocateEgressTick t) := fun _ _ e => nomatch e
theorem rowProgramStep (t : Nat) : Statement (.rowProgramStep t) := fun _ _ e => nomatch e
theorem measurementCutoff (t : Nat) : Statement (.measurementCutoff t) := fun _ _ e => nomatch e
theorem settleEnd (t : Nat) (slot : Nat) : Statement (.settleEnd t slot) := fun _ _ e => nomatch e
theorem classFallback (t : Nat) (cls : Nat) : Statement (.classFallback t cls) := fun _ _ e => nomatch e
theorem leakSuspect (t : Nat) (branch : Nat) (transient : Nat) : Statement (.leakSuspect t branch transient) := fun _ _ e => nomatch e
theorem hingeRebuildStart (t : Nat) (slot : Nat) (k : Nat) : Statement (.hingeRebuildStart t slot k) := fun _ _ e => nomatch e
theorem hingeRebuild (t : Nat) (rx : Machine.Rx) : Statement (.hingeRebuild t rx) := fun h _ e => Option.some.inj e ▸ h
theorem hingeValidate (t : Nat) (slot : Nat) (k : Nat) : Statement (.hingeValidate t slot k) := fun _ _ e => nomatch e
theorem hingePreloadDone (t : Nat) (slot : Nat) (k : Nat) : Statement (.hingePreloadDone t slot k) := fun _ _ e => nomatch e
theorem hingeSwap (t : Nat) (slot : Nat) (k : Nat) : Statement (.hingeSwap t slot k) := fun _ _ e => nomatch e
theorem hingeStale (t : Nat) (slot : Nat) (k : Nat) : Statement (.hingeStale t slot k) := fun _ _ e => nomatch e
theorem progUploadBegin (t : Nat) (rx : Machine.Rx) : Statement (.progUploadBegin t rx) := fun h _ e => Option.some.inj e ▸ h
theorem progUploadChunk (t : Nat) (rx : Machine.Rx) : Statement (.progUploadChunk t rx) := fun h _ e => Option.some.inj e ▸ h
theorem progUploadCommit (t : Nat) (rx : Machine.Rx) : Statement (.progUploadCommit t rx) := fun h _ e => Option.some.inj e ▸ h
theorem progFitComplete (t : Nat) (slot : Nat) : Statement (.progFitComplete t slot) := fun _ _ e => nomatch e
theorem progInstall (t : Nat) (slot : Nat) : Statement (.progInstall t slot) := fun _ _ e => nomatch e
theorem progUploadUnload (t : Nat) (rx : Machine.Rx) : Statement (.progUploadUnload t rx) := fun h _ e => Option.some.inj e ▸ h
theorem progStop (t : Nat) (slot : Nat) : Statement (.progStop t slot) := fun _ _ e => nomatch e
theorem progFeed (t : Nat) (rx : Machine.Rx) : Statement (.progFeed t rx) := fun h _ e => Option.some.inj e ▸ h
theorem progFeedApply (t : Nat) (slot : Nat) : Statement (.progFeedApply t slot) := fun _ _ e => nomatch e
theorem progStepStart (t : Nat) (slot : Nat) : Statement (.progStepStart t slot) := fun _ _ e => nomatch e
theorem progStepComplete (t : Nat) (slot : Nat) (poison : List (Nat × Nat)) : Statement (.progStepComplete t slot poison) := fun _ _ e => nomatch e
theorem progPublish (t : Nat) (slot : Nat) : Statement (.progPublish t slot) := fun _ _ e => nomatch e
theorem parityError (t : Nat) (array : Nat) : Statement (.parityError t array) := fun _ _ e => nomatch e
theorem stepOverrun (t : Nat) (array : Nat) : Statement (.stepOverrun t array) := fun _ _ e => nomatch e
theorem arrayBlockError (t : Nat) (array : Nat) (sram : Bool) : Statement (.arrayBlockError t array sram) := fun _ _ e => nomatch e
theorem migration (t : Nat) (array : Nat) : Statement (.migration t array) := fun _ _ e => nomatch e
theorem rotationPreload (t : Nat) (region : Nat) : Statement (.rotationPreload t region) := fun _ _ e => nomatch e
theorem rotation (t : Nat) (region : Nat) : Statement (.rotation t region) := fun _ _ e => nomatch e
theorem regionFence (t : Nat) (region : Nat) : Statement (.regionFence t region) := fun _ _ e => nomatch e
theorem regionReconfigure (t : Nat) (region : Nat) : Statement (.regionReconfigure t region) := fun _ _ e => nomatch e
theorem chipLevelError (t : Nat) : Statement (.chipLevelError t) := fun _ _ e => nomatch e
theorem lineUncorrectable (t : Nat) (stack : Nat) (line : Nat) : Statement (.lineUncorrectable t stack line) := fun _ _ e => nomatch e
theorem rowSpare (t : Nat) (stack : Nat) (bank : Nat) (row : Nat) : Statement (.rowSpare t stack bank row) := fun _ _ e => nomatch e
theorem pageRetire (t : Nat) (stack : Nat) (page : Nat) : Statement (.pageRetire t stack page) := fun _ _ e => nomatch e
theorem patrolScrubPass (t : Nat) (stack : Nat) (corrected : List (Nat × Nat)) : Statement (.patrolScrubPass t stack corrected) := fun _ _ e => nomatch e
theorem channelLoss (t : Nat) (stack : Nat) (channel : Nat) : Statement (.channelLoss t stack channel) := fun _ _ e => nomatch e
theorem channelSpare (t : Nat) (stack : Nat) (slot : Nat) : Statement (.channelSpare t stack slot) := fun _ _ e => nomatch e
theorem zeroFillDone (t : Nat) (stack : Nat) (channel : Nat) : Statement (.zeroFillDone t stack channel) := fun _ _ e => nomatch e
theorem stackLoss (t : Nat) (stack : Nat) : Statement (.stackLoss t stack) := fun _ _ e => nomatch e
theorem stackHot (t : Nat) (stack : Nat) (temp : Nat) : Statement (.stackHot t stack temp) := fun _ _ e => nomatch e
theorem iocLaneFail (t : Nat) (lane : Nat) : Statement (.iocLaneFail t lane) := fun _ _ e => nomatch e
theorem iocLaneSpare (t : Nat) : Statement (.iocLaneSpare t) := fun _ _ e => nomatch e
theorem iocLinkLoss (t : Nat) : Statement (.iocLinkLoss t) := fun _ _ e => nomatch e
theorem sensorDelivery (t : Nat) (x : Machine.SensorIn) : Statement (.sensorDelivery t x) := fun _ _ e => nomatch e
theorem loopRun (t : Nat) (engine : Nat) : Statement (.loopRun t engine) := fun _ _ e => nomatch e
theorem feedbackHoldTimeout (t : Nat) (engine : Nat) : Statement (.feedbackHoldTimeout t engine) := fun _ _ e => nomatch e
theorem followingErrorFault (t : Nat) (engine : Nat) : Statement (.followingErrorFault t engine) := fun _ _ e => nomatch e
theorem loopSlotMissed (t : Nat) (engine : Nat) : Statement (.loopSlotMissed t engine) := fun _ _ e => nomatch e
theorem engineBlockError (t : Nat) (engine : Nat) : Statement (.engineBlockError t engine) := fun _ _ e => nomatch e
theorem engineTakeover (t : Nat) (engine : Nat) (saved : Bool) : Statement (.engineTakeover t engine saved) := fun _ _ e => nomatch e
theorem loopModeWrite (t : Nat) (rx : Machine.Rx) : Statement (.loopModeWrite t rx) := fun h _ e => Option.some.inj e ▸ h
theorem manualValueWrite (t : Nat) (rx : Machine.Rx) : Statement (.manualValueWrite t rx) := fun h _ e => Option.some.inj e ▸ h
theorem loopCmdAccept (t : Nat) (rx : Machine.Rx) : Statement (.loopCmdAccept t rx) := fun h _ e => Option.some.inj e ▸ h
theorem loopCmdClearTable (t : Nat) (rx : Machine.Rx) : Statement (.loopCmdClearTable t rx) := fun h _ e => Option.some.inj e ▸ h
theorem phaseSourceWrite (t : Nat) (rx : Machine.Rx) : Statement (.phaseSourceWrite t rx) := fun h _ e => Option.some.inj e ▸ h
theorem outputHandoff (t : Nat) : Statement (.outputHandoff t) := fun _ _ e => nomatch e
theorem actuatorUpdate (t : Nat) : Statement (.actuatorUpdate t) := fun _ _ e => nomatch e
theorem valveCmdDeenergise (t : Nat) (rx : Machine.Rx) : Statement (.valveCmdDeenergise t rx) := fun h _ e => Option.some.inj e ▸ h
theorem valveCmdEnergise (t : Nat) (rx : Machine.Rx) : Statement (.valveCmdEnergise t rx) := fun h _ e => Option.some.inj e ▸ h
theorem valveCmdClear (t : Nat) (rx : Machine.Rx) : Statement (.valveCmdClear t rx) := fun h _ e => Option.some.inj e ▸ h
theorem boostAdmit (t : Nat) (bank : Nat) : Statement (.boostAdmit t bank) := fun _ _ e => nomatch e
theorem boostEnd (t : Nat) (ch : Nat) (current : Nat) : Statement (.boostEnd t ch current) := fun _ _ e => nomatch e
theorem boostTimeout (t : Nat) (ch : Nat) : Statement (.boostTimeout t ch) := fun _ _ e => nomatch e
theorem peakEnd (t : Nat) (ch : Nat) : Statement (.peakEnd t ch) := fun _ _ e => nomatch e
theorem boostWaitLong (t : Nat) (bank : Nat) : Statement (.boostWaitLong t bank) := fun _ _ e => nomatch e
theorem descentEnd (t : Nat) (ch : Nat) (current : Nat) : Statement (.descentEnd t ch current) := fun _ _ e => nomatch e
theorem releaseEnd (t : Nat) (ch : Nat) (current : Nat) : Statement (.releaseEnd t ch current) := fun _ _ e => nomatch e
theorem seatKink (t : Nat) (ch : Nat) (kink : Nat) : Statement (.seatKink t ch kink) := fun _ _ e => nomatch e
theorem seatWindowEnd (t : Nat) (ch : Nat) : Statement (.seatWindowEnd t ch) := fun _ _ e => nomatch e
theorem seatResultPublish (t : Nat) (ch : Nat) : Statement (.seatResultPublish t ch) := fun _ _ e => nomatch e
theorem valveOpenOn (t : Nat) (ch : Nat) (current : Nat) : Statement (.valveOpenOn t ch current) := fun _ _ e => nomatch e
theorem valveShort (t : Nat) (ch : Nat) : Statement (.valveShort t ch) := fun _ _ e => nomatch e
theorem valveShortRetry (t : Nat) (ch : Nat) : Statement (.valveShortRetry t ch) := fun _ _ e => nomatch e
theorem bankOvercurrent (t : Nat) (bank : Nat) (current : Nat) : Statement (.bankOvercurrent t bank current) := fun _ _ e => nomatch e
theorem valveHot (t : Nat) (ch : Nat) (temp : Nat) : Statement (.valveHot t ch temp) := fun _ _ e => nomatch e
theorem valveDriverFault (t : Nat) (ch : Nat) (highSide : Bool) : Statement (.valveDriverFault t ch highSide) := fun _ _ e => nomatch e
theorem valveTakeover (t : Nat) (ch : Nat) : Statement (.valveTakeover t ch) := fun _ _ e => nomatch e
theorem valveSwitchDone (t : Nat) (ch : Nat) : Statement (.valveSwitchDone t ch) := fun _ _ e => nomatch e
theorem valveFeedLow (t : Nat) (volts : Nat) : Statement (.valveFeedLow t volts) := fun _ _ e => nomatch e
theorem valveFeedRestore (t : Nat) (volts : Nat) : Statement (.valveFeedRestore t volts) := fun _ _ e => nomatch e
theorem boostVApply (t : Nat) : Statement (.boostVApply t) := fun _ _ e => nomatch e
theorem speedLoopRun (t : Nat) (ch : Nat) (x : Machine.FanIn) : Statement (.speedLoopRun t ch x) := fun _ _ e => nomatch e
theorem fanWatchdog (t : Nat) : Statement (.fanWatchdog t) := fun _ _ e => nomatch e
theorem fanStaggerStart (t : Nat) : Statement (.fanStaggerStart t) := fun _ _ e => nomatch e
theorem fanStartEnd (t : Nat) (ch : Nat) : Statement (.fanStartEnd t ch) := fun _ _ e => nomatch e
theorem fanKickEnd (t : Nat) (ch : Nat) : Statement (.fanKickEnd t ch) := fun _ _ e => nomatch e
theorem fanPauseEnd (t : Nat) (ch : Nat) : Statement (.fanPauseEnd t ch) := fun _ _ e => nomatch e
theorem fanStallRetry (t : Nat) (ch : Nat) : Statement (.fanStallRetry t ch) := fun _ _ e => nomatch e
theorem tachAbsent (t : Nat) (ch : Nat) : Statement (.tachAbsent t ch) := fun _ _ e => nomatch e
theorem tachRestored (t : Nat) (ch : Nat) : Statement (.tachRestored t ch) := fun _ _ e => nomatch e
theorem fanOverload (t : Nat) (ch : Nat) : Statement (.fanOverload t ch) := fun _ _ e => nomatch e
theorem fanHot (t : Nat) (ch : Nat) (temp : Nat) : Statement (.fanHot t ch temp) := fun _ _ e => nomatch e
theorem fanCmd (t : Nat) (rx : Machine.Rx) : Statement (.fanCmd t rx) := fun h _ e => Option.some.inj e ▸ h
theorem fanFeedLow (t : Nat) (volts : Nat) : Statement (.fanFeedLow t volts) := fun _ _ e => nomatch e
theorem fanFeedRestore (t : Nat) (volts : Nat) : Statement (.fanFeedRestore t volts) := fun _ _ e => nomatch e
theorem fanDriverFault (t : Nat) (ch : Nat) : Statement (.fanDriverFault t ch) := fun _ _ e => nomatch e
theorem fanTakeover (t : Nat) (ch : Nat) : Statement (.fanTakeover t ch) := fun _ _ e => nomatch e
theorem fanSwitchDone (t : Nat) (ch : Nat) : Statement (.fanSwitchDone t ch) := fun _ _ e => nomatch e
theorem ifanTakeover (t : Nat) (n : Nat) : Statement (.ifanTakeover t n) := fun _ _ e => nomatch e
theorem canFrameReceive (t : Nat) (port : Nat) (f : Machine.CanFrame) : Statement (.canFrameReceive t port f) := fun _ _ e => nomatch e
theorem canTxDone (t : Nat) (port : Nat) (time : Nat) : Statement (.canTxDone t port time) := fun _ _ e => nomatch e
theorem canError (t : Nat) (port : Nat) (e : Machine.CanErr) : Statement (.canError t port e) := fun _ _ e => nomatch e
theorem fbCmdRejoin (t : Nat) (rx : Machine.Rx) : Statement (.fbCmdRejoin t rx) := fun h _ e => Option.some.inj e ▸ h
theorem busOffRecoveryDone (t : Nat) (port : Nat) : Statement (.busOffRecoveryDone t port) := fun _ _ e => nomatch e
theorem aloneEnter (t : Nat) (port : Nat) : Statement (.aloneEnter t port) := fun _ _ e => nomatch e
theorem aloneProbe (t : Nat) (port : Nat) : Statement (.aloneProbe t port) := fun _ _ e => nomatch e
theorem fbCmdProbe (t : Nat) (rx : Machine.Rx) : Statement (.fbCmdProbe t rx) := fun h _ e => Option.some.inj e ▸ h
theorem rxObjectStale (t : Nat) (obj : Nat) : Statement (.rxObjectStale t obj) := fun _ _ e => nomatch e
theorem suppressionEnd (t : Nat) (port : Nat) : Statement (.suppressionEnd t port) := fun _ _ e => nomatch e
theorem fbIntegrateDone (t : Nat) (port : Nat) : Statement (.fbIntegrateDone t port) := fun _ _ e => nomatch e
theorem fbPortFence (t : Nat) (port : Nat) : Statement (.fbPortFence t port) := fun _ _ e => nomatch e
theorem plantSupervisorRun (t : Nat) : Statement (.plantSupervisorRun t) := fun _ _ e => nomatch e
theorem trendEnd (t : Nat) (branch : Nat) : Statement (.trendEnd t branch) := fun _ _ e => nomatch e
theorem flowRecovery (t : Nat) (branch : Nat) : Statement (.flowRecovery t branch) := fun _ _ e => nomatch e
theorem plantClassLift (t : Nat) (branch : Nat) : Statement (.plantClassLift t branch) := fun _ _ e => nomatch e
theorem pumpStartTimeout (t : Nat) (set : Nat) (pump : Nat) : Statement (.pumpStartTimeout t set pump) := fun _ _ e => nomatch e
theorem pumpStandbyReturn (t : Nat) (set : Nat) (pump : Nat) : Statement (.pumpStandbyReturn t set pump) := fun _ _ e => nomatch e
theorem leadRebind (t : Nat) (set : Nat) : Statement (.leadRebind t set) := fun _ _ e => nomatch e
theorem pumpRotation (t : Nat) (set : Nat) : Statement (.pumpRotation t set) := fun _ _ e => nomatch e
theorem psCmd (t : Nat) (rx : Machine.Rx) : Statement (.psCmd t rx) := fun h _ e => Option.some.inj e ▸ h
theorem plantFanHoldRelease (t : Nat) : Statement (.plantFanHoldRelease t) := fun _ _ e => nomatch e
theorem ropeMeasure (t : Nat) (rope : Nat) (x : Machine.RopeIn) : Statement (.ropeMeasure t rope x) := fun _ _ e => nomatch e
theorem isolationCloseDemand (t : Nat) (branch : Nat) : Statement (.isolationCloseDemand t branch) := fun _ _ e => nomatch e
theorem isolationRetryClose (t : Nat) (branch : Nat) : Statement (.isolationRetryClose t branch) := fun _ _ e => nomatch e
theorem brCmdEndIsolation (t : Nat) (rx : Machine.Rx) : Statement (.brCmdEndIsolation t rx) := fun h _ e => Option.some.inj e ▸ h
theorem brCmdDeclareLeak (t : Nat) (rx : Machine.Rx) : Statement (.brCmdDeclareLeak t rx) := fun h _ e => Option.some.inj e ▸ h
theorem brEnableWrite (t : Nat) (rx : Machine.Rx) : Statement (.brEnableWrite t rx) := fun h _ e => Option.some.inj e ▸ h
theorem plantRowCutRefresh (t : Nat) (branch : Nat) : Statement (.plantRowCutRefresh t branch) := fun _ _ e => nomatch e
theorem dieOvertempError (t : Nat) : Statement (.dieOvertempError t) := fun _ _ e => nomatch e
theorem logCommit (t : Nat) (readback : Bool) : Statement (.logCommit t readback) := fun _ _ e => nomatch e
theorem eventsLostRecord (t : Nat) : Statement (.eventsLostRecord t) := fun _ _ e => nomatch e
theorem logPageRetire (t : Nat) (page : Nat) (damaged : List Nat) : Statement (.logPageRetire t page damaged) := fun _ _ e => nomatch e
theorem histSet (t : Nat) (rx : Machine.Rx) : Statement (.histSet t rx) := fun h _ e => Option.some.inj e ▸ h
theorem histCountWrite (t : Nat) (rx : Machine.Rx) : Statement (.histCountWrite t rx) := fun h _ e => Option.some.inj e ▸ h
theorem recCmdClearLog (t : Nat) (rx : Machine.Rx) : Statement (.recCmdClearLog t rx) := fun h _ e => Option.some.inj e ▸ h
theorem recCmdClearHistograms (t : Nat) (rx : Machine.Rx) : Statement (.recCmdClearHistograms t rx) := fun h _ e => Option.some.inj e ▸ h
theorem recCmdClearGuestHistory (t : Nat) (rx : Machine.Rx) : Statement (.recCmdClearGuestHistory t rx) := fun h _ e => Option.some.inj e ▸ h
theorem recCmdClearDieRainflow (t : Nat) (rx : Machine.Rx) : Statement (.recCmdClearDieRainflow t rx) := fun h _ e => Option.some.inj e ▸ h
theorem recCmdClearFramLastgasp (t : Nat) (rx : Machine.Rx) : Statement (.recCmdClearFramLastgasp t rx) := fun h _ e => Option.some.inj e ▸ h
theorem recCmdComplete (t : Nat) : Statement (.recCmdComplete t) := fun _ _ e => nomatch e
theorem logicPowerLoss (t : Nat) : Statement (.logicPowerLoss t) := fun _ _ e => nomatch e
theorem framCopyDone (t : Nat) : Statement (.framCopyDone t) := fun _ _ e => nomatch e
theorem feedLost (t : Nat) (feed : Nat) : Statement (.feedLost t feed) := fun _ _ e => nomatch e
theorem feedRange (t : Nat) (feed : Nat) : Statement (.feedRange t feed) := fun _ _ e => nomatch e
theorem actFuseOpen (t : Nat) : Statement (.actFuseOpen t) := fun _ _ e => nomatch e
theorem actFuseReclose (t : Nat) : Statement (.actFuseReclose t) := fun _ _ e => nomatch e
theorem actCmd (t : Nat) (rx : Machine.Rx) : Statement (.actCmd t rx) := fun h _ e => Option.some.inj e ▸ h
theorem actOverload (t : Nat) : Statement (.actOverload t) := fun _ _ e => nomatch e
theorem keyEnrol (t : Nat) (rx : Machine.Rx) : Statement (.keyEnrol t rx) := fun h _ e => Option.some.inj e ▸ h
theorem keyRevoke (t : Nat) (rx : Machine.Rx) : Statement (.keyRevoke t rx) := fun h _ e => Option.some.inj e ▸ h
theorem fuseSecRaise (t : Nat) (rx : Machine.Rx) : Statement (.fuseSecRaise t rx) := fun h _ e => Option.some.inj e ▸ h
theorem fuseKeyRevoke (t : Nat) (rx : Machine.Rx) : Statement (.fuseKeyRevoke t rx) := fun h _ e => Option.some.inj e ▸ h
theorem stanceWrite (t : Nat) (rx : Machine.Rx) : Statement (.stanceWrite t rx) := fun h _ e => Option.some.inj e ▸ h
theorem bistComplete (t : Nat) (row : Nat) (signature : Nat) : Statement (.bistComplete t row signature) := fun _ _ e => nomatch e
theorem bistResult (t : Nat) (row : Nat) : Statement (.bistResult t row) := fun _ _ e => nomatch e
theorem bistTimeout (t : Nat) (row : Nat) : Statement (.bistTimeout t row) := fun _ _ e => nomatch e
theorem spareRetest (t : Nat) (kind : Nat) : Statement (.spareRetest t kind) := fun _ _ e => nomatch e
theorem plannedTest (t : Nat) (kind : Nat) : Statement (.plannedTest t kind) := fun _ _ e => nomatch e
theorem keeperBlockError (t : Nat) (keeper : Nat) : Statement (.keeperBlockError t keeper) := fun _ _ e => nomatch e
theorem progStorageMoveDone (t : Nat) (slot : Nat) : Statement (.progStorageMoveDone t slot) := fun _ _ e => nomatch e
theorem ainSwitchDone (t : Nat) (ch : Nat) : Statement (.ainSwitchDone t ch) := fun _ _ e => nomatch e
theorem unknownOp (t : Nat) (rx : Machine.Rx) : Statement (.unknownOp t rx) := fun h _ e => Option.some.inj e ▸ h

end Sys2Proof.Laws.Datagrams
end

