-- ==== Sys2Proof/Laws/State.lean ====
section
/-! SUPPORT. What the shared operations leave alone, field by field, and what a register reads after a write. -/

namespace Sys2Proof.Machine

open Sys2Proof

/-! ### The fields an operation does not touch -/

/-- A condition changes registers and the recorder only. -/
theorem State.cond_shape (s : State) (c : Cond) (isOpen : Bool) :
    ∃ a b, s.cond c isOpen = { s with regs := a, recorder := b } := by
  unfold State.cond
  dsimp only
  repeat' split
  all_goals exact ⟨_, _, rfl⟩

/-- The end of a condition changes registers and the recorder only. -/
theorem State.condEnd_shape (s : State) (c : Cond) : ∃ a b, s.condEnd c = { s with regs := a, recorder := b } := by
  unfold State.condEnd
  dsimp only
  repeat' split
  all_goals exact ⟨_, _, rfl⟩

@[simp] theorem State.at_frame (s : State) (t : Nat) :
    (s.at t).regs = s.regs ∧ (s.at t).fram = s.fram ∧ (s.at t).freeCtr = s.freeCtr ∧ (s.at t).latched = s.latched ∧
      (s.at t).stancePending = s.stancePending ∧ (s.at t).recorder = s.recorder ∧ (s.at t).wheel = s.wheel ∧
      (s.at t).phases = s.phases ∧ (s.at t).port = s.port ∧ (s.at t).dict = s.dict ∧ (s.at t).start = s.start ∧
      (s.at t).wear = s.wear ∧ (s.at t).elec = s.elec ∧ (s.at t).fabric = s.fabric ∧ (s.at t).stackMap = s.stackMap ∧
      (s.at t).guests = s.guests ∧ (s.at t).desk = s.desk ∧ (s.at t).guard = s.guard ∧ (s.at t).progs = s.progs ∧
      (s.at t).loader = s.loader ∧ (s.at t).row = s.row ∧ (s.at t).plant = s.plant ∧ (s.at t).ioc = s.ioc ∧
      (s.at t).pending = s.pending := by
  exact ⟨rfl, rfl, rfl, rfl, rfl, rfl, rfl, rfl, rfl, rfl, rfl, rfl, rfl, rfl, rfl, rfl, rfl, rfl, rfl, rfl, rfl, rfl, rfl, rfl⟩

@[simp] theorem State.set_frame (s : State) (e : Ent) (v : Nat) :
    (s.set e v).now = s.now ∧ (s.set e v).fram = s.fram ∧ (s.set e v).freeCtr = s.freeCtr ∧
      (s.set e v).latched = s.latched ∧ (s.set e v).stancePending = s.stancePending ∧
      (s.set e v).recorder = s.recorder ∧ (s.set e v).wheel = s.wheel ∧ (s.set e v).phases = s.phases ∧
      (s.set e v).port = s.port ∧ (s.set e v).dict = s.dict ∧ (s.set e v).start = s.start ∧
      (s.set e v).wear = s.wear ∧ (s.set e v).elec = s.elec ∧ (s.set e v).fabric = s.fabric ∧
      (s.set e v).stackMap = s.stackMap ∧ (s.set e v).guests = s.guests ∧ (s.set e v).desk = s.desk ∧
      (s.set e v).guard = s.guard ∧ (s.set e v).progs = s.progs ∧ (s.set e v).loader = s.loader ∧
      (s.set e v).row = s.row ∧ (s.set e v).plant = s.plant ∧ (s.set e v).ioc = s.ioc ∧
      (s.set e v).pending = s.pending := by
  exact ⟨rfl, rfl, rfl, rfl, rfl, rfl, rfl, rfl, rfl, rfl, rfl, rfl, rfl, rfl, rfl, rfl, rfl, rfl, rfl, rfl, rfl, rfl, rfl, rfl⟩

@[simp] theorem State.setU_frame (s : State) (e : Ent) (u v : Nat) :
    (s.setU e u v).now = s.now ∧ (s.setU e u v).fram = s.fram ∧ (s.setU e u v).freeCtr = s.freeCtr ∧
      (s.setU e u v).latched = s.latched ∧ (s.setU e u v).stancePending = s.stancePending ∧
      (s.setU e u v).recorder = s.recorder ∧ (s.setU e u v).wheel = s.wheel ∧ (s.setU e u v).phases = s.phases ∧
      (s.setU e u v).port = s.port ∧ (s.setU e u v).dict = s.dict ∧ (s.setU e u v).start = s.start ∧
      (s.setU e u v).wear = s.wear ∧ (s.setU e u v).elec = s.elec ∧ (s.setU e u v).fabric = s.fabric ∧
      (s.setU e u v).stackMap = s.stackMap ∧ (s.setU e u v).guests = s.guests ∧ (s.setU e u v).desk = s.desk ∧
      (s.setU e u v).guard = s.guard ∧ (s.setU e u v).progs = s.progs ∧ (s.setU e u v).loader = s.loader ∧
      (s.setU e u v).row = s.row ∧ (s.setU e u v).plant = s.plant ∧ (s.setU e u v).ioc = s.ioc ∧
      (s.setU e u v).pending = s.pending := by
  exact ⟨rfl, rfl, rfl, rfl, rfl, rfl, rfl, rfl, rfl, rfl, rfl, rfl, rfl, rfl, rfl, rfl, rfl, rfl, rfl, rfl, rfl, rfl, rfl, rfl⟩

@[simp] theorem State.add_frame (s : State) (e : Ent) (n : Nat) :
    (s.add e n).now = s.now ∧ (s.add e n).fram = s.fram ∧ (s.add e n).freeCtr = s.freeCtr ∧
      (s.add e n).latched = s.latched ∧ (s.add e n).stancePending = s.stancePending ∧
      (s.add e n).recorder = s.recorder ∧ (s.add e n).wheel = s.wheel ∧ (s.add e n).phases = s.phases ∧
      (s.add e n).port = s.port ∧ (s.add e n).dict = s.dict ∧ (s.add e n).start = s.start ∧
      (s.add e n).wear = s.wear ∧ (s.add e n).elec = s.elec ∧ (s.add e n).fabric = s.fabric ∧
      (s.add e n).stackMap = s.stackMap ∧ (s.add e n).guests = s.guests ∧ (s.add e n).desk = s.desk ∧
      (s.add e n).guard = s.guard ∧ (s.add e n).progs = s.progs ∧ (s.add e n).loader = s.loader ∧
      (s.add e n).row = s.row ∧ (s.add e n).plant = s.plant ∧ (s.add e n).ioc = s.ioc ∧
      (s.add e n).pending = s.pending := by
  exact ⟨rfl, rfl, rfl, rfl, rfl, rfl, rfl, rfl, rfl, rfl, rfl, rfl, rfl, rfl, rfl, rfl, rfl, rfl, rfl, rfl, rfl, rfl, rfl, rfl⟩

@[simp] theorem State.inc_frame (s : State) (e : Ent) :
    (s.inc e).now = s.now ∧ (s.inc e).fram = s.fram ∧ (s.inc e).freeCtr = s.freeCtr ∧ (s.inc e).latched = s.latched ∧
      (s.inc e).stancePending = s.stancePending ∧ (s.inc e).recorder = s.recorder ∧ (s.inc e).wheel = s.wheel ∧
      (s.inc e).phases = s.phases ∧ (s.inc e).port = s.port ∧ (s.inc e).dict = s.dict ∧ (s.inc e).start = s.start ∧
      (s.inc e).wear = s.wear ∧ (s.inc e).elec = s.elec ∧ (s.inc e).fabric = s.fabric ∧
      (s.inc e).stackMap = s.stackMap ∧ (s.inc e).guests = s.guests ∧ (s.inc e).desk = s.desk ∧
      (s.inc e).guard = s.guard ∧ (s.inc e).progs = s.progs ∧ (s.inc e).loader = s.loader ∧ (s.inc e).row = s.row ∧
      (s.inc e).plant = s.plant ∧ (s.inc e).ioc = s.ioc ∧ (s.inc e).pending = s.pending := by
  exact ⟨rfl, rfl, rfl, rfl, rfl, rfl, rfl, rfl, rfl, rfl, rfl, rfl, rfl, rfl, rfl, rfl, rfl, rfl, rfl, rfl, rfl, rfl, rfl, rfl⟩

@[simp] theorem State.addU_frame (s : State) (e : Ent) (u n : Nat) :
    (s.addU e u n).now = s.now ∧ (s.addU e u n).fram = s.fram ∧ (s.addU e u n).freeCtr = s.freeCtr ∧
      (s.addU e u n).latched = s.latched ∧ (s.addU e u n).stancePending = s.stancePending ∧
      (s.addU e u n).recorder = s.recorder ∧ (s.addU e u n).wheel = s.wheel ∧ (s.addU e u n).phases = s.phases ∧
      (s.addU e u n).port = s.port ∧ (s.addU e u n).dict = s.dict ∧ (s.addU e u n).start = s.start ∧
      (s.addU e u n).wear = s.wear ∧ (s.addU e u n).elec = s.elec ∧ (s.addU e u n).fabric = s.fabric ∧
      (s.addU e u n).stackMap = s.stackMap ∧ (s.addU e u n).guests = s.guests ∧ (s.addU e u n).desk = s.desk ∧
      (s.addU e u n).guard = s.guard ∧ (s.addU e u n).progs = s.progs ∧ (s.addU e u n).loader = s.loader ∧
      (s.addU e u n).row = s.row ∧ (s.addU e u n).plant = s.plant ∧ (s.addU e u n).ioc = s.ioc ∧
      (s.addU e u n).pending = s.pending := by
  exact ⟨rfl, rfl, rfl, rfl, rfl, rfl, rfl, rfl, rfl, rfl, rfl, rfl, rfl, rfl, rfl, rfl, rfl, rfl, rfl, rfl, rfl, rfl, rfl, rfl⟩

@[simp] theorem State.incU_frame (s : State) (e : Ent) (u : Nat) :
    (s.incU e u).now = s.now ∧ (s.incU e u).fram = s.fram ∧ (s.incU e u).freeCtr = s.freeCtr ∧
      (s.incU e u).latched = s.latched ∧ (s.incU e u).stancePending = s.stancePending ∧
      (s.incU e u).recorder = s.recorder ∧ (s.incU e u).wheel = s.wheel ∧ (s.incU e u).phases = s.phases ∧
      (s.incU e u).port = s.port ∧ (s.incU e u).dict = s.dict ∧ (s.incU e u).start = s.start ∧
      (s.incU e u).wear = s.wear ∧ (s.incU e u).elec = s.elec ∧ (s.incU e u).fabric = s.fabric ∧
      (s.incU e u).stackMap = s.stackMap ∧ (s.incU e u).guests = s.guests ∧ (s.incU e u).desk = s.desk ∧
      (s.incU e u).guard = s.guard ∧ (s.incU e u).progs = s.progs ∧ (s.incU e u).loader = s.loader ∧
      (s.incU e u).row = s.row ∧ (s.incU e u).plant = s.plant ∧ (s.incU e u).ioc = s.ioc ∧
      (s.incU e u).pending = s.pending := by
  exact ⟨rfl, rfl, rfl, rfl, rfl, rfl, rfl, rfl, rfl, rfl, rfl, rfl, rfl, rfl, rfl, rfl, rfl, rfl, rfl, rfl, rfl, rfl, rfl, rfl⟩

@[simp] theorem State.drawn_frame (s : State)  :
    (s.drawn).now = s.now ∧ (s.drawn).regs = s.regs ∧ (s.drawn).fram = s.fram ∧ (s.drawn).latched = s.latched ∧
      (s.drawn).stancePending = s.stancePending ∧ (s.drawn).recorder = s.recorder ∧ (s.drawn).wheel = s.wheel ∧
      (s.drawn).phases = s.phases ∧ (s.drawn).port = s.port ∧ (s.drawn).dict = s.dict ∧ (s.drawn).start = s.start ∧
      (s.drawn).wear = s.wear ∧ (s.drawn).elec = s.elec ∧ (s.drawn).fabric = s.fabric ∧
      (s.drawn).stackMap = s.stackMap ∧ (s.drawn).guests = s.guests ∧ (s.drawn).desk = s.desk ∧
      (s.drawn).guard = s.guard ∧ (s.drawn).progs = s.progs ∧ (s.drawn).loader = s.loader ∧ (s.drawn).row = s.row ∧
      (s.drawn).plant = s.plant ∧ (s.drawn).ioc = s.ioc ∧ (s.drawn).pending = s.pending := by
  exact ⟨rfl, rfl, rfl, rfl, rfl, rfl, rfl, rfl, rfl, rfl, rfl, rfl, rfl, rfl, rfl, rfl, rfl, rfl, rfl, rfl, rfl, rfl, rfl, rfl⟩

@[simp] theorem State.releaseHeld_frame (s : State) (kind : Nat) :
    (s.releaseHeld kind).now = s.now ∧ (s.releaseHeld kind).regs = s.regs ∧ (s.releaseHeld kind).fram = s.fram ∧
      (s.releaseHeld kind).freeCtr = s.freeCtr ∧ (s.releaseHeld kind).latched = s.latched ∧
      (s.releaseHeld kind).stancePending = s.stancePending ∧ (s.releaseHeld kind).recorder = s.recorder ∧
      (s.releaseHeld kind).wheel = s.wheel ∧ (s.releaseHeld kind).phases = s.phases ∧
      (s.releaseHeld kind).port = s.port ∧ (s.releaseHeld kind).start = s.start ∧
      (s.releaseHeld kind).wear = s.wear ∧ (s.releaseHeld kind).elec = s.elec ∧
      (s.releaseHeld kind).fabric = s.fabric ∧ (s.releaseHeld kind).stackMap = s.stackMap ∧
      (s.releaseHeld kind).guests = s.guests ∧ (s.releaseHeld kind).desk = s.desk ∧
      (s.releaseHeld kind).guard = s.guard ∧ (s.releaseHeld kind).progs = s.progs ∧
      (s.releaseHeld kind).loader = s.loader ∧ (s.releaseHeld kind).row = s.row ∧
      (s.releaseHeld kind).plant = s.plant ∧ (s.releaseHeld kind).ioc = s.ioc ∧
      (s.releaseHeld kind).pending = s.pending := by
  exact ⟨rfl, rfl, rfl, rfl, rfl, rfl, rfl, rfl, rfl, rfl, rfl, rfl, rfl, rfl, rfl, rfl, rfl, rfl, rfl, rfl, rfl, rfl, rfl, rfl⟩

@[simp] theorem State.take_frame (s : State) (rx : Rx) :
    (s.take rx).now = s.now ∧ (s.take rx).regs = s.regs ∧ (s.take rx).fram = s.fram ∧
      (s.take rx).freeCtr = s.freeCtr ∧ (s.take rx).latched = s.latched ∧
      (s.take rx).stancePending = s.stancePending ∧ (s.take rx).recorder = s.recorder ∧ (s.take rx).wheel = s.wheel ∧
      (s.take rx).phases = s.phases ∧ (s.take rx).dict = s.dict ∧ (s.take rx).start = s.start ∧
      (s.take rx).wear = s.wear ∧ (s.take rx).elec = s.elec ∧ (s.take rx).fabric = s.fabric ∧
      (s.take rx).stackMap = s.stackMap ∧ (s.take rx).guests = s.guests ∧ (s.take rx).desk = s.desk ∧
      (s.take rx).guard = s.guard ∧ (s.take rx).progs = s.progs ∧ (s.take rx).loader = s.loader ∧
      (s.take rx).row = s.row ∧ (s.take rx).plant = s.plant ∧ (s.take rx).ioc = s.ioc ∧
      (s.take rx).pending = s.pending := by
  exact ⟨rfl, rfl, rfl, rfl, rfl, rfl, rfl, rfl, rfl, rfl, rfl, rfl, rfl, rfl, rfl, rfl, rfl, rfl, rfl, rfl, rfl, rfl, rfl, rfl⟩

@[simp] theorem State.condLost_frame (s : State) (c : Cond) :
    (s.condLost c).now = s.now ∧ (s.condLost c).fram = s.fram ∧ (s.condLost c).freeCtr = s.freeCtr ∧
      (s.condLost c).latched = s.latched ∧ (s.condLost c).stancePending = s.stancePending ∧
      (s.condLost c).wheel = s.wheel ∧ (s.condLost c).phases = s.phases ∧ (s.condLost c).port = s.port ∧
      (s.condLost c).dict = s.dict ∧ (s.condLost c).start = s.start ∧ (s.condLost c).wear = s.wear ∧
      (s.condLost c).elec = s.elec ∧ (s.condLost c).fabric = s.fabric ∧ (s.condLost c).stackMap = s.stackMap ∧
      (s.condLost c).guests = s.guests ∧ (s.condLost c).desk = s.desk ∧ (s.condLost c).guard = s.guard ∧
      (s.condLost c).progs = s.progs ∧ (s.condLost c).loader = s.loader ∧ (s.condLost c).row = s.row ∧
      (s.condLost c).plant = s.plant ∧ (s.condLost c).ioc = s.ioc ∧ (s.condLost c).pending = s.pending := by
  simp [State.condLost]

@[simp] theorem State.cond_frame (s : State) (c : Cond) (isOpen : Bool) :
    (s.cond c isOpen).now = s.now ∧ (s.cond c isOpen).fram = s.fram ∧ (s.cond c isOpen).freeCtr = s.freeCtr ∧
      (s.cond c isOpen).latched = s.latched ∧ (s.cond c isOpen).stancePending = s.stancePending ∧
      (s.cond c isOpen).wheel = s.wheel ∧ (s.cond c isOpen).phases = s.phases ∧ (s.cond c isOpen).port = s.port ∧
      (s.cond c isOpen).dict = s.dict ∧ (s.cond c isOpen).start = s.start ∧ (s.cond c isOpen).wear = s.wear ∧
      (s.cond c isOpen).elec = s.elec ∧ (s.cond c isOpen).fabric = s.fabric ∧
      (s.cond c isOpen).stackMap = s.stackMap ∧ (s.cond c isOpen).guests = s.guests ∧
      (s.cond c isOpen).desk = s.desk ∧ (s.cond c isOpen).guard = s.guard ∧ (s.cond c isOpen).progs = s.progs ∧
      (s.cond c isOpen).loader = s.loader ∧ (s.cond c isOpen).row = s.row ∧ (s.cond c isOpen).plant = s.plant ∧
      (s.cond c isOpen).ioc = s.ioc ∧ (s.cond c isOpen).pending = s.pending := by
  obtain ⟨a, b, h⟩ := State.cond_shape s c isOpen
  simp [h]

@[simp] theorem State.condEnd_frame (s : State) (c : Cond) :
    (s.condEnd c).now = s.now ∧ (s.condEnd c).fram = s.fram ∧ (s.condEnd c).freeCtr = s.freeCtr ∧
      (s.condEnd c).latched = s.latched ∧ (s.condEnd c).stancePending = s.stancePending ∧
      (s.condEnd c).wheel = s.wheel ∧ (s.condEnd c).phases = s.phases ∧ (s.condEnd c).port = s.port ∧
      (s.condEnd c).dict = s.dict ∧ (s.condEnd c).start = s.start ∧ (s.condEnd c).wear = s.wear ∧
      (s.condEnd c).elec = s.elec ∧ (s.condEnd c).fabric = s.fabric ∧ (s.condEnd c).stackMap = s.stackMap ∧
      (s.condEnd c).guests = s.guests ∧ (s.condEnd c).desk = s.desk ∧ (s.condEnd c).guard = s.guard ∧
      (s.condEnd c).progs = s.progs ∧ (s.condEnd c).loader = s.loader ∧ (s.condEnd c).row = s.row ∧
      (s.condEnd c).plant = s.plant ∧ (s.condEnd c).ioc = s.ioc ∧ (s.condEnd c).pending = s.pending := by
  obtain ⟨a, b, h⟩ := State.condEnd_shape s c
  simp [h]

@[simp] theorem State.latchU_frame (s : State) (e : Ent) (u b key : Nat) :
    (s.latchU e u b key).now = s.now ∧ (s.latchU e u b key).fram = s.fram ∧
      (s.latchU e u b key).freeCtr = s.freeCtr ∧ (s.latchU e u b key).stancePending = s.stancePending ∧
      (s.latchU e u b key).wheel = s.wheel ∧ (s.latchU e u b key).phases = s.phases ∧
      (s.latchU e u b key).port = s.port ∧ (s.latchU e u b key).dict = s.dict ∧
      (s.latchU e u b key).start = s.start ∧ (s.latchU e u b key).wear = s.wear ∧
      (s.latchU e u b key).elec = s.elec ∧ (s.latchU e u b key).fabric = s.fabric ∧
      (s.latchU e u b key).stackMap = s.stackMap ∧ (s.latchU e u b key).guests = s.guests ∧
      (s.latchU e u b key).desk = s.desk ∧ (s.latchU e u b key).guard = s.guard ∧
      (s.latchU e u b key).progs = s.progs ∧ (s.latchU e u b key).loader = s.loader ∧
      (s.latchU e u b key).row = s.row ∧ (s.latchU e u b key).plant = s.plant ∧ (s.latchU e u b key).ioc = s.ioc ∧
      (s.latchU e u b key).pending = s.pending := by
  simp [State.latchU]

@[simp] theorem State.latchOpenU_frame (s : State) (e : Ent) (u b key : Nat) :
    (s.latchOpenU e u b key).now = s.now ∧ (s.latchOpenU e u b key).fram = s.fram ∧
      (s.latchOpenU e u b key).freeCtr = s.freeCtr ∧ (s.latchOpenU e u b key).stancePending = s.stancePending ∧
      (s.latchOpenU e u b key).wheel = s.wheel ∧ (s.latchOpenU e u b key).phases = s.phases ∧
      (s.latchOpenU e u b key).port = s.port ∧ (s.latchOpenU e u b key).dict = s.dict ∧
      (s.latchOpenU e u b key).start = s.start ∧ (s.latchOpenU e u b key).wear = s.wear ∧
      (s.latchOpenU e u b key).elec = s.elec ∧ (s.latchOpenU e u b key).fabric = s.fabric ∧
      (s.latchOpenU e u b key).stackMap = s.stackMap ∧ (s.latchOpenU e u b key).guests = s.guests ∧
      (s.latchOpenU e u b key).desk = s.desk ∧ (s.latchOpenU e u b key).guard = s.guard ∧
      (s.latchOpenU e u b key).progs = s.progs ∧ (s.latchOpenU e u b key).loader = s.loader ∧
      (s.latchOpenU e u b key).row = s.row ∧ (s.latchOpenU e u b key).plant = s.plant ∧
      (s.latchOpenU e u b key).ioc = s.ioc ∧ (s.latchOpenU e u b key).pending = s.pending := by
  simp [State.latchOpenU]

@[simp] theorem State.latch_frame (s : State) (e : Ent) (b key : Nat) :
    (s.latch e b key).now = s.now ∧ (s.latch e b key).fram = s.fram ∧ (s.latch e b key).freeCtr = s.freeCtr ∧
      (s.latch e b key).stancePending = s.stancePending ∧ (s.latch e b key).wheel = s.wheel ∧
      (s.latch e b key).phases = s.phases ∧ (s.latch e b key).port = s.port ∧ (s.latch e b key).dict = s.dict ∧
      (s.latch e b key).start = s.start ∧ (s.latch e b key).wear = s.wear ∧ (s.latch e b key).elec = s.elec ∧
      (s.latch e b key).fabric = s.fabric ∧ (s.latch e b key).stackMap = s.stackMap ∧
      (s.latch e b key).guests = s.guests ∧ (s.latch e b key).desk = s.desk ∧ (s.latch e b key).guard = s.guard ∧
      (s.latch e b key).progs = s.progs ∧ (s.latch e b key).loader = s.loader ∧ (s.latch e b key).row = s.row ∧
      (s.latch e b key).plant = s.plant ∧ (s.latch e b key).ioc = s.ioc ∧ (s.latch e b key).pending = s.pending := by
  simp [State.latch]

@[simp] theorem State.latchOpen_frame (s : State) (e : Ent) (b key : Nat) :
    (s.latchOpen e b key).now = s.now ∧ (s.latchOpen e b key).fram = s.fram ∧
      (s.latchOpen e b key).freeCtr = s.freeCtr ∧ (s.latchOpen e b key).stancePending = s.stancePending ∧
      (s.latchOpen e b key).wheel = s.wheel ∧ (s.latchOpen e b key).phases = s.phases ∧
      (s.latchOpen e b key).port = s.port ∧ (s.latchOpen e b key).dict = s.dict ∧
      (s.latchOpen e b key).start = s.start ∧ (s.latchOpen e b key).wear = s.wear ∧
      (s.latchOpen e b key).elec = s.elec ∧ (s.latchOpen e b key).fabric = s.fabric ∧
      (s.latchOpen e b key).stackMap = s.stackMap ∧ (s.latchOpen e b key).guests = s.guests ∧
      (s.latchOpen e b key).desk = s.desk ∧ (s.latchOpen e b key).guard = s.guard ∧
      (s.latchOpen e b key).progs = s.progs ∧ (s.latchOpen e b key).loader = s.loader ∧
      (s.latchOpen e b key).row = s.row ∧ (s.latchOpen e b key).plant = s.plant ∧ (s.latchOpen e b key).ioc = s.ioc ∧
      (s.latchOpen e b key).pending = s.pending := by
  simp [State.latchOpen]

@[simp] theorem State.latchEnd_frame (s : State) (e : Ent) (u b key : Nat) :
    (s.latchEnd e u b key).now = s.now ∧ (s.latchEnd e u b key).fram = s.fram ∧
      (s.latchEnd e u b key).freeCtr = s.freeCtr ∧ (s.latchEnd e u b key).latched = s.latched ∧
      (s.latchEnd e u b key).stancePending = s.stancePending ∧ (s.latchEnd e u b key).wheel = s.wheel ∧
      (s.latchEnd e u b key).phases = s.phases ∧ (s.latchEnd e u b key).port = s.port ∧
      (s.latchEnd e u b key).dict = s.dict ∧ (s.latchEnd e u b key).start = s.start ∧
      (s.latchEnd e u b key).wear = s.wear ∧ (s.latchEnd e u b key).elec = s.elec ∧
      (s.latchEnd e u b key).fabric = s.fabric ∧ (s.latchEnd e u b key).stackMap = s.stackMap ∧
      (s.latchEnd e u b key).guests = s.guests ∧ (s.latchEnd e u b key).desk = s.desk ∧
      (s.latchEnd e u b key).guard = s.guard ∧ (s.latchEnd e u b key).progs = s.progs ∧
      (s.latchEnd e u b key).loader = s.loader ∧ (s.latchEnd e u b key).row = s.row ∧
      (s.latchEnd e u b key).plant = s.plant ∧ (s.latchEnd e u b key).ioc = s.ioc ∧
      (s.latchEnd e u b key).pending = s.pending := by
  simp [State.latchEnd]

@[simp] theorem State.gasp_frame (s : State) (c : Cond) :
    (s.gasp c).now = s.now ∧ (s.gasp c).fram = s.fram ∧ (s.gasp c).freeCtr = s.freeCtr ∧
      (s.gasp c).stancePending = s.stancePending ∧ (s.gasp c).wheel = s.wheel ∧ (s.gasp c).phases = s.phases ∧
      (s.gasp c).port = s.port ∧ (s.gasp c).dict = s.dict ∧ (s.gasp c).start = s.start ∧ (s.gasp c).wear = s.wear ∧
      (s.gasp c).elec = s.elec ∧ (s.gasp c).fabric = s.fabric ∧ (s.gasp c).stackMap = s.stackMap ∧
      (s.gasp c).guests = s.guests ∧ (s.gasp c).desk = s.desk ∧ (s.gasp c).guard = s.guard ∧
      (s.gasp c).progs = s.progs ∧ (s.gasp c).loader = s.loader ∧ (s.gasp c).row = s.row ∧
      (s.gasp c).plant = s.plant ∧ (s.gasp c).ioc = s.ioc ∧ (s.gasp c).pending = s.pending := by
  unfold State.gasp
  try dsimp only
  repeat' split
  all_goals simp

@[simp] theorem State.lastGasp_frame (s : State) (bit detail : Nat) :
    (s.lastGasp bit detail).now = s.now ∧ (s.lastGasp bit detail).fram = s.fram ∧
      (s.lastGasp bit detail).freeCtr = s.freeCtr ∧ (s.lastGasp bit detail).stancePending = s.stancePending ∧
      (s.lastGasp bit detail).wheel = s.wheel ∧ (s.lastGasp bit detail).phases = s.phases ∧
      (s.lastGasp bit detail).port = s.port ∧ (s.lastGasp bit detail).dict = s.dict ∧
      (s.lastGasp bit detail).start = s.start ∧ (s.lastGasp bit detail).wear = s.wear ∧
      (s.lastGasp bit detail).elec = s.elec ∧ (s.lastGasp bit detail).fabric = s.fabric ∧
      (s.lastGasp bit detail).stackMap = s.stackMap ∧ (s.lastGasp bit detail).guests = s.guests ∧
      (s.lastGasp bit detail).desk = s.desk ∧ (s.lastGasp bit detail).guard = s.guard ∧
      (s.lastGasp bit detail).progs = s.progs ∧ (s.lastGasp bit detail).loader = s.loader ∧
      (s.lastGasp bit detail).row = s.row ∧ (s.lastGasp bit detail).plant = s.plant ∧
      (s.lastGasp bit detail).ioc = s.ioc ∧ (s.lastGasp bit detail).pending = s.pending := by
  simp [State.lastGasp]

@[simp] theorem State.enterRest_frame (s : State) (cause : Nat) :
    (s.enterRest cause).now = s.now ∧ (s.enterRest cause).fram = s.fram ∧ (s.enterRest cause).freeCtr = s.freeCtr ∧
      (s.enterRest cause).stancePending = s.stancePending ∧ (s.enterRest cause).wheel = s.wheel ∧
      (s.enterRest cause).phases = s.phases ∧ (s.enterRest cause).port = s.port ∧ (s.enterRest cause).dict = s.dict ∧
      (s.enterRest cause).start = s.start ∧ (s.enterRest cause).wear = s.wear ∧ (s.enterRest cause).elec = s.elec ∧
      (s.enterRest cause).fabric = s.fabric ∧ (s.enterRest cause).stackMap = s.stackMap ∧
      (s.enterRest cause).guests = s.guests ∧ (s.enterRest cause).desk = s.desk ∧
      (s.enterRest cause).guard = s.guard ∧ (s.enterRest cause).progs = s.progs ∧
      (s.enterRest cause).loader = s.loader ∧ (s.enterRest cause).row = s.row ∧ (s.enterRest cause).plant = s.plant ∧
      (s.enterRest cause).ioc = s.ioc ∧ (s.enterRest cause).pending = s.pending := by
  unfold State.enterRest
  try dsimp only
  repeat' split
  all_goals simp

@[simp] theorem State.send_frame (s : State) (d : Dgram) :
    (s.send d).now = s.now ∧ (s.send d).fram = s.fram ∧ (s.send d).freeCtr = s.freeCtr ∧
      (s.send d).latched = s.latched ∧ (s.send d).stancePending = s.stancePending ∧
      (s.send d).recorder = s.recorder ∧ (s.send d).wheel = s.wheel ∧ (s.send d).phases = s.phases ∧
      (s.send d).dict = s.dict ∧ (s.send d).start = s.start ∧ (s.send d).wear = s.wear ∧ (s.send d).elec = s.elec ∧
      (s.send d).fabric = s.fabric ∧ (s.send d).stackMap = s.stackMap ∧ (s.send d).guests = s.guests ∧
      (s.send d).desk = s.desk ∧ (s.send d).guard = s.guard ∧ (s.send d).progs = s.progs ∧
      (s.send d).loader = s.loader ∧ (s.send d).row = s.row ∧ (s.send d).plant = s.plant ∧ (s.send d).ioc = s.ioc ∧
      (s.send d).pending = s.pending := by
  unfold State.send
  try dsimp only
  repeat' split
  all_goals simp

@[simp] theorem State.putDiary_frame (s : State) (d : Diary) :
    (s.putDiary d).now = s.now ∧ (s.putDiary d).regs = s.regs ∧ (s.putDiary d).freeCtr = s.freeCtr ∧
      (s.putDiary d).latched = s.latched ∧ (s.putDiary d).stancePending = s.stancePending ∧
      (s.putDiary d).recorder = s.recorder ∧ (s.putDiary d).wheel = s.wheel ∧ (s.putDiary d).phases = s.phases ∧
      (s.putDiary d).port = s.port ∧ (s.putDiary d).dict = s.dict ∧ (s.putDiary d).wear = s.wear ∧
      (s.putDiary d).elec = s.elec ∧ (s.putDiary d).fabric = s.fabric ∧ (s.putDiary d).stackMap = s.stackMap ∧
      (s.putDiary d).guests = s.guests ∧ (s.putDiary d).desk = s.desk ∧ (s.putDiary d).guard = s.guard ∧
      (s.putDiary d).progs = s.progs ∧ (s.putDiary d).loader = s.loader ∧ (s.putDiary d).row = s.row ∧
      (s.putDiary d).plant = s.plant ∧ (s.putDiary d).ioc = s.ioc ∧ (s.putDiary d).pending = s.pending := by
  exact ⟨rfl, rfl, rfl, rfl, rfl, rfl, rfl, rfl, rfl, rfl, rfl, rfl, rfl, rfl, rfl, rfl, rfl, rfl, rfl, rfl, rfl, rfl, rfl⟩

@[simp] theorem State.beginStep_frame (s : State) (k : Nat) :
    (s.beginStep k).now = s.now ∧ (s.beginStep k).freeCtr = s.freeCtr ∧ (s.beginStep k).latched = s.latched ∧
      (s.beginStep k).stancePending = s.stancePending ∧ (s.beginStep k).recorder = s.recorder ∧
      (s.beginStep k).wheel = s.wheel ∧ (s.beginStep k).phases = s.phases ∧ (s.beginStep k).port = s.port ∧
      (s.beginStep k).dict = s.dict ∧ (s.beginStep k).wear = s.wear ∧ (s.beginStep k).elec = s.elec ∧
      (s.beginStep k).fabric = s.fabric ∧ (s.beginStep k).stackMap = s.stackMap ∧ (s.beginStep k).guests = s.guests ∧
      (s.beginStep k).desk = s.desk ∧ (s.beginStep k).guard = s.guard ∧ (s.beginStep k).progs = s.progs ∧
      (s.beginStep k).loader = s.loader ∧ (s.beginStep k).row = s.row ∧ (s.beginStep k).plant = s.plant ∧
      (s.beginStep k).ioc = s.ioc ∧ (s.beginStep k).pending = s.pending := by
  simp [State.beginStep]

@[simp] theorem State.endStep_frame (s : State) (k : Nat) :
    (s.endStep k).now = s.now ∧ (s.endStep k).freeCtr = s.freeCtr ∧ (s.endStep k).latched = s.latched ∧
      (s.endStep k).stancePending = s.stancePending ∧ (s.endStep k).recorder = s.recorder ∧
      (s.endStep k).wheel = s.wheel ∧ (s.endStep k).phases = s.phases ∧ (s.endStep k).port = s.port ∧
      (s.endStep k).dict = s.dict ∧ (s.endStep k).wear = s.wear ∧ (s.endStep k).elec = s.elec ∧
      (s.endStep k).fabric = s.fabric ∧ (s.endStep k).stackMap = s.stackMap ∧ (s.endStep k).guests = s.guests ∧
      (s.endStep k).desk = s.desk ∧ (s.endStep k).guard = s.guard ∧ (s.endStep k).progs = s.progs ∧
      (s.endStep k).loader = s.loader ∧ (s.endStep k).row = s.row ∧ (s.endStep k).plant = s.plant ∧
      (s.endStep k).ioc = s.ioc ∧ (s.endStep k).pending = s.pending := by
  unfold State.endStep
  try dsimp only
  repeat' split
  all_goals simp

@[simp] theorem State.failStep_frame (s : State) (k : Nat) (required : Bool) :
    (s.failStep k required).now = s.now ∧ (s.failStep k required).regs = s.regs ∧
      (s.failStep k required).freeCtr = s.freeCtr ∧ (s.failStep k required).latched = s.latched ∧
      (s.failStep k required).stancePending = s.stancePending ∧ (s.failStep k required).recorder = s.recorder ∧
      (s.failStep k required).wheel = s.wheel ∧ (s.failStep k required).phases = s.phases ∧
      (s.failStep k required).port = s.port ∧ (s.failStep k required).dict = s.dict ∧
      (s.failStep k required).wear = s.wear ∧ (s.failStep k required).elec = s.elec ∧
      (s.failStep k required).fabric = s.fabric ∧ (s.failStep k required).stackMap = s.stackMap ∧
      (s.failStep k required).guests = s.guests ∧ (s.failStep k required).desk = s.desk ∧
      (s.failStep k required).guard = s.guard ∧ (s.failStep k required).progs = s.progs ∧
      (s.failStep k required).loader = s.loader ∧ (s.failStep k required).row = s.row ∧
      (s.failStep k required).plant = s.plant ∧ (s.failStep k required).ioc = s.ioc ∧
      (s.failStep k required).pending = s.pending := by
  unfold State.failStep
  try dsimp only
  repeat' split
  all_goals simp

@[simp] theorem State.refreshKind_frame (s : State) (k : Nat) :
    (s.refreshKind k).now = s.now ∧ (s.refreshKind k).fram = s.fram ∧ (s.refreshKind k).freeCtr = s.freeCtr ∧
      (s.refreshKind k).stancePending = s.stancePending ∧ (s.refreshKind k).wheel = s.wheel ∧
      (s.refreshKind k).phases = s.phases ∧ (s.refreshKind k).port = s.port ∧ (s.refreshKind k).dict = s.dict ∧
      (s.refreshKind k).start = s.start ∧ (s.refreshKind k).wear = s.wear ∧ (s.refreshKind k).elec = s.elec ∧
      (s.refreshKind k).fabric = s.fabric ∧ (s.refreshKind k).stackMap = s.stackMap ∧
      (s.refreshKind k).guests = s.guests ∧ (s.refreshKind k).desk = s.desk ∧ (s.refreshKind k).guard = s.guard ∧
      (s.refreshKind k).progs = s.progs ∧ (s.refreshKind k).loader = s.loader ∧ (s.refreshKind k).row = s.row ∧
      (s.refreshKind k).plant = s.plant ∧ (s.refreshKind k).ioc = s.ioc ∧ (s.refreshKind k).pending = s.pending := by
  unfold State.refreshKind
  try dsimp only
  repeat' split
  all_goals simp

@[simp] theorem State.putUnit_frame (s : State) (row : Nat) (u : LedgerUnit) :
    (s.putUnit row u).now = s.now ∧ (s.putUnit row u).regs = s.regs ∧ (s.putUnit row u).fram = s.fram ∧
      (s.putUnit row u).freeCtr = s.freeCtr ∧ (s.putUnit row u).latched = s.latched ∧
      (s.putUnit row u).stancePending = s.stancePending ∧ (s.putUnit row u).recorder = s.recorder ∧
      (s.putUnit row u).wheel = s.wheel ∧ (s.putUnit row u).phases = s.phases ∧ (s.putUnit row u).port = s.port ∧
      (s.putUnit row u).dict = s.dict ∧ (s.putUnit row u).start = s.start ∧ (s.putUnit row u).elec = s.elec ∧
      (s.putUnit row u).fabric = s.fabric ∧ (s.putUnit row u).stackMap = s.stackMap ∧
      (s.putUnit row u).guests = s.guests ∧ (s.putUnit row u).desk = s.desk ∧ (s.putUnit row u).guard = s.guard ∧
      (s.putUnit row u).progs = s.progs ∧ (s.putUnit row u).loader = s.loader ∧ (s.putUnit row u).row = s.row ∧
      (s.putUnit row u).plant = s.plant ∧ (s.putUnit row u).ioc = s.ioc ∧ (s.putUnit row u).pending = s.pending := by
  exact ⟨rfl, rfl, rfl, rfl, rfl, rfl, rfl, rfl, rfl, rfl, rfl, rfl, rfl, rfl, rfl, rfl, rfl, rfl, rfl, rfl, rfl, rfl, rfl, rfl⟩

@[simp] theorem State.setRole_frame (s : State) (row role serves : Nat) :
    (s.setRole row role serves).now = s.now ∧ (s.setRole row role serves).fram = s.fram ∧
      (s.setRole row role serves).freeCtr = s.freeCtr ∧ (s.setRole row role serves).stancePending = s.stancePending ∧
      (s.setRole row role serves).wheel = s.wheel ∧ (s.setRole row role serves).phases = s.phases ∧
      (s.setRole row role serves).port = s.port ∧ (s.setRole row role serves).dict = s.dict ∧
      (s.setRole row role serves).start = s.start ∧ (s.setRole row role serves).elec = s.elec ∧
      (s.setRole row role serves).fabric = s.fabric ∧ (s.setRole row role serves).stackMap = s.stackMap ∧
      (s.setRole row role serves).guests = s.guests ∧ (s.setRole row role serves).desk = s.desk ∧
      (s.setRole row role serves).guard = s.guard ∧ (s.setRole row role serves).progs = s.progs ∧
      (s.setRole row role serves).loader = s.loader ∧ (s.setRole row role serves).row = s.row ∧
      (s.setRole row role serves).plant = s.plant ∧ (s.setRole row role serves).ioc = s.ioc ∧
      (s.setRole row role serves).pending = s.pending := by
  simp [State.setRole]

@[simp] theorem State.writeLife_frame (s : State) (row : Nat) :
    (s.writeLife row).now = s.now ∧ (s.writeLife row).regs = s.regs ∧ (s.writeLife row).freeCtr = s.freeCtr ∧
      (s.writeLife row).latched = s.latched ∧ (s.writeLife row).stancePending = s.stancePending ∧
      (s.writeLife row).recorder = s.recorder ∧ (s.writeLife row).wheel = s.wheel ∧
      (s.writeLife row).phases = s.phases ∧ (s.writeLife row).port = s.port ∧ (s.writeLife row).dict = s.dict ∧
      (s.writeLife row).start = s.start ∧ (s.writeLife row).wear = s.wear ∧ (s.writeLife row).elec = s.elec ∧
      (s.writeLife row).fabric = s.fabric ∧ (s.writeLife row).stackMap = s.stackMap ∧
      (s.writeLife row).guests = s.guests ∧ (s.writeLife row).desk = s.desk ∧ (s.writeLife row).guard = s.guard ∧
      (s.writeLife row).progs = s.progs ∧ (s.writeLife row).loader = s.loader ∧ (s.writeLife row).row = s.row ∧
      (s.writeLife row).plant = s.plant ∧ (s.writeLife row).ioc = s.ioc ∧ (s.writeLife row).pending = s.pending := by
  exact ⟨rfl, rfl, rfl, rfl, rfl, rfl, rfl, rfl, rfl, rfl, rfl, rfl, rfl, rfl, rfl, rfl, rfl, rfl, rfl, rfl, rfl, rfl, rfl, rfl⟩

@[simp] theorem State.retire_frame (s : State) (row cause : Nat) :
    (s.retire row cause).now = s.now ∧ (s.retire row cause).freeCtr = s.freeCtr ∧
      (s.retire row cause).stancePending = s.stancePending ∧ (s.retire row cause).wheel = s.wheel ∧
      (s.retire row cause).phases = s.phases ∧ (s.retire row cause).port = s.port ∧
      (s.retire row cause).dict = s.dict ∧ (s.retire row cause).start = s.start ∧
      (s.retire row cause).elec = s.elec ∧ (s.retire row cause).fabric = s.fabric ∧
      (s.retire row cause).stackMap = s.stackMap ∧ (s.retire row cause).guests = s.guests ∧
      (s.retire row cause).desk = s.desk ∧ (s.retire row cause).guard = s.guard ∧
      (s.retire row cause).progs = s.progs ∧ (s.retire row cause).loader = s.loader ∧
      (s.retire row cause).row = s.row ∧ (s.retire row cause).plant = s.plant ∧ (s.retire row cause).ioc = s.ioc ∧
      (s.retire row cause).pending = s.pending := by
  simp [State.retire]

@[simp] theorem State.noteFailure_frame (s : State) (row : Nat) :
    (s.noteFailure row).now = s.now ∧ (s.noteFailure row).freeCtr = s.freeCtr ∧
      (s.noteFailure row).stancePending = s.stancePending ∧ (s.noteFailure row).wheel = s.wheel ∧
      (s.noteFailure row).phases = s.phases ∧ (s.noteFailure row).port = s.port ∧ (s.noteFailure row).dict = s.dict ∧
      (s.noteFailure row).elec = s.elec ∧ (s.noteFailure row).fabric = s.fabric ∧
      (s.noteFailure row).stackMap = s.stackMap ∧ (s.noteFailure row).guests = s.guests ∧
      (s.noteFailure row).desk = s.desk ∧ (s.noteFailure row).guard = s.guard ∧ (s.noteFailure row).progs = s.progs ∧
      (s.noteFailure row).loader = s.loader ∧ (s.noteFailure row).row = s.row ∧ (s.noteFailure row).plant = s.plant ∧
      (s.noteFailure row).ioc = s.ioc ∧ (s.noteFailure row).pending = s.pending := by
  unfold State.noteFailure
  try dsimp only
  repeat' split
  all_goals simp

@[simp] theorem State.fenceUnit_frame (s : State) (row : Nat) :
    (s.fenceUnit row).now = s.now ∧ (s.fenceUnit row).freeCtr = s.freeCtr ∧
      (s.fenceUnit row).stancePending = s.stancePending ∧ (s.fenceUnit row).wheel = s.wheel ∧
      (s.fenceUnit row).phases = s.phases ∧ (s.fenceUnit row).port = s.port ∧ (s.fenceUnit row).dict = s.dict ∧
      (s.fenceUnit row).start = s.start ∧ (s.fenceUnit row).elec = s.elec ∧ (s.fenceUnit row).fabric = s.fabric ∧
      (s.fenceUnit row).stackMap = s.stackMap ∧ (s.fenceUnit row).guests = s.guests ∧
      (s.fenceUnit row).desk = s.desk ∧ (s.fenceUnit row).guard = s.guard ∧ (s.fenceUnit row).progs = s.progs ∧
      (s.fenceUnit row).loader = s.loader ∧ (s.fenceUnit row).row = s.row ∧ (s.fenceUnit row).plant = s.plant ∧
      (s.fenceUnit row).ioc = s.ioc ∧ (s.fenceUnit row).pending = s.pending := by
  unfold State.fenceUnit
  try dsimp only
  repeat' split
  all_goals simp

@[simp] theorem State.promote_frame (s : State) (row serves : Nat) :
    (s.promote row serves).now = s.now ∧ (s.promote row serves).fram = s.fram ∧
      (s.promote row serves).freeCtr = s.freeCtr ∧ (s.promote row serves).stancePending = s.stancePending ∧
      (s.promote row serves).wheel = s.wheel ∧ (s.promote row serves).phases = s.phases ∧
      (s.promote row serves).port = s.port ∧ (s.promote row serves).dict = s.dict ∧
      (s.promote row serves).start = s.start ∧ (s.promote row serves).elec = s.elec ∧
      (s.promote row serves).fabric = s.fabric ∧ (s.promote row serves).stackMap = s.stackMap ∧
      (s.promote row serves).guests = s.guests ∧ (s.promote row serves).desk = s.desk ∧
      (s.promote row serves).guard = s.guard ∧ (s.promote row serves).progs = s.progs ∧
      (s.promote row serves).loader = s.loader ∧ (s.promote row serves).row = s.row ∧
      (s.promote row serves).plant = s.plant ∧ (s.promote row serves).ioc = s.ioc ∧
      (s.promote row serves).pending = s.pending := by
  simp [State.promote]

@[simp] theorem State.startTest_frame (s : State) (row : Nat) (planned : Bool) :
    (s.startTest row planned).now = s.now ∧ (s.startTest row planned).fram = s.fram ∧
      (s.startTest row planned).freeCtr = s.freeCtr ∧ (s.startTest row planned).stancePending = s.stancePending ∧
      (s.startTest row planned).wheel = s.wheel ∧ (s.startTest row planned).phases = s.phases ∧
      (s.startTest row planned).port = s.port ∧ (s.startTest row planned).dict = s.dict ∧
      (s.startTest row planned).start = s.start ∧ (s.startTest row planned).elec = s.elec ∧
      (s.startTest row planned).fabric = s.fabric ∧ (s.startTest row planned).stackMap = s.stackMap ∧
      (s.startTest row planned).guests = s.guests ∧ (s.startTest row planned).desk = s.desk ∧
      (s.startTest row planned).guard = s.guard ∧ (s.startTest row planned).progs = s.progs ∧
      (s.startTest row planned).loader = s.loader ∧ (s.startTest row planned).row = s.row ∧
      (s.startTest row planned).plant = s.plant ∧ (s.startTest row planned).ioc = s.ioc ∧
      (s.startTest row planned).pending = s.pending := by
  simp [State.startTest]

@[simp] theorem State.setSessions_frame (s : State) (l : List Session) :
    (s.setSessions l).now = s.now ∧ (s.setSessions l).fram = s.fram ∧ (s.setSessions l).freeCtr = s.freeCtr ∧
      (s.setSessions l).latched = s.latched ∧ (s.setSessions l).stancePending = s.stancePending ∧
      (s.setSessions l).recorder = s.recorder ∧ (s.setSessions l).wheel = s.wheel ∧
      (s.setSessions l).phases = s.phases ∧ (s.setSessions l).port = s.port ∧ (s.setSessions l).start = s.start ∧
      (s.setSessions l).wear = s.wear ∧ (s.setSessions l).elec = s.elec ∧ (s.setSessions l).fabric = s.fabric ∧
      (s.setSessions l).stackMap = s.stackMap ∧ (s.setSessions l).guests = s.guests ∧
      (s.setSessions l).desk = s.desk ∧ (s.setSessions l).guard = s.guard ∧ (s.setSessions l).progs = s.progs ∧
      (s.setSessions l).loader = s.loader ∧ (s.setSessions l).row = s.row ∧ (s.setSessions l).plant = s.plant ∧
      (s.setSessions l).ioc = s.ioc ∧ (s.setSessions l).pending = s.pending := by
  simp [State.setSessions]

@[simp] theorem State.closeSession_frame (s : State) (id : Nat) :
    (s.closeSession id).now = s.now ∧ (s.closeSession id).fram = s.fram ∧ (s.closeSession id).freeCtr = s.freeCtr ∧
      (s.closeSession id).latched = s.latched ∧ (s.closeSession id).stancePending = s.stancePending ∧
      (s.closeSession id).recorder = s.recorder ∧ (s.closeSession id).wheel = s.wheel ∧
      (s.closeSession id).phases = s.phases ∧ (s.closeSession id).port = s.port ∧
      (s.closeSession id).start = s.start ∧ (s.closeSession id).wear = s.wear ∧ (s.closeSession id).elec = s.elec ∧
      (s.closeSession id).fabric = s.fabric ∧ (s.closeSession id).stackMap = s.stackMap ∧
      (s.closeSession id).guests = s.guests ∧ (s.closeSession id).desk = s.desk ∧
      (s.closeSession id).guard = s.guard ∧ (s.closeSession id).progs = s.progs ∧
      (s.closeSession id).loader = s.loader ∧ (s.closeSession id).row = s.row ∧ (s.closeSession id).plant = s.plant ∧
      (s.closeSession id).ioc = s.ioc ∧ (s.closeSession id).pending = s.pending := by
  simp [State.closeSession]

@[simp] theorem State.sendReply_frame (s : State) (dst dport : Nat) (bytes : Bytes) :
    (s.sendReply dst dport bytes).now = s.now ∧ (s.sendReply dst dport bytes).fram = s.fram ∧
      (s.sendReply dst dport bytes).freeCtr = s.freeCtr ∧
      (s.sendReply dst dport bytes).stancePending = s.stancePending ∧ (s.sendReply dst dport bytes).wheel = s.wheel ∧
      (s.sendReply dst dport bytes).phases = s.phases ∧ (s.sendReply dst dport bytes).dict = s.dict ∧
      (s.sendReply dst dport bytes).start = s.start ∧ (s.sendReply dst dport bytes).wear = s.wear ∧
      (s.sendReply dst dport bytes).elec = s.elec ∧ (s.sendReply dst dport bytes).fabric = s.fabric ∧
      (s.sendReply dst dport bytes).stackMap = s.stackMap ∧ (s.sendReply dst dport bytes).guests = s.guests ∧
      (s.sendReply dst dport bytes).desk = s.desk ∧ (s.sendReply dst dport bytes).guard = s.guard ∧
      (s.sendReply dst dport bytes).progs = s.progs ∧ (s.sendReply dst dport bytes).loader = s.loader ∧
      (s.sendReply dst dport bytes).row = s.row ∧ (s.sendReply dst dport bytes).plant = s.plant ∧
      (s.sendReply dst dport bytes).ioc = s.ioc ∧ (s.sendReply dst dport bytes).pending = s.pending := by
  unfold State.sendReply
  try dsimp only
  repeat' split
  all_goals simp

@[simp] theorem State.answer_frame (s : State) (q : Req) (a : Ans) :
    (s.answer q a).now = s.now ∧ (s.answer q a).fram = s.fram ∧ (s.answer q a).freeCtr = s.freeCtr ∧
      (s.answer q a).stancePending = s.stancePending ∧ (s.answer q a).wheel = s.wheel ∧
      (s.answer q a).phases = s.phases ∧ (s.answer q a).start = s.start ∧ (s.answer q a).wear = s.wear ∧
      (s.answer q a).elec = s.elec ∧ (s.answer q a).fabric = s.fabric ∧ (s.answer q a).stackMap = s.stackMap ∧
      (s.answer q a).guests = s.guests ∧ (s.answer q a).desk = s.desk ∧ (s.answer q a).guard = s.guard ∧
      (s.answer q a).progs = s.progs ∧ (s.answer q a).loader = s.loader ∧ (s.answer q a).row = s.row ∧
      (s.answer q a).plant = s.plant ∧ (s.answer q a).ioc = s.ioc ∧ (s.answer q a).pending = s.pending := by
  unfold State.answer
  split <;> simp

@[simp] theorem State.refuse_frame (s : State) (q : Req) (code : Nat) (body : Bytes) (key : Option Nat) :
    (s.refuse q code body key).now = s.now ∧ (s.refuse q code body key).fram = s.fram ∧
      (s.refuse q code body key).freeCtr = s.freeCtr ∧ (s.refuse q code body key).stancePending = s.stancePending ∧
      (s.refuse q code body key).wheel = s.wheel ∧ (s.refuse q code body key).phases = s.phases ∧
      (s.refuse q code body key).start = s.start ∧ (s.refuse q code body key).wear = s.wear ∧
      (s.refuse q code body key).elec = s.elec ∧ (s.refuse q code body key).fabric = s.fabric ∧
      (s.refuse q code body key).stackMap = s.stackMap ∧ (s.refuse q code body key).guests = s.guests ∧
      (s.refuse q code body key).desk = s.desk ∧ (s.refuse q code body key).guard = s.guard ∧
      (s.refuse q code body key).progs = s.progs ∧ (s.refuse q code body key).loader = s.loader ∧
      (s.refuse q code body key).row = s.row ∧ (s.refuse q code body key).plant = s.plant ∧
      (s.refuse q code body key).ioc = s.ioc ∧ (s.refuse q code body key).pending = s.pending := by
  simp [State.refuse]

@[simp] theorem State.heard_frame (s : State) (rx : Rx) :
    (s.heard rx).now = s.now ∧ (s.heard rx).fram = s.fram ∧ (s.heard rx).freeCtr = s.freeCtr ∧
      (s.heard rx).latched = s.latched ∧ (s.heard rx).stancePending = s.stancePending ∧
      (s.heard rx).recorder = s.recorder ∧ (s.heard rx).wheel = s.wheel ∧ (s.heard rx).phases = s.phases ∧
      (s.heard rx).start = s.start ∧ (s.heard rx).wear = s.wear ∧ (s.heard rx).elec = s.elec ∧
      (s.heard rx).fabric = s.fabric ∧ (s.heard rx).stackMap = s.stackMap ∧ (s.heard rx).guests = s.guests ∧
      (s.heard rx).desk = s.desk ∧ (s.heard rx).guard = s.guard ∧ (s.heard rx).progs = s.progs ∧
      (s.heard rx).loader = s.loader ∧ (s.heard rx).row = s.row ∧ (s.heard rx).plant = s.plant ∧
      (s.heard rx).ioc = s.ioc ∧ (s.heard rx).pending = s.pending := by
  simp [State.heard]

@[simp] theorem State.markSeq_frame (s : State) (x : Session) (seq : Nat) :
    (s.markSeq x seq).now = s.now ∧ (s.markSeq x seq).fram = s.fram ∧ (s.markSeq x seq).freeCtr = s.freeCtr ∧
      (s.markSeq x seq).latched = s.latched ∧ (s.markSeq x seq).stancePending = s.stancePending ∧
      (s.markSeq x seq).recorder = s.recorder ∧ (s.markSeq x seq).wheel = s.wheel ∧
      (s.markSeq x seq).phases = s.phases ∧ (s.markSeq x seq).port = s.port ∧ (s.markSeq x seq).start = s.start ∧
      (s.markSeq x seq).wear = s.wear ∧ (s.markSeq x seq).elec = s.elec ∧ (s.markSeq x seq).fabric = s.fabric ∧
      (s.markSeq x seq).stackMap = s.stackMap ∧ (s.markSeq x seq).guests = s.guests ∧
      (s.markSeq x seq).desk = s.desk ∧ (s.markSeq x seq).guard = s.guard ∧ (s.markSeq x seq).progs = s.progs ∧
      (s.markSeq x seq).loader = s.loader ∧ (s.markSeq x seq).row = s.row ∧ (s.markSeq x seq).plant = s.plant ∧
      (s.markSeq x seq).ioc = s.ioc ∧ (s.markSeq x seq).pending = s.pending := by
  simp [State.markSeq]

/-! ### Reading a register after a write -/

theorem State.getD_set_ne (s : State) (e : Ent) (v : Nat) {k : Nat} (h : k ≠ e.key) (d : Nat) :
    (s.set e v).regs.getD k d = s.regs.getD k d := AMap.getD_put_ne _ h _ _ _

theorem State.getD_setU_ne (s : State) (e : Ent) (u v : Nat) {k : Nat} (h : k ≠ e.key + 256 * u) (d : Nat) :
    (s.setU e u v).regs.getD k d = s.regs.getD k d := AMap.getD_put_ne _ h _ _ _

@[simp] theorem State.get_set_same (s : State) (e : Ent) (v : Nat) : (s.set e v).get e = v :=
  AMap.getD_put_same _ _ _ _

theorem State.get_set_ne (s : State) (e f : Ent) (v : Nat) (h : f.key ≠ e.key) : (s.set e v).get f = s.get f :=
  State.getD_set_ne s e v h _

@[simp] theorem State.getU_setU_same (s : State) (e : Ent) (u v : Nat) : (s.setU e u v).getU e u = v :=
  AMap.getD_put_same _ _ _ _

theorem State.getU_setU_ne (s : State) (e f : Ent) (u w v : Nat) (h : f.key + 256 * w ≠ e.key + 256 * u) :
    (s.setU e u v).getU f w = s.getU f w := State.getD_setU_ne s e u v h _

theorem State.get_setU_ne (s : State) (e f : Ent) (u v : Nat) (h : f.key ≠ e.key + 256 * u) :
    (s.setU e u v).get f = s.get f := State.getD_setU_ne s e u v h _

theorem State.getU_set_ne (s : State) (e f : Ent) (w v : Nat) (h : f.key + 256 * w ≠ e.key) :
    (s.set e v).getU f w = s.getU f w := State.getD_set_ne s e v h _

/-- Reads depend on the registers alone. -/
theorem State.get_congr {s t : State} (h : t.regs = s.regs) (e : Ent) : t.get e = s.get e := by
  unfold State.get
  rw [h]

theorem State.getU_congr {s t : State} (h : t.regs = s.regs) (e : Ent) (u : Nat) : t.getU e u = s.getU e u := by
  unfold State.getU
  rw [h]

/-! ### The registers that condition records write -/

/-- The entries that staging a record or entering the last-gasp store may write. -/
def logKeys : List Nat :=
  [E.COND_FOLDED.key, E.COND_LOST.key, E.REC_LATCHES.key, E.LASTGASP_COUNT.key, E.LASTGASP_OVERFLOW.key]

theorem State.getD_condLost (s : State) (c : Cond) {k : Nat} (h : k ∉ logKeys) (d : Nat) :
    (s.condLost c).regs.getD k d = s.regs.getD k d := by
  simp only [logKeys, List.mem_cons, List.not_mem_nil, not_or, or_false] at h
  unfold State.condLost
  dsimp only
  rw [State.getD_set_ne _ _ _ h.2.2.1]
  exact State.getD_set_ne _ _ _ h.2.1 _

theorem State.getD_cond (s : State) (c : Cond) (isOpen : Bool) {k : Nat} (h : k ∉ logKeys) (d : Nat) :
    (s.cond c isOpen).regs.getD k d = s.regs.getD k d := by
  have hf : k ≠ E.COND_FOLDED.key := fun e => h (by rw [e]; exact List.mem_cons_self)
  unfold State.cond
  dsimp only
  split
  · rfl
  · split
    · exact State.getD_set_ne _ _ _ hf _
    · split
      · split
        · exact State.getD_set_ne _ _ _ hf _
        · exact State.getD_condLost s c h d
      · split
        · rfl
        · exact State.getD_condLost s c h d

theorem State.getD_condEnd (s : State) (c : Cond) {k : Nat} (h : k ∉ logKeys) (d : Nat) :
    (s.condEnd c).regs.getD k d = s.regs.getD k d := by
  unfold State.condEnd
  dsimp only
  split
  · rfl
  · split
    · split
      · rfl
      · exact State.getD_condLost s c h d
    · rfl

theorem State.getD_latchU (s : State) (e : Ent) (u b key : Nat) {k : Nat} (h : k ∉ logKeys) (hk : k ≠ e.key + 256 * u)
    (d : Nat) : (s.latchU e u b key).regs.getD k d = s.regs.getD k d := by
  unfold State.latchU
  dsimp only
  rw [State.getD_cond _ _ _ h]
  exact State.getD_setU_ne s e u _ hk d

theorem State.getD_latchOpenU (s : State) (e : Ent) (u b key : Nat) {k : Nat} (h : k ∉ logKeys)
    (hk : k ≠ e.key + 256 * u) (d : Nat) : (s.latchOpenU e u b key).regs.getD k d = s.regs.getD k d := by
  unfold State.latchOpenU
  dsimp only
  rw [State.getD_cond _ _ _ h]
  exact State.getD_setU_ne s e u _ hk d

/-- A latch event leaves every other entry alone, but for the counts of the recorder. -/
theorem State.get_latch_ne (s : State) (e f : Ent) (b key : Nat) (h : f.key ∉ logKeys) (hk : f.key ≠ e.key) :
    (s.latch e b key).get f = s.get f := State.getD_latchU s e 0 b key h (by simpa using hk) _

theorem State.getU_latch_ne (s : State) (e f : Ent) (w b key : Nat) (h : f.key + 256 * w ∉ logKeys)
    (hk : f.key + 256 * w ≠ e.key) : (s.latch e b key).getU f w = s.getU f w :=
  State.getD_latchU s e 0 b key h (by simpa using hk) _

/-- A latch event sets its bit (R9). -/
theorem State.getU_latchU_same (s : State) (e : Ent) (u b key : Nat) (h : e.key + 256 * u ∉ logKeys) :
    (s.latchU e u b key).getU e u = setBit (s.getU e u) b := by
  unfold State.latchU
  dsimp only
  rw [State.getU, State.getD_cond _ _ _ h]
  exact State.getU_setU_same s e u _

theorem State.get_latch_same (s : State) (e : Ent) (b key : Nat) (h : e.key ∉ logKeys) :
    (s.latch e b key).get e = setBit (s.get e) b := by
  have hu := State.getU_latchU_same s e 0 b key (by simpa using h)
  simpa [State.latch, State.get, State.getU] using hu

theorem State.get_latchOpen_same (s : State) (e : Ent) (b key : Nat) (h : e.key ∉ logKeys) :
    (s.latchOpen e b key).get e = setBit (s.get e) b := by
  unfold State.latchOpen State.latchOpenU
  dsimp only
  rw [State.get, State.getD_cond _ _ _ (by simpa using h)]
  have := State.getU_setU_same s e 0 (setBit (s.getU e 0) b)
  simpa [State.get, State.getU] using this

theorem State.get_latchEnd (s : State) (e f : Ent) (u b key : Nat) (h : f.key ∉ logKeys) :
    (s.latchEnd e u b key).get f = s.get f := State.getD_condEnd s _ h _

/-! ### Conditional effects -/

@[simp] theorem State.when_true (s : State) (f : State → State) : s.when true f = f s := rfl
@[simp] theorem State.when_false (s : State) (f : State → State) : s.when false f = s := rfl

theorem State.when_of {s : State} {b : Bool} {f : State → State} (h : b = true) : s.when b f = f s := by
  rw [h]
  rfl

end Sys2Proof.Machine
end

