-- ==== Sys2Proof/Tests/Slice0.lean ====
section
/-! SUPPORT. Tests: the ill-formed commands that `Instr.wf` refuses, one for each of its checks, and for each statement of
Obligations.lean a state and operands that meet its hypotheses. -/

namespace Sys2Proof.Tests

open Sys2Proof Sys2Proof.Machine

/-! ### Well-formedness -/

def rxOk : Rx := ⟨1, 2, 3, []⟩
def rxBad : Rx := ⟨2 ^ 128, 2, 3, []⟩
def frameOk : Frame := { len := 100, dst := 1, rx := rxOk }
def canOk : CanFrame := {}
def canBad : CanFrame := { id := 2048 }

theorem test_rx_ok : rxOk.wf = true := by decide
theorem test_rx_src : rxBad.wf = false := by decide
theorem test_rx_sport : (Rx.wf { rxOk with sport := 65536 }) = false := by decide
theorem test_rx_dport : (Rx.wf { rxOk with dport := 65536 }) = false := by decide
theorem test_rx_bytes : (Rx.wf { rxOk with bytes := List.replicate 65528 0 }) = false := by
  have h : ∀ n, 65527 < n → Rx.wf { rxOk with bytes := List.replicate n 0 } = false := by
    intro n hn
    simp [Rx.wf, hn]
  exact h _ (by decide)
theorem test_can_id : canOk.wf = true ∧ canBad.wf = false ∧ (CanFrame.wf { canOk with ext := true, id := 2 ^ 29 }) = false := by
  decide
theorem test_can_data : (CanFrame.wf { canOk with data := List.replicate 9 0 }) = false
    ∧ (CanFrame.wf { canOk with fdf := true, data := List.replicate 65 0 }) = false := by decide
theorem test_wf_refuses_1 : ([
    Instr.bootOffer 0 rxBad, Instr.bootData 0 rxBad, Instr.startCmd 0 rxBad, Instr.classWidenLower 0 256,
    Instr.periodPublish 0 16, Instr.periodWithdraw 0 16, Instr.ainTakeover 0 80, Instr.mainsCycle 0 3,
    Instr.wheelPhaseWrite 0 rxBad, Instr.ptpDelayReq 0 rxBad,
    Instr.frameReceive 0 { frameOk with rx := rxBad }, Instr.routerAdvertisement 0 (2 ^ 128) 0 false,
    Instr.neighbourSolicitation 0 (2 ^ 128) 0, Instr.neighbourSolicitation 0 0 (2 ^ 128),
    Instr.echoRequest 0 (2 ^ 128) 0 [], Instr.echoRequest 0 0 (2 ^ 128) [], Instr.read 0 rxBad,
    Instr.write 0 rxBad, Instr.latchClear 0 rxBad, Instr.readBulk 0 rxBad].all fun i => !i.wf) = true := by decide
theorem test_wf_refuses_2 : ([
    Instr.writeBulk 0 rxBad, Instr.subscribe 0 rxBad, Instr.subscriptionPush 0 (2 ^ 128) 0 0,
    Instr.subscriptionPush 0 0 65536 0, Instr.subscriptionPush 0 0 0 64,
    Instr.subscriptionLapse 0 (2 ^ 128) 0 0, Instr.subscriptionLapse 0 0 65536 0,
    Instr.subscriptionLapse 0 0 0 64, Instr.openSession 0 rxBad, Instr.prove 0 rxBad, Instr.close 0 rxBad,
    Instr.checkInRequest 0 rxBad, Instr.passportTakeForce 0 131072, Instr.rejoinCutResend 0 131072,
    Instr.checkOutRequest 0 rxBad, Instr.checkOutFree 0 131072, Instr.telemetryBundle 0 rxBad,
    Instr.guardRelease 0 131072, Instr.releaseSend 0 131072, Instr.capBundleBuild 0 3 0].all fun i => !i.wf) = true := by decide
theorem test_wf_refuses_3 : ([
    Instr.recordParse 0 16, Instr.disobeyResend 0 131072, Instr.guestDisobedient 0 131072,
    Instr.disobeyClear 0 131072, Instr.guestStale 0 131072, Instr.staleCapSend 0 131072,
    Instr.staleEnd 0 131072, Instr.absenceTimeout 0 131072, Instr.guestLapse 0 131072,
    Instr.reserveExpiry 0 131072, Instr.pairEpisodeEnd 0 131072 0, Instr.pairPersistReached 0 131072 0,
    Instr.capRefresh 0 131072, Instr.settleEnd 0 131072, Instr.classFallback 0 256, Instr.leakSuspect 0 40 0,
    Instr.hingeRebuildStart 0 16 0, Instr.hingeRebuildStart 0 0 8, Instr.hingeRebuild 0 rxBad,
    Instr.hingeValidate 0 16 0].all fun i => !i.wf) = true := by decide
theorem test_wf_refuses_4 : ([
    Instr.hingeValidate 0 0 8, Instr.hingePreloadDone 0 16 0, Instr.hingePreloadDone 0 0 8,
    Instr.hingeSwap 0 16 0, Instr.hingeSwap 0 0 8, Instr.hingeStale 0 16 0, Instr.hingeStale 0 0 8,
    Instr.progUploadBegin 0 rxBad, Instr.progUploadChunk 0 rxBad, Instr.progUploadCommit 0 rxBad,
    Instr.progFitComplete 0 16, Instr.progInstall 0 16, Instr.progUploadUnload 0 rxBad, Instr.progStop 0 16,
    Instr.progFeed 0 rxBad, Instr.progFeedApply 0 16, Instr.progStepStart 0 16,
    Instr.progStepComplete 0 16 [], Instr.progPublish 0 16, Instr.parityError 0 144].all fun i => !i.wf) = true := by decide
theorem test_wf_refuses_5 : ([
    Instr.stepOverrun 0 144, Instr.arrayBlockError 0 144 false, Instr.migration 0 144,
    Instr.rotationPreload 0 4, Instr.rotation 0 4, Instr.regionFence 0 4, Instr.regionReconfigure 0 4,
    Instr.lineUncorrectable 0 4 0, Instr.rowSpare 0 4 0 0, Instr.pageRetire 0 4 0,
    Instr.patrolScrubPass 0 4 [], Instr.channelLoss 0 4 0, Instr.channelLoss 0 0 18, Instr.channelSpare 0 4 0,
    Instr.channelSpare 0 0 16, Instr.zeroFillDone 0 4 0, Instr.zeroFillDone 0 0 18, Instr.stackLoss 0 4,
    Instr.stackHot 0 4 0, Instr.iocLaneFail 0 14].all fun i => !i.wf) = true := by decide
theorem test_wf_refuses_6 : ([
    Instr.loopRun 0 256, Instr.feedbackHoldTimeout 0 256, Instr.followingErrorFault 0 256,
    Instr.loopSlotMissed 0 256, Instr.engineBlockError 0 256, Instr.engineTakeover 0 256 false,
    Instr.loopModeWrite 0 rxBad, Instr.manualValueWrite 0 rxBad, Instr.loopCmdAccept 0 rxBad,
    Instr.loopCmdClearTable 0 rxBad, Instr.phaseSourceWrite 0 rxBad, Instr.valveCmdDeenergise 0 rxBad,
    Instr.valveCmdEnergise 0 rxBad, Instr.valveCmdClear 0 rxBad, Instr.boostAdmit 0 14, Instr.boostEnd 0 56 0,
    Instr.boostTimeout 0 56, Instr.peakEnd 0 56, Instr.boostWaitLong 0 14, Instr.descentEnd 0 56 0].all fun i => !i.wf) = true := by decide
theorem test_wf_refuses_7 : ([
    Instr.releaseEnd 0 56 0, Instr.seatKink 0 56 0, Instr.seatWindowEnd 0 56, Instr.seatResultPublish 0 56,
    Instr.valveOpenOn 0 56 0, Instr.valveShort 0 56, Instr.valveShortRetry 0 56, Instr.bankOvercurrent 0 14 0,
    Instr.valveHot 0 56 0, Instr.valveDriverFault 0 56 false, Instr.valveTakeover 0 56,
    Instr.valveSwitchDone 0 56, Instr.speedLoopRun 0 34 {}, Instr.fanStartEnd 0 34, Instr.fanKickEnd 0 34,
    Instr.fanPauseEnd 0 34, Instr.fanStallRetry 0 34, Instr.tachAbsent 0 34, Instr.tachRestored 0 34,
    Instr.fanOverload 0 34].all fun i => !i.wf) = true := by decide
theorem test_wf_refuses_8 : ([
    Instr.fanHot 0 34 0, Instr.fanCmd 0 rxBad, Instr.fanDriverFault 0 34, Instr.fanTakeover 0 34,
    Instr.fanSwitchDone 0 34, Instr.ifanTakeover 0 6, Instr.canFrameReceive 0 8 canOk,
    Instr.canFrameReceive 0 0 canBad, Instr.canTxDone 0 8 0, Instr.canError 0 8 {}, Instr.fbCmdRejoin 0 rxBad,
    Instr.busOffRecoveryDone 0 8, Instr.aloneEnter 0 8, Instr.aloneProbe 0 8, Instr.fbCmdProbe 0 rxBad,
    Instr.rxObjectStale 0 2048, Instr.suppressionEnd 0 8, Instr.fbIntegrateDone 0 8, Instr.fbPortFence 0 8,
    Instr.trendEnd 0 40].all fun i => !i.wf) = true := by decide
theorem test_wf_refuses_9 : ([
    Instr.flowRecovery 0 40, Instr.plantClassLift 0 40, Instr.pumpStartTimeout 0 8 0,
    Instr.pumpStartTimeout 0 0 3, Instr.pumpStandbyReturn 0 8 0, Instr.pumpStandbyReturn 0 0 3,
    Instr.leadRebind 0 8, Instr.pumpRotation 0 8, Instr.psCmd 0 rxBad, Instr.ropeMeasure 0 16 {},
    Instr.isolationCloseDemand 0 40, Instr.isolationRetryClose 0 40, Instr.brCmdEndIsolation 0 rxBad,
    Instr.brCmdDeclareLeak 0 rxBad, Instr.brEnableWrite 0 rxBad, Instr.plantRowCutRefresh 0 40,
    Instr.histSet 0 rxBad, Instr.histCountWrite 0 rxBad, Instr.recCmdClearLog 0 rxBad,
    Instr.recCmdClearHistograms 0 rxBad].all fun i => !i.wf) = true := by decide
theorem test_wf_refuses_10 : ([
    Instr.recCmdClearGuestHistory 0 rxBad, Instr.recCmdClearDieRainflow 0 rxBad,
    Instr.recCmdClearFramLastgasp 0 rxBad, Instr.feedLost 0 2, Instr.feedRange 0 2, Instr.actCmd 0 rxBad,
    Instr.keyEnrol 0 rxBad, Instr.keyRevoke 0 rxBad, Instr.fuseSecRaise 0 rxBad, Instr.fuseKeyRevoke 0 rxBad,
    Instr.stanceWrite 0 rxBad, Instr.bistComplete 0 674 0, Instr.bistResult 0 674, Instr.bistTimeout 0 674,
    Instr.spareRetest 0 17, Instr.plannedTest 0 17, Instr.keeperBlockError 0 18,
    Instr.progStorageMoveDone 0 16, Instr.ainSwitchDone 0 80, Instr.unknownOp 0 rxBad].all fun i => !i.wf) = true := by decide

section Witnesses
/- One after another: each waits for the kernel, and none for a thread of its own. -/
set_option Elab.async false

/-! ### The state, the guest and the datagrams that the witnesses below start from -/

/-- Firmware runs, the link is up and sends, the wheel is locked 700 µs into tick 1,000,000, in stance 1. -/
def w : State :=
  (({ State.reset with
      now := 10 ^ 16, regs := [(E.PORT_MAC.key, 1)], elec := { power := 1 }, dict := { isOpen := true }
      port := { step := 7, sending := true, linkLocal := 2 }
      wheel := { tick := 1000000, turn := 1000000, tickLen := 1000000000, tickStart := 10 ^ 16 - 700000000 } } :
    State).set E.STANCE_ACTIVE 1).set E.WHEEL_STATE 1
/-- Step `k` of the start sequence is in progress and firmware has yet to run. -/
def wStep (k : Nat) : State := { w with dict := {}, start := { step := k, from_ := w.now, imageReqAt := some 0 } }
def wPass : Passport := ⟨7, 0, 0, 0, 0, 10, 20, 30, false, 0, [], [⟨0, 1, 64⟩]⟩
def wGuest : Guest :=
  { present := true, pp := wPass, src := 9, sport := 9, capAddr := 9, capPort := 9, servedAt := 0, firstTick := 0
    joinTick := 0, lastPresence := 1000000, lastPower := 1000000, lastSample := 1000000 }
/-- `w` with a guest in slot 3. -/
def wg (g : Guest) : State := { w with guests := [(3, g)] }
/-- A boot datagram of type `ty` with what follows the boot header. -/
def bootRx (ty : Nat) (rest : Bytes) : Rx :=
  ⟨9, 9, 49203, [1] ++ beBytes 1 ty ++ beBytes 2 rest.length ++ beBytes 4 0 ++ beBytes 6 1 ++ [0, 0] ++ rest⟩
/-- A request's bytes: operation, session, sequence number, flags and body. -/
def wReq (op ses seq flags : Nat) (body : Bytes) : Bytes :=
  [1] ++ beBytes 1 op ++ beBytes 2 flags ++ beBytes 4 ses ++ beBytes 4 seq ++ [0, 0] ++ beBytes 2 body.length ++ body
/-- A request outside a session. -/
def wRx (op : Nat) (body : Bytes) : Rx := ⟨9, 9, 49202, wReq op 0 0 0 body⟩
/-- The body of a READ, WRITE or EXEC of the entry with a key. -/
def wEnt (k ty : Nat) (v : Bytes) : Bytes := beBytes 2 (k / 256) ++ beBytes 1 k ++ beBytes 1 ty ++ v
/-- A session that is open, and `w` with it. -/
def wSes : Session := { id := 1, keyId := 0, isOpen := true, key := 5 }
def ws : State := { w with dict := { w.dict with sessions := [wSes] } }
/-- A request within session 1. -/
abbrev wsRx (op : Nat) (body : Bytes) : Rx :=
  ⟨9, 9, 49202, wReq op 1 1 1 body ++ tagOf 5 (wReq op 1 1 1 body)⟩

theorem beBytes_len (n x : Nat) : (beBytes n x).length = n := by
  induction n generalizing x with
  | zero => rfl
  | succ n ih => exact congrArg (· + 1) (ih x)
theorem tagOf_len (k : Nat) (b : Bytes) : (tagOf k b).length = 16 := by simp [tagOf, beBytes_len]
theorem field_append (b t : Bytes) (i n : Nat) (h : i + n ≤ b.length) : field (b ++ t) i n = field b i n := by
  unfold field slice
  rw [List.drop_append_of_le_length (by omega), List.take_append_of_le_length (by simp; omega)]
/-- How a tagged request is read. -/
theorem parse_tagged (b t : Bytes) (hb : 16 ≤ b.length) (ht : t.length = 16) (hf : field b 2 2 % 2 = 1) :
    Req.parse ⟨9, 9, 49202, b ++ t⟩ = ⟨⟨9, 9, 49202, b ++ t⟩, field b 0 1, field b 1 1, field b 2 2, field b 4 4,
      field b 8 4, field b 14 2, b.drop 16, t⟩ := by
  have e : max 16 (b.length + 16 - 16) = b.length := by omega
  unfold Req.parse
  simp only [field_append _ _ _ _ (show 0 + 1 ≤ b.length by omega), field_append _ _ _ _ (show 1 + 1 ≤ b.length by omega),
    field_append _ _ _ _ (show 2 + 2 ≤ b.length by omega), field_append _ _ _ _ (show 4 + 4 ≤ b.length by omega),
    field_append _ _ _ _ (show 8 + 4 ≤ b.length by omega), field_append _ _ _ _ (show 14 + 2 ≤ b.length by omega), hf, if_true,
    List.length_append, ht, e, List.drop_left]
  have : slice (b ++ t) 16 (b.length - 16) = b.drop 16 := by
    unfold slice
    rw [List.drop_append_of_le_length hb, List.take_append_of_le_length (by simp)]
    exact List.take_of_length_le (by simp)
  rw [this]
/-- What the checks leave of a tagged request within an open session. -/
theorem session_runs {s u : State} {rx : Rx} {v : Service} {x : Session} {q : Req} (hq : Req.parse rx = q)
    (fw : s.fwRuns = true) (hp : rx.dport = s.eff E.UDP_PORT_DICT) (hb : ¬ rx.bytes.length < 16)
    (hm : v.mine q s = true) (hv : q.version = 1) (hx : s.session q.session = some x) (ho : x.isOpen = true)
    (hg : q.tagged = true) (ht : q.tag = tagOf x.key (rx.bytes.take (rx.bytes.length - q.tag.length)))
    (hl : x.lastSeq = none) (hc : s.dict.cache = []) (hn : q.length = q.body.length)
    (hn2 : rx.bytes.length = 16 + q.body.length + 16) (h8 : q.op ≠ 8) (hu : u = (s.heard rx).markSeq x q.seq)
    (hco : v.codes q true u = []) : s.screen rx v = .run true u := by
  subst hu
  have htag : (x.isOpen && !(q.tagged && q.tag == tagOf x.key (rx.bytes.take (rx.bytes.length - q.tag.length)))) = false := by
    rw [← ht, ho, hg]; simp
  unfold State.screen
  simp only [hq, fw, hp, hm, hx, htag]
  rw [if_neg (by simp), if_neg hb, if_neg (by simp), if_neg (by simp [hv]), if_neg (by simp)]
  simp only [ho, hl, hc, hn, hg, if_true, List.find?_nil, ite_self]
  rw [if_neg h8]
  simp [hco, codeIf, hn2, lowestCode, minBy]
/-- As `session_runs`, for the requests that `wsRx` makes. -/
theorem ws_runs {s : State} {b : Bytes} {v : Service} {x : Session} (hb : 16 ≤ b.length) (hf : field b 2 2 % 2 = 1)
    (fw : s.fwRuns = true) (hp : 49202 = s.eff E.UDP_PORT_DICT)
    (hm : v.mine ⟨⟨9, 9, 49202, b ++ tagOf 5 b⟩, field b 0 1, field b 1 1, field b 2 2, field b 4 4,
      field b 8 4, field b 14 2, b.drop 16, tagOf 5 b⟩ s = true) (hv : field b 0 1 = 1)
    (hx : s.session (field b 4 4) = some x) (ho : x.isOpen = true) (hk : x.key = 5) (hl : x.lastSeq = none)
    (hc : s.dict.cache = []) (hn : field b 14 2 = (b.drop 16).length) (h8 : field b 1 1 ≠ 8)
    (hco : v.codes ⟨⟨9, 9, 49202, b ++ tagOf 5 b⟩, field b 0 1, field b 1 1, field b 2 2, field b 4 4,
      field b 8 4, field b 14 2, b.drop 16, tagOf 5 b⟩ true
      ((s.heard ⟨9, 9, 49202, b ++ tagOf 5 b⟩).markSeq x (field b 8 4)) = []) :
    s.screen ⟨9, 9, 49202, b ++ tagOf 5 b⟩ v
      = .run true ((s.heard ⟨9, 9, 49202, b ++ tagOf 5 b⟩).markSeq x (field b 8 4)) := by
  have e : (b ++ tagOf 5 b).length = b.length + 16 := by simp [tagOf_len]
  refine session_runs (parse_tagged b _ hb (tagOf_len 5 b) hf) fw hp (by show ¬ (b ++ tagOf 5 b).length < 16; omega) hm hv hx ho
    (by simp [Req.tagged, hf]) ?_ hl hc hn ?_ h8 rfl hco
  · simp [hk]
  · show (b ++ tagOf 5 b).length = _
    rw [e]; simp; omega
/-- The WRITE of a number to the entry with a key. -/
def wWrite (key v : Nat) : Rx :=
  wRx 2 (match entryAt (key / 256) (key % 256) with
    | some (r, _) => wEnt key r.ty.code (beBytes r.ty.size v)
    | none => [])
/-- The EXEC of a command entry, outside a session and within session 1. -/
def wExec (key : Nat) (v : Bytes) : Rx := wRx 6 (wEnt key 0 v)
abbrev wsExec (key : Nat) (v : Bytes) : Rx := wsRx 6 (wEnt key 0 v)
/-- What the checks of a request leave, and whether it is to be run. -/
def stOf : Screened → State
  | .dealt s => s
  | .run _ s => s
def isRun : Screened → Bool
  | .dealt _ => false
  | .run live _ => !live
theorem run_of {x : Screened} (h : isRun x = true) : x = .run false (stOf x) := by
  cases x with
  | dealt s => cases h
  | run l s => cases l with
    | false => rfl
    | true => cases h
theorem entry_of {q : Req} (h : q.entry.isSome = true) : q.entry = some ((q.entry.get h).1, (q.entry.get h).2) :=
  (Option.some_get h).symm

theorem witness_StartSequenceMoves :
    (∃ (s : State) (t : Nat), ((s.at t).elec.power = 0 ∨ (s.at t).elec.power = 3)) ∧
    (∃ (s : State) (t c : Nat) (rest : List Nat), (s.at t).ioc.stagger = c :: rest ∧ (s.at t).elec.power = 1 ∧
      (s.at t).fwRuns = false ∧
      (s.at t).ioc.staggerAt + (if c = 0 || 28 ≤ c then 500 else (s.at t).fram.entries.getD E.FAN_START_GAP_MS.key E.FAN_START_GAP_MS.dflt) * ms ≤ (s.at t).now) ∧
    (∃ (s : State) (t : Nat), (s.at t).inStep 2 = true) ∧
    (∃ (s : State) (t : Nat) (ok lifeOk : Bool), (s.at t).inStep 3 = true) ∧
    (∃ (s : State) (t : Nat), (s.at t).inStep 5 = true ∧ s.start.groups < 18 ∧
      (s.start.groups = 0 ∨ s.start.groupAt + 50 * us ≤ (s.at t).now)) ∧
    (∃ (s : State) (t k l : Nat), stepLimit s.start.step = some l ∧ (s.at t).inStep s.start.step = true ∧
      s.start.step = k ∧ (s.at t).stepFrom + 4 * l * ms ≤ (s.at t).now) ∧
    (∃ (s : State) (t f : Nat), s.start.failedAt = some f ∧ s.elec.power = 1 ∧ f + 10 * sec ≤ (s.at t).now) ∧
    (∃ (s : State) (t x : Nat), s.start.restart = some x ∧ s.elec.power = 1 ∧ x ≤ (s.at t).now) := by
  refine ⟨
    ⟨State.reset, 0, Or.inl rfl⟩,
    ⟨{ w with dict := {}, ioc := { stagger := [3] } }, 0, 3, [], ?_, ?_, ?_, ?_⟩,
    ⟨wStep 2, 0, ?_⟩,
    ⟨wStep 3, 0, true, true, ?_⟩,
    ⟨wStep 5, 0, ?_, ?_, ?_⟩,
    ⟨{ wStep 2 with start := { step := 2 } }, 0, 2, stepLimit 2 |>.get (by rfl), ?_, ?_, ?_, ?_⟩,
    ⟨{ w with start := { failedAt := some 0 } }, 0, 0, ?_, ?_, ?_⟩,
    ⟨{ w with start := { restart := some 0 } }, 0, 0, ?_, ?_, ?_⟩⟩ <;> decide +kernel
theorem witness_StartTestsPass :
    (∃ (s : State) (t : Nat) (keepersPass : List Nat), (s.at t).inStep 4 = true ∧
      16 ≤ ((((s.at t).leaveOut 15 4).testable (kindRows 15)).filter fun r => keepersPass.contains (r - kindRow 15)).length) ∧
    (∃ (s : State) (t : Nat) (pass : List Nat), (s.at t).inStep 5 = true ∧ s.start.groups = 18 ∧
      64 ≤ ((((s.at t).skippedArrays.foldl (fun s a => s.startUnit a 2 0xFFFF true) (s.at t)).testable (List.range 144)).filter pass.contains).length) ∧
    (∃ (s : State) (t : Nat) (lanesFail : List Nat), (s.at t).inStep 6 = true ∧
      12 ≤ (let tried := ((s.at t).leaveOut 16 6).testable (kindRows 16); tried.filter fun r => !(tried.filter fun r => lanesFail.contains (r - kindRow 16)).contains r).length) ∧
    (∃ (s : State) (t : Nat) (found : List StackStart), (s.at t).inStep 10 = true) ∧
    (∃ (s : State) (t : Nat) (portsFail ainFail : List Nat), (s.at t).inStep 13 = true) ∧
    (∃ (s : State) (t : Nat), (s.at t).inStep 14 = true ∧ s.wheel.tickStart ≤ (s.at t).now) := by
  refine ⟨
    ⟨wStep 4, 0, List.range 18, ?_, ?_⟩,
    ⟨{ wStep 5 with start := { step := 5, from_ := w.now, groups := 18 } }, 0, List.range 144, ?_, ?_, ?_⟩,
    ⟨wStep 6, 0, [], ?_, ?_⟩,
    ⟨wStep 10, 0, [], ?_⟩,
    ⟨wStep 13, 0, [], [], ?_⟩,
    ⟨wStep 14, 0, ?_, ?_⟩⟩ <;> decide +kernel
theorem witness_BootExchangeMoves :
    (∃ (s : State) (t x : Nat), (s.at t).inStep 8 = true ∧ s.start.offer = none ∧ s.linkUp = true ∧
      s.port.linkLocal = 2 ∧ s.start.imageReqAt = some x ∧ x ≤ (s.at t).now) ∧
    (∃ (s : State) (t : Nat) (rx : Rx), (s.at t).inStep 8 = true ∧ s.start.offer = none ∧
      (s.at t).bootMine rx 2 = true ∧ rx.bytes.length = 56 ∧ 512 ≤ field rx.bytes 16 4 ∧
      field rx.bytes 16 4 ≤ 134217728) ∧
    (∃ (s : State) (t : Nat) (rx : Rx), (s.at t).inStep 8 = true ∧ s.start.offer = none ∧
      (s.at t).bootMine rx 2 = true ∧ rx.bytes.length = 56 ∧
      (field rx.bytes 16 4 < 512 ∨ 134217728 < field rx.bytes 16 4)) ∧
    (∃ (s : State) (t : Nat) (rx : Rx) (src sport len digest : Nat) (r : BootRead), s.start.offer = some (src, sport,
      len, digest) ∧
      (s.start.reads.find? fun r => r.offset == field rx.bytes 16 4 && r.count == field rx.bytes 20 2) = some r ∧
      (s.at t).inStep 8 = true ∧ (s.at t).bootMine rx 4 = true ∧ rx.bytes.length = 24 + r.count ∧
      len ≤ s.start.nextOff ∧ (s.start.reads.filter fun x => x.offset != r.offset) ≠ []) ∧
    (∃ (s : State) (t : Nat) (rx : Rx) (src sport len digest : Nat) (r : BootRead), s.start.offer = some (src, sport,
      len, digest) ∧
      (s.start.reads.find? fun r => r.offset == field rx.bytes 16 4 && r.count == field rx.bytes 20 2) = some r ∧
      (s.at t).inStep 8 = true ∧ (s.at t).bootMine rx 4 = true ∧ rx.bytes.length = 24 + r.count ∧
      len ≤ s.start.nextOff ∧ (s.start.reads.filter fun x => x.offset != r.offset) = []) ∧
    (∃ (s : State) (t offset : Nat) (r : BootRead), (s.start.reads.find? fun r => r.offset == offset) = some r ∧
      (s.at t).inStep 8 = true ∧ r.sentAt + 50 * ms ≤ (s.at t).now ∧ r.sends < 8) ∧
    (∃ (s : State) (t offset : Nat) (r : BootRead), (s.start.reads.find? fun r => r.offset == offset) = some r ∧
      (s.at t).inStep 8 = true ∧ r.sentAt + 50 * ms ≤ (s.at t).now ∧ 8 ≤ r.sends) ∧
    (∃ (s : State) (t src sport len digest : Nat), (s.at t).inStep 9 = true ∧ s.start.offer = some (src, sport, len,
      digest)) ∧
    (∃ (s : State) (t : Nat) (iocOk : Bool), (s.at t).inStep 11 = true) := by
  refine ⟨
    ⟨wStep 8, 0, 0, ?_, ?_, ?_, ?_, ?_, ?_⟩,
    ⟨wStep 8, 0, bootRx 2 (beBytes 4 512 ++ beBytes 4 0 ++ beBytes 32 7), ?_, ?_, ?_, ?_, ?_, ?_⟩,
    ⟨wStep 8, 0, bootRx 2 (beBytes 4 511 ++ beBytes 4 0 ++ beBytes 32 7), ?_, ?_, ?_, ?_, ?_⟩,
    ⟨{ wStep 8 with start := { step := 8, from_ := w.now, offer := some (9, 9, 600, 7), nextOff := 600, reads := [⟨0, 4, 0, 1⟩, ⟨4, 4, 0, 1⟩] } },
      0, bootRx 4 (beBytes 4 0 ++ beBytes 2 4 ++ beBytes 2 0 ++ [1, 2, 3, 4]), 9, 9, 600, 7, ⟨0, 4, 0, 1⟩, ?_, ?_, ?_,
      ?_, ?_, ?_, ?_⟩,
    ⟨{ wStep 8 with start := { step := 8, from_ := w.now, offer := some (9, 9, 600, 7), nextOff := 600, reads := [⟨0, 4, 0, 1⟩] } },
      0, bootRx 4 (beBytes 4 0 ++ beBytes 2 4 ++ beBytes 2 0 ++ [1, 2, 3, 4]), 9, 9, 600, 7, ⟨0, 4, 0, 1⟩, ?_, ?_, ?_,
      ?_, ?_, ?_, ?_⟩,
    ⟨{ wStep 8 with start := { step := 8, from_ := w.now, reads := [⟨0, 4, 0, 7⟩] } }, 0, 0, ⟨0, 4, 0, 7⟩, ?_, ?_, ?_,
      ?_⟩,
    ⟨{ wStep 8 with start := { step := 8, from_ := w.now, reads := [⟨0, 4, 0, 8⟩] } }, 0, 0, ⟨0, 4, 0, 8⟩, ?_, ?_, ?_,
      ?_⟩,
    ⟨{ wStep 9 with start := { step := 9, from_ := w.now, offer := some (9, 9, 600, 7) } }, 0, 9, 9, 600, 7, ?_, ?_⟩,
    ⟨wStep 11, 0, true, ?_⟩⟩ <;> decide +kernel
theorem witness_WheelMoves :
    (∃ (s z : State) (t x : Nat), z = s.at t ∧ z.inStep 12 = true ∧ z.wheel.waitFrom = none ∧
      z.wheel.startAt = some x ∧ x ≤ z.now) ∧
    (∃ (s z : State) (t f : Nat), z = s.at t ∧ z.wheel.waitFrom = some f ∧ z.halfTurnsPassed f 4 = true) ∧
    (∃ (s z : State) (t phase : Nat), z = s.at t) ∧
    (∃ (s z : State) (t : Nat), z = s.at t ∧ z.get E.WHEEL_STATE ≠ 0 ∧ z.wheel.absentSeen = false ∧
      z.halfTurnsPassed ((nth z.wheel.cross (z.get E.WHEEL_REF_PHASE) none).getD z.wheel.origin) 3 = true) ∧
    (∃ (s z : State) (t : Nat), z = s.at t ∧ z.get E.WHEEL_STATE = 2 ∧ z.get E.HOLDOVER_LIMIT ≠ 0 ∧
      z.wheel.longDone = false ∧ z.wheel.holdFrom + z.get E.HOLDOVER_LIMIT * sec ≤ z.now) ∧
    (∃ (s z : State) (t : Nat) (x : TickIn), z = s.at t ∧ z.get E.WHEEL_STATE ≠ 0 ∧ z.elec.power = 1 ∧
      z.wheel.tickStart + z.wheel.tickLen ≤ z.now) ∧
    (∃ (s z : State) (t : Nat) (x : TurnIn), z = s.at t ∧ z.get E.WHEEL_STATE ≠ 0 ∧ z.elec.power = 1 ∧
      z.wheel.idx = 0 ∧ z.wheel.turnDone = false) := by
  refine ⟨
    ⟨{ wStep 12 with wheel := { startAt := some 0 } }, _, 0, 0, rfl, ?_, ?_, ?_, ?_⟩,
    ⟨{ w with wheel := { w.wheel with waitFrom := some 0 } }, _, 0, 0, rfl, ?_, ?_⟩,
    ⟨w, _, 0, 0, rfl⟩,
    ⟨w, _, 0, rfl, ?_, ?_, ?_⟩,
    ⟨{ (w.set E.WHEEL_STATE 2).set E.HOLDOVER_LIMIT 1 with wheel := {} }, _, 0, rfl, ?_, ?_, ?_, ?_⟩,
    ⟨{ w with wheel := { w.wheel with tickStart := 0 } }, _, 0, {}, rfl, ?_, ?_, ?_⟩,
    ⟨{ w with wheel := { w.wheel with turnDone := false } }, _, 0, {}, rfl, ?_, ?_, ?_, ?_⟩⟩ <;> decide +kernel
theorem witness_NoticesAndPtpLeave :
    (∃ (s z : State) (t : Nat), z = s.at t ∧ z.get E.WHEEL_STATE ≠ 0 ∧ z.wheel.idx = z.ticksPerTurn / 2 ∧
      z.wheel.noticeTurn ≠ some (z.turn + 1)) ∧
    (∃ (s z : State) (t : Nat), z = s.at t ∧ z.get E.WHEEL_STATE ≠ 0 ∧ z.wheel.noticeRepeated = false ∧
      z.wheel.noticeTick + 8 ≤ z.tick ∧ z.linkUp = true ∧
      sumOf Dgram.size (z.port.egress.filter fun x => x.cls == 1) + (z.wheel.notice.length + 48) ≤ 8388608) ∧
    (∃ (s z : State) (t : Nat), z = s.at t ∧ z.get E.WHEEL_STATE ≠ 0 ∧ z.wheel.syncNext ≤ z.wheel.tickStart ∧
      z.linkUp = true ∧ sumOf Dgram.size (z.port.egress.filter fun x => x.cls == 1) + 92 ≤ 8388608) ∧
    (∃ (s z : State) (t : Nat), z = s.at t ∧ z.get E.WHEEL_STATE ≠ 0 ∧ z.wheel.announceNext ≤ z.now ∧
      z.linkUp = true ∧ sumOf Dgram.size (z.port.egress.filter fun x => x.cls == 1) + 112 ≤ 8388608) ∧
    (∃ (s z : State) (t : Nat) (rx : Rx), z = s.at t ∧ z.get E.WHEEL_STATE ≠ 0 ∧ rx.dport = 319 ∧
      44 ≤ rx.bytes.length ∧ field rx.bytes 0 1 % 16 = 1 ∧ field rx.bytes 1 1 % 16 = 2 ∧
      field rx.bytes 4 1 = z.eff E.PTP_DOMAIN ∧ z.linkUp = true ∧
      sumOf Dgram.size (z.port.egress.filter fun x => x.cls == 1) + 102 ≤ 8388608) := by
  refine ⟨
    ⟨{ w with wheel := { w.wheel with idx := 100 } }, _, 0, rfl, ?_, ?_, ?_⟩,
    ⟨{ w with wheel := { w.wheel with noticeRepeated := false } }, _, 0, rfl, ?_, ?_, ?_, ?_, ?_⟩,
    ⟨w, _, 0, rfl, ?_, ?_, ?_, ?_⟩,
    ⟨w, _, 0, rfl, ?_, ?_, ?_, ?_⟩,
    ⟨w, _, 0, ⟨9, 9, 319, [1, 2, 0, 0, 0] ++ List.replicate 39 0⟩, rfl, ?_, ?_, ?_, ?_, ?_, ?_, ?_, ?_⟩⟩ <;> decide +kernel
theorem witness_LinkComesUp :
    (∃ (s z : State) (t : Nat) (c : Cage), z = s.at t ∧ z.portIn 1 = true ∧ c.present = false) ∧
    (∃ (s z : State) (t : Nat) (c : Cage), z = s.at t ∧ z.portIn 1 = true ∧ c.present = true ∧ c.media < 4 ∧
      c.media ≠ 0 ∧ c.watts ≤ 33) ∧
    (∃ (s z : State) (t : Nat) (c : Cage), z = s.at t ∧ z.portIn 1 = true ∧ c.present = true ∧
      (4 ≤ c.media ∨ c.media = 0 ∨ 33 < c.watts)) ∧
    (∃ (s z : State) (t f : Nat) (c : Cage), z = s.at t ∧ z.port.recheckFrom = some f ∧ f + 10 * sec ≤ z.now ∧
      c.present = true ∧ c.media < 4 ∧ c.media ≠ 0 ∧ c.watts ≤ 33) ∧
    (∃ (s z : State) (t : Nat), z = s.at t ∧ z.portIn 2 = true) ∧
    (∃ (s z : State) (t : Nat), z = s.at t ∧ z.portIn 3 = true) ∧
    (∃ (s z : State) (t : Nat), z = s.at t ∧ z.portIn 4 = true) ∧
    (∃ (s z : State) (t : Nat), z = s.at t ∧ z.portIn 5 = true) ∧
    (∃ (s z : State) (t : Nat), z = s.at t ∧ z.port.step = 6 ∧ z.port.lastUncorr = none ∧ z.elec.power = 1 ∧
      z.port.stepFrom + 10 * ms ≤ z.now) := by
  refine ⟨
    ⟨{ w with port := { step := 1, stepFrom := w.now } }, _, 0, ⟨false, 0, 0, 0⟩, rfl, ?_, ?_⟩,
    ⟨{ w with port := { step := 1, stepFrom := w.now } }, _, 0, ⟨true, 3, 33, 0⟩, rfl, ?_, ?_, ?_, ?_, ?_⟩,
    ⟨{ w with port := { step := 1, stepFrom := w.now } }, _, 0, ⟨true, 3, 34, 0⟩, rfl, ?_, ?_, ?_⟩,
    ⟨{ w with port := { recheckFrom := some 0 } }, _, 0, 0, ⟨true, 3, 33, 0⟩, rfl, ?_, ?_, ?_, ?_, ?_, ?_⟩,
    ⟨{ w with port := { step := 2, stepFrom := w.now } }, _, 0, rfl, ?_⟩,
    ⟨{ w with port := { step := 3, stepFrom := w.now } }, _, 0, rfl, ?_⟩,
    ⟨{ w with port := { step := 4, stepFrom := w.now } }, _, 0, rfl, ?_⟩,
    ⟨{ w with port := { step := 5, stepFrom := w.now } }, _, 0, rfl, ?_⟩,
    ⟨{ w with port := { step := 6 } }, _, 0, rfl, ?_, ?_, ?_, ?_⟩⟩ <;> decide +kernel
theorem witness_LinkFailsAndCarries :
    (∃ (s z : State) (t : Nat), z = s.at t ∧ 1 ≤ z.port.step ∧ z.port.step ≤ 6 ∧ z.elec.power = 1 ∧
      z.port.diaryMap = none ∧ z.port.attempt < 4) ∧
    (∃ (s z : State) (t : Nat), z = s.at t ∧ 1 ≤ z.port.step ∧ z.port.step ≤ 6 ∧ z.elec.power = 1 ∧
      z.port.diaryMap = none ∧ 4 ≤ z.port.attempt) ∧
    (∃ (s z : State) (t f : Nat), z = s.at t ∧ z.port.roundWait = some f ∧ f + 10 * sec ≤ z.now) ∧
    (∃ (s z : State) (t cause : Nat), z = s.at t ∧ z.linkUp = true ∧ z.elec.power = 1) ∧
    (∃ (s z : State) (t : Nat), z = s.at t ∧ z.linkUp = true ∧ z.elec.power = 1 ∧ z.port.sending = false ∧
      (z.get E.WHEEL_STATE = 0 ∨ z.port.upTick < z.tick)) ∧
    (∃ (s z : State) (t : Nat) (f : Frame), z = s.at t ∧ z.linkUp = true ∧ z.elec.power = 1 ∧
      f.uncorrectable = false ∧ z.frameFault f = 0 ∧ z.fwRuns = true ∧ f.nextHeader = 17) ∧
    (∃ (s z : State) (t : Nat) (f : Frame) (k : Nat), z = s.at t ∧ z.linkUp = true ∧ z.elec.power = 1 ∧
      f.uncorrectable = false ∧ z.frameFault f = k + 1) ∧
    (∃ (s z : State) (t : Nat) (d : Dgram), z = s.at t ∧ z.linkUp = true ∧ z.port.sending = true ∧ z.elec.power = 1 ∧
      z.port.cageFreeAt ≤ z.now ∧ z.nextOut = some d ∧ d.tag ≠ 6) := by
  refine ⟨
    ⟨{ w with port := { step := 6, attempt := 3 } }, _, 0, rfl, ?_, ?_, ?_, ?_, ?_⟩,
    ⟨{ w with port := { step := 1, attempt := 4 } }, _, 0, rfl, ?_, ?_, ?_, ?_, ?_⟩,
    ⟨{ w with port := { roundWait := some 0 } }, _, 0, 0, rfl, ?_, ?_⟩,
    ⟨w, _, 0, 0, rfl, ?_, ?_⟩,
    ⟨{ w with port := { step := 7, sending := false } }, _, 0, rfl, ?_, ?_, ?_, ?_⟩,
    ⟨w, _, 0, { len := 1518, dst := w.linkLocalAddr, rx := ⟨9, 9, 49202, []⟩ }, rfl, ?_, ?_, ?_, ?_, ?_, ?_⟩,
    ⟨w, _, 0, { len := 1518, fcsOk := false, dst := 0, rx := ⟨9, 9, 49202, []⟩ }, 0, rfl, ?_, ?_, ?_, ?_⟩,
    ⟨{ w with port := { step := 7, sending := true, linkLocal := 2, egress := [{ cls := 4, dst := 9, sport := 1, dport := 2, bytes := [] }] } },
      _, 0, { cls := 4, dst := 9, sport := 1, dport := 2, bytes := [] }, rfl, ?_, ?_, ?_, ?_, ?_, ?_⟩⟩ <;> decide +kernel
theorem witness_AddressesForm :
    (∃ (s z : State) (t : Nat), z = s.at t ∧ z.linkUp = true ∧ z.port.linkLocal = 1) ∧
    (∃ (s z : State) (t : Nat), z = s.at t ∧ z.linkUp = true ∧ z.port.linkLocal = 1 ∧ z.port.unicast ≠ 2) ∧
    (∃ (s z : State) (t : Nat), z = s.at t ∧ z.linkUp = true ∧ z.port.unicast = 1) ∧
    (∃ (s z : State) (t : Nat), z = s.at t ∧ z.linkUp = true ∧ z.port.linkLocal = 3 ∧
      z.port.dadFailAt + 10 * sec ≤ z.now ∧ (z.port.egress.filter fun x => x.cls == 4).length < 256) ∧
    (∃ (s z : State) (t pfx : Nat), z = s.at t ∧ z.linkUp = true ∧ z.eff E.PORT_ADDR_MODE = 1 ∧
      z.port.prefix64 = none ∧ z.port.linkLocal = 2) ∧
    (∃ (s z : State) (t src target : Nat), z = s.at t ∧ z.linkUp = true ∧ target ∈ z.myAddrs ∧
      (z.port.egress.filter fun x => x.cls == 4).length < 256) ∧
    (∃ (s z : State) (t src dst : Nat) (body : Bytes), z = s.at t ∧ z.linkUp = true ∧ dst ∈ z.myAddrs ∧
      (z.port.egress.filter fun x => x.cls == 4).length < 256 ∧ z.now < z.port.echoFrom + sec ∧
      z.port.echoCount < 100) ∧
    (∃ (s z : State) (t src dst : Nat) (body : Bytes), z = s.at t ∧ z.linkUp = true ∧ dst ∈ z.myAddrs ∧
      (z.port.egress.filter fun x => x.cls == 4).length < 256 ∧ z.now < z.port.echoFrom + sec ∧
      100 ≤ z.port.echoCount) := by
  refine ⟨
    ⟨{ w with port := { step := 7, linkLocal := 1 } }, _, 0, rfl, ?_, ?_⟩,
    ⟨{ w with port := { step := 7, linkLocal := 1 } }, _, 0, rfl, ?_, ?_, ?_⟩,
    ⟨{ w with port := { step := 7, unicast := 1 } }, _, 0, rfl, ?_, ?_⟩,
    ⟨{ w with port := { step := 7, linkLocal := 3 } }, _, 0, rfl, ?_, ?_, ?_, ?_⟩,
    ⟨w.set E.PORT_ADDR_MODE 1, _, 0, 0, rfl, ?_, ?_, ?_, ?_⟩,
    ⟨w, _, 0, 9, w.linkLocalAddr, rfl, ?_, ?_, ?_⟩,
    ⟨{ w with port := { step := 7, linkLocal := 2, echoFrom := w.now, echoCount := 99 } }, _, 0, 9, w.linkLocalAddr,
      [], rfl, ?_, ?_, ?_, ?_, ?_⟩,
    ⟨{ w with port := { step := 7, linkLocal := 2, echoFrom := w.now, echoCount := 100 } }, _, 0, 9, w.linkLocalAddr,
      [], rfl, ?_, ?_, ?_, ?_, ?_⟩⟩ <;> decide +kernel
theorem witness_TransactionsServe :
    (∃ (s a : State) (t w : Nat) (rx : Rx) (live : Bool) (r : Row), (s.at t).screen rx readService = .run live a ∧
      (Req.parse rx).entry = some (r, w) ∧ ReplyRoom a) ∧
    (∃ (s a : State) (t w k : Nat) (rx : Rx) (live : Bool) (r : Row),
      (s.at t).screen rx plainWriteService = .run live a ∧ (Req.parse rx).entry = some (r, w) ∧
      k = (Req.parse rx).sub - r.ent.key % 256 ∧ deferKind r.ent = none ∧ r.ent.key + k + 256 * w ∉ countKeys ∧
      r.ent.key + k + 256 * w ≠ E.DIE_CEILING_EFFECTIVE.key ∧ r.ent.key + k + 256 * w ≠ E.ADMIT_LIMIT.key ∧
      r.ent.key + k + 256 * w ≠ E.PHASE_VALID.key + 256 * w) ∧
    (∃ (s a : State) (t w k : Nat) (rx : Rx) (live : Bool) (r : Row),
      (s.at t).screen rx latchClearService = .run live a ∧ (Req.parse rx).entry = some (r, w) ∧
      k = (Req.parse rx).sub - r.ent.key % 256 ∧ r.ent.key + k + 256 * w ∉ countKeys) ∧
    (∃ (s z : State) (t : Nat) (rx : Rx) (q : Req), z = s.at t ∧ q = Req.parse rx ∧ z.fwRuns = true ∧
      rx.dport = z.eff E.UDP_PORT_DICT ∧ 16 ≤ rx.bytes.length ∧ (q.op = 0 ∨ 9 < q.op) ∧ q.version = 1 ∧
      q.session = 0 ∧ q.tagged = false ∧ q.length = q.body.length ∧ (z.dict.cache.find? fun c => c.keyIs q) = none ∧
      ReplyRoom z) ∧
    (∃ (s z : State) (t key old kind due : Nat), z = s.at t ∧ z.dict.held.get key = some (old, kind, due) ∧ kind ≤ 1 ∧
      z.get E.WHEEL_STATE ≠ 0 ∧ due ≤ (if kind = 0 then z.tick else z.turn)) ∧
    (∃ (s z : State) (t : Nat), z = s.at t) := by
  refine ⟨
    ⟨w, _, 0, _, wRx 1 (wEnt E.STANCE.key 0 []), false, _, run_of ?_, entry_of ?_, ⟨by rfl, ?_⟩⟩,
    ⟨w, _, 0, _, _, wWrite E.SUB_LEASE.key 5, false, _, run_of ?_, entry_of ?_, rfl, ?_, ?_, ?_, ?_, ?_⟩,
    ⟨w, _, 0, _, _, wWrite E.WHEEL_LATCHES.key 5, false, _, run_of ?_, entry_of ?_, rfl, ?_⟩,
    ⟨w, _, 0, wRx 10 [], _, rfl, rfl, ?_, ?_, ?_, ?_, ?_, ?_, ?_, ?_, ?_, ⟨by rfl, ?_⟩⟩,
    ⟨{ w with dict := { w.dict with held := [(7, (3, 0, 1000000))] } }, _, 0, 7, 3, 0, 1000000, rfl, ?_, ?_, ?_, ?_⟩,
    ⟨w, _, 0, rfl⟩⟩ <;> decide +kernel
theorem witness_BulkAndSubscriptionsServe :
    (∃ (s a : State) (t : Nat) (rx : Rx) (live : Bool), (s.at t).screen rx readBulkService = .run live a) ∧
    (∃ (s z : State) (t id : Nat) (k : Bulk) (body : Bytes) (rest : Option Bulk), z = s.at t ∧
      (z.dict.bulks.find? fun k => k.id == id) = some k ∧ z.sessionLives k.session = true ∧
      z.fragment (z.skipOld k) = (body, rest) ∧ z.fwRuns = true ∧ z.atTickEnd = true ∧ z.linkUp = true ∧
      (z.port.egress.filter fun x => x.cls == (if inClass5 k.table then 5 else 4)).length < 256) ∧
    (∃ (s a : State) (t : Nat) (rx : Rx) (live : Bool), (s.at t).screen rx writeBulkService = .run live a) ∧
    (∃ (s z : State) (t : Nat) (w : BulkWrite), z = s.at t ∧ z.fwRuns = true ∧ z.get E.WHEEL_STATE ≠ 0 ∧
      z.dict.bulkWrites = [w] ∧ w.due ≤ z.tick ∧ w.count = 1) ∧
    (∃ (s a : State) (t : Nat) (rx : Rx) (live : Bool) (q : Req), q = Req.parse rx ∧
      (s.at t).screen rx subscribeService = .run live a ∧ field q.body 2 2 ≠ 0) ∧
    (∃ (s a : State) (t : Nat) (rx : Rx) (live : Bool) (q : Req), q = Req.parse rx ∧
      (s.at t).screen rx subscribeService = .run live a ∧ field q.body 2 2 = 0) ∧
    (∃ (s z : State) (t src sport id : Nat) (x : Subscription), z = s.at t ∧
      (z.dict.subs.find? fun x => x.is src sport id) = some x ∧ z.fwRuns = true ∧ ReplyRoom z ∧
      z.get E.WHEEL_STATE ≠ 0 ∧ z.wheel.idx = 0 ∧ z.turn % max 1 x.period = 0 ∧ x.pushed ≠ z.turn) ∧
    (∃ (s z : State) (t src sport id : Nat) (x : Subscription), z = s.at t ∧
      (z.dict.subs.find? fun x => x.is src sport id) = some x ∧ z.fwRuns = true ∧ z.get E.SUB_LEASE ≠ 0 ∧
      x.renewed + z.get E.SUB_LEASE * sec ≤ z.now) := by
  refine ⟨
    ⟨w, _, 0, wRx 3 (beBytes 2 0x13 ++ [0, 0] ++ beBytes 4 0 ++ beBytes 4 1 ++ List.replicate 12 0), false, run_of ?_⟩,
    ⟨{ w with wheel := { w.wheel with tickStart := 0 }, dict := { w.dict with bulks := [{ id := 1, src := 9, sport := 9, session := 0, seq := 0, table := 2, first := 0, last := 1, next := 0 }] } },
      _, 0, 1,
      { id := 1, src := 9, sport := 9, session := 0, seq := 0, table := 2, first := 0, last := 1, next := 0 }, _, _,
      rfl, ?_, ?_, rfl, ?_, ?_, ?_, ?_⟩,
    ⟨w, _, 0, wRx 4 (beBytes 2 0x13 ++ [0, 0] ++ beBytes 4 0 ++ beBytes 4 1 ++ [0, 1, 0, 1]), false, run_of ?_⟩,
    ⟨{ w with dict := { w.dict with bulkWrites := [⟨9, 9, 0, 0, 7, 0, 1, [0, 1, 0, 1], 0⟩] } }, _, 0, ⟨9, 9, 0, 0, 7,
      0, 1, [0, 1, 0, 1], 0⟩, rfl, ?_, ?_, ?_, ?_, ?_⟩,
    ⟨w, _, 0, wRx 5 ([3, 0] ++ beBytes 2 5 ++ [1, 0] ++ beBytes 2 (E.STANCE.key / 256) ++ [1, 0]), false, _, rfl,
      run_of ?_, ?_⟩,
    ⟨w, _, 0, wRx 5 ([3, 0] ++ beBytes 2 0 ++ [1, 0] ++ beBytes 2 (E.STANCE.key / 256) ++ [1, 0]), false, _, rfl,
      run_of ?_, ?_⟩,
    ⟨{ w with dict := { w.dict with subs := [⟨9, 9, 3, 4, [], 0, 0, 0, 0⟩] } }, _, 0, 9, 9, 3, ⟨9, 9, 3, 4, [], 0, 0,
      0, 0⟩, rfl, ?_, ?_, ⟨by rfl, ?_⟩, ?_, ?_, ?_, ?_⟩,
    ⟨{ w with dict := { w.dict with subs := [⟨9, 9, 3, 4, [], 0, 0, 0, 0⟩] } }, _, 0, 9, 9, 3, ⟨9, 9, 3, 4, [], 0, 0,
      0, 0⟩, rfl, ?_, ?_, ?_, ?_⟩⟩ <;> decide +kernel
theorem witness_SessionsAndKeysServe :
    (∃ (s a : State) (t : Nat) (rx : Rx) (live : Bool), (s.at t).screen rx openService = .run live a) ∧
    (∃ (s a : State) (t : Nat) (rx : Rx) (live : Bool) (q : Req) (x : Session), q = Req.parse rx ∧
      (s.at t).screen rx proveService = .run live a ∧ a.session q.session = some x) ∧
    (∃ (s z : State) (t id : Nat) (x : Session), z = s.at t ∧ z.session id = some x ∧ z.fwRuns = true ∧
      x.isOpen = false ∧ x.since + 5 * sec ≤ z.now) ∧
    (∃ (s a : State) (t : Nat) (rx : Rx) (live : Bool), (s.at t).screen rx closeService = .run live a) ∧
    (∃ (s z : State) (t id : Nat) (x : Session), z = s.at t ∧ z.session id = some x ∧ z.fwRuns = true ∧
      x.isOpen = true ∧ x.since + z.get E.SESSION_IDLE * sec ≤ z.now) ∧
    (∃ (s a : State) (t k : Nat) (rx : Rx) (live : Bool), (s.at t).screen rx keyEnrolService = .run live a ∧
      k = field (Req.parse rx).value 0 1 ∧ k < 8) ∧
    (∃ (s a : State) (t k : Nat) (rx : Rx) (live : Bool), (s.at t).screen rx keyRevokeService = .run live a ∧
      k = field (Req.parse rx).value 0 1 ∧ k < 8) := by
  refine ⟨
    ⟨w.setU E.KEY_STATE 0 1, _, 0, wRx 7 (List.replicate 84 0), false, run_of ?_⟩,
    ⟨{ w with dict := { w.dict with sessions := [{ id := 1, keyId := 0 }] } }, _, 0, ⟨9, 9, 49202,
      wReq 8 1 1 0 (List.replicate 64 0)⟩, false, _, { id := 1, keyId := 0 }, rfl, run_of ?_, ?_⟩,
    ⟨{ w with dict := { w.dict with sessions := [{ id := 1, keyId := 0 }] } }, _, 0, 1, { id := 1, keyId := 0 }, rfl,
      ?_, ?_, ?_, ?_⟩,
    ⟨ws, _, 0, wsRx 9 [], true,
      ws_runs (x := wSes) ?_ ?_ (by rfl) (by rfl) (by rfl) (by rfl) ?_ (by rfl) (by rfl) (by rfl) (by rfl) ?_ ?_ ?_⟩,
    ⟨ws, _, 0, 1, wSes, rfl, ?_, ?_, ?_, ?_⟩,
    ⟨w, _, 0, _, wExec E.KEY_ENROL.key ([7, 0, 0, 0] ++ List.replicate 64 1), false, run_of ?_, rfl, ?_⟩,
    ⟨{ (w.setU E.KEY_STATE 0 1).setU E.KEY_STATE 7 1 with dict := ws.dict }, _, 0, _, wsExec E.KEY_REVOKE.key [7, 0,
      0, 0], true,
      ws_runs (x := wSes) ?_ ?_ (by rfl) (by rfl) (by rfl) (by rfl) ?_ (by rfl) (by rfl) (by rfl) (by rfl) ?_ ?_ ?_,
      by rfl, ?_⟩⟩ <;> decide +kernel
theorem witness_DeskServes :
    (∃ (s z : State) (t : Nat) (rx : Rx), z = s.at t ∧ z.deskMine rx 1 = true ∧ 32 ≤ rx.bytes.length ∧
      rx.dport = z.eff E.UDP_PORT_TELEMETRY ∧ z.desk.checkIns.length < 8192) ∧
    (∃ (s z : State) (t slot : Nat) (c : CheckIn) (rest : List CheckIn) (p : Passport), z = s.at t ∧ z.fwRuns = true ∧
      (z.desk.servedTick ≠ z.tick ∨ z.desk.served < 2048) ∧ z.desk.checkIns = c :: rest ∧
      p = Passport.read c.rx.bytes ∧ z.get E.DESK_OPEN ≠ 0 ∧ field c.rx.bytes 0 1 = 1 ∧
      z.passportFault c.rx.bytes = 0 ∧ z.getU E.CLASS_STATE p.cls ≠ 0 ∧ z.getU E.BR_ENABLE p.branch ≠ 0 ∧
      z.byId p.id = none ∧ lowestFree z.guests 0 = some slot ∧
      z.get E.DESK_PRESENT + z.get E.DESK_RESERVED < z.get E.ADMIT_LIMIT) ∧
    (∃ (s z : State) (t : Nat) (c : CheckIn) (rest : List CheckIn), z = s.at t ∧ z.fwRuns = true ∧
      (z.desk.servedTick ≠ z.tick ∨ z.desk.served < 2048) ∧ z.desk.checkIns = c :: rest ∧ z.get E.DESK_OPEN = 0) ∧
    (∃ (s z : State) (t slot due : Nat) (g : Guest) (p : Passport), z = s.at t ∧ z.guest slot = some g ∧
      g.newPp = some (p, due) ∧ due ≤ z.tick) ∧
    (∃ (s z : State) (t slot due : Nat) (g : Guest), z = s.at t ∧ z.presentGuest slot = some g ∧
      g.rejoinResend = some due ∧ due ≤ z.tick) ∧
    (∃ (s z : State) (t slot : Nat) (rx : Rx) (g : Guest), z = s.at t ∧ z.deskMine rx 3 = true ∧
      rx.bytes.length = 32 ∧ rx.dport = z.eff E.UDP_PORT_TELEMETRY ∧ field rx.bytes 0 1 = 1 ∧
      slot = field rx.bytes 8 4 ∧ z.guest slot = some g ∧ g.pp.id = field rx.bytes 16 16) ∧
    (∃ (s z : State) (t slot due : Nat) (g : Guest), z = s.at t ∧ z.guest slot = some g ∧ g.freeDue = some due ∧
      due ≤ z.tick) ∧
    (∃ (s z : State) (t c : Nat) (rest : List Nat), z = s.at t ∧ z.get E.MODEL_CEILINGS = 1 ∧ z.wheel.idx = 0 ∧
      (z.desk.lifted = [] ∨ z.desk.lastLift + z.eff E.LIFT_GAP_TURNS ≤ z.turn) ∧
      ((List.range 256).filter fun c => (z.desk.lifted.get c).isNone && z.presents.any fun p => p.2.pp.cls == c && decide (p.2.becamePresent ≤ z.tick - z.wheel.idx)) = c :: rest) := by
  refine ⟨
    ⟨w, _, 0, ⟨9, 9, 49200, [1, 1] ++ List.replicate 30 0⟩, rfl, ?_, ?_, ?_, ?_⟩,
    ⟨{ (((w.set E.DESK_OPEN 1).set E.CLASS_STATE 1).set E.BR_ENABLE 1).set E.ADMIT_LIMIT 1 with desk := { checkIns := [⟨⟨9, 9, 49200, [1, 1] ++ beBytes 2 64 ++ List.replicate 20 0 ++ beBytes 2 1024 ++ List.replicate 6 0 ++ (beBytes 16 7 ++ [0, 0, 0, 1] ++ List.replicate 8 0 ++ beBytes 2 1 ++ List.replicate 34 0)⟩⟩] } },
      _, 0, 0, ⟨⟨9, 9, 49200, [1, 1] ++ beBytes 2 64 ++ List.replicate 20 0 ++ beBytes 2 1024 ++ List.replicate 6 0 ++
      (beBytes 16 7 ++ [0, 0, 0, 1] ++ List.replicate 8 0 ++ beBytes 2 1 ++ List.replicate 34 0)⟩⟩, [],
      Passport.read (⟨⟨9, 9, 49200, [1, 1] ++ beBytes 2 64 ++ List.replicate 20 0 ++ beBytes 2 1024 ++
      List.replicate 6 0 ++ (beBytes 16 7 ++ [0, 0, 0, 1] ++ List.replicate 8 0 ++ beBytes 2 1 ++
      List.replicate 34 0)⟩⟩ : CheckIn).rx.bytes, rfl, ?_, ?_, ?_, ?_, ?_, ?_, ?_, ?_, ?_, ?_, ?_, ?_⟩,
    ⟨{ (w.set E.DESK_OPEN 0) with desk := { checkIns := [⟨⟨9, 9, 49200, []⟩⟩] } }, _, 0, ⟨⟨9, 9, 49200, []⟩⟩, [], rfl,
      ?_, ?_, ?_, ?_⟩,
    ⟨wg { wGuest with newPp := some (wPass, 0) }, _, 0, 3, 0, { wGuest with newPp := some (wPass, 0) }, wPass, rfl,
      ?_, ?_, ?_⟩,
    ⟨wg { wGuest with rejoinResend := some 0 }, _, 0, 3, 0, { wGuest with rejoinResend := some 0 }, rfl, ?_, ?_, ?_⟩,
    ⟨wg wGuest, _, 0, 3, ⟨9, 9, 49200, [1, 3, 0, 0, 0, 0, 0, 0] ++ beBytes 4 3 ++ [0, 0, 0, 0] ++ beBytes 16 7⟩,
      wGuest, rfl, ?_, ?_, ?_, ?_, ?_, ?_, ?_⟩,
    ⟨wg { wGuest with freeDue := some 0 }, _, 0, 3, 0, { wGuest with freeDue := some 0 }, rfl, ?_, ?_, ?_⟩,
    ⟨(wg wGuest).set E.MODEL_CEILINGS 1, _, 0, 0, [], rfl, ?_, ?_, ?_, ?_⟩⟩ <;> decide +kernel
theorem witness_IngestMoves :
    (∃ (s y : State) (t i : Nat) (rx : Rx) (rs : List TRec), y = (s.at t).take rx ∧ y.fwRuns = true ∧
      y.deskDrop rx = none ∧ field rx.bytes 0 1 = 1 ∧ bundleRecords rx.bytes = some rs ∧
      y.desk.pickLane (min 16 (y.get E.LANES_ACTIVE)) = some i ∧
      sumOf LaneRec.size (nth y.desk.lanes i {}).queue + sumOf LaneRec.size (laneRecords rx (field rx.bytes 8 8) y.tick (y.fracAt y.now) (y.countingTick y.now) (y.markRecords rs [])) ≤ 1048576) ∧
    (∃ (s z : State) (t lane : Nat) (l : LaneRec) (rest : List LaneRec), z = s.at t ∧ z.fwRuns = true ∧
      lane < z.get E.LANES_ACTIVE ∧ (nth z.desk.lanes lane {}).freeAt ≤ z.now ∧
      (nth z.desk.lanes lane {}).queue = l :: rest ∧ l.keepAlive = true) ∧
    (∃ (s z : State) (t lane : Nat) (l : LaneRec) (rest : List LaneRec), z = s.at t ∧ z.fwRuns = true ∧
      lane < z.get E.LANES_ACTIVE ∧ (nth z.desk.lanes lane {}).freeAt ≤ z.now ∧
      (nth z.desk.lanes lane {}).queue = l :: rest ∧ l.keepAlive = false ∧ l.bad = true) ∧
    (∃ (s z : State) (t lane : Nat) (l : LaneRec) (rest : List LaneRec) (g : Guest), z = s.at t ∧ z.fwRuns = true ∧
      lane < z.get E.LANES_ACTIVE ∧ (nth z.desk.lanes lane {}).freeAt ≤ z.now ∧
      (nth z.desk.lanes lane {}).queue = l :: rest ∧ l.keepAlive = false ∧ l.bad = false ∧
      z.presentGuest (readRecord l.raw).slot = some g ∧ g.src = l.src ∧ g.sport = l.sport ∧ g.firstTick ≤ l.tick ∧
      l.tick ≤ l.arrTick ∧ l.count ≤ l.tick + z.eff E.LATE_LIMIT ∧ g.lastRecTick = none) ∧
    (∃ (s z : State) (t : Nat), z = s.at t ∧ z.fwRuns = true ∧ z.desk.counted < z.tick) ∧
    (∃ (s z : State) (t : Nat), z = s.at t ∧ z.fwRuns = true ∧ z.get E.SUMMARY_TICKS ≠ 0 ∧
      (z.desk.summaryFrom + 1) * z.get E.SUMMARY_TICKS ≤ z.desk.counted) := by
  refine ⟨
    ⟨w, (w.at 0).take ⟨9, 9, 49200, [1, 0x20] ++ List.replicate 14 0⟩, 0, 0, ⟨9, 9, 49200, [1, 0x20] ++
      List.replicate 14 0⟩, [], rfl, ?_, ?_, ?_, ?_, ?_, ?_⟩,
    ⟨{ wg wGuest with regs := (w.set E.LANES_ACTIVE 1).regs, desk := { lanes := [{ queue := [{ src := 9, sport := 9, keepAlive := true, tick := 1000000, arrTick := 1000000, frac := 0, count := 1000000, due := 1000000, beyond := false, size := 16, bad := false, raw := [] }] }] } },
      _, 0, 0,
      { src := 9, sport := 9, keepAlive := true, tick := 1000000, arrTick := 1000000, frac := 0, count := 1000000, due := 1000000, beyond := false, size := 16, bad := false, raw := [] },
      [], rfl, ?_, ?_, ?_, ?_, ?_⟩,
    ⟨{ wg wGuest with regs := (w.set E.LANES_ACTIVE 1).regs, desk := { lanes := [{ queue := [{ src := 9, sport := 9, keepAlive := false, tick := 1000000, arrTick := 1000000, frac := 0, count := 1000000, due := 1000000, beyond := false, size := 16, bad := true, raw := [] }] }] } },
      _, 0, 0,
      { src := 9, sport := 9, keepAlive := false, tick := 1000000, arrTick := 1000000, frac := 0, count := 1000000, due := 1000000, beyond := false, size := 16, bad := true, raw := [] },
      [], rfl, ?_, ?_, ?_, ?_, ?_, ?_⟩,
    ⟨{ wg wGuest with regs := (w.set E.LANES_ACTIVE 1).regs, desk := { lanes := [{ queue := [{ src := 9, sport := 9, keepAlive := false, tick := 1000000, arrTick := 1000000, frac := 0, count := 1000000, due := 1000000, beyond := false, size := 16, bad := false, raw := beBytes 8 (3 * 2 ^ 47) }] }] } },
      _, 0, 0,
      { src := 9, sport := 9, keepAlive := false, tick := 1000000, arrTick := 1000000, frac := 0, count := 1000000, due := 1000000, beyond := false, size := 16, bad := false, raw := beBytes 8 (3 * 2 ^ 47) },
      [], wGuest, rfl, ?_, ?_, ?_, ?_, ?_, ?_, ?_, ?_, ?_, ?_, ?_, ?_, ?_⟩,
    ⟨w, _, 0, rfl, ?_, ?_⟩,
    ⟨{ w.set E.SUMMARY_TICKS 10 with desk := { counted := 1000000 } }, _, 0, rfl, ?_, ?_, ?_⟩⟩ <;> decide +kernel
theorem witness_GuestsAge :
    (∃ (s z : State) (t slot : Nat) (g : Guest), z = s.at t ∧ z.presentGuest slot = some g ∧ g.stale = false ∧
      z.isStale g z.ended = true) ∧
    (∃ (s z : State) (t slot : Nat) (g : Guest), z = s.at t ∧ z.presentGuest slot = some g ∧ g.stale = true ∧
      g.staleDue = true ∧ z.inRest = false ∧ z.linkUp = true ∧ z.port.sending = true) ∧
    (∃ (s z : State) (t slot : Nat) (g : Guest), z = s.at t ∧ z.presentGuest slot = some g ∧ g.stale = true ∧
      z.isStale g z.ended = false) ∧
    (∃ (s z : State) (t slot : Nat) (g : Guest), z = s.at t ∧ z.presentGuest slot = some g ∧ g.lapseDue = none ∧
      z.eff E.ABSENCE_TICKS ≤ g.presenceAge z.ended) ∧
    (∃ (s z : State) (t slot due : Nat) (g : Guest), z = s.at t ∧ z.presentGuest slot = some g ∧
      g.lapseDue = some due ∧ due ≤ z.tick) ∧
    (∃ (s z : State) (t slot : Nat) (g : Guest), z = s.at t ∧ z.guest slot = some g ∧ g.present = false ∧
      g.newPp = none ∧ g.reservedTurn + z.eff E.RESERVE_TURNS ≤ z.turn ∧
      (z.desk.class2.all fun c => c.slot != slot) = true) := by
  refine ⟨
    ⟨{ wg wGuest with desk := { counted := 2000000 } }, _, 0, 3, wGuest, rfl, ?_, ?_, ?_⟩,
    ⟨wg { wGuest with stale := true, staleDue := true }, _, 0, 3, { wGuest with stale := true, staleDue := true },
      rfl, ?_, ?_, ?_, ?_, ?_, ?_⟩,
    ⟨wg { wGuest with stale := true }, _, 0, 3, { wGuest with stale := true }, rfl, ?_, ?_, ?_⟩,
    ⟨{ wg wGuest with desk := { counted := 2000000 } }, _, 0, 3, wGuest, rfl, ?_, ?_, ?_⟩,
    ⟨wg { wGuest with lapseDue := some 0 }, _, 0, 3, 0, { wGuest with lapseDue := some 0 }, rfl, ?_, ?_, ?_⟩,
    ⟨wg { wGuest with present := false }, _, 0, 3, { wGuest with present := false }, rfl, ?_, ?_, ?_, ?_, ?_⟩⟩ <;> decide +kernel
theorem witness_EchoAndPairsJudge :
    (∃ (s z : State) (t slot x : Nat) (g : Guest), z = s.at t ∧ z.presentGuest slot = some g ∧
      g.disobeyResend = some x ∧ x ≤ z.tick) ∧
    (∃ (s z : State) (t slot : Nat) (g : Guest), z = s.at t ∧ z.presentGuest slot = some g ∧ g.disobedient = false ∧
      z.eff E.DISOBEY_TICKS ≤ g.disobeyRun) ∧
    (∃ (s z : State) (t slot : Nat) (g : Guest), z = s.at t ∧ z.presentGuest slot = some g ∧ g.disobedient = true ∧
      z.eff E.DISOBEY_TICKS ≤ g.inBounds) ∧
    (∃ (s z : State) (t slot pair : Nat) (g : Guest), z = s.at t ∧ z.presentGuest slot = some g ∧
      (g.pairs.getD pair {}).isOpen = true ∧ z.eff E.PAIR_AGREE_TICKS ≤ (g.pairs.getD pair {}).agree) ∧
    (∃ (s z : State) (t slot pair : Nat) (g : Guest) (p : PairDef) (q : PairSt), z = s.at t ∧
      z.presentGuest slot = some g ∧ g.pp.pairs[pair]? = some p ∧ q = g.pairs.getD pair {} ∧ q.isOpen = true ∧
      z.eff E.PAIR_PERSIST ≠ 0 ∧ z.eff E.PAIR_PERSIST ≤ q.ticks ∧ q.compared ≠ q.ticks ∧
      (Dy.mk p.tol (-6)).le (q.sumA.sub q.sumB) = true) ∧
    (∃ (s z : State) (t slot pair : Nat) (g : Guest) (p : PairDef) (q : PairSt), z = s.at t ∧
      z.presentGuest slot = some g ∧ g.pp.pairs[pair]? = some p ∧ q = g.pairs.getD pair {} ∧ q.isOpen = true ∧
      z.eff E.PAIR_PERSIST ≠ 0 ∧ z.eff E.PAIR_PERSIST ≤ q.ticks ∧ q.compared ≠ q.ticks ∧
      (Dy.mk p.tol (-6)).le (q.sumA.sub q.sumB) = false ∧ (Dy.mk p.tol (-6)).le (q.sumB.sub q.sumA) = true) ∧
    (∃ (s z : State) (t slot pair : Nat) (g : Guest) (p : PairDef) (q : PairSt), z = s.at t ∧
      z.presentGuest slot = some g ∧ g.pp.pairs[pair]? = some p ∧ q = g.pairs.getD pair {} ∧ q.isOpen = true ∧
      z.eff E.PAIR_PERSIST ≠ 0 ∧ z.eff E.PAIR_PERSIST ≤ q.ticks ∧ q.compared ≠ q.ticks ∧
      (Dy.mk p.tol (-6)).le (q.sumA.sub q.sumB) = false ∧ (Dy.mk p.tol (-6)).le (q.sumB.sub q.sumA) = false) := by
  refine ⟨
    ⟨wg { wGuest with disobeyResend := some 0 }, _, 0, 3, 0, { wGuest with disobeyResend := some 0 }, rfl, ?_, ?_, ?_⟩,
    ⟨wg { wGuest with disobeyRun := 1000 }, _, 0, 3, { wGuest with disobeyRun := 1000 }, rfl, ?_, ?_, ?_⟩,
    ⟨wg { wGuest with disobedient := true, inBounds := 1000 }, _, 0, 3,
      { wGuest with disobedient := true, inBounds := 1000 }, rfl, ?_, ?_, ?_⟩,
    ⟨wg { wGuest with pairs := [(0, { isOpen := true, agree := 1000 })] }, _, 0, 3, 0,
      { wGuest with pairs := [(0, { isOpen := true, agree := 1000 })] }, rfl, ?_, ?_, ?_⟩,
    ⟨wg { wGuest with pairs := [(0, { isOpen := true, ticks := 100000, sumA := ⟨1, 0⟩, sumB := Dy.zero })] }, _, 0, 3,
      0, { wGuest with pairs := [(0, { isOpen := true, ticks := 100000, sumA := ⟨1, 0⟩, sumB := Dy.zero })] }, ⟨0, 1,
      64⟩, { isOpen := true, ticks := 100000, sumA := ⟨1, 0⟩, sumB := Dy.zero }, rfl, ?_, ?_, rfl, ?_, ?_, ?_, ?_, ?_⟩,
    ⟨wg { wGuest with pairs := [(0, { isOpen := true, ticks := 100000, sumA := Dy.zero, sumB := ⟨1, 0⟩ })] }, _, 0, 3,
      0, { wGuest with pairs := [(0, { isOpen := true, ticks := 100000, sumA := Dy.zero, sumB := ⟨1, 0⟩ })] }, ⟨0, 1,
      64⟩, { isOpen := true, ticks := 100000, sumA := Dy.zero, sumB := ⟨1, 0⟩ }, rfl, ?_, ?_, rfl, ?_, ?_, ?_, ?_, ?_,
      ?_⟩,
    ⟨wg { wGuest with pairs := [(0, { isOpen := true, ticks := 100000, sumA := Dy.zero, sumB := Dy.zero })] }, _, 0,
      3, 0, { wGuest with pairs := [(0, { isOpen := true, ticks := 100000, sumA := Dy.zero, sumB := Dy.zero })] }, ⟨0,
      1, 64⟩, { isOpen := true, ticks := 100000, sumA := Dy.zero, sumB := Dy.zero }, rfl, ?_, ?_, rfl, ?_, ?_, ?_, ?_,
      ?_, ?_⟩⟩ <;> decide +kernel
theorem witness_CutsAndCapsMove :
    (∃ (s z : State) (t n : Nat), z = s.at t ∧ z.linkUp = true ∧
      4 * z.desk.class0.length < z.eff E.GUARD_ROWCUT_DEPTH ∧
      n = 1024 - (if z.desk.requeueTick = z.tick then z.desk.requeued else 0) ∧ 0 < n ∧ z.desk.deferred ≠ []) ∧
    (∃ (s z : State) (t scope : Nat) (r : RowSent), z = s.at t ∧ scope < 256 ∧ z.inRest = false ∧ z.linkUp = true ∧
      z.port.sending = true ∧ z.rowInForce scope z.tick = some r ∧ z.tick = r.tick + r.hold - 1 ∧
      (z.desk.rowOut.all fun x => x.scope != scope) = true ∧ (∃ slot g k, z.guests.get slot = some g ∧ (slot,
      g) ∈ z.guests ∧ g.present = true ∧ g.pp.cls = scope ∧ g.exceedTick = some k ∧
      z.tick < k + z.eff E.GUARD_CLEAR_TICKS)) ∧
    (∃ (s z : State) (t slot : Nat) (g : Guest) (k : Cut), z = s.at t ∧ z.presentGuest slot = some g ∧
      g.cut = some k ∧ z.inRest = false ∧ g.stale = false ∧ z.mayRelease k = true) ∧
    (∃ (s z : State) (t slot v slew : Nat) (g : Guest) (guard : Bool), z = s.at t ∧ z.presentGuest slot = some g ∧
      g.releaseDue = some (v, slew, guard) ∧ z.inRest = false ∧ z.linkUp = true ∧ z.port.sending = true ∧
      (g.cut.isSome = true ∨ g.stale = true)) ∧
    (∃ (s z : State) (t slot v slew : Nat) (g : Guest) (guard : Bool), z = s.at t ∧ z.presentGuest slot = some g ∧
      g.releaseDue = some (v, slew, guard) ∧ z.inRest = false ∧ z.linkUp = true ∧ z.port.sending = true ∧
      g.cut = none ∧ g.stale = false) ∧
    (∃ (s z : State) (t firstBit : Nat), z = s.at t ∧ z.linkUp = true ∧ z.port.sending = true ∧ z.elec.power = 1 ∧
      z.higherWaits 0 = false ∧ z.desk.rowOut ≠ []) ∧
    (∃ (s z : State) (t firstBit : Nat) (c : CapDue) (g : Guest), z = s.at t ∧ z.linkUp = true ∧
      z.port.sending = true ∧ z.elec.power = 1 ∧ z.higherWaits 2 = false ∧ z.desk.class2 = [c] ∧
      z.guest c.slot = some g ∧ g.sentIn z.tick = false ∧ 0 < z.bundleMax ∧ c.kind ≠ 4) ∧
    (∃ (s z : State) (t slot : Nat) (g : Guest) (r : CapRec), z = s.at t ∧ z.presentGuest slot = some g ∧
      g.lastCap = some r ∧ r.kind = 3 ∧ g.cut = none ∧ z.inRest = false ∧ z.linkUp = true ∧ z.port.sending = true ∧
      r.tick ≠ z.tick ∧ r.lapse < z.periodEnd + 2) := by
  refine ⟨
    ⟨{ w with desk := { deferred := [{ slot := 3, ceiling := 5 }] } }, _, 0, 1024, rfl, ?_, ?_, ?_, ?_, ?_⟩,
    ⟨{ wg { wGuest with exceedTick := some 1000000 } with desk := { rowSent := [⟨0, 5, 0, 10, 999991, 0⟩] } }, _, 0,
      0, ⟨0, 5, 0, 10, 999991, 0⟩, rfl, ?_, ?_, ?_, ?_, ?_, ?_, ?_, ⟨3, { wGuest with exceedTick := some 1000000 },
      1000000, ?_⟩⟩,
    ⟨{ wg { wGuest with cut := some { ceiling := 5, tc := some 10, clear := 100000, pre := 30 } } with row := { lastEnd := some 20 } },
      _, 0, 3, { wGuest with cut := some { ceiling := 5, tc := some 10, clear := 100000, pre := 30 } },
      { ceiling := 5, tc := some 10, clear := 100000, pre := 30 }, rfl, ?_, ?_, ?_, ?_, ?_⟩,
    ⟨wg { wGuest with releaseDue := some (20, 5, true), stale := true }, _, 0, 3, 20, 5,
      { wGuest with releaseDue := some (20, 5, true), stale := true }, true, rfl, ?_, ?_, ?_, ?_, ?_, ?_⟩,
    ⟨wg { wGuest with releaseDue := some (20, 5, true) }, _, 0, 3, 20, 5,
      { wGuest with releaseDue := some (20, 5, true) }, true, rfl, ?_, ?_, ?_, ?_, ?_, ?_, ?_⟩,
    ⟨{ w with desk := { rowOut := [⟨0, 5, 0, 10⟩] } }, _, 0, 0, rfl, ?_, ?_, ?_, ?_, ?_⟩,
    ⟨{ wg wGuest with desk := { class2 := [⟨3, 0, 20, 0, 10⟩] } }, _, 0, 0, ⟨3, 0, 20, 0, 10⟩, wGuest, rfl, ?_, ?_,
      ?_, ?_, ?_, ?_, ?_, ?_, ?_⟩,
    ⟨wg { wGuest with lastCap := some ⟨3, 20, 0, 10, 0, 10⟩ }, _, 0, 3,
      { wGuest with lastCap := some ⟨3, 20, 0, 10, 0, 10⟩ }, ⟨3, 20, 0, 10, 0, 10⟩, rfl, ?_, ?_, ?_, ?_, ?_, ?_, ?_,
      ?_, ?_⟩⟩ <;> decide +kernel
theorem witness_RowProgramAllocates :
    (∃ (s z : State) (t : Nat), z = s.at t ∧ z.fwRuns = true ∧ z.pastSlot 60 = true ∧ z.row.stepDone ≠ some z.tick) ∧
    (∃ (s z : State) (t : Nat), z = s.at t ∧ z.fwRuns = true ∧ z.pastSlot 85 = true ∧ z.row.stepDone = some z.tick ∧
      z.row.cutoffDone ≠ some z.tick) ∧
    (∃ (s z : State) (t slot : Nat) (g : Guest), z = s.at t ∧ z.presentGuest slot = some g ∧ g.settling = true ∧
      g.settle = 0 ∧ g.restartDue = false) ∧
    (∃ (s z : State) (t p : Nat), z = s.at t ∧ z.fwRuns = true ∧ p = max 1 z.row.period ∧ z.row.origin ≤ z.tick ∧
      (z.tick - z.row.origin) % p = 0 ∧ z.row.alloc = none ∧ (z.releaseHeld 5).eff E.ROW_BUDGET_ENGINE = 0xFFFF ∧
      z.plant.capSlewed = none) ∧
    (∃ (s z : State) (t : Nat) (a : Alloc), z = s.at t ∧ z.row.alloc = some a ∧ z.tick + 1 = a.t0 + a.period) ∧
    (∃ (s z : State) (t slot v l e : Nat) (g : Guest) (r : CapRec), z = s.at t ∧ z.row.readyFor = some z.tick ∧
      z.inRest = false ∧ z.linkUp = true ∧ z.port.sending = true ∧ z.get E.MODEL_CEILINGS ≠ 0 ∧ z.row.ready = [(slot,
      v)] ∧ z.presentGuest slot = some g ∧ g.stale = false ∧ g.cut = none ∧ g.lastCap = some r ∧ r.ceiling ≠ v ∧
      z.desk.lifted.get g.pp.cls = some l ∧ z.row.lastEnd = some e ∧ l ≤ e) := by
  refine ⟨
    ⟨w, _, 0, rfl, ?_, ?_, ?_⟩,
    ⟨{ w with row := { stepDone := some 1000000 }, wheel := { w.wheel with tickStart := 0 } }, _, 0, rfl, ?_, ?_, ?_,
      ?_⟩,
    ⟨wg { wGuest with settling := true, restartDue := false }, _, 0, 3,
      { wGuest with settling := true, restartDue := false }, rfl, ?_, ?_, ?_, ?_⟩,
    ⟨w, _, 0, 10, rfl, ?_, ?_, ?_, ?_, ?_, ?_, ?_⟩,
    ⟨{ w with row := { alloc := some ⟨999991, 10, []⟩ } }, _, 0, ⟨999991, 10, []⟩, rfl, ?_, ?_⟩,
    ⟨{ wg { wGuest with lastCap := some ⟨3, 20, 0, 10, 0, 10⟩ } with regs := (w.set E.MODEL_CEILINGS 1).regs, desk := { lifted := [(0, 5)] }, row := { readyFor := some 1000000, ready := [(3, 21)], lastEnd := some 5 } },
      _, 0, 3, 21, 5, 5, { wGuest with lastCap := some ⟨3, 20, 0, 10, 0, 10⟩ }, ⟨3, 20, 0, 10, 0, 10⟩, rfl, ?_, ?_,
      ?_, ?_, ?_, ?_, ?_, ?_, ?_, ?_, ?_, ?_, ?_, ?_⟩⟩ <;> decide +kernel
theorem witness_ClassesLeaksPeriods :
    (∃ (s z : State) (t cls : Nat), z = s.at t ∧ cls < 256 ∧
      (z.getU E.CLASS_STATE cls = 1 ∨ z.getU E.CLASS_STATE cls = 2)) ∧
    (∃ (s z : State) (t cls : Nat), z = s.at t ∧ cls < 256 ∧ z.eff E.MISS_CLEAR_TURNS ≤ z.row.clearTurns.getD cls 0) ∧
    (∃ (s z : State) (t branch transient : Nat), z = s.at t ∧ branch < 40 ∧
      z.eff E.LEAK_PERSIST ≤ z.row.leakRun.getD branch 0 ∧ (z.get E.LEAK_SUSPECTS).testBit branch = false) ∧
    (∃ (s z : State) (t n : Nat) (d : PeriodDet), z = s.at t ∧ z.row.dets[n]? = some d ∧ 8 ≤ d.strong ∧
      d.publishing = false) ∧
    (∃ (s z : State) (t n : Nat) (d : PeriodDet), z = s.at t ∧ z.row.dets[n]? = some d ∧ 8 ≤ d.weak ∧
      d.publishing = true) := by
  refine ⟨
    ⟨w.set E.CLASS_STATE 1, _, 0, 0, rfl, ?_, ?_⟩,
    ⟨{ w with row := { clearTurns := [(255, 100000)] } }, _, 0, 255, rfl, ?_, ?_⟩,
    ⟨{ w with row := { leakRun := [(39, 100000)] } }, _, 0, 39, 0, rfl, ?_, ?_, ?_⟩,
    ⟨{ w with row := { dets := [{ strong := 8 }] } }, _, 0, 0, { strong := 8 }, rfl, ?_, ?_, ?_⟩,
    ⟨{ w with row := { dets := [{ weak := 8, publishing := true }] } }, _, 0, 0, { weak := 8, publishing := true },
      rfl, ?_, ?_, ?_⟩⟩ <;> decide +kernel
theorem witness_HingesTurn :
    (∃ (s z : State) (t slot k i : Nat) (h : Hinge), z = s.at t ∧ i = 8 * slot + k ∧ z.hinge slot k = some h ∧
      z.fwRuns = true ∧ z.getU E.HINGE_STATE i = 1 ∧ (h.requested = true ∨ h.nextStart ≤ z.tick) ∧ (∀ x,
      (z.prog slot).step = some x → x.doneTick.isSome = true ∨ h.liveTick ≤ x.start)) ∧
    (∃ (s a : State) (t i : Nat) (rx : Rx) (live : Bool) (h : Hinge),
      (s.at t).screen rx hingeRebuildService = .run live a ∧ i = (Req.parse rx).index - E.HINGE_REBUILD.key / 256 ∧
      a.hinge (i / 8) (i % 8) = some h) ∧
    (∃ (s z : State) (t slot k i : Nat) (h : Hinge), z = s.at t ∧ i = 8 * slot + k ∧ z.hinge slot k = some h ∧
      z.getU E.HINGE_STATE i = 3) ∧
    (∃ (s z : State) (t slot k : Nat) (h : Hinge), z = s.at t ∧ z.hinge slot k = some h ∧
      z.getU E.HINGE_STATE (8 * slot + k) ≠ 0 ∧ h.staleSeen = false ∧ h.staleLimit < z.tick - h.liveTick) ∧
    (∃ (s z : State) (t k : Nat) (h : Hinge) (cs : List Nat), z = s.at t ∧ k < 8 ∧ z.hinge 0 k = some h ∧
      z.getU E.HINGE_STATE k = 2 ∧ cs = z.refitClasses k) ∧
    (∃ (s z : State) (t slot k i : Nat) (h : Hinge), z = s.at t ∧ slot ≠ 0 ∧ i = 8 * slot + k ∧
      z.hinge slot k = some h ∧ z.getU E.HINGE_STATE i = 4 ∧ h.swapFrom < z.tick) := by
  refine ⟨
    ⟨{ w.setU E.HINGE_STATE 7 1 with row := { hinges := [(7, { nextStart := 1000000, swapFrom := 5, staleLimit := 10 })] } },
      _, 0, 0, 7, 7, { nextStart := 1000000, swapFrom := 5, staleLimit := 10 }, rfl, rfl, ?_, ?_, ?_, ?_, ?_⟩,
    ⟨{ w.setU E.HINGE_STATE 7 1 with row := { hinges := [(7, { nextStart := 1000000, swapFrom := 5, staleLimit := 10 })] } },
      _, 0, 7, wExec (E.HINGE_REBUILD.key + 256 * 7) [1], false,
      { nextStart := 1000000, swapFrom := 5, staleLimit := 10 }, run_of ?_, ?_, ?_⟩,
    ⟨{ w.setU E.HINGE_STATE 7 3 with row := { hinges := [(7, { nextStart := 1000000, swapFrom := 5, staleLimit := 10 })] } },
      _, 0, 0, 7, 7, { nextStart := 1000000, swapFrom := 5, staleLimit := 10 }, rfl, rfl, ?_, ?_⟩,
    ⟨{ w.setU E.HINGE_STATE 7 3 with row := { hinges := [(7, { nextStart := 1000000, swapFrom := 5, staleLimit := 10 })] } },
      _, 0, 0, 7, { nextStart := 1000000, swapFrom := 5, staleLimit := 10 }, rfl, ?_, ?_, ?_, ?_⟩,
    ⟨{ w.setU E.HINGE_STATE 7 2 with row := { hinges := [(7, { nextStart := 1000000, swapFrom := 5, staleLimit := 10 })] } },
      _, 0, 7, { nextStart := 1000000, swapFrom := 5, staleLimit := 10 }, _, rfl, ?_, ?_, ?_, rfl⟩,
    ⟨{ w.setU E.HINGE_STATE 127 4 with progs := [(15, { hinges := [(7, { nextStart := 1000000, swapFrom := 5, staleLimit := 10 })] })] },
      _, 0, 15, 7, 127, { nextStart := 1000000, swapFrom := 5, staleLimit := 10 }, rfl, ?_, rfl, ?_, ?_, ?_⟩⟩ <;> decide +kernel
theorem witness_LoaderServes :
    (∃ (s a : State) (t i : Nat) (rx : Rx) (live : Bool), (s.at t).screen rx progUploadBeginService = .run live a ∧
      i = (Req.parse rx).index - E.PROG_UPLOAD.key / 256) ∧
    (∃ (s a : State) (t i : Nat) (rx : Rx) (live : Bool), (s.at t).screen rx progUploadChunkService = .run live a ∧
      i = (Req.parse rx).index - E.PROG_UPLOAD.key / 256) ∧
    (∃ (s a : State) (t i : Nat) (rx : Rx) (live : Bool) (x : Staging),
      (s.at t).screen rx progUploadCommitService = .run live a ∧ i = (Req.parse rx).index - E.PROG_UPLOAD.key / 256 ∧
      (a.prog i).staging = some x) ∧
    (∃ (s a : State) (t i : Nat) (rx : Rx) (live : Bool), (s.at t).screen rx progUploadUnloadService = .run live a ∧
      i = (Req.parse rx).index - E.PROG_UPLOAD.key / 256) ∧
    (∃ (s z : State) (t slot v lf : Nat) (f : Bytes), z = s.at t ∧ (z.prog slot).fitting = some f ∧
      z.fitForm slot f = (v, lf)) ∧
    (∃ (s z : State) (t slot : Nat) (i : Install), z = s.at t ∧ AMap.wf z.progs = true ∧
      (z.prog slot).install = some i ∧ i.from_ < z.tick) ∧
    (∃ (s z : State) (t slot x : Nat), z = s.at t ∧ AMap.wf z.progs = true ∧ (z.prog slot).stopFrom = some x ∧
      x < z.tick) ∧
    (∃ (s z : State) (t slot : Nat), z = s.at t ∧ (z.prog slot).moving = true) := by
  refine ⟨
    ⟨ws, _, 0, 15, wsExec (E.PROG_UPLOAD.key + 256 * 15) [0, 0, 0, 0, 0, 0, 0, 0], true,
      ws_runs (x := wSes) ?_ ?_ (by rfl) (by rfl) (by rfl) (by rfl) ?_ (by rfl) (by rfl) (by rfl) (by rfl) ?_ ?_ ?_,
      ?_⟩,
    ⟨{ ws with progs := [(15, { staging := some ⟨5, []⟩ })] }, _, 0, 15, wsExec (E.PROG_UPLOAD.key + 256 * 15) [1, 0,
      0, 0, 0, 0, 0, 0, 7], true,
      ws_runs (x := wSes) ?_ ?_ (by rfl) (by rfl) (by rfl) (by rfl) ?_ (by rfl) (by rfl) (by rfl) (by rfl) ?_ ?_ ?_,
      ?_⟩,
    ⟨{ ws with progs := [(15, { staging := some ⟨5, []⟩ })] }, _, 0, 15, wsExec (E.PROG_UPLOAD.key + 256 * 15) [2, 0,
      0, 0, 0, 0, 0, 0], true, ⟨5, []⟩,
      ws_runs (x := wSes) ?_ ?_ (by rfl) (by rfl) (by rfl) (by rfl) ?_ (by rfl) (by rfl) (by rfl) (by rfl) ?_ ?_ ?_,
      ?_, by rfl⟩,
    ⟨ws, _, 0, 15, wsExec (E.PROG_UPLOAD.key + 256 * 15) [3, 0, 0, 0, 0, 0, 0, 0], true,
      ws_runs (x := wSes) ?_ ?_ (by rfl) (by rfl) (by rfl) (by rfl) ?_ (by rfl) (by rfl) (by rfl) (by rfl) ?_ ?_ ?_,
      ?_⟩,
    ⟨{ w with progs := [(15, { fitting := some [] })] }, _, 0, 15, _, _, [], rfl, ?_, rfl⟩,
    ⟨{ w with progs := [(15, { install := some ⟨[], 1, 0, 0, 0⟩ })] }, _, 0, 15, ⟨[], 1, 0, 0, 0⟩, rfl, ?_, ?_, ?_⟩,
    ⟨{ w with progs := [(15, { loaded := true, stopFrom := some 0 })] }, _, 0, 15, 0, rfl, ?_, ?_, ?_⟩,
    ⟨{ w with progs := [(15, { moving := true })] }, _, 0, 15, rfl, ?_⟩⟩ <;> decide +kernel
theorem witness_ProgramsRun :
    (∃ (s a : State) (t i : Nat) (rx : Rx) (live : Bool) (b : Bytes),
      (s.at t).screen rx progFeedService = .run live a ∧ i = (Req.parse rx).index - E.PROG_FEED.key / 256 ∧
      b = (Req.parse rx).value) ∧
    (∃ (s z : State) (t slot first : Nat) (vals : List Nat), z = s.at t ∧ (z.prog slot).feeds = [(first, 0, vals)] ∧
      first ≤ z.tick) ∧
    (∃ (s z : State) (t slot d : Nat) (x : Step), z = s.at t ∧ slot < 16 ∧ (z.prog slot).step = some x ∧
      x.doneTick = some d ∧ d < z.tick) ∧
    (∃ (s z : State) (t slot cycle : Nat), z = s.at t ∧ (z.prog slot).loaded = true ∧
      (z.prog slot).suspended = false ∧ (z.prog slot).step = none ∧ (z.prog slot).lastStart ≠ some z.tick ∧
      cycle = max 1 (formPeriod (z.prog slot).form * z.totalFactor (z.prog slot)) ∧
      (z.tick + cycle * 65536 - z.getU E.PROG_PHASE slot) % cycle = 0) ∧
    (∃ (s z : State) (t slot : Nat) (x : Step) (poison : List (Nat × Nat)), z = s.at t ∧ slot < 16 ∧
      (z.prog slot).step = some x ∧ x.doneTick = none ∧ z.fabric.clampTick ≠ some z.tick) := by
  refine ⟨
    ⟨w, _, 0, 15, wExec (E.PROG_FEED.key + 256 * 15) ([0, 1, 0, 0, 0, 0, 0, 0] ++ [0, 0, 0, 9]), false, _, run_of ?_,
      ?_, rfl⟩,
    ⟨{ w with progs := [(15, { feeds := [(5, 0, [1, 2])] })] }, _, 0, 15, 5, [1, 2], rfl, ?_, ?_⟩,
    ⟨{ w with progs := [(15, { step := some { start := 5, tensors := [], doneTick := some 6 } })] }, _, 0, 15, 6,
      { start := 5, tensors := [], doneTick := some 6 }, rfl, ?_, ?_, ?_, ?_⟩,
    ⟨{ w with progs := [(15, { loaded := true })] }, _, 0, 15, _, rfl, ?_, ?_, ?_, ?_, rfl, ?_⟩,
    ⟨{ w with progs := [(15, { step := some { start := 5, tensors := [] } })] }, _, 0, 15,
      { start := 5, tensors := [] }, [], rfl, ?_, ?_, ?_, ?_⟩⟩ <;> decide +kernel
theorem witness_ArraysFailAndTurn :
    (∃ (s z : State) (t array : Nat), z = s.at t ∧ array < 144 ∧ (z.arrRole array = 1 ∨ z.arrRole array = 2) ∧
      (z.arr array).parityTick ≠ some z.tick) ∧
    (∃ (s z : State) (t array : Nat), z = s.at t ∧ (z.arrRole array = 1 ∨ z.arrRole array = 2) ∧
      (z.arr array).parityTick ≠ some z.tick ∧ (z.arr array).overrunTick + 1 ≠ z.tick) ∧
    (∃ (s z : State) (t array : Nat) (sram : Bool), z = s.at t ∧ array < 144 ∧
      (z.arrRole array = 1 ∨ z.arrRole array = 2)) ∧
    (∃ (s z : State) (t region : Nat), z = s.at t ∧ region < 4 ∧ (z.get E.REGIONS_FENCED).testBit region = false) ∧
    (∃ (s z : State) (t region since : Nat), z = s.at t ∧ (region, since) ∈ z.fabric.fences ∧ since < z.tick) ∧
    (∃ (s z : State) (t array a : Nat), z = s.at t ∧ (z.arr array).handOver ≠ 0 ∧ (z.arr array).fenceTick < z.tick ∧
      z.bestSpare (regionArrays (array / 36)) = some a ∧ a ≠ array) ∧
    (∃ (s z : State) (t region o i : Nat), z = s.at t ∧ z.rotationTurn region (z.turn + 1) = true ∧
      z.wheel.idx + 1 = z.ticksPerTurn ∧ z.rotationPair region = (some o, some i)) ∧
    (∃ (s z : State) (t region o i : Nat), z = s.at t ∧ z.rotationTurn region z.turn = true ∧ z.wheel.idx = 0 ∧
      z.fabric.rotated.get region ≠ some z.turn ∧ z.rotationPair region = (some o, some i) ∧ o ≠ i ∧
      (z.arr i).preloadFor = some o ∧ z.fabric.stanceTurn ≠ some z.turn) := by
  refine ⟨
    ⟨{ w with fabric := { arrays := [(0, { isRow := true })] } }, _, 0, 0, rfl, ?_, ?_, ?_⟩,
    ⟨{ w with fabric := { arrays := [(0, { isRow := true })] } }, _, 0, 0, rfl, ?_, ?_, ?_⟩,
    ⟨{ w with fabric := { arrays := [(0, { isRow := true })] } }, _, 0, 0, true, rfl, ?_, ?_⟩,
    ⟨w, _, 0, 3, rfl, ?_, ?_⟩,
    ⟨{ w with fabric := { fences := [(3, 999999)] } }, _, 0, 3, 999999, rfl, ?_, ?_⟩,
    ⟨{ w with fabric := { arrays := [(3, { handOver := 1 })] }, wear := { units := [(4, { role := 1, tested := true })] } },
      _, 0, 3, 4, rfl, ?_, ?_, ?_, ?_⟩,
    ⟨{ w with wheel := { w.wheel with turn := 409599, idx := 199 } }, _, 0, 0, 0, 32, rfl, ?_, ?_, ?_⟩,
    ⟨{ w with wheel := { w.wheel with turn := 409600 }, fabric := { arrays := [(32, { preloadFor := some 0 })] } }, _,
      0, 0, 0, 32, rfl, ?_, ?_, ?_, ?_, ?_, ?_, ?_⟩⟩ <;> decide +kernel
theorem witness_StacksFailAndSpare :
    (∃ (s z : State) (t k line : Nat), z = s.at t ∧ k < 4 ∧ z.getU E.STACK_STATE k = 2 ∧ line ∉ (z.stack k).poisoned) ∧
    (∃ (s z : State) (t k bank row : Nat), z = s.at t ∧ z.getU E.STACK_STATE k = 2 ∧
      (z.stack k).sparedRows.getD bank 0 < 32) ∧
    (∃ (s z : State) (t k page : Nat), z = s.at t ∧ z.getU E.STACK_STATE k = 2 ∧ z.getU E.RESERVE_PAGES_FREE k ≠ 0) ∧
    (∃ (s z : State) (t k : Nat) (corrected : List (Nat × Nat)), z = s.at t ∧ z.getU E.STACK_STATE k = 2 ∧
      (z.stack k).scrubTurn + z.eff E.SCRUB_PERIOD_TURNS ≤ z.turn) ∧
    (∃ (s z : State) (t k : Nat), z = s.at t ∧ z.getU E.STACK_STATE k = 2) ∧
    (∃ (s z : State) (t k c u₀ : Nat), z = s.at t ∧ u₀ = chanUnit k c ∧ z.getU E.STACK_STATE k = 2 ∧
      z.getU E.CHAN_STATE u₀ ≠ 3 ∧ z.getU E.CHAN_STATE u₀ ≠ 0) ∧
    (∃ (s z : State) (t k slot since c : Nat), z = s.at t ∧ k < 4 ∧ c < 18 ∧ z.getU E.STACK_STATE k = 2 ∧
      (z.stack k).lostSlots = [(slot, since)] ∧ since < z.tick ∧ (z.spareChannels k)[0]? = some c) ∧
    (∃ (s z : State) (t k c : Nat), z = s.at t ∧ c ∈ (z.stack k).fills) ∧
    (∃ (s z : State) (t k temp : Nat), z = s.at t ∧ z.getU E.STACK_STATE k = 2 ∧ s16 temp < 105 * 64) := by
  refine ⟨
    ⟨w.setU E.STACK_STATE 3 2, _, 0, 3, 0, rfl, ?_, ?_, ?_⟩,
    ⟨{ w.setU E.STACK_STATE 3 2 with stackMap := [(3, { sparedRows := [(5, 31)] })] }, _, 0, 3, 5, 0, rfl, ?_, ?_⟩,
    ⟨(w.setU E.STACK_STATE 3 2).setU E.RESERVE_PAGES_FREE 3 1, _, 0, 3, 7, rfl, ?_, ?_⟩,
    ⟨w.setU E.STACK_STATE 3 2, _, 0, 3, [], rfl, ?_, ?_⟩,
    ⟨w.setU E.STACK_STATE 3 2, _, 0, 3, rfl, ?_⟩,
    ⟨(w.setU E.STACK_STATE 3 2).setU E.CHAN_STATE (chanUnit 3 17) 1, _, 0, 3, 17, _, rfl, rfl, ?_, ?_, ?_⟩,
    ⟨{ w.setU E.STACK_STATE 3 2 with stackMap := [(3, { lostSlots := [(4, 999999)] })] }, _, 0, 3, 4, 999999, 16, rfl,
      ?_, ?_, ?_, ?_, ?_, ?_⟩,
    ⟨{ w.setU E.STACK_STATE 3 2 with stackMap := [(3, { fills := [17] })] }, _, 0, 3, 17, rfl, ?_⟩,
    ⟨w.setU E.STACK_STATE 3 2, _, 0, 3, 6719, rfl, ?_, ?_⟩⟩ <;> decide +kernel
theorem witness_IocServes :
    (∃ (s z : State) (t lane row : Nat), z = s.at t ∧ row = kindRow 16 + lane ∧ z.fwRuns = true ∧ lane < 14 ∧
      (z.unit row).role = 0) ∧
    (∃ (s z : State) (t n r : Nat), z = s.at t ∧ z.fwRuns = true ∧ z.wheel.idx = 0 ∧ z.ioc.lanesFailed = [n] ∧
      n < z.turn ∧ z.bestSpare (kindRows 16) = some r) ∧
    (∃ (s z : State) (t : Nat), z = s.at t ∧ z.fwRuns = true ∧ z.ioc.linkLost = false) ∧
    (∃ (s z : State) (t : Nat), z = s.at t ∧ z.fwRuns = true ∧ z.inRest = false) ∧
    (∃ (s z : State) (t : Nat), z = s.at t ∧ z.fwRuns = true ∧ 8 ≤ z.plant.dieHotRun ∧ z.inRest = false) ∧
    (∃ (s z : State) (t : Nat) (x : SensorIn), z = s.at t ∧ z.fwRuns = true ∧ z.ioc.linkLost = false ∧
      z.ioc.delivered ≠ some z.tick) ∧
    (∃ (s z : State) (t : Nat), z = s.at t ∧ z.fwRuns = true ∧ z.ioc.linkLost = false ∧ z.pastSlot 40 = true ∧
      z.ioc.handed ≠ some z.tick) ∧
    (∃ (s z : State) (t : Nat), z = s.at t ∧ z.elec.power = 1 ∧ 0 < z.wheel.tickLen ∧ z.pastSlot 50 = true ∧
      z.ioc.updated ≠ some z.tick ∧ z.ioc.linkLost = false) := by
  refine ⟨
    ⟨w, _, 0, 11, _, rfl, rfl, ?_, ?_, ?_⟩,
    ⟨{ w with ioc := { lanesFailed := [5] } }, _, 0, 5, 592, rfl, ?_, ?_, ?_, ?_, ?_⟩,
    ⟨w, _, 0, rfl, ?_, ?_⟩,
    ⟨w, _, 0, rfl, ?_, ?_⟩,
    ⟨{ w with plant := { dieHotRun := 8 } }, _, 0, rfl, ?_, ?_, ?_⟩,
    ⟨w, _, 0, {}, rfl, ?_, ?_, ?_⟩,
    ⟨w, _, 0, rfl, ?_, ?_, ?_, ?_⟩,
    ⟨w, _, 0, rfl, ?_, ?_, ?_, ?_, ?_⟩⟩ <;> decide +kernel
theorem witness_EnginesRun :
    (∃ (s z : State) (t n : Nat) (x : Eng), z = s.at t ∧ n < 256 ∧ x = z.eng n ∧ z.fwRuns = true ∧
      z.isActive (kindRow 3 + n) = true ∧ x.down = false ∧ z.engDue n = true ∧ z.slotB n = false ∧
      z.inSlot 10 25 = true ∧ x.lastRun ≠ some z.tick ∧ z.inRest = false ∧ z.getU E.LOOP_MODE n = 0 ∧
      z.getU E.LOOP_MODE_ACTIVE n = 0 ∧ z.getU E.MANUAL_VALUE n = x.manual ∧ x.wait = 0 ∧ x.offset = 0 ∧
      x.clearTable = false) ∧
    (∃ (s z : State) (t n from_ : Nat), z = s.at t ∧ n < 256 ∧ (z.eng n).holdFrom = some from_ ∧
      (z.eng n).lastRun = some z.tick ∧ from_ + z.getU E.FREEZE_HOLD n ≤ z.tick) ∧
    (∃ (s z : State) (t n : Nat), z = s.at t ∧ n < 256 ∧ (z.eng n).lastRun = some z.tick ∧
      z.getU E.FOLLOW_ERR_TIME n < (z.eng n).timer ∧ z.getU E.LOOP_MODE_ACTIVE n = 1) ∧
    (∃ (s z : State) (t n k : Nat), z = s.at t ∧ n < 256 ∧ z.fwRuns = true ∧ z.isActive (kindRow 3 + n) = true ∧
      (z.eng n).down = false ∧ z.engDue n = true ∧ z.slotB n = false ∧ z.pastSlot 25 = true ∧
      (z.eng n).lastRun ≠ some z.tick ∧ (z.eng n).missTick ≠ some z.tick ∧
      k = satBytes 1 (z.getU E.LOOP_MISSES n + 1) ∧ k < z.getU E.MISS_LIMIT n) ∧
    (∃ (s z : State) (t n : Nat), z = s.at t ∧ n < 256 ∧ (z.unit (kindRow 3 + n)).role = 0) ∧
    (∃ (s z : State) (t n f row : Nat), z = s.at t ∧ (z.eng n).fenceTick = some f ∧ f < z.tick ∧
      z.bestSpare (kindRows 3) = some row) := by
  refine ⟨
    ⟨{ (w.setU E.LOOP_MODE 0 0).setU E.LOOP_MODE_ACTIVE 0 0 with wheel := { w.wheel with tickStart := 10 ^ 16 - 100000000 } },
      _, 0, 0, _, rfl, ?_, rfl, ?_, ?_, ?_, ?_, ?_, ?_, ?_, ?_, ?_, ?_, ?_, ?_, ?_, ?_⟩,
    ⟨{ w with ioc := { engines := [(255, { holdFrom := some 0, lastRun := some 1000000 })] } }, _, 0, 255, 0, rfl, ?_,
      ?_, ?_, ?_⟩,
    ⟨{ (w.setU E.FOLLOW_ERR_TIME 255 10).setU E.LOOP_MODE_ACTIVE 255 1 with ioc := { engines := [(255, { lastRun := some 1000000, timer := 100000 })] } },
      _, 0, 255, rfl, ?_, ?_, ?_, ?_⟩,
    ⟨w.setU E.MISS_LIMIT 0 5, _, 0, 0, _, rfl, ?_, ?_, ?_, ?_, ?_, ?_, ?_, ?_, ?_, rfl, ?_⟩,
    ⟨w, _, 0, 0, rfl, ?_, ?_⟩,
    ⟨{ w with ioc := { engines := [(3, { fenceTick := some 5 })] }, wear := { units := [(kindRow 3 + 5, { role := 1, tested := true })] } },
      _, 0, 3, 5, kindRow 3 + 5, rfl, ?_, ?_, ?_⟩⟩ <;> decide +kernel
theorem witness_WritesAct :
    (∃ (s a : State) (t w k : Nat) (rx : Rx) (live : Bool) (r : Row),
      (s.at t).screen rx stanceWriteService = .run live a ∧ (Req.parse rx).entry = some (r, w) ∧
      k = (Req.parse rx).sub - r.ent.key % 256 ∧ a.dict.held.get (r.ent.key + k + 256 * w) = none) ∧
    (∃ (s a : State) (t w k key : Nat) (rx : Rx) (live : Bool) (r : Row),
      (s.at t).screen rx wheelPhaseWriteService = .run live a ∧ (Req.parse rx).entry = some (r, w) ∧
      k = (Req.parse rx).sub - r.ent.key % 256 ∧ a.dict.held.get (r.ent.key + k + 256 * w) = none ∧
      key = r.ent.key + k + 256 * w ∧ key ≠ E.WHEEL_STATE.key ∧ key ∉ countKeys ∧ a.get E.WHEEL_STATE ≠ 1) ∧
    (∃ (s a : State) (t w k key : Nat) (rx : Rx) (live : Bool) (r : Row),
      (s.at t).screen rx wheelPhaseWriteService = .run live a ∧ (Req.parse rx).entry = some (r, w) ∧
      k = (Req.parse rx).sub - r.ent.key % 256 ∧ a.dict.held.get (r.ent.key + k + 256 * w) = none ∧
      key = r.ent.key + k + 256 * w ∧ key ≠ E.WHEEL_STATE.key ∧ a.get E.WHEEL_STATE = 1) ∧
    (∃ (s a : State) (t w k : Nat) (rx : Rx) (live : Bool) (r : Row),
      (s.at t).screen rx phaseSourceWriteService = .run live a ∧ (Req.parse rx).entry = some (r, w) ∧
      k = (Req.parse rx).sub - r.ent.key % 256 ∧ a.dict.held.get (r.ent.key + k + 256 * w) = none ∧
      r.ent.key + k + 256 * w ∉ countKeys) ∧
    (∃ (s a : State) (t w k : Nat) (rx : Rx) (live : Bool) (r : Row),
      (s.at t).screen rx loopModeWriteService = .run live a ∧ (Req.parse rx).entry = some (r, w) ∧
      k = (Req.parse rx).sub - r.ent.key % 256 ∧ a.dict.held.get (r.ent.key + k + 256 * w) = none ∧
      r.ent.key + k + 256 * w ∉ countKeys) ∧
    (∃ (s a : State) (t w k : Nat) (rx : Rx) (live : Bool) (r : Row),
      (s.at t).screen rx manualValueWriteService = .run live a ∧ (Req.parse rx).entry = some (r, w) ∧
      k = (Req.parse rx).sub - r.ent.key % 256 ∧ a.dict.held.get (r.ent.key + k + 256 * w) = none ∧
      r.ent.key + k + 256 * w ∉ countKeys) ∧
    (∃ (s a : State) (t w k : Nat) (rx : Rx) (live : Bool) (r : Row),
      (s.at t).screen rx brEnableWriteService = .run live a ∧ (Req.parse rx).entry = some (r, w) ∧
      k = (Req.parse rx).sub - r.ent.key % 256 ∧ a.dict.held.get (r.ent.key + k + 256 * w) = none ∧
      r.ent.key + k + 256 * w ∉ countKeys) ∧
    (∃ (s a : State) (t w k : Nat) (rx : Rx) (live : Bool) (r : Row),
      (s.at t).screen rx histCountWriteService = .run live a ∧ (Req.parse rx).entry = some (r, w) ∧
      k = (Req.parse rx).sub - r.ent.key % 256 ∧ a.dict.held.get (r.ent.key + k + 256 * w) = none ∧
      r.ent.key + k + 256 * w ∉ countKeys) ∧
    (∃ (s a : State) (t i : Nat) (rx : Rx) (live : Bool), (s.at t).screen rx loopCmdAcceptService = .run live a ∧
      i = (Req.parse rx).index - E.LOOP_CMD.key / 256) ∧
    (∃ (s a : State) (t i : Nat) (rx : Rx) (live : Bool), (s.at t).screen rx loopCmdClearTableService = .run live a ∧
      i = (Req.parse rx).index - E.LOOP_CMD.key / 256) := by
  refine ⟨
    ⟨w, _, 0, _, _, wWrite E.STANCE.key 2, false, _, run_of ?_, entry_of ?_, rfl, ?_⟩,
    ⟨w.set E.WHEEL_STATE 2, _, 0, _, _, _, wWrite E.WHEEL_PHASE_OFFSET.key 5, false, _, run_of ?_, entry_of ?_, rfl,
      ?_, rfl, ?_, ?_, ?_⟩,
    ⟨w, _, 0, _, _, _, wWrite E.WHEEL_REF_PHASE.key 2, false, _, run_of ?_, entry_of ?_, rfl, ?_, rfl, ?_, ?_⟩,
    ⟨w, _, 0, _, _, wWrite (E.PHASE_SOURCE.key + 256 * 5) 3, false, _, run_of ?_, entry_of ?_, rfl, ?_, ?_⟩,
    ⟨w, _, 0, _, _, wWrite (E.LOOP_MODE.key + 256 * 5) 1, false, _, run_of ?_, entry_of ?_, rfl, ?_, ?_⟩,
    ⟨w, _, 0, _, _, wWrite (E.MANUAL_VALUE.key + 256 * 5) 0, false, _, run_of ?_, entry_of ?_, rfl, ?_, ?_⟩,
    ⟨w.setU E.BR_FLOW_SET 39 5, _, 0, _, _, wWrite (E.BR_ENABLE.key + 256 * 39) 1, false, _, run_of ?_, entry_of ?_,
      rfl, ?_, ?_⟩,
    ⟨w, _, 0, _, _, wWrite E.HIST_COUNT.key 5, false, _, run_of ?_, entry_of ?_, rfl, ?_, ?_⟩,
    ⟨{ w with ioc := { engines := [(5, { wait := 1 })] } }, _, 0, _, wExec (E.LOOP_CMD.key + 256 * 5) [1], false,
      run_of ?_, rfl⟩,
    ⟨w, _, 0, _, wExec (E.LOOP_CMD.key + 256 * 5) [2], false, run_of ?_, rfl⟩⟩ <;> decide +kernel
theorem witness_ProfilesMove :
    (∃ (s z : State) (t bank c : Nat) (rest : List Nat), z = s.at t ∧ bank < 14 ∧ (z.bank bank).queue = c :: rest ∧
      z.admits c = true) ∧
    (∃ (s z : State) (t ch current : Nat), z = s.at t ∧ z.phase ch = 2 ∧ z.getU E.PEAK_A ch ≤ current ∧
      (z.bank (ch / 4)).long = false) ∧
    (∃ (s z : State) (t ch : Nat), z = s.at t ∧ ch < 56 ∧ z.phase ch = 2 ∧
      (z.valve ch).phaseFrom + z.getU E.BOOST_MAX_US ch * us ≤ z.now ∧ (z.bank (ch / 4)).long = false) ∧
    (∃ (s z : State) (t ch : Nat), z = s.at t ∧ z.phase ch = 3 ∧
      (z.valve ch).phaseFrom + z.getU E.PEAK_US ch * us ≤ z.now) ∧
    (∃ (s z : State) (t bank c : Nat) (rest : List Nat), z = s.at t ∧ bank < 14 ∧ (z.bank bank).queue = c :: rest ∧
      (z.bank bank).long = false ∧ (z.valve c).queuedAt + 2 * ms ≤ z.now) ∧
    (∃ (s z : State) (t ch current : Nat), z = s.at t ∧ current ≤ z.getU E.HOLD_A ch ∧ z.phase ch = 4) ∧
    (∃ (s z : State) (t ch current : Nat), z = s.at t ∧ current < 50 ∧ z.phase ch = 6) := by
  refine ⟨
    ⟨{ w with ioc := { banks := [(13, { queue := [55] })] } }, _, 0, 13, 55, [], rfl, ?_, ?_, ?_⟩,
    ⟨(w.setU E.VALVE_PHASE 55 2), _, 0, 55, 60000, rfl, ?_, ?_, ?_⟩,
    ⟨(w.setU E.VALVE_PHASE 55 2), _, 0, 55, rfl, ?_, ?_, ?_, ?_⟩,
    ⟨(w.setU E.VALVE_PHASE 55 3), _, 0, 55, rfl, ?_, ?_⟩,
    ⟨{ w with ioc := { banks := [(13, { queue := [55] })] } }, _, 0, 13, 55, [], rfl, ?_, ?_, ?_, ?_⟩,
    ⟨(w.setU E.VALVE_PHASE 55 4), _, 0, 55, 0, rfl, ?_, ?_⟩,
    ⟨(w.setU E.VALVE_PHASE 55 6), _, 0, 55, 49, rfl, ?_, ?_⟩⟩ <;> decide +kernel
theorem witness_SeatsAndDemands :
    (∃ (s z : State) (t ch kink event start : Nat), z = s.at t ∧ (z.valve ch).seat = some (event, start) ∧
      z.getU E.SEAT_KINK ch < kink ∧ z.now ≤ start + z.getU E.SEAT_WINDOW_MS ch * ms) ∧
    (∃ (s z : State) (t ch event start : Nat), z = s.at t ∧ (z.valve ch).seat = some (event, start) ∧
      start + z.getU E.SEAT_WINDOW_MS ch * ms ≤ z.now) ∧
    (∃ (s z : State) (t ch : Nat) (r : SeatEnd), z = s.at t ∧ ch < 56 ∧ (z.valve ch).seatEnd = some r ∧
      r.ended < z.tick) ∧
    (∃ (s a : State) (t i : Nat) (rx : Rx) (live : Bool), (s.at t).screen rx valveCmdDeenergiseService = .run live a ∧
      i = (Req.parse rx).index - E.VALVE_CMD.key / 256) ∧
    (∃ (s a : State) (t i : Nat) (rx : Rx) (live : Bool), (s.at t).screen rx valveCmdEnergiseService = .run live a ∧
      i = (Req.parse rx).index - E.VALVE_CMD.key / 256) ∧
    (∃ (s a : State) (t i : Nat) (rx : Rx) (live : Bool), (s.at t).screen rx valveCmdClearService = .run live a ∧
      i = (Req.parse rx).index - E.VALVE_CMD.key / 256 ∧ i < 56 ∧ a.valveFaultBit i 3 = false) := by
  refine ⟨
    ⟨{ w with ioc := { valves := [(55, { seat := some (0, w.now) })] } }, _, 0, 55, 60000, 0, w.now, rfl, ?_, ?_, ?_⟩,
    ⟨{ w with ioc := { valves := [(55, { seat := some (0, 0) })] } }, _, 0, 55, 0, 0, rfl, ?_, ?_⟩,
    ⟨{ w with ioc := { valves := [(55, { seatEnd := some ⟨1, 0, 5, 3, 999999, 0⟩ })] } }, _, 0, 55, ⟨1, 0, 5, 3,
      999999, 0⟩, rfl, ?_, ?_, ?_⟩,
    ⟨w, _, 0, _, wExec (E.VALVE_CMD.key + 256 * 47) [0], false, run_of ?_, rfl⟩,
    ⟨w, _, 0, _, wExec (E.VALVE_CMD.key + 256 * 47) [1], false, run_of ?_, rfl⟩,
    ⟨w, _, 0, _, wExec (E.VALVE_CMD.key + 256 * 47) [2], false, run_of ?_, rfl, ?_, ?_⟩⟩ <;> decide +kernel
theorem witness_ValvesFaultAndMove :
    (∃ (s z : State) (t ch current : Nat), z = s.at t ∧ ch < 56 ∧ z.phase ch = 2 ∧ current < 100 ∧
      (z.valve ch).phaseFrom + 500 * us ≤ z.now) ∧
    (∃ (s z : State) (t ch : Nat), z = s.at t ∧ ch < 56 ∧ (z.phase ch = 2 ∨ z.phase ch = 3 ∨ z.phase ch = 5)) ∧
    (∃ (s z : State) (t ch due : Nat), z = s.at t ∧ (z.valve ch).retryAt = some due ∧ due ≤ z.now ∧
      z.getU E.VALVE_DEMAND ch = 1 ∧ z.isActive (valveRow ch) = true ∧ z.ioc.valvesLow = false ∧
      z.valveFaultBit ch 3 = false ∧ z.phase ch = 7 ∧ (z.bank (ch / 4)).queue = [] ∧ z.admits ch = true) ∧
    (∃ (s z : State) (t bank current : Nat), z = s.at t ∧ bank < 14 ∧ 40000 < current) ∧
    (∃ (s z : State) (t ch temp : Nat), z = s.at t ∧ ch < 56 ∧ 150 ≤ temp ∧ z.valveFaultBit ch 4 = false) ∧
    (∃ (s z : State) (t ch : Nat), z = s.at t ∧ ch < 56 ∧ z.paired ch = false ∧ z.follower ch = false ∧
      (z.unit (valveRow ch)).role = 0) ∧
    (∃ (s z : State) (t ch f row : Nat), z = s.at t ∧ ch < 56 ∧ (z.valve ch).fenceTick = some f ∧ f < z.tick ∧
      z.follower ch = false ∧ z.paired ch = false ∧ z.getU E.VALVE_OUTPUT ch ≠ 0xFF ∧
      z.bestSpare (kindRows 4) = some row) ∧
    (∃ (s z : State) (t ch out from_ : Nat), z = s.at t ∧ (z.valve ch).switching = some (out, from_) ∧
      z.getU E.VALVE_DEMAND ch ≠ 1) := by
  refine ⟨
    ⟨(w.setU E.VALVE_PHASE 55 2), _, 0, 55, 99, rfl, ?_, ?_, ?_, ?_⟩,
    ⟨(w.setU E.VALVE_PHASE 55 5), _, 0, 55, rfl, ?_, ?_⟩,
    ⟨{ (w.setU E.VALVE_PHASE 47 7).setU E.VALVE_DEMAND 47 1 with ioc := { valves := [(47, { retryAt := some 0 })] } },
      _, 0, 47, 0, rfl, ?_, ?_, ?_, ?_, ?_, ?_, ?_, ?_, ?_⟩,
    ⟨w, _, 0, 13, 40001, rfl, ?_, ?_⟩,
    ⟨w, _, 0, 55, 150, rfl, ?_, ?_, ?_⟩,
    ⟨w, _, 0, 47, rfl, ?_, ?_, ?_, ?_⟩,
    ⟨{ w.setU E.VALVE_OUTPUT 47 5 with ioc := { valves := [(47, { fenceTick := some 5 })] } }, _, 0, 47, 5,
      kindRow 4 + 48, rfl, ?_, ?_, ?_, ?_, ?_, ?_, ?_⟩,
    ⟨{ w with ioc := { valves := [(55, { switching := some (5, 0) })] } }, _, 0, 55, 5, 0, rfl, ?_, ?_⟩⟩ <;> decide +kernel
theorem witness_FeedsMove :
    (∃ (s z : State) (t volts : Nat), z = s.at t ∧ volts < 22000 ∧ z.ioc.valvesLow = false) ∧
    (∃ (s z : State) (t volts : Nat), z = s.at t ∧ 23000 < volts ∧ z.get E.ACT_FUSE_STATE = 0 ∧
      z.ioc.valvesLow = true) ∧
    (∃ (s z : State) (t old kind due : Nat), z = s.at t ∧ z.dict.held.get E.BOOST_V.key = some (old, kind, due) ∧
      due ≤ z.tick ∧ (∀ c, c < 56 → z.lowSide c < 2 ∨ 4 < z.lowSide c)) ∧
    (∃ (s z : State) (t volts : Nat), z = s.at t ∧ volts < 20000 ∧ z.ioc.fansLow = false) ∧
    (∃ (s z : State) (t volts : Nat), z = s.at t ∧ 21000 < volts ∧ z.get E.ACT_FUSE_STATE = 0 ∧ z.ioc.fansLow = true) ∧
    (∃ (s z : State) (t feed : Nat), z = s.at t ∧ z.elec.power = 1 ∧ feed < 2) ∧
    (∃ (s z : State) (t feed : Nat), z = s.at t ∧ z.elec.power = 1 ∧ feed < 2) ∧
    (∃ (s z : State) (t : Nat) (opens : List Nat), z = s.at t ∧ z.elec.power = 1 ∧ z.get E.ACT_FUSE_STATE = 0 ∧
      opens = z.now :: z.elec.openings.filter (fun x => decide (z.now ≤ x + 60 * sec))) ∧
    (∃ (s z : State) (t : Nat), z = s.at t ∧ z.elec.power = 1 ∧ z.get E.ACT_FUSE_STATE = 1 ∧
      z.elec.openAt + sec ≤ z.now) ∧
    (∃ (s z : State) (t : Nat), z = s.at t ∧ z.elec.power = 1 ∧ z.get E.ACT_FUSE_STATE = 0) := by
  refine ⟨
    ⟨w, _, 0, 21999, rfl, ?_, ?_⟩,
    ⟨{ w with ioc := { valvesLow := true } }, _, 0, 23001, rfl, ?_, ?_, ?_⟩,
    ⟨{ w with dict := { w.dict with held := [(E.BOOST_V.key, (5, 3, 1000000))] } }, _, 0, 5, 3, 1000000, rfl, ?_, ?_,
      ?_⟩,
    ⟨w, _, 0, 19999, rfl, ?_, ?_⟩,
    ⟨{ w with ioc := { fansLow := true } }, _, 0, 21001, rfl, ?_, ?_, ?_⟩,
    ⟨w, _, 0, 1, rfl, ?_, ?_⟩,
    ⟨w, _, 0, 1, rfl, ?_, ?_⟩,
    ⟨w, _, 0, _, rfl, ?_, ?_, rfl⟩,
    ⟨w.set E.ACT_FUSE_STATE 1, _, 0, rfl, ?_, ?_, ?_⟩,
    ⟨w, _, 0, rfl, ?_, ?_⟩⟩ <;> decide +kernel
theorem witness_FansStart :
    (∃ (s z : State) (t : Nat), z = s.at t ∧ z.fwRuns = true ∧ z.ioc.watchdog = none ∧
      z.dict.hostHeard + z.get E.FAN_WATCHDOG_S * sec ≤ z.now) ∧
    (∃ (s z : State) (t c : Nat) (rest : List Nat), z = s.at t ∧ z.ioc.stagger = c :: rest ∧ z.fwRuns = true ∧
      z.ioc.linkLost = false ∧ z.ioc.staggerAt + z.get E.FAN_STAGGER_MS * ms ≤ z.now) ∧
    (∃ (s z : State) (t ch : Nat), z = s.at t ∧ z.fanState ch = 1 ∧ (z.fan ch).lastRun = some z.tick ∧
      z.turning ch = false ∧ z.phasePassed ch (z.fanParam ch E.FAN_START_MS) = true ∧ z.fanParam ch E.FAN_KICKS ≠ 0) ∧
    (∃ (s z : State) (t ch : Nat), z = s.at t ∧ z.fanState ch = 2 ∧ (z.fan ch).lastRun = some z.tick ∧
      z.phasePassed ch (z.fanParam ch E.FAN_KICK_MS) = true ∧ z.turning ch = false ∧
      (z.fan ch).kicks < z.fanParam ch E.FAN_KICKS) ∧
    (∃ (s z : State) (t ch : Nat), z = s.at t ∧ z.fanState ch = 3 ∧ (z.fan ch).lastRun = some z.tick ∧
      z.phasePassed ch (z.fanParam ch E.FAN_KICK_MS) = true) ∧
    (∃ (s z : State) (t ch n : Nat), z = s.at t ∧ n = z.fanParam ch E.FAN_STALL_RETRY ∧ z.fanState ch = 7 ∧
      z.fanFault ch &&& 0xD ≠ 0 ∧ z.fanFault ch &&& 0x30 = 0 ∧ n ≠ 0 ∧ (z.fan ch).faultAt + n * sec ≤ z.now ∧
      z.fanActive ch = true) := by
  refine ⟨
    ⟨w, _, 0, rfl, ?_, ?_, ?_⟩,
    ⟨{ w with ioc := { stagger := [5] } }, _, 0, 5, [], rfl, ?_, ?_, ?_, ?_⟩,
    ⟨{ (w.setU E.FAN_STATE 27 1).setU E.FAN_KICKS 27 1 with ioc := { fans := [(27, { lastRun := some 1000000 })] } },
      _, 0, 27, rfl, ?_, ?_, ?_, ?_, ?_⟩,
    ⟨{ (w.setU E.FAN_STATE 27 2).setU E.FAN_KICKS 27 1 with ioc := { fans := [(27, { lastRun := some 1000000 })] } },
      _, 0, 27, rfl, ?_, ?_, ?_, ?_, ?_⟩,
    ⟨{ w.setU E.FAN_STATE 27 3 with ioc := { fans := [(27, { lastRun := some 1000000 })] } }, _, 0, 27, rfl, ?_, ?_,
      ?_⟩,
    ⟨((w.setU E.FAN_STATE 5 7).setU E.FAN_FAULT 5 1).setU E.FAN_STALL_RETRY 5 1, _, 0, 5, _, rfl, rfl, ?_, ?_, ?_, ?_,
      ?_, ?_⟩⟩ <;> decide +kernel
theorem witness_FansRunFaultAndMove :
    (∃ (s z : State) (t ch : Nat) (x : FanIn), z = s.at t ∧ z.fwRuns = true ∧ z.ioc.linkLost = false ∧ ch < 34 ∧
      z.wheel.idx % max 1 (z.ticksPerTurn / 8) = 0 ∧ z.pastSlot 50 = true ∧ (z.fan ch).lastRun ≠ some z.tick ∧
      z.fanActive ch = true ∧ (z.fan ch).switching = none) ∧
    (∃ (s z : State) (t ch : Nat), z = s.at t ∧ ch < 34 ∧ (z.fan ch).lastRun = some z.tick ∧ z.tachAbsent ch = true ∧
      z.fanState ch = 5 ∧ z.fanParam ch E.FAN_STALL_I ≤ z.fanGet ch E.FAN_CURRENT E.IFAN_CURRENT) ∧
    (∃ (s z : State) (t ch : Nat), z = s.at t ∧ z.fanState ch = 5 ∧ 8 ≤ (z.fan ch).edgeRuns) ∧
    (∃ (s z : State) (t ch from_ : Nat), z = s.at t ∧ ch < 34 ∧ (z.fan ch).limFrom = some from_ ∧
      from_ + 2 * sec ≤ z.now ∧ z.fanState ch ≠ 7) ∧
    (∃ (s z : State) (t ch temp : Nat), z = s.at t ∧ ch < 34 ∧ 150 ≤ temp ∧ (z.fanFault ch).testBit 4 = false) ∧
    (∃ (s a : State) (t i : Nat) (rx : Rx) (live : Bool), (s.at t).screen rx fanCmdService = .run live a ∧
      i = (Req.parse rx).index - E.FAN_CMD.key / 256 ∧ i < 28) ∧
    (∃ (s z : State) (t ch : Nat), z = s.at t ∧ ch < 34 ∧ (z.unit (fanRow ch)).role = 0) ∧
    (∃ (s z : State) (t ch f row : Nat), z = s.at t ∧ ch < 28 ∧ (z.fan ch).fenceTick = some f ∧ f < z.tick ∧
      z.bestSpare (kindRows 5) = some row) ∧
    (∃ (s z : State) (t ch out from_ : Nat), z = s.at t ∧ ch < 28 ∧ (z.fan ch).switching = some (out, from_) ∧
      z.ioc.fansLow = true) ∧
    (∃ (s z : State) (t n f r : Nat), z = s.at t ∧ n < 6 ∧ z.fanFault (28 + n) &&& 0x25 ≠ 0 ∧
      (z.fan (28 + n)).fenceTick = some f ∧ (z.unit (fanRow (28 + n))).role ≠ 0 ∧ z.bestSpare (kindRows 6) = some r) := by
  refine ⟨
    ⟨w, _, 0, 5, {}, rfl, ?_, ?_, ?_, ?_, ?_, ?_, ?_, ?_⟩,
    ⟨{ (w.setU E.FAN_STATE 27 5).setU E.FAN_CURRENT 27 60000 with ioc := { fans := [(27, { lastRun := some 1000000 })] } },
      _, 0, 27, rfl, ?_, ?_, ?_, ?_, ?_⟩,
    ⟨{ w.setU E.FAN_STATE 27 5 with ioc := { fans := [(27, { edgeRuns := 8 })] } }, _, 0, 27, rfl, ?_, ?_⟩,
    ⟨{ w with ioc := { fans := [(33, { limFrom := some 0 })] } }, _, 0, 33, 0, rfl, ?_, ?_, ?_, ?_⟩,
    ⟨w, _, 0, 33, 150, rfl, ?_, ?_, ?_⟩,
    ⟨w, _, 0, _, wExec (E.FAN_CMD.key + 256 * 5) [1], false, run_of ?_, rfl, ?_⟩,
    ⟨w, _, 0, 32, rfl, ?_, ?_⟩,
    ⟨{ w with ioc := { fans := [(5, { fenceTick := some 5 })] } }, _, 0, 5, 5, kindRow 5 + 24, rfl, ?_, ?_, ?_, ?_⟩,
    ⟨{ w with ioc := { fansLow := true, fans := [(27, { switching := some (5, 0) })] } }, _, 0, 27, 5, 0, rfl, ?_, ?_,
      ?_⟩,
    ⟨{ w.setU E.IFAN_FAULT 2 4 with ioc := { fans := [(30, { fenceTick := some 5 })] }, wear := { units := [(fanRow 30, { role := 2 })] } },
      _, 0, 2, 5, kindRow 6 + 5, rfl, ?_, ?_, ?_, ?_, ?_⟩⟩ <;> decide +kernel
theorem witness_FieldBusRuns :
    (∃ (s z : State) (t port : Nat) (f : CanFrame), z = s.at t ∧ port < 8 ∧ z.fbOn port = true) ∧
    (∃ (s z : State) (t port time k : Nat) (data : Bytes), z = s.at t ∧ port < 8 ∧ z.fbOn port = true ∧
      (z.fbPort port).bus = some (k, data)) ∧
    (∃ (s z : State) (t port : Nat) (e : CanErr) (c : Ent), z = s.at t ∧ port < 8 ∧ z.fbOn port = true ∧
      c = (match e.kind with | 0 => E.FB_ERR_BIT | 1 => E.FB_ERR_STUFF | 2 => E.FB_ERR_FORM | 3 => E.FB_ERR_CRC | _ => E.FB_ERR_ACK)) ∧
    (∃ (s a : State) (t i : Nat) (rx : Rx) (live : Bool), (s.at t).screen rx fbCmdRejoinService = .run live a ∧
      i = (Req.parse rx).index - E.FB_CMD.key / 256) ∧
    (∃ (s a : State) (t i : Nat) (rx : Rx) (live : Bool), (s.at t).screen rx fbCmdProbeService = .run live a ∧
      i = (Req.parse rx).index - E.FB_CMD.key / 256 ∧ a.fbState i = 4) ∧
    (∃ (s z : State) (t port : Nat), z = s.at t ∧ z.fbState port = 6 ∧
      (z.fbPort port).since + 1408 * z.fbBit port ≤ z.now) ∧
    (∃ (s z : State) (t port : Nat), z = s.at t ∧ port < 8 ∧ (z.fbState port = 2 ∨ z.fbState port = 3) ∧
      16 ≤ z.getU E.FB_UNACKED port) ∧
    (∃ (s z : State) (t port k : Nat), z = s.at t ∧ z.fbState port = 4 ∧ (z.fbPort port).bus = none ∧
      (z.fbPort port).probed < z.tick ∧ (z.fbPort port).probeNow = true ∧ z.pastSlot 50 = true ∧
      minBy (fun k => arbKey (z.effObj E.TX_CONFIG k)) ((z.objects E.TX_CONFIG port).filter fun k => txEnabled (z.effObj E.TX_CONFIG k) && ((z.txObj k).pending.isSome || (z.txObj k).last.isSome)) = some k) ∧
    (∃ (s z : State) (t obj : Nat), z = s.at t ∧ obj < 2048 ∧ (z.effObj E.RX_CONFIG obj).testBit 63 = true ∧
      bits (z.effObj E.RX_CONFIG obj) 47 32 ≠ 0 ∧ (z.getObj E.RX_STATUS obj).testBit 2 = false ∧
      (z.rxObj obj).lastAt + bits (z.effObj E.RX_CONFIG obj) 47 32 * ms ≤ z.now) ∧
    (∃ (s z : State) (t port : Nat), z = s.at t ∧ (z.fbPort port).suppressed = true ∧
      z.getU E.FB_SUPPRESS_HOLD port ≤ (z.fbPort port).clearRun) ∧
    (∃ (s z : State) (t port : Nat), z = s.at t ∧ z.fbState port = 1 ∧
      (z.fbPort port).since + 11 * z.fbBit port ≤ z.now) ∧
    (∃ (s z : State) (t port : Nat), z = s.at t ∧ port < 8 ∧ z.fbState port ≠ 7) := by
  refine ⟨
    ⟨{ w.setU E.FB_STATE 7 2 with ioc := { ports := [(7, {  })] } }, _, 0, 7, {}, rfl, ?_, ?_⟩,
    ⟨{ w.setU E.FB_STATE 7 4 with ioc := { ports := [(7, { bus := some (1792, []) })] } }, _, 0, 7, 0, 1792, [], rfl,
      ?_, ?_, ?_⟩,
    ⟨{ w.setU E.FB_STATE 7 3 with ioc := { ports := [(7, {  })] } }, _, 0, 7, { kind := 4 }, _, rfl, ?_, ?_, rfl⟩,
    ⟨{ w.setU E.FB_STATE 7 5 with ioc := { ports := [(7, {  })] } }, _, 0, _, wExec (E.FB_CMD.key + 256 * 7) [1],
      false, run_of ?_, rfl⟩,
    ⟨{ w.setU E.FB_STATE 7 4 with ioc := { ports := [(7, {  })] } }, _, 0, _, wExec (E.FB_CMD.key + 256 * 7) [2],
      false, run_of ?_, rfl, ?_⟩,
    ⟨{ w.setU E.FB_STATE 7 6 with ioc := { ports := [(7, {  })] } }, _, 0, 7, rfl, ?_, ?_⟩,
    ⟨(w.setU E.FB_STATE 7 3).setU E.FB_UNACKED 7 16, _, 0, 7, rfl, ?_, ?_, ?_⟩,
    ⟨{ (w.setU E.FB_STATE 7 4).setU (E.TX_CONFIG.up 5) 7 (2 ^ 63) with ioc := { ports := [(7, { probeNow := true })], tx := [(1797, { pending := some [] })] } },
      _, 0, 7, 1797, rfl, ?_, ?_, ?_, ?_, ?_, ?_⟩,
    ⟨w.setU (E.RX_CONFIG.up 255) 7 (2 ^ 63 + 2 ^ 32), _, 0, 2047, rfl, ?_, ?_, ?_, ?_, ?_⟩,
    ⟨{ w.setU E.FB_STATE 7 2 with ioc := { ports := [(7, { suppressed := true, clearRun := 60000 })] } }, _, 0, 7,
      rfl, ?_, ?_⟩,
    ⟨{ w.setU E.FB_STATE 7 1 with ioc := { ports := [(7, {  })] } }, _, 0, 7, rfl, ?_, ?_⟩,
    ⟨{ w.setU E.FB_STATE 7 2 with ioc := { ports := [(7, {  })] } }, _, 0, 7, rfl, ?_, ?_⟩⟩ <;> decide +kernel
theorem witness_PlantActs :
    (∃ (s z : State) (t : Nat), z = s.at t ∧ z.plantOn = true ∧ z.pastSlot 8 = true ∧ z.plant.ran ≠ some z.tick) ∧
    (∃ (s z : State) (t b : Nat), z = s.at t ∧ z.plantOn = true ∧ (z.branch b).trend = true ∧
      z.eff E.FLOW_RECOVER_TICKS ≤ (z.branch b).clearRun) ∧
    (∃ (s z : State) (t b : Nat), z = s.at t ∧ z.plantOn = true ∧ ((z.branch b).stop = 1 ∨ (z.branch b).leak = 5) ∧
      z.eff E.FLOW_RECOVER_TICKS ≤ (z.branch b).recoverRun) ∧
    (∃ (s z : State) (t b l : Nat) (mine : List (Nat × Guest)) (left : List Nat), z = s.at t ∧ z.plantOn = true ∧
      (z.branch b).stop = 3 ∧ (z.branch b).lapse = some l ∧ l < z.tick ∧
      ((z.branch b).lifted = [] ∨ (z.branch b).liftTick + z.eff E.PLANT_LIFT_GAP ≤ z.tick) ∧
      mine = (z.presents.filter fun p => p.2.pp.branch == b) ∧
      left = ((List.range 256).filter fun c => (mine.any fun p => p.2.pp.cls == c) && !(z.branch b).lifted.contains c)) ∧
    (∃ (s z : State) (t : Nat), z = s.at t ∧ z.plantOn = true) ∧
    (∃ (s z : State) (t b c : Nat), z = s.at t ∧ z.plantOn = true ∧ b < 40 ∧
      (z.rowInForce (scopeBranch b) z.tick = none ∨ (∃ r, z.rowInForce (scopeBranch b) z.tick = some r ∧
      r.tick + r.hold ≤ z.tick + 1 ∧ r.tick ≠ z.tick)) ∧ (∀ r ∈ z.desk.rowOut, r.scope ≠ scopeBranch b) ∧
      z.linkUp = true ∧ z.port.sending = true ∧ z.plantCeil b = some c) ∧
    (∃ (s z : State) (t r : Nat) (x : RopeIn), z = s.at t ∧ r < 16 ∧ z.fwRuns = true ∧
      z.wheel.idx % max 1 (z.ticksPerTurn / 8) = 0 ∧ z.plant.ropeAt.get r ≠ some z.tick ∧ z.getU E.ROPE_ENABLE r = 0) ∧
    (∃ (s z : State) (t r run : Nat) (x : RopeIn), z = s.at t ∧ r < 16 ∧ z.fwRuns = true ∧
      z.wheel.idx % max 1 (z.ticksPerTurn / 8) = 0 ∧ z.plant.ropeAt.get r ≠ some z.tick ∧ z.getU E.ROPE_ENABLE r ≠ 0 ∧
      run = (if x.kohm < z.getU E.ROPE_WET_KOHM r then z.plant.ropeWet.getD r 0 + 1 else 0)) ∧
    (∃ (s z : State) (t b c : Nat), z = s.at t ∧ z.plantOn = true ∧ b < 40 ∧ (z.branch b).leak = 1 ∧
      (z.branch b).leakTick + z.eff E.LEAK_CLOSE_MAX ≤ z.tick ∧ z.isoChannel b = some c) ∧
    (∃ (s z : State) (t b f c : Nat), z = s.at t ∧ (z.branch b).oppositeFrom = some f ∧ z.isoChannel b = some c ∧
      z.plantOn = true ∧ (z.branch b).leak = 2 ∧ f + z.getU E.SEAT_WINDOW_MS c * ms ≤ z.now) ∧
    (∃ (s a : State) (t i : Nat) (rx : Rx) (live : Bool), (s.at t).screen rx brCmdEndIsolationService = .run live a ∧
      i = (Req.parse rx).index - E.BR_CMD.key / 256 ∧ (a.branch i).leak ≠ 0) ∧
    (∃ (s a : State) (t i : Nat) (rx : Rx) (live : Bool), (s.at t).screen rx brCmdDeclareLeakService = .run live a ∧
      i = (Req.parse rx).index - E.BR_CMD.key / 256) := by
  refine ⟨
    ⟨w, _, 0, rfl, ?_, ?_, ?_⟩,
    ⟨{ w with plant := { branches := [(39, { trend := true, clearRun := 60000 })] } }, _, 0, 39, rfl, ?_, ?_, ?_⟩,
    ⟨{ w with plant := { branches := [(39, { stop := 1, recoverRun := 60000 })] } }, _, 0, 39, rfl, ?_, ?_, ?_⟩,
    ⟨{ wg wGuest with plant := { branches := [(0, { stop := 3, lapse := some 5 })] } }, _, 0, 0, 5, _, _, rfl, ?_, ?_,
      ?_, ?_, ?_, rfl, rfl⟩,
    ⟨w, _, 0, rfl, ?_⟩,
    ⟨{ w with plant := { branches := [(39, { off := true })] } }, _, 0, 39, 0, rfl, ?_, ?_, Or.inl ?_, ?_, ?_, ?_, ?_⟩,
    ⟨w, _, 0, 15, {}, rfl, ?_, ?_, ?_, ?_, ?_⟩,
    ⟨w.setU E.ROPE_ENABLE 15 1, _, 0, 15, _, {}, rfl, ?_, ?_, ?_, ?_, ?_, rfl⟩,
    ⟨{ ((w.setU E.BR_ISO_VALVE 39 5).setU E.VALVE_OUTPUT 47 5) with plant := { branches := [(39, { leak := 1 })] } },
      _, 0, 39, 47, rfl, ?_, ?_, ?_, ?_, ?_⟩,
    ⟨{ ((w.setU E.BR_ISO_VALVE 39 5).setU E.VALVE_OUTPUT 47 5) with plant := { branches := [(39, { leak := 2, oppositeFrom := some 0 })] } },
      _, 0, 39, 0, 47, rfl, ?_, ?_, ?_, ?_, ?_⟩,
    ⟨{ w with plant := { branches := [(39, { leak := 3 })] } }, _, 0, _, wExec (E.BR_CMD.key + 256 * 39) [1], false,
      run_of ?_, rfl, ?_⟩,
    ⟨w, _, 0, _, wExec (E.BR_CMD.key + 256 * 39) [2], false, run_of ?_, rfl⟩⟩ <;> decide +kernel
theorem witness_PumpsTurn :
    (∃ (s z : State) (t k j i : Nat), z = s.at t ∧ i = 3 * k + j ∧ z.plantOn = true ∧ k < 8 ∧ j < 3 ∧
      (z.pump i).starting ≠ none ∧ (z.pump i).startedAt + z.getU E.PS_START_MS k * ms ≤ z.now) ∧
    (∃ (s z : State) (t k j i f : Nat), z = s.at t ∧ i = 3 * k + j ∧ (z.pump i).faultClearFrom = some f ∧
      z.plantOn = true ∧ z.getU E.PUMP_ROLE i = 3 ∧ f + z.ticksPerTurn ≤ z.tick) ∧
    (∃ (s z : State) (t k f : Nat), z = s.at t ∧ (z.pumpSet k).rebind = some f ∧ z.plantOn = true ∧ f < z.tick) ∧
    (∃ (s z : State) (t k i : Nat), z = s.at t ∧ z.plantOn = true ∧ k < 8 ∧ (z.pumpSet k).isOn = true ∧
      ((z.pumpSet k).ordered = true ∨ (z.getU E.PS_ROTATE_TURNS k ≠ 0 ∧
      (z.pumpSet k).lastRotation + z.getU E.PS_ROTATE_TURNS k ≤ z.turn)) ∧ (∀ b ∈ z.branchesOf k,
      (z.branch b).trend = false ∧ (z.branch b).stop ≠ 1 ∧ (z.branch b).leak = 0) ∧ (∀ j ∈ z.pumpsOf k,
      z.getU E.PUMP_ROLE j ≠ 3 ∧ (z.pump j).starting = none) ∧ (z.pumpSet k).rotating = none ∧
      maxBy (fun j => z.turn - (z.pump j).lastRan) (z.standbys k) = some i) ∧
    (∃ (s a : State) (t i : Nat) (rx : Rx) (live : Bool), (s.at t).screen rx psCmdService = .run live a ∧
      i = (Req.parse rx).index - E.PS_CMD.key / 256) := by
  refine ⟨
    ⟨{ w with plant := { pumps := [(23, { starting := some 5 })] } }, _, 0, 7, 2, 23, rfl, ?_, ?_, ?_, ?_, ?_, ?_⟩,
    ⟨{ w.setU E.PUMP_ROLE 23 3 with plant := { pumps := [(23, { faultClearFrom := some 5 })] } }, _, 0, 7, 2, 23, 5,
      rfl, ?_, ?_, ?_, ?_, ?_⟩,
    ⟨{ w with plant := { sets := [(7, { rebind := some 5 })] } }, _, 0, 7, 5, rfl, ?_, ?_, ?_⟩,
    ⟨{ (w.setU E.PS_PUMPS 7 3).setU E.PUMP_ROLE 23 2 with plant := { sets := [(7, { isOn := true, ordered := true })] } },
      _, 0, 7, 21, rfl, ?_, ?_, ?_, ?_, ?_, ?_, ?_, ?_⟩,
    ⟨w, _, 0, _, wExec (E.PS_CMD.key + 256 * 7) [1], false, run_of ?_, rfl⟩⟩ <;> decide +kernel
theorem witness_RecorderWrites :
    (∃ (s z : State) (t pos : Nat) (x : Staged) (rest : List Staged), z = s.at t ∧ z.recorder.running = true ∧
      z.recorder.lastCommit + 125000 ≤ z.now ∧ z.recorder.staged = x :: rest ∧ z.recorder.stopped = false ∧
      z.recorder.logLost = false ∧ pos = (if x.isNew = true then z.get E.LOG_NEXT else x.cond.pos) ∧
      (x.isNew = true → pos < 16777216) ∧ (∀ f ∈ z.recorder.failing, f.1 ≠ pageOf pos)) ∧
    (∃ (s z : State) (t pos : Nat) (x : Staged) (rest : List Staged), z = s.at t ∧ z.recorder.running = true ∧
      z.recorder.lastCommit + 125000 ≤ z.now ∧ z.recorder.staged = x :: rest ∧ z.recorder.stopped = false ∧
      z.recorder.logLost = false ∧ pos = (if x.isNew = true then z.get E.LOG_NEXT else x.cond.pos) ∧
      (x.isNew = true → pos < 16777216) ∧ (∀ f ∈ z.recorder.failing, f.1 ≠ pageOf pos)) ∧
    (∃ (s z : State) (t : Nat), z = s.at t ∧ z.recorder.running = true ∧ z.recorder.staged = [] ∧ 0 < z.recorder.lost) ∧
    (∃ (s z : State) (t page at_ : Nat) (damaged : List Nat), z = s.at t ∧ (page, at_) ∈ z.recorder.failing ∧
      at_ < z.tick ∧ z.get E.LOG_SPARE_PAGES = 0) ∧
    (∃ (s z : State) (t page at_ : Nat) (damaged : List Nat), z = s.at t ∧ (page, at_) ∈ z.recorder.failing ∧
      at_ < z.tick ∧ z.get E.LOG_SPARE_PAGES ≠ 0) ∧
    (∃ (s z : State) (t : Nat), z = s.at t ∧ z.recorder.clearing ≠ 0) ∧
    (∃ (s a : State) (t : Nat) (rx : Rx) (live : Bool) (b : Bytes), (s.at t).screen rx histSetService = .run live a ∧
      b = (Req.parse rx).value) ∧
    (∃ (s a : State) (t : Nat) (rx : Rx) (live : Bool), (s.at t).screen rx recCmdClearLogService = .run live a) ∧
    (∃ (s a : State) (t : Nat) (rx : Rx) (live : Bool), (s.at t).screen rx recCmdClearHistogramsService = .run live a) ∧
    (∃ (s a : State) (t : Nat) (rx : Rx) (live : Bool),
      (s.at t).screen rx recCmdClearGuestHistoryService = .run live a) ∧
    (∃ (s a : State) (t : Nat) (rx : Rx) (live : Bool),
      (s.at t).screen rx recCmdClearDieRainflowService = .run live a) ∧
    (∃ (s a : State) (t : Nat) (rx : Rx) (live : Bool),
      (s.at t).screen rx recCmdClearFramLastgaspService = .run live a) := by
  refine ⟨
    ⟨{ w with recorder := { running := true, staged := [⟨{}, true, 0⟩] } }, _, 0, _, ⟨{}, true, 0⟩, [], rfl, ?_, ?_,
      ?_, ?_, ?_, rfl, ?_, ?_⟩,
    ⟨{ w with recorder := { running := true, staged := [⟨{}, true, 0⟩] } }, _, 0, _, ⟨{}, true, 0⟩, [], rfl, ?_, ?_,
      ?_, ?_, ?_, rfl, ?_, ?_⟩,
    ⟨{ w with recorder := { running := true, lost := 1 } }, _, 0, rfl, ?_, ?_, ?_⟩,
    ⟨{ w.set E.LOG_SPARE_PAGES 0 with recorder := { failing := [(3, 999999)] } }, _, 0, 3, 999999, [], rfl, ?_, ?_,
      ?_⟩,
    ⟨{ w.set E.LOG_SPARE_PAGES 1 with recorder := { failing := [(3, 999999)] } }, _, 0, 3, 999999, [], rfl, ?_, ?_,
      ?_⟩,
    ⟨{ w with recorder := { running := true, clearing := 1 } }, _, 0, rfl, ?_⟩,
    ⟨w, _, 0, wExec E.HIST_SET.key ([0, 0, 0, 0, 0, 0, 0, 0] ++ beBytes 4 0 ++ beBytes 4 0x3F800000), false, _,
      run_of ?_, rfl⟩,
    ⟨ws, _, 0, wsExec E.REC_CMD.key [1], true,
      ws_runs (x := wSes) ?_ ?_ (by rfl) (by rfl) (by rfl) (by rfl) ?_ (by rfl) (by rfl) (by rfl) (by rfl) ?_ ?_ ?_⟩,
    ⟨ws, _, 0, wsExec E.REC_CMD.key [2], true,
      ws_runs (x := wSes) ?_ ?_ (by rfl) (by rfl) (by rfl) (by rfl) ?_ (by rfl) (by rfl) (by rfl) (by rfl) ?_ ?_ ?_⟩,
    ⟨ws, _, 0, wsExec E.REC_CMD.key [3], true,
      ws_runs (x := wSes) ?_ ?_ (by rfl) (by rfl) (by rfl) (by rfl) ?_ (by rfl) (by rfl) (by rfl) (by rfl) ?_ ?_ ?_⟩,
    ⟨ws, _, 0, wsExec E.REC_CMD.key [4], true,
      ws_runs (x := wSes) ?_ ?_ (by rfl) (by rfl) (by rfl) (by rfl) ?_ (by rfl) (by rfl) (by rfl) (by rfl) ?_ ?_ ?_⟩,
    ⟨ws, _, 0, wsExec E.REC_CMD.key [5], true,
      ws_runs (x := wSes) ?_ ?_ (by rfl) (by rfl) (by rfl) (by rfl) ?_ (by rfl) (by rfl) (by rfl) (by rfl) ?_ ?_ ?_⟩⟩ <;> decide +kernel
theorem witness_PowerAndFuses :
    (∃ (s z : State) (t : Nat), z = s.at t ∧ z.elec.power = 1) ∧
    (∃ (s z : State) (t : Nat), z = s.at t ∧ z.elec.power = 2) ∧
    (∃ (s a : State) (t : Nat) (rx : Rx) (live : Bool), (s.at t).screen rx startCmdService = .run live a) ∧
    (∃ (s a : State) (t : Nat) (rx : Rx) (live : Bool), (s.at t).screen rx actCmdService = .run live a) ∧
    (∃ (s a : State) (t : Nat) (rx : Rx) (live : Bool), (s.at t).screen rx fuseSecRaiseService = .run live a) ∧
    (∃ (s a : State) (t : Nat) (rx : Rx) (live : Bool), (s.at t).screen rx fuseKeyRevokeService = .run live a) := by
  refine ⟨
    ⟨w, _, 0, rfl, ?_⟩,
    ⟨{ w with elec := { power := 2 } }, _, 0, rfl, ?_⟩,
    ⟨ws, _, 0, wsExec E.START_CMD.key [1], true,
      ws_runs (x := wSes) ?_ ?_ (by rfl) (by rfl) (by rfl) (by rfl) ?_ (by rfl) (by rfl) (by rfl) (by rfl) ?_ ?_ ?_⟩,
    ⟨w.set E.ACT_FUSE_STATE 2, _, 0, wExec E.ACT_CMD.key [1], false, run_of ?_⟩,
    ⟨ws.set E.FW_SEC_VERSION 3, _, 0, wsExec E.FUSE_SEC_RAISE.key [1], true,
      ws_runs (x := wSes) ?_ ?_ (by rfl) (by rfl) (by rfl) (by rfl) ?_ (by rfl) (by rfl) (by rfl) (by rfl) ?_ ?_ ?_⟩,
    ⟨ws.set E.FW_KEY_SLOT 1, _, 0, wsExec E.FUSE_KEY_REVOKE.key [1], true,
      ws_runs (x := wSes) ?_ ?_ (by rfl) (by rfl) (by rfl) (by rfl) ?_ (by rfl) (by rfl) (by rfl) (by rfl) ?_ ?_ ?_⟩⟩ <;> decide +kernel
theorem witness_TestsAndSpares :
    (∃ (s z : State) (t row sig : Nat), z = s.at t ∧ z.fwRuns = true ∧ row < 674 ∧ (z.unit row).role = 3 ∧
      (z.unit row).testFrom ≠ none) ∧
    (∃ (s z : State) (t row f : Nat), z = s.at t ∧ z.fwRuns = true ∧ row < 674 ∧ (z.unit row).role = 3 ∧
      (z.unit row).outcome = none ∧ (z.unit row).testFrom = some f ∧ f + 2 * bistTime (kindOf row) ≤ z.now) ∧
    (∃ (s z : State) (t row k : Nat), z = s.at t ∧ z.fwRuns = true ∧ row < 674 ∧ (z.unit row).role = 3 ∧
      (z.unit row).outcome = some (0, k) ∧ k < z.tick ∧ (kindOf row ≠ 15 ∨ z.wear.waiting = [])) ∧
    (∃ (s z : State) (t row k o : Nat), z = s.at t ∧ z.fwRuns = true ∧ row < 674 ∧ (z.unit row).role = 3 ∧
      (z.unit row).outcome = some (o, k) ∧ o ≠ 0 ∧ k < z.tick ∧ (kindOf row ≠ 15 ∨ z.wear.waiting = [])) ∧
    (∃ (s z : State) (t kind r : Nat), z = s.at t ∧ z.fwRuns = true ∧ z.inRest = false ∧ z.wheel.idx = 0 ∧ kind ≠ 12 ∧
      kind ≠ 16 ∧ z.spareInTest (kindRows kind) = false ∧
      minBy (fun r => (z.unit r).lastPass) ((kindRows kind).filter fun r => (z.unit r).role == 1 && (z.unit r).tested && decide ((z.unit r).lastPass + z.effU E.SPARE_RETEST_TURNS kind < z.turn)) = some r) ∧
    (∃ (s z : State) (t kind o i : Nat), z = s.at t ∧ z.fwRuns = true ∧ z.get E.WHEEL_STATE ≠ 0 ∧ z.wheel.idx = 0 ∧
      (kind = 3 ∨ kind = 15) ∧ z.wear.lastPlanned.getD kind 0 + z.effU E.PLANNED_TEST_TURNS kind ≤ z.turn ∧
      z.wear.plannedTried.get kind ≠ some z.turn ∧ z.inRest = false ∧ z.plannedOut kind = some o ∧
      z.longestSpare (kindRows kind) = some i ∧ (z.unit o).role = 0 ∧ (z.unit i).role = 1) ∧
    (∃ (s z : State) (t o i : Nat), z = s.at t ∧ z.fwRuns = true ∧ z.get E.WHEEL_STATE ≠ 0 ∧ z.wheel.idx = 0 ∧
      z.wear.lastPlanned.getD 6 0 + z.effU E.PLANNED_TEST_TURNS 6 ≤ z.turn ∧ z.wear.plannedTried.get 6 ≠ some z.turn ∧
      z.inRest = false ∧ z.plannedOut 6 = some o ∧ z.longestSpare (kindRows 6) = some i) ∧
    (∃ (s z : State) (t keeper row : Nat), z = s.at t ∧ row = kindRow 15 + keeper ∧ z.fwRuns = true ∧ keeper < 18 ∧
      ((z.unit row).role = 0 ∨ (z.unit row).role = 1)) ∧
    (∃ (s z : State) (t keeper row : Nat), z = s.at t ∧ row = kindRow 15 + keeper ∧ z.fwRuns = true ∧ keeper < 18 ∧
      (z.unit row).role = 3) ∧
    (∃ (s z : State) (t ch f row a : Nat), z = s.at t ∧ ch < 80 ∧ (z.ain ch).fenceTick = some f ∧ f < z.tick ∧
      z.bestSpare (kindRows 8) = some row ∧ a = row - kindRow 8 ∧ ch ≠ a) ∧
    (∃ (s z : State) (t ch f : Nat), z = s.at t ∧ ch < 80 ∧ (z.ain ch).fenceTick = some f ∧ f < z.tick ∧
      z.bestSpare (kindRows 8) = none ∧ z.spareInTest (kindRows 8) = false) ∧
    (∃ (s z : State) (t ch term from_ : Nat), z = s.at t ∧ (z.ain ch).switching = some (term, from_)) := by
  refine ⟨
    ⟨{ w with wear := { units := [(673, { role := 3, testFrom := some 0 })] } }, _, 0, 673, 0, rfl, ?_, ?_, ?_, ?_⟩,
    ⟨{ w with wear := { units := [(673, { role := 3, testFrom := some 0 })] } }, _, 0, 673, 0, rfl, ?_, ?_, ?_, ?_,
      ?_, ?_⟩,
    ⟨{ w with wear := { units := [(673, { role := 3, outcome := some (0, 999999) })] } }, _, 0, 673, 999999, rfl, ?_,
      ?_, ?_, ?_, ?_, ?_⟩,
    ⟨{ w with wear := { units := [(161, { role := 3, outcome := some (4, 999999) })] } }, _, 0, 161, 999999, 4, rfl,
      ?_, ?_, ?_, ?_, ?_, ?_, ?_⟩,
    ⟨w, _, 0, 2, 32, rfl, ?_, ?_, ?_, ?_, ?_, ?_, ?_⟩,
    ⟨w, _, 0, 15, 144, 160, rfl, ?_, ?_, ?_, ?_, ?_, ?_, ?_, ?_, ?_, ?_, ?_⟩,
    ⟨w, _, 0, 502, 507, rfl, ?_, ?_, ?_, ?_, ?_, ?_, ?_, ?_⟩,
    ⟨w, _, 0, 17, _, rfl, rfl, ?_, ?_, ?_⟩,
    ⟨{ w with wear := { units := [(161, { role := 3 })] } }, _, 0, 17, 161, rfl, rfl, ?_, ?_, ?_⟩,
    ⟨{ w with plant := { ains := [(63, { fenceTick := some 5 })] } }, _, 0, 63, 5, kindRow 8 + 64, _, rfl, ?_, ?_, ?_,
      ?_, rfl, ?_⟩,
    ⟨{ w with plant := { ains := [(63, { fenceTick := some 5 })] }, wear := { units := (List.range 16).map fun i => (658 + i, { role := 4 }) } },
      _, 0, 63, 5, rfl, ?_, ?_, ?_, ?_, ?_⟩,
    ⟨{ w with plant := { ains := [(63, { switching := some (5, 0) })] } }, _, 0, 63, 5, 0, rfl, ?_⟩⟩ <;> decide +kernel

/-- A request of version 2. -/
def wV2 : Rx := ⟨9, 9, 49202, [2, 1] ++ List.replicate 14 0⟩
/-- `w` with bit 0 of `WHEEL_LATCHES` set in the tick in progress. -/
def wLatched : State := { w.set E.WHEEL_LATCHES 1 with latched := [(E.WHEEL_LATCHES.key, 0)] }

theorem witness_StepKeepsBounds : ∃ s t : State, State.safe s = true ∧ step s = .next t :=
  ⟨State.reset, _, by decide +kernel, rfl⟩
theorem witness_OtherVersionIsRefused : ∃ (s : State) (rx : Rx) (v : Service), s.fwRuns = true ∧
    rx.dport = s.eff E.UDP_PORT_DICT ∧ 16 ≤ rx.bytes.length ∧ v.mine (Req.parse rx) s = true ∧
    (Req.parse rx).version ≠ 1 ∧ ReplyRoom s :=
  ⟨w, wV2, readService, by decide +kernel, by decide +kernel, by decide +kernel, by decide +kernel, by decide +kernel,
    by rfl, by decide +kernel⟩
theorem witness_SetWinsOverClear :
    (∃ (s a : State) (t w k b : Nat) (rx : Rx) (live : Bool) (r : Row),
      (s.at t).screen rx latchClearService = .run live a ∧ (Req.parse rx).entry = some (r, w) ∧
      k = (Req.parse rx).sub - r.ent.key % 256 ∧ (ReplyRoom a ∨ r.ent.key + k + 256 * w ∉ countKeys) ∧
      (r.ent.key + k + 256 * w, b) ∈ a.latched ∧ (a.getU ⟨r.ent.key + k, r.ent.dflt⟩ w).testBit b = true) ∧
    (∃ (e : Ent) (u : Nat), e.key + 256 * u ∉ countKeys) :=
  ⟨⟨wLatched, _, 0, _, _, 0, wWrite E.WHEEL_LATCHES.key 1, false, _, run_of (by decide +kernel), entry_of (by decide +kernel),
    rfl, Or.inr (by decide +kernel), by decide +kernel, by decide +kernel⟩, ⟨E.PORT_LATCHES, 0, by decide +kernel⟩⟩
theorem witness_OpenOperandsYieldOpen : ∃ x y : Br, (x.isOpen = true ∨ y.isOpen = true) ∧ x.isOpen = true :=
  ⟨Br.opened, Br.opened, Or.inl (by decide +kernel), by decide +kernel⟩
theorem witness_FractionRoundsDown : ∃ (s : State) (x : Nat), s.wheel.tickStart ≤ x ∧ x < s.wheel.tickStart + s.wheel.tickLen :=
  ⟨w, w.wheel.tickStart + 999999999, by decide +kernel, by decide +kernel⟩
theorem witness_EntriesKeepTheirValues :
    (∃ (e f : Ent) (u w : Nat), f.key + 256 * w ≠ e.key + 256 * u) ∧
    (∃ (e f : Ent) (u w : Nat), e.key + 256 * u ∉ countKeys ∧ f.key + 256 * w ≠ e.key + 256 * u
      ∧ f.key + 256 * w ∉ countKeys) :=
  ⟨⟨E.KEY_STATE, E.KEY_STATE, 0, 1, by decide +kernel⟩,
    ⟨E.PORT_LATCHES, E.WHEEL_LATCHES, 0, 0, by decide +kernel, by decide +kernel, by decide +kernel⟩⟩
theorem witness_PlainRequestRuns : ∃ (s : State) (rx : Rx) (v : Service) (q : Req), q = Req.parse rx ∧ s.fwRuns = true ∧
    rx.dport = s.eff E.UDP_PORT_DICT ∧ 16 ≤ rx.bytes.length ∧ v.mine q s = true ∧ q.version = 1 ∧ q.session = 0 ∧
    q.op ≠ 8 ∧ q.op ≠ 9 ∧ (∀ c ∈ s.dict.cache, c.keyIs q = false) ∧ q.length = q.body.length ∧
    rx.bytes.length = 16 + q.body.length + (if q.tagged then 16 else 0) ∧ v.codes q false (s.heard rx) = [] :=
  ⟨w, wRx 1 (wEnt E.STANCE.key 0 []), readService, _, rfl, by decide +kernel, by decide +kernel, by decide +kernel,
    by decide +kernel, by decide +kernel, by decide +kernel, by decide +kernel, by decide +kernel, by decide +kernel,
    by decide +kernel, by decide +kernel, by decide +kernel⟩
theorem witness_RefusedRequestChangesNothing : ∃ (s : State) (rx : Rx) (v : Service) (q : Req) (c : Nat),
    q = Req.parse rx ∧ s.fwRuns = true ∧ rx.dport = s.eff E.UDP_PORT_DICT ∧ 16 ≤ rx.bytes.length ∧ v.mine q s = true ∧
    q.version = 1 ∧ q.session = 0 ∧ q.op ≠ 8 ∧ q.op ≠ 9 ∧ (∀ x ∈ s.dict.cache, x.keyIs q = false) ∧
    q.length = q.body.length ∧ rx.bytes.length = 16 + q.body.length + (if q.tagged then 16 else 0) ∧
    lowestCode (v.codes q false (s.heard rx)) = some c ∧ ReplyRoom s :=
  ⟨w, wRx 1 [0xFF, 0xFF, 1, 0], readService, _, St.unknownIndex, rfl, by decide +kernel, by decide +kernel, by decide +kernel,
    by decide +kernel, by decide +kernel, by decide +kernel, by decide +kernel, by decide +kernel, by decide +kernel,
    by decide +kernel, by decide +kernel, by decide +kernel, by rfl, by decide +kernel⟩

end Witnesses

end Sys2Proof.Tests
end

section
/-! PROOFS. The statements of spec/00_scope.md: entries and their latches (R9 to R11) and the single transactions of the
dictionary (R106, R110, R111, R134). The rules of the shared operations come first, in the order of the definitions they
speak of; the obligations are assembled from them at the end. -/

namespace Sys2Proof.Machine

open Sys2Proof

/-! ### Single bits -/

/-- Adding a bit that is clear carries into no other bit. -/
theorem testBit_add_two_pow {v i : Nat} (h : v.testBit i = false) (j : Nat) :
    (v + 2 ^ i).testBit j = (decide (j = i) || v.testBit j) := by
  rcases Nat.lt_trichotomy j i with hj | rfl | hj
  · rw [Nat.add_comm, Nat.testBit_two_pow_add_gt hj]
    simp [Nat.ne_of_lt hj]
  · rw [Nat.add_comm, Nat.testBit_two_pow_add_eq, h]
    simp
  · obtain ⟨m, rfl⟩ := Nat.exists_eq_add_of_le' hj
    have even : v / 2 ^ i % 2 ≠ 1 := by simpa [Nat.testBit_eq_decide_div_mod_eq] using h
    have high : (v + 2 ^ i) / 2 ^ (i + 1) = v / 2 ^ (i + 1) := by
      rw [Nat.pow_succ, ← Nat.div_div_eq_div_mul, ← Nat.div_div_eq_div_mul,
        Nat.add_div_right _ (Nat.two_pow_pos i)]
      omega
    rw [Nat.testBit_add, high, ← Nat.testBit_add]
    simp [Nat.ne_of_gt hj]

@[simp] theorem testBit_setBit (v i j : Nat) : (setBit v i).testBit j = (decide (j = i) || v.testBit j) := by
  unfold setBit
  split
  next h =>
    by_cases hj : j = i
    · simp [hj, h]
    · simp [hj]
  next h => exact testBit_add_two_pow (by simpa using h) j

@[simp] theorem testBit_clrBit (v i j : Nat) : (clrBit v i).testBit j = (!decide (j = i) && v.testBit j) := by
  unfold clrBit
  split
  next h =>
    obtain ⟨u, rfl⟩ := Nat.exists_eq_add_of_le' (Nat.ge_two_pow_of_testBit h)
    have clear : u.testBit i = false := by
      rw [Nat.add_comm, Nat.testBit_two_pow_add_eq] at h
      simpa using h
    rw [Nat.add_sub_cancel, testBit_add_two_pow clear]
    by_cases hj : j = i
    · simp [hj, clear]
    · simp [hj]
  next h =>
    by_cases hj : j = i
    · simpa [hj] using h
    · simp [hj]

@[simp] theorem testBit_w1c (v w j : Nat) : (w1c v w).testBit j = (v.testBit j && !w.testBit j) := by
  rw [w1c, Nat.testBit_and, Nat.testBit_xor]
  cases v.testBit j <;> simp

theorem testBit_foldl_clrBit (l : List (Nat × Nat)) (v j : Nat) :
    (l.foldl (fun v p => clrBit v p.2) v).testBit j = (l.all (fun p => p.2 != j) && v.testBit j) := by
  induction l generalizing v with
  | nil => simp
  | cons p l ih =>
    have keep : (p.2 != j) = !decide (j = p.2) := by
      rw [Bool.eq_iff_iff, bne_iff_ne, Bool.not_eq_true', decide_eq_false_iff_not, ne_comm]
    rw [List.foldl_cons, ih, testBit_clrBit, List.all_cons, keep, Bool.and_left_comm, Bool.and_assoc]

/-- R11: a bit whose event came in this tick is none that a write of ones clears. -/
theorem State.testBit_clearable_of_latched {s : State} {key b : Nat} (h : (key, b) ∈ s.latched) (e : Ent) (v : Nat) :
    (s.clearable e key v).testBit b = false := by
  unfold State.clearable
  rw [testBit_foldl_clrBit, Bool.and_eq_false_iff]
  refine Or.inl (List.all_eq_false.2 ⟨(key, b), List.mem_filter.2 ⟨h, ?_⟩, ?_⟩) <;> simp

/-! ### Latch events (R9) -/

/-- The entries that staging a record writes are among those that a dropped reply counts in. -/
theorem logKeys_subset_countKeys : logKeys ⊆ countKeys := by decide

theorem not_mem_logKeys {k : Nat} (h : k ∉ countKeys) : k ∉ logKeys := fun hk => h (logKeys_subset_countKeys hk)

theorem State.testBit_latchU_same (s : State) (e : Ent) (u b key j : Nat) (h : e.key + 256 * u ∉ countKeys) :
    ((s.latchU e u b key).getU e u).testBit j = (decide (j = b) || (s.getU e u).testBit j) := by
  rw [State.getU_latchU_same s e u b key (not_mem_logKeys h), testBit_setBit]

/-! ### Replies (R93, R105, R111) -/

theorem replyRoom_congr {s t : State} (h : ReplyRoom s) (hp : t.port = s.port) : ReplyRoom t := by
  unfold ReplyRoom State.linkUp at *
  rwa [hp]

/-- Where class 4 has room, a reply is queued and nothing else changes. -/
theorem State.sendReply_of_room {s : State} (h : ReplyRoom s) (dst dport : Nat) (bytes : Bytes) :
    s.sendReply dst dport bytes = { s with port := { s.port with egress := s.port.egress ++
      [{ cls := 4, dst := dst, sport := s.eff E.UDP_PORT_DICT, dport := dport, tag := 1, bytes := bytes }] } } := by
  obtain ⟨hup, hroom⟩ := h
  simp [State.sendReply, State.send, Port.room, hup, hroom]

/-- An answer changes the reply cache and sends the reply. -/
theorem State.answer_shape (s : State) (q : Req) (a : Ans) : ∃ cache,
    s.answer q a = ({ s with dict := { s.dict with cache := cache } } : State).sendReply q.rx.src q.rx.sport
      (replyBytes q.op q.seq 0 a) := by
  unfold State.answer
  split
  next => exact ⟨s.dict.cache, rfl⟩
  next => exact ⟨_, rfl⟩

theorem State.answer_regs_of_room {s : State} (h : ReplyRoom s) (q : Req) (a : Ans) : (s.answer q a).regs = s.regs := by
  obtain ⟨cache, ha⟩ := State.answer_shape s q a
  rw [ha, State.sendReply_of_room]
  exact replyRoom_congr h rfl

theorem State.answer_egress_of_room {s : State} (h : ReplyRoom s) (q : Req) (a : Ans) :
    ∃ d, (s.answer q a).port.egress = s.port.egress ++ [d] ∧ d.dst = q.rx.src ∧ d.dport = q.rx.sport
      ∧ d.bytes = replyBytes q.op q.seq 0 a := by
  obtain ⟨cache, ha⟩ := State.answer_shape s q a
  rw [ha, State.sendReply_of_room]
  · exact ⟨_, rfl, rfl, rfl, rfl⟩
  · exact replyRoom_congr h rfl

/-- A datagram of a class above 2 counts nothing, whether it is queued or not (R93). -/
theorem State.send_regs {s : State} {d : Dgram} (h : 2 < d.cls) : (s.send d).regs = s.regs := by
  unfold State.send
  split
  next => rfl
  next =>
    split
    next => rfl
    next => rw [if_neg (by omega)]

/-- A reply, sent or dropped, leaves every entry alone but those that count its loss. -/
theorem State.getD_sendReply (s : State) (dst dport : Nat) (bytes : Bytes) {k : Nat} (h : k ∉ countKeys) (d : Nat) :
    (s.sendReply dst dport bytes).regs.getD k d = s.regs.getD k d := by
  have drop : k ≠ E.DROP_EGRESS.key := fun e => h (by simp [countKeys, e])
  have latches : k ≠ E.DICT_LATCHES.key := fun e => h (by simp [countKeys, e])
  unfold State.sendReply
  dsimp only
  split
  next =>
    rw [State.latch, State.getD_latchU _ _ _ _ _ (not_mem_logKeys h) (by simpa using latches)]
    exact State.getD_set_ne _ _ _ drop d
  next => rw [State.send_regs (show 2 < 4 by decide)]

theorem State.getU_answer (s : State) (q : Req) (a : Ans) (e : Ent) (u : Nat) (h : e.key + 256 * u ∉ countKeys) :
    (s.answer q a).getU e u = s.getU e u := by
  obtain ⟨cache, ha⟩ := State.answer_shape s q a
  rw [ha]
  exact State.getD_sendReply _ _ _ _ h _

theorem State.getU_answer_of_room_or {s : State} {e : Ent} {u : Nat} (h : ReplyRoom s ∨ e.key + 256 * u ∉ countKeys)
    (q : Req) (a : Ans) : (s.answer q a).getU e u = s.getU e u := by
  rcases h with room | count
  · exact State.getU_congr (State.answer_regs_of_room room q a) e u
  · exact State.getU_answer s q a e u count

/-! ### Serving a request (R103 to R111) -/

theorem State.serve_of_run {s a u : State} {rx : Rx} {v : Service} {live : Bool} {ans : Ans}
    (h : s.screen rx v = .run live a) (hr : v.run (Req.parse rx) live a = (some ans, u)) :
    s.serve rx v = u.answer (Req.parse rx) ans := by
  simp [State.serve, h, hr]

theorem State.serve_of_dealt {s u : State} {rx : Rx} {v : Service} (h : s.screen rx v = .dealt u) :
    s.serve rx v = u := by
  simp [State.serve, h]

theorem readService_run {q : Req} {r : Row} {w : Nat} (h : q.entry = some (r, w)) (live : Bool) (s : State) :
    readService.run q live s
      = (some (s.okAns q (slice q.body 0 3 ++ beBytes 1 r.ty.code ++ s.readBytes r w q.sub)), s) := by
  simp [readService, h]

theorem writeService_run {q : Req} {r : Row} {w : Nat} (h : q.entry = some (r, w)) (sel : Row → Bool)
    (run : Row → Nat → Nat → Nat → State → State) (live : Bool) (s : State) :
    (writeService sel run).run q live s
      = (some (s.okAns q (slice q.body 0 3 ++ [0])), run r w (q.sub - r.ent.key % 256) (beNat q.value) s) := by
  simp [writeService, h]

theorem plainWriteService_run {q : Req} {r : Row} {w : Nat} (h : q.entry = some (r, w)) (live : Bool) (s : State) :
    plainWriteService.run q live s = (some (s.okAns q (slice q.body 0 3 ++ [0])),
      (s.store r w (q.sub - r.ent.key % 256) (beNat q.value)).written r.ent w (q.sub - r.ent.key % 256)) := by
  simp [plainWriteService, writeService_run h]

/-! ### Requests outside a session (R103, R104, R109, R111, R130, R134) -/

/-- A request outside a session whose header, length and cache key let it come to the codes of its operation. -/
structure PlainRequest (s : State) (rx : Rx) (v : Service) : Prop where
  running : s.fwRuns = true
  port : rx.dport = s.eff E.UDP_PORT_DICT
  header : 16 ≤ rx.bytes.length
  mine : v.mine (Req.parse rx) s = true
  version : (Req.parse rx).version = 1
  session : (Req.parse rx).session = 0
  not_prove : (Req.parse rx).op ≠ 8
  not_close : (Req.parse rx).op ≠ 9
  not_cached : ∀ c ∈ s.dict.cache, c.keyIs (Req.parse rx) = false
  length : (Req.parse rx).length = (Req.parse rx).body.length
  size : rx.bytes.length = 16 + (Req.parse rx).body.length + (if (Req.parse rx).tagged then 16 else 0)

/-- No session has the number 0. -/
theorem State.session_zero (s : State) : s.session 0 = none := rfl

/-- The codes of its operation alone decide on such a request. -/
theorem PlainRequest.screen {s : State} {rx : Rx} {v : Service} (h : PlainRequest s rx v) :
    s.screen rx v = (lowestCode (v.codes (Req.parse rx) false (s.heard rx))).elim (.run false (s.heard rx)) fun c =>
      .dealt ((s.heard rx).refuse (Req.parse rx) c (v.refused (Req.parse rx) (s.heard rx)) none) := by
  have miss (p : Cached → Bool) : (s.dict.cache.find? fun c => c.keyIs (Req.parse rx) && p c) = none :=
    List.find?_eq_none.2 fun c hc => by simp [h.not_cached c hc]
  have short : ¬ rx.bytes.length < 16 := Nat.not_lt.2 h.header
  unfold State.screen
  simp only [h.running, h.port, short, h.mine, h.version, h.session, State.session_zero, h.not_prove, h.not_close, miss,
    ← h.size, h.length, codeIf]
  cases hc : lowestCode (v.codes (Req.parse rx) false (s.heard rx)) <;> simp [hc]

theorem unknownOpService_screen {s : State} {rx : Rx} (h : PlainRequest s rx unknownOpService) :
    s.screen rx unknownOpService = .dealt ((s.heard rx).refuse (Req.parse rx) St.unknownOp [] none) := h.screen

/-! ### Storing a value (R10, R110) -/

/-- A write that is in force at once stores its value in the entry. -/
theorem State.getU_store {r : Row} (h : deferKind r.ent = none) (s : State) (u k v : Nat) :
    (s.store r u k v).getU ⟨r.ent.key + k, r.ent.dflt⟩ u = storedValue r.ent v := by
  unfold State.store
  simp only [h]
  split
  next => exact State.getU_setU_same s _ u _
  next => exact State.getU_setU_same s _ u _

/-- What a write does beside storing writes no other entry than the ceiling in force, the admission limit and the
validity of the phase (R72, R187, R578). -/
theorem State.getD_written (s : State) (e : Ent) (u k : Nat) {j : Nat} (hceil : j ≠ E.DIE_CEILING_EFFECTIVE.key)
    (hadmit : j ≠ E.ADMIT_LIMIT.key) (hphase : j ≠ E.PHASE_VALID.key + 256 * u) (d : Nat) :
    (s.written e u k).regs.getD j d = s.regs.getD j d := by
  unfold State.written
  split
  next => exact State.getD_set_ne _ _ _ hceil d
  next =>
    split
    next => exact State.getD_set_ne _ _ _ hadmit d
    next =>
      split
      next => exact State.getD_setU_ne _ _ _ _ hphase d
      next => split <;> rfl

/-! ### Values that take effect later (R110) -/

@[simp] theorem State.rxConfigApply_dict (s : State) (k : Nat) : (s.rxConfigApply k).dict = s.dict := rfl

@[simp] theorem State.txConfigApply_dict (s : State) (k old : Nat) : (s.txConfigApply k old).dict = s.dict := by
  unfold State.txConfigApply
  split <;> rfl

@[simp] theorem State.fbModeApply_dict (s : State) (p : Nat) : (s.fbModeApply p).dict = s.dict := by
  unfold State.fbModeApply
  dsimp only
  repeat' split
  all_goals rfl

@[simp] theorem State.restartDetector_dict (s : State) (n : Nat) : (s.restartDetector n).dict = s.dict := rfl

@[simp] theorem State.heldEffect_dict (s : State) (key old : Nat) : (s.heldEffect key old).dict = s.dict := by
  unfold State.heldEffect
  dsimp only
  repeat' split
  all_goals simp

/-- A held value whose boundary has come is held no longer. -/
theorem State.applyHeld_held {s : State} {key old kind due : Nat} (h : s.dict.held.get key = some (old, kind, due))
    (hkind : kind ≤ 1) (hwheel : s.get E.WHEEL_STATE ≠ 0) (hdue : due ≤ if kind = 0 then s.tick else s.turn) :
    (s.applyHeld key).dict.held = s.dict.held.erase key := by
  simp [State.applyHeld, h, hkind, hwheel, hdue]

/-! ### What each command leaves -/

/-- READ (R106, R110): the stored value is answered and no entry changes. -/
theorem read_answers {s a : State} {t w : Nat} {rx : Rx} {live : Bool} {r : Row}
    (hs : (s.at t).screen rx readService = .run live a) (he : (Req.parse rx).entry = some (r, w)) (room : ReplyRoom a) :
    Answers (.read t rx) s fun u =>
      u.regs = a.regs ∧ ∃ d, u.port.egress = a.port.egress ++ [d] ∧ d.dst = rx.src ∧ d.dport = rx.sport
        ∧ d.bytes = replyBytes (Req.parse rx).op (Req.parse rx).seq 0 (a.okAns (Req.parse rx)
            (slice (Req.parse rx).body 0 3 ++ beBytes 1 r.ty.code ++ a.readBytes r w (Req.parse rx).sub)) := by
  refine ⟨_, rfl, ?_⟩
  rw [State.serve_of_run hs (readService_run he live a)]
  exact ⟨State.answer_regs_of_room room _ _, State.answer_egress_of_room room _ _⟩

/-- WRITE (R106, R110): where nothing defers it, the value written stands in the entry. -/
theorem write_stores {s a : State} {t w k : Nat} {rx : Rx} {live : Bool} {r : Row}
    (hs : (s.at t).screen rx plainWriteService = .run live a) (he : (Req.parse rx).entry = some (r, w))
    (hk : k = (Req.parse rx).sub - r.ent.key % 256) (hnow : deferKind r.ent = none)
    (hcount : r.ent.key + k + 256 * w ∉ countKeys) (hceil : r.ent.key + k + 256 * w ≠ E.DIE_CEILING_EFFECTIVE.key)
    (hadmit : r.ent.key + k + 256 * w ≠ E.ADMIT_LIMIT.key)
    (hphase : r.ent.key + k + 256 * w ≠ E.PHASE_VALID.key + 256 * w) :
    Answers (.write t rx) s fun u =>
      u.getU ⟨r.ent.key + k, r.ent.dflt⟩ w = storedValue r.ent (beNat (Req.parse rx).value) := by
  subst hk
  refine ⟨_, rfl, ?_⟩
  rw [State.serve_of_run hs (plainWriteService_run he live a)]
  refine (State.getU_answer _ _ _ _ _ hcount).trans ?_
  exact (State.getD_written _ _ _ _ hceil hadmit hphase _).trans (State.getU_store hnow _ _ _ _)

/-- LATCH_CLEAR (R9, R11): the bits of the entry that the write may clear are cleared. -/
theorem latchClear_clears {s a : State} {t w k : Nat} {rx : Rx} {live : Bool} {r : Row}
    (hs : (s.at t).screen rx latchClearService = .run live a) (he : (Req.parse rx).entry = some (r, w))
    (hk : k = (Req.parse rx).sub - r.ent.key % 256) (hc : ReplyRoom a ∨ r.ent.key + k + 256 * w ∉ countKeys) :
    Answers (.latchClear t rx) s fun u =>
      u.getU ⟨r.ent.key + k, r.ent.dflt⟩ w = w1c (a.getU ⟨r.ent.key + k, r.ent.dflt⟩ w)
        (a.clearable r.ent (r.ent.key + k + 256 * w) (beNat (Req.parse rx).value)) := by
  subst hk
  refine ⟨_, rfl, ?_⟩
  rw [State.serve_of_run hs (writeService_run he _ _ live a)]
  exact (State.getU_answer_of_room_or (hc.imp_left fun room => replyRoom_congr room rfl) _ _).trans (State.getU_setU_same _ _ _ _)

/-- Without a tag the body is all that follows the header. -/
theorem Req.parse_size {rx : Rx} (h : 16 ≤ rx.bytes.length) (ht : (Req.parse rx).tagged = false) :
    rx.bytes.length = 16 + (Req.parse rx).body.length := by
  have even : ¬ field rx.bytes 2 2 % 2 = 1 := by simpa [Req.tagged, Req.parse] using ht
  have body : (Req.parse rx).body.length = rx.bytes.length - 16 := by simp [Req.parse, slice, even, Nat.max_eq_right h]
  omega

/-- UNKNOWN_OP (R106, R134): the request is refused and the refusal counted. -/
theorem unknownOp_refuses {s z : State} {t : Nat} {rx : Rx} (hz : z = s.at t)
    (h : PlainRequest z rx unknownOpService) (room : ReplyRoom z) :
    Answers (.unknownOp t rx) s fun u =>
      u.get E.DICT_REFUSED = (z.get E.DICT_REFUSED + 1) % 2 ^ 64
        ∧ ∃ d, u.port.egress = z.port.egress ++ [d]
            ∧ d.bytes = replyBytes (Req.parse rx).op (Req.parse rx).seq 0 { status := St.unknownOp, session := 0 } := by
  subst hz
  refine ⟨_, rfl, ?_⟩
  rw [State.serve_of_dealt (unknownOpService_screen h), State.refuse, h.session]
  have roomRefused : ReplyRoom (((s.at t).heard rx).inc E.DICT_REFUSED) := room
  constructor
  · rw [State.get_congr (State.answer_regs_of_room roomRefused _ _), State.inc, State.add, State.get_set_same]
    have heard : ((s.at t).heard rx).get E.DICT_REFUSED = (s.at t).get E.DICT_REFUSED :=
      State.get_set_ne _ _ _ _ (by decide)
    rw [heard]
  · obtain ⟨d, hd, _, _, hbytes⟩ := State.answer_egress_of_room roomRefused (Req.parse rx)
      { status := St.unknownOp, body := [], session := 0, key := none }
    exact ⟨d, hd, hbytes⟩

/-- REPLY_CACHE_EXPIRY (R111): what stays is each entry without a reply or of the last 2 s. -/
theorem replyCacheExpiry_keeps (s : State) (t : Nat) :
    Answers (.replyCacheExpiry t) s fun u =>
      ∀ c, c ∈ u.dict.cache ↔ c ∈ (s.at t).dict.cache ∧ (c.reply = none ∨ (s.at t).now < c.at_ + 2 * sec) := by
  refine ⟨_, rfl, fun c => ?_⟩
  simp [List.mem_filter]

end Sys2Proof.Machine

namespace Sys2Proof.Proofs

open Sys2Proof Sys2Proof.Machine

/-- Settles O8: a bit latched in this tick is not among the bits that the write clears, and an event sets its bit. -/
theorem setWinsOverClear : Obligations.SetWinsOverClear := by
  unfold Obligations.SetWinsOverClear
  constructor
  · intro s a t w k b rx live r hs he hk hc hlatched hset
    obtain ⟨u, hu, hleft⟩ := latchClear_clears hs he hk hc
    refine ⟨u, hu, ?_⟩
    dsimp only
    rw [hleft, testBit_w1c, hset, State.testBit_clearable_of_latched hlatched]
    rfl
  · intro s e u b key h
    simp [State.testBit_latchU_same s e u b key b h]

/-- Settles O11, by the rules of reading a register after a write and after a latch event. -/
theorem entriesKeepTheirValues : Obligations.EntriesKeepTheirValues := by
  unfold Obligations.EntriesKeepTheirValues
  constructor
  · intro s e f u w v
    exact ⟨State.getU_setU_same s e u v, State.getU_setU_ne s e f u w v⟩
  · intro s e f u w b key j h
    exact ⟨State.testBit_latchU_same s e u b key j h,
      fun hne hf => State.getD_latchU s e u b key (not_mem_logKeys hf) hne f.dflt⟩

/-- Settles O22, command by command. -/
theorem transactionsServe : Obligations.TransactionsServe := by
  unfold Obligations.TransactionsServe
  refine ⟨?read, ?write, ?latchClear, ?unknownOp, ?deferred, ?expiry⟩
  case read => exact fun s a t w rx live r hs he room => read_answers hs he room
  case write =>
    exact fun s a t w k rx live r hs he hk hnow hcount hceil hadmit hphase =>
      write_stores hs he hk hnow hcount hceil hadmit hphase
  case latchClear => exact fun s a t w k rx live r hs he hk hcount => latchClear_clears hs he hk (Or.inr hcount)
  case unknownOp =>
    intro s z t rx q hz hq hrun hport hlen hop hversion hsession htag hlength hcache room
    subst hq
    have mine : unknownOpService.mine (Req.parse rx) z = true := by simpa [unknownOpService] using hop
    have not_cached : ∀ c ∈ z.dict.cache, c.keyIs (Req.parse rx) = false := by simpa [List.find?_eq_none] using hcache
    have size : rx.bytes.length = 16 + (Req.parse rx).body.length + (if (Req.parse rx).tagged then 16 else 0) := by
      simpa [htag] using Req.parse_size hlen htag
    exact unknownOp_refuses hz ⟨hrun, hport, hlen, mine, hversion, hsession, by omega, by omega, not_cached, hlength,
      size⟩ room
  case deferred =>
    rintro s _ t key old kind due rfl hheld hkind hwheel hdue
    exact ⟨_, rfl, State.applyHeld_held hheld hkind hwheel hdue⟩
  case expiry =>
    rintro s _ t rfl
    exact replyCacheExpiry_keeps s t

end Sys2Proof.Proofs
end

section
/-! PROOFS. The statements of spec/01_module_in_the_row.md: the order of the steps, the row program and an allocation, the
writes with effects of their own, and power, restart and fuses. -/

namespace Sys2Proof.Machine

open Sys2Proof

/-! ### What every command does -/

/-- Every command answers a next state, reached without moving the time back or touching the queue (R36, R43). -/
theorem exec_kept (c : Instr) (s : State) : ∃ z, exec c s = .next z ∧ Kept s z := by
  cases c with
  | powerGood t => exact execPowerGood_kept t s
  | fanPowerUpStagger t => exact execFanPowerUpStagger_kept t s
  | bootRomAndFuses t ok => exact execBootRomAndFuses_kept t ok s
  | framRead t ok lifeOk => exact execFramRead_kept t ok lifeOk s
  | hubAndKeepersBist t hubOk keepersPass => exact execHubAndKeepersBist_kept t hubOk keepersPass s
  | arrayGroupPower t => exact execArrayGroupPower_kept t s
  | arraysBist t pass => exact execArraysBist_kept t pass s
  | iocLinkStart t lanesFail => exact execIocLinkStart_kept t lanesFail s
  | bootRequest t => exact execBootRequest_kept t s
  | bootOffer t rx => exact execBootOffer_kept t rx s
  | bootData t rx => exact execBootData_kept t rx s
  | bootReadTimeout t offset => exact execBootReadTimeout_kept t offset s
  | imageCheck t => exact execImageCheck_kept t s
  | stacksStart t found => exact execStacksStart_kept t found s
  | firmwareStart t iocOk => exact execFirmwareStart_kept t iocOk s
  | wheelStep t => exact execWheelStep_kept t s
  | wheelStartTimeout t => exact execWheelStartTimeout_kept t s
  | iocUnitsBist t portsFail ainFail => exact execIocUnitsBist_kept t portsFail ainFail s
  | arm t => exact execArm_kept t s
  | startTimerExpiry t => exact execStartTimerExpiry_kept t s
  | requiredStepRetry t => exact execRequiredStepRetry_kept t s
  | startCmd t rx => exact execStartCmd_kept t rx s
  | restartReset t => exact execRestartReset_kept t s
  | classLift t => exact execClassLift_kept t s
  | tickBoundary t x => exact execTickBoundary_kept t x s
  | turnBoundary t x => exact execTurnBoundary_kept t x s
  | classWidenLower t cls => exact execClassWidenLower_kept t cls s
  | periodPublish t n => exact execPeriodPublish_kept t n s
  | periodWithdraw t n => exact execPeriodWithdraw_kept t n s
  | ainTakeover t ch => exact execAinTakeover_kept t ch s
  | mainsCycle t phase => exact execMainsCycle_kept t phase s
  | mainsAbsent t => exact execMainsAbsent_kept t s
  | holdoverLong t => exact execHoldoverLong_kept t s
  | wheelNotice t => exact execWheelNotice_kept t s
  | wheelNoticeRepeat t => exact execWheelNoticeRepeat_kept t s
  | wheelPhaseWrite t rx => exact execWheelPhaseWrite_kept t rx s
  | ptpSync t => exact execPtpSync_kept t s
  | ptpAnnounce t => exact execPtpAnnounce_kept t s
  | ptpDelayReq t rx => exact execPtpDelayReq_kept t rx s
  | cageCheck t cage => exact execCageCheck_kept t cage s
  | cageRecheck t cage => exact execCageRecheck_kept t cage s
  | opticalModulePowerUp t ready => exact execOpticalModulePowerUp_kept t ready s
  | autoNegotiation t agreed => exact execAutoNegotiation_kept t agreed s
  | linkTraining t complete => exact execLinkTraining_kept t complete s
  | pcsAlignment t locked => exact execPcsAlignment_kept t locked s
  | linkHoldUp t => exact execLinkHoldUp_kept t s
  | linkAttemptFail t fault => exact execLinkAttemptFail_kept t fault s
  | laneMapRoundWait t => exact execLaneMapRoundWait_kept t s
  | linkDown t cause => exact execLinkDown_kept t cause s
  | sendResume t => exact execSendResume_kept t s
  | frameReceive t f => exact execFrameReceive_kept t f s
  | duplicateAddressDetection t linkLocal ok => exact execDuplicateAddressDetection_kept t linkLocal ok s
  | dadRetry t => exact execDadRetry_kept t s
  | routerAdvertisement t pfx len autonomous => exact execRouterAdvertisement_kept t pfx len autonomous s
  | neighbourSolicitation t src target => exact execNeighbourSolicitation_kept t src target s
  | echoRequest t src dst body => exact execEchoRequest_kept t src dst body s
  | egressServe t => exact execEgressServe_kept t s
  | read t rx => exact execRead_kept t rx s
  | write t rx => exact execWrite_kept t rx s
  | latchClear t rx => exact execLatchClear_kept t rx s
  | deferredWriteApply t key => exact execDeferredWriteApply_kept t key s
  | readBulk t rx => exact execReadBulk_kept t rx s
  | bulkFragment t id => exact execBulkFragment_kept t id s
  | writeBulk t rx => exact execWriteBulk_kept t rx s
  | writeBulkApply t => exact execWriteBulkApply_kept t s
  | subscribe t rx => exact execSubscribe_kept t rx s
  | subscriptionPush t src sport subId => exact execSubscriptionPush_kept t src sport subId s
  | subscriptionLapse t src sport subId => exact execSubscriptionLapse_kept t src sport subId s
  | openSession t rx => exact execOpen_kept t rx s
  | prove t rx => exact execProve_kept t rx s
  | proveTimeout t session => exact execProveTimeout_kept t session s
  | close t rx => exact execClose_kept t rx s
  | sessionIdleTimeout t session => exact execSessionIdleTimeout_kept t session s
  | replyCacheExpiry t => exact execReplyCacheExpiry_kept t s
  | checkInRequest t rx => exact execCheckInRequest_kept t rx s
  | checkInServe t => exact execCheckInServe_kept t s
  | passportTakeForce t slot => exact execPassportTakeForce_kept t slot s
  | rejoinCutResend t slot => exact execRejoinCutResend_kept t slot s
  | checkOutRequest t rx => exact execCheckOutRequest_kept t rx s
  | checkOutFree t slot => exact execCheckOutFree_kept t slot s
  | telemetryBundle t rx => exact execTelemetryBundle_kept t rx s
  | deferredCutRequeue t => exact execDeferredCutRequeue_kept t s
  | rowCutRefresh t scope => exact execRowCutRefresh_kept t scope s
  | guardRelease t slot => exact execGuardRelease_kept t slot s
  | releaseSend t slot => exact execReleaseSend_kept t slot s
  | capBundleBuild t cls firstBit => exact execCapBundleBuild_kept t cls firstBit s
  | recordParse t lane => exact execRecordParse_kept t lane s
  | disobeyResend t slot => exact execDisobeyResend_kept t slot s
  | guestDisobedient t slot => exact execGuestDisobedient_kept t slot s
  | disobeyClear t slot => exact execDisobeyClear_kept t slot s
  | countingTickEnd t => exact execCountingTickEnd_kept t s
  | guestStale t slot => exact execGuestStale_kept t slot s
  | staleCapSend t slot => exact execStaleCapSend_kept t slot s
  | staleEnd t slot => exact execStaleEnd_kept t slot s
  | absenceTimeout t slot => exact execAbsenceTimeout_kept t slot s
  | guestLapse t slot => exact execGuestLapse_kept t slot s
  | reserveExpiry t slot => exact execReserveExpiry_kept t slot s
  | pairEpisodeEnd t slot pair => exact execPairEpisodeEnd_kept t slot pair s
  | pairPersistReached t slot pair => exact execPairPersistReached_kept t slot pair s
  | capRefresh t slot => exact execCapRefresh_kept t slot s
  | summaryStepEnd t => exact execSummaryStepEnd_kept t s
  | allocationPeriodStart t => exact execAllocationPeriodStart_kept t s
  | allocationPeriodEnd t => exact execAllocationPeriodEnd_kept t s
  | allocateEgressTick t => exact execAllocateEgressTick_kept t s
  | rowProgramStep t => exact execRowProgramStep_kept t s
  | measurementCutoff t => exact execMeasurementCutoff_kept t s
  | settleEnd t slot => exact execSettleEnd_kept t slot s
  | classFallback t cls => exact execClassFallback_kept t cls s
  | leakSuspect t branch transient => exact execLeakSuspect_kept t branch transient s
  | hingeRebuildStart t slot k => exact execHingeRebuildStart_kept t slot k s
  | hingeRebuild t rx => exact execHingeRebuild_kept t rx s
  | hingeValidate t slot k => exact execHingeValidate_kept t slot k s
  | hingePreloadDone t slot k => exact execHingePreloadDone_kept t slot k s
  | hingeSwap t slot k => exact execHingeSwap_kept t slot k s
  | hingeStale t slot k => exact execHingeStale_kept t slot k s
  | progUploadBegin t rx => exact execProgUploadBegin_kept t rx s
  | progUploadChunk t rx => exact execProgUploadChunk_kept t rx s
  | progUploadCommit t rx => exact execProgUploadCommit_kept t rx s
  | progFitComplete t slot => exact execProgFitComplete_kept t slot s
  | progInstall t slot => exact execProgInstall_kept t slot s
  | progUploadUnload t rx => exact execProgUploadUnload_kept t rx s
  | progStop t slot => exact execProgStop_kept t slot s
  | progFeed t rx => exact execProgFeed_kept t rx s
  | progFeedApply t slot => exact execProgFeedApply_kept t slot s
  | progStepStart t slot => exact execProgStepStart_kept t slot s
  | progStepComplete t slot poison => exact execProgStepComplete_kept t slot poison s
  | progPublish t slot => exact execProgPublish_kept t slot s
  | parityError t array => exact execParityError_kept t array s
  | stepOverrun t array => exact execStepOverrun_kept t array s
  | arrayBlockError t array sram => exact execArrayBlockError_kept t array sram s
  | migration t array => exact execMigration_kept t array s
  | rotationPreload t region => exact execRotationPreload_kept t region s
  | rotation t region => exact execRotation_kept t region s
  | regionFence t region => exact execRegionFence_kept t region s
  | regionReconfigure t region => exact execRegionReconfigure_kept t region s
  | chipLevelError t => exact execChipLevelError_kept t s
  | lineUncorrectable t stack line => exact execLineUncorrectable_kept t stack line s
  | rowSpare t stack bank row => exact execRowSpare_kept t stack bank row s
  | pageRetire t stack page => exact execPageRetire_kept t stack page s
  | patrolScrubPass t stack corrected => exact execPatrolScrubPass_kept t stack corrected s
  | channelLoss t stack channel => exact execChannelLoss_kept t stack channel s
  | channelSpare t stack slot => exact execChannelSpare_kept t stack slot s
  | zeroFillDone t stack channel => exact execZeroFillDone_kept t stack channel s
  | stackLoss t stack => exact execStackLoss_kept t stack s
  | stackHot t stack temp => exact execStackHot_kept t stack temp s
  | iocLaneFail t lane => exact execIocLaneFail_kept t lane s
  | iocLaneSpare t => exact execIocLaneSpare_kept t s
  | iocLinkLoss t => exact execIocLinkLoss_kept t s
  | sensorDelivery t x => exact execSensorDelivery_kept t x s
  | loopRun t engine => exact execLoopRun_kept t engine s
  | feedbackHoldTimeout t engine => exact execFeedbackHoldTimeout_kept t engine s
  | followingErrorFault t engine => exact execFollowingErrorFault_kept t engine s
  | loopSlotMissed t engine => exact execLoopSlotMissed_kept t engine s
  | engineBlockError t engine => exact execEngineBlockError_kept t engine s
  | engineTakeover t engine saved => exact execEngineTakeover_kept t engine saved s
  | loopModeWrite t rx => exact execLoopModeWrite_kept t rx s
  | manualValueWrite t rx => exact execManualValueWrite_kept t rx s
  | loopCmdAccept t rx => exact execLoopCmdAccept_kept t rx s
  | loopCmdClearTable t rx => exact execLoopCmdClearTable_kept t rx s
  | phaseSourceWrite t rx => exact execPhaseSourceWrite_kept t rx s
  | outputHandoff t => exact execOutputHandoff_kept t s
  | actuatorUpdate t => exact execActuatorUpdate_kept t s
  | valveCmdDeenergise t rx => exact execValveCmdDeenergise_kept t rx s
  | valveCmdEnergise t rx => exact execValveCmdEnergise_kept t rx s
  | valveCmdClear t rx => exact execValveCmdClear_kept t rx s
  | boostAdmit t bank => exact execBoostAdmit_kept t bank s
  | boostEnd t ch current => exact execBoostEnd_kept t ch current s
  | boostTimeout t ch => exact execBoostTimeout_kept t ch s
  | peakEnd t ch => exact execPeakEnd_kept t ch s
  | boostWaitLong t bank => exact execBoostWaitLong_kept t bank s
  | descentEnd t ch current => exact execDescentEnd_kept t ch current s
  | releaseEnd t ch current => exact execReleaseEnd_kept t ch current s
  | seatKink t ch kink => exact execSeatKink_kept t ch kink s
  | seatWindowEnd t ch => exact execSeatWindowEnd_kept t ch s
  | seatResultPublish t ch => exact execSeatResultPublish_kept t ch s
  | valveOpenOn t ch current => exact execValveOpenOn_kept t ch current s
  | valveShort t ch => exact execValveShort_kept t ch s
  | valveShortRetry t ch => exact execValveShortRetry_kept t ch s
  | bankOvercurrent t bank current => exact execBankOvercurrent_kept t bank current s
  | valveHot t ch temp => exact execValveHot_kept t ch temp s
  | valveDriverFault t ch highSide => exact execValveDriverFault_kept t ch highSide s
  | valveTakeover t ch => exact execValveTakeover_kept t ch s
  | valveSwitchDone t ch => exact execValveSwitchDone_kept t ch s
  | valveFeedLow t volts => exact execValveFeedLow_kept t volts s
  | valveFeedRestore t volts => exact execValveFeedRestore_kept t volts s
  | boostVApply t => exact execBoostVApply_kept t s
  | speedLoopRun t ch x => exact execSpeedLoopRun_kept t ch x s
  | fanWatchdog t => exact execFanWatchdog_kept t s
  | fanStaggerStart t => exact execFanStaggerStart_kept t s
  | fanStartEnd t ch => exact execFanStartEnd_kept t ch s
  | fanKickEnd t ch => exact execFanKickEnd_kept t ch s
  | fanPauseEnd t ch => exact execFanPauseEnd_kept t ch s
  | fanStallRetry t ch => exact execFanStallRetry_kept t ch s
  | tachAbsent t ch => exact execTachAbsent_kept t ch s
  | tachRestored t ch => exact execTachRestored_kept t ch s
  | fanOverload t ch => exact execFanOverload_kept t ch s
  | fanHot t ch temp => exact execFanHot_kept t ch temp s
  | fanCmd t rx => exact execFanCmd_kept t rx s
  | fanFeedLow t volts => exact execFanFeedLow_kept t volts s
  | fanFeedRestore t volts => exact execFanFeedRestore_kept t volts s
  | fanDriverFault t ch => exact execFanDriverFault_kept t ch s
  | fanTakeover t ch => exact execFanTakeover_kept t ch s
  | fanSwitchDone t ch => exact execFanSwitchDone_kept t ch s
  | ifanTakeover t n => exact execIfanTakeover_kept t n s
  | canFrameReceive t port f => exact execCanFrameReceive_kept t port f s
  | canTxDone t port time => exact execCanTxDone_kept t port time s
  | canError t port e => exact execCanError_kept t port e s
  | fbCmdRejoin t rx => exact execFbCmdRejoin_kept t rx s
  | busOffRecoveryDone t port => exact execBusOffRecoveryDone_kept t port s
  | aloneEnter t port => exact execAloneEnter_kept t port s
  | aloneProbe t port => exact execAloneProbe_kept t port s
  | fbCmdProbe t rx => exact execFbCmdProbe_kept t rx s
  | rxObjectStale t obj => exact execRxObjectStale_kept t obj s
  | suppressionEnd t port => exact execSuppressionEnd_kept t port s
  | fbIntegrateDone t port => exact execFbIntegrateDone_kept t port s
  | fbPortFence t port => exact execFbPortFence_kept t port s
  | plantSupervisorRun t => exact execPlantSupervisorRun_kept t s
  | trendEnd t branch => exact execTrendEnd_kept t branch s
  | flowRecovery t branch => exact execFlowRecovery_kept t branch s
  | plantClassLift t branch => exact execPlantClassLift_kept t branch s
  | pumpStartTimeout t set pump => exact execPumpStartTimeout_kept t set pump s
  | pumpStandbyReturn t set pump => exact execPumpStandbyReturn_kept t set pump s
  | leadRebind t set => exact execLeadRebind_kept t set s
  | pumpRotation t set => exact execPumpRotation_kept t set s
  | psCmd t rx => exact execPsCmd_kept t rx s
  | plantFanHoldRelease t => exact execPlantFanHoldRelease_kept t s
  | ropeMeasure t rope x => exact execRopeMeasure_kept t rope x s
  | isolationCloseDemand t branch => exact execIsolationCloseDemand_kept t branch s
  | isolationRetryClose t branch => exact execIsolationRetryClose_kept t branch s
  | brCmdEndIsolation t rx => exact execBrCmdEndIsolation_kept t rx s
  | brCmdDeclareLeak t rx => exact execBrCmdDeclareLeak_kept t rx s
  | brEnableWrite t rx => exact execBrEnableWrite_kept t rx s
  | plantRowCutRefresh t branch => exact execPlantRowCutRefresh_kept t branch s
  | dieOvertempError t => exact execDieOvertempError_kept t s
  | logCommit t readback => exact execLogCommit_kept t readback s
  | eventsLostRecord t => exact execEventsLostRecord_kept t s
  | logPageRetire t page damaged => exact execLogPageRetire_kept t page damaged s
  | histSet t rx => exact execHistSet_kept t rx s
  | histCountWrite t rx => exact execHistCountWrite_kept t rx s
  | recCmdClearLog t rx => exact execRecCmdClearLog_kept t rx s
  | recCmdClearHistograms t rx => exact execRecCmdClearHistograms_kept t rx s
  | recCmdClearGuestHistory t rx => exact execRecCmdClearGuestHistory_kept t rx s
  | recCmdClearDieRainflow t rx => exact execRecCmdClearDieRainflow_kept t rx s
  | recCmdClearFramLastgasp t rx => exact execRecCmdClearFramLastgasp_kept t rx s
  | recCmdComplete t => exact execRecCmdComplete_kept t s
  | logicPowerLoss t => exact execLogicPowerLoss_kept t s
  | framCopyDone t => exact execFramCopyDone_kept t s
  | feedLost t feed => exact execFeedLost_kept t feed s
  | feedRange t feed => exact execFeedRange_kept t feed s
  | actFuseOpen t => exact execActFuseOpen_kept t s
  | actFuseReclose t => exact execActFuseReclose_kept t s
  | actCmd t rx => exact execActCmd_kept t rx s
  | actOverload t => exact execActOverload_kept t s
  | keyEnrol t rx => exact execKeyEnrol_kept t rx s
  | keyRevoke t rx => exact execKeyRevoke_kept t rx s
  | fuseSecRaise t rx => exact execFuseSecRaise_kept t rx s
  | fuseKeyRevoke t rx => exact execFuseKeyRevoke_kept t rx s
  | stanceWrite t rx => exact execStanceWrite_kept t rx s
  | bistComplete t row signature => exact execBistComplete_kept t row signature s
  | bistResult t row => exact execBistResult_kept t row s
  | bistTimeout t row => exact execBistTimeout_kept t row s
  | spareRetest t kind => exact execSpareRetest_kept t kind s
  | plannedTest t kind => exact execPlannedTest_kept t kind s
  | keeperBlockError t keeper => exact execKeeperBlockError_kept t keeper s
  | progStorageMoveDone t slot => exact execProgStorageMoveDone_kept t slot s
  | ainSwitchDone t ch => exact execAinSwitchDone_kept t ch s
  | unknownOp t rx => exact execUnknownOp_kept t rx s

/-- What every step of a fold leaves as it stands, the fold leaves. -/
theorem foldl_eq_of_step {α β : Type} {f : State → β → State} {p : State → α} (h : ∀ s b, p (f s b) = p s) (l : List β)
    (s : State) : p (l.foldl f s) = p s :=
  List.foldlRecOn (motive := fun u => p u = p s) l f rfl fun u hu b _ => (h u b).trans hu

/-! ### The row program's step (R390) -/

/-- What stepping guests leaves alone: the desk, the marks of the tick's step and cut-off, and the count of steps
without a measurement. -/
structure StepKeeps (s t : State) : Prop where
  desk : t.desk = s.desk
  stepDone : t.row.stepDone = s.row.stepDone
  cutoffDone : t.row.cutoffDone = s.row.cutoffDone
  noMeas : t.get E.STEPS_NO_MEAS = s.get E.STEPS_NO_MEAS

theorem StepKeeps.refl (s : State) : StepKeeps s s := ⟨rfl, rfl, rfl, rfl⟩

theorem StepKeeps.trans {s t u : State} (h : StepKeeps s t) (k : StepKeeps t u) : StepKeeps s u :=
  ⟨k.desk.trans h.desk, k.stepDone.trans h.stepDone, k.cutoffDone.trans h.cutoffDone, k.noMeas.trans h.noMeas⟩

/-- An update of other fields. -/
theorem StepKeeps.update {s t u : State} (h : StepKeeps s t) (hdesk : u.desk = t.desk)
    (hstep : u.row.stepDone = t.row.stepDone) (hcutoff : u.row.cutoffDone = t.row.cutoffDone) (hregs : u.regs = t.regs) :
    StepKeeps s u :=
  h.trans ⟨hdesk, hstep, hcutoff, State.get_congr hregs _⟩

theorem StepKeeps.when {s : State} {b : Bool} {f : State → State} (h : StepKeeps s (f s)) : StepKeeps s (s.when b f) := by
  cases b
  · exact StepKeeps.refl s
  · exact h

theorem StepKeeps.ite {s t u : State} {c : Prop} [Decidable c] (h : StepKeeps s t) (k : StepKeeps s u) :
    StepKeeps s (if c then t else u) := by
  split
  · exact h
  · exact k

theorem StepKeeps.foldl {β : Type} {f : State → β → State} (h : ∀ s b, StepKeeps s (f s b)) (l : List β) (s : State) :
    StepKeeps s (l.foldl f s) :=
  List.foldlRecOn (motive := StepKeeps s) l f (StepKeeps.refl s) fun u hu b _ => hu.trans (h u b)

theorem State.add_stepKeeps (s : State) {e : Ent} (n : Nat) (h : E.STEPS_NO_MEAS.key ≠ e.key) : StepKeeps s (s.add e n) :=
  ⟨rfl, rfl, rfl, State.get_set_ne s e _ _ h⟩

theorem State.latch_stepKeeps (s : State) {e : Ent} (b key : Nat) (h : E.STEPS_NO_MEAS.key ≠ e.key) :
    StepKeeps s (s.latch e b key) :=
  ⟨by simp, by simp, by simp, State.get_latch_ne s e _ b key (by decide) h⟩

theorem State.incLatch_stepKeeps (s : State) {e f : Ent} (b key : Nat) (he : E.STEPS_NO_MEAS.key ≠ e.key)
    (hf : E.STEPS_NO_MEAS.key ≠ f.key) : StepKeeps s ((s.inc e).latch f b key) :=
  (s.add_stepKeeps 1 he).trans (State.latch_stepKeeps _ b key hf)

theorem State.putGuest_stepKeeps (s : State) (slot : Nat) (g : Guest) : StepKeeps s (s.putGuest slot g) :=
  ⟨rfl, rfl, rfl, rfl⟩

theorem State.countBr_stepKeeps (s : State) (k : BrCnt) : StepKeeps s (s.countBr k) := by
  unfold State.countBr
  dsimp only
  split
  next => exact StepKeeps.refl s
  next =>
    exact ((((s.add_stepKeeps _ (by decide)).trans (State.add_stepKeeps _ _ (by decide))).trans
      (State.add_stepKeeps _ _ (by decide))).trans (State.add_stepKeeps _ _ (by decide))).trans
      (State.add_stepKeeps _ _ (by decide))

theorem State.stepModel_stepKeeps (s : State) (slot : Nat) (g : Guest) (values : List (Nat × Nat)) :
    StepKeeps s (s.stepModel slot g values) := by
  have counted (k : BrCnt) (caught restarted : Bool) : StepKeeps s (((s.countBr k).when caught fun s =>
      (s.inc E.GUESTS_CATCHUP).latch E.RP_LATCHES 0 (guestKey slot)).when restarted fun s =>
      (s.inc E.GUEST_RESTARTS).latch E.RP_LATCHES 1 (guestKey slot)) :=
    ((s.countBr_stepKeeps k).trans (StepKeeps.when (State.incLatch_stepKeeps _ _ _ (by decide) (by decide)))).trans
      (StepKeeps.when (State.incLatch_stepKeeps _ _ _ (by decide) (by decide)))
  unfold State.stepModel
  generalize (s.computeStep slot g values).run {} = out
  obtain ⟨o, k⟩ := out
  dsimp only
  repeat' split
  all_goals exact (counted k (decide (0 < o.caught)) o.restarted).update rfl rfl rfl rfl

/-- A poisoned state area is counted and latched before the guest is stepped (R325). -/
theorem State.poisonRead_stepKeeps (s : State) (stack lines key : Nat) :
    StepKeeps s ((s.addU E.POISON_READS stack lines).latch E.STACK_LATCHES 1 key) := by
  have count : E.STEPS_NO_MEAS.key ≠ E.POISON_READS.key + 256 * stack := by
    show 0x404101 ≠ 0x510008 + 256 * stack
    omega
  have counted : StepKeeps s (s.addU E.POISON_READS stack lines) :=
    ⟨rfl, rfl, rfl, State.get_setU_ne s _ _ _ _ count⟩
  exact counted.trans (State.latch_stepKeeps _ _ _ (by decide))

theorem State.areaWritten_stepKeeps (s : State) (slot : Nat) (g : Guest) : StepKeeps s (s.areaWritten slot g) :=
  ⟨rfl, rfl, rfl, rfl⟩

theorem State.stepGuest_stepKeeps (s : State) (slot : Nat) (g : Guest) (meas : Bool) :
    StepKeeps s (s.stepGuest slot g meas) := by
  unfold State.stepGuest
  refine (StepKeeps.refl s).ite ((s.putGuest_stepKeeps _ _).ite ((StepKeeps.refl s).ite
    (StepKeeps.ite ?poisoned (s.stepModel_stepKeeps _ _ _))))
  exact (s.poisonRead_stepKeeps _ _ _).trans ((State.putGuest_stepKeeps _ _ _).ite
    ((State.areaWritten_stepKeeps _ _ _).trans (State.stepModel_stepKeeps _ _ _ _)))

theorem State.stepAll_stepKeeps (s : State) (f : Guest → Option Bool) : StepKeeps s (s.stepAll f) := by
  refine StepKeeps.foldl (fun u p => ?_) _ _
  split
  · exact u.stepGuest_stepKeeps _ _ _
  · exact StepKeeps.refl u

/-- The localiser (R415) leaves the desk and the mark of the tick's step alone. -/
theorem State.leakTick_frame (s : State) :
    s.leakTick.desk = s.desk ∧ s.leakTick.row.stepDone = s.row.stepDone := by
  rw [← Prod.mk.injEq]
  refine foldl_eq_of_step (p := fun u => (u.desk, u.row.stepDone)) (fun u b => ?_) _ _
  split
  split
  have counts (k k' : BrCnt) := (u.countBr_stepKeeps k).trans (State.countBr_stepKeeps _ k')
  dsimp only
  split <;> simp [(counts _ _).desk, (counts _ _).stepDone]

/-- ROW_PROGRAM_STEP (R390): the step of the tick is made, and the records still queued in the lanes are counted. -/
theorem rowProgramStep_marks {s z : State} {t : Nat} (hz : z = s.at t) (hrun : z.fwRuns = true)
    (hslot : z.pastSlot 60 = true) (hdone : z.row.stepDone ≠ some z.tick) :
    Answers (.rowProgramStep t) s fun u =>
      u.row.stepDone = some z.tick
        ∧ u.desk.backlog = max z.desk.backlog (sumOf (fun l : Lane => l.queue.length) z.desk.lanes) := by
  subst hz
  refine ⟨_, rfl, ?_⟩
  generalize s.at t = z at hrun hslot hdone ⊢
  rw [State.when_of (by simp [hrun, hslot, hdone])]
  dsimp only
  constructor
  · rw [(State.leakTick_frame _).2, (State.stepAll_stepKeeps _ _).stepDone]
  · rw [(State.leakTick_frame _).1, (State.stepAll_stepKeeps _ _).desk]

/-- MEASUREMENT_CUTOFF (R393): the guests stepped without a measurement are counted. -/
theorem measurementCutoff_counts {s z : State} {t : Nat} (hz : z = s.at t) (hrun : z.fwRuns = true)
    (hslot : z.pastSlot 85 = true) (hstep : z.row.stepDone = some z.tick) (hcutoff : z.row.cutoffDone ≠ some z.tick) :
    Answers (.measurementCutoff t) s fun u =>
      u.row.cutoffDone = some z.tick
        ∧ u.get E.STEPS_NO_MEAS = (z.get E.STEPS_NO_MEAS + (z.stepGuests.filter fun p =>
            p.2.stepTick != some z.tick && !z.complete p.2 z.tick).length) % 2 ^ 64 := by
  subst hz
  refine ⟨_, rfl, ?_⟩
  generalize s.at t = z at hrun hslot hstep hcutoff ⊢
  rw [State.when_of (by simp [hrun, hslot, hstep, hcutoff])]
  dsimp only
  constructor
  · rw [(State.stepAll_stepKeeps _ _).cutoffDone]
    simp
  · rw [(State.stepAll_stepKeeps _ _).noMeas]
    exact State.get_set_same _ _ _

/-! ### Guests -/

theorem State.withGuest_of_present {s : State} {slot : Nat} {g : Guest} (h : s.presentGuest slot = some g)
    (f : State → Guest → State) : s.withGuest slot f = f s g := by
  simp [State.withGuest, h]

theorem State.guest_putGuest_same (s : State) (slot : Nat) (g : Guest) : (s.putGuest slot g).guest slot = some g :=
  AMap.get_set_same _ _ _

/-- SETTLE_END (R396): the guest has settled. -/
theorem settleEnd_settles {s z : State} {t slot : Nat} {g : Guest} (hz : z = s.at t) (hg : z.presentGuest slot = some g)
    (hsettling : g.settling = true) (hsettle : g.settle = 0) (hrestart : g.restartDue = false) :
    Answers (.settleEnd t slot) s fun u =>
      u.regs = z.regs ∧ Holds u slot fun g' => g' = { g with settling := false } := by
  subst hz
  refine ⟨_, rfl, ?_⟩
  generalize s.at t = z at hg ⊢
  rw [State.withGuest_of_present hg, State.when_of (by simp [hsettling, hsettle, hrestart])]
  exact ⟨rfl, _, State.guest_putGuest_same _ _ _, rfl⟩

/-! ### An allocation period (R401 to R408) -/

theorem AMap.get_mapVals {α β : Type} (m : AMap α) (f : Nat → α → β) (k : Nat) :
    AMap.get (AMap.mapVals m f) k = (AMap.get m k).map (f k) := by
  induction m with
  | nil => rfl
  | cons x m ih =>
    obtain ⟨j, v⟩ := x
    by_cases h : j = k
    · subst h
      simp [AMap.mapVals, AMap.get]
    · simpa [AMap.mapVals, AMap.get, h] using ih

theorem holds_of_mapVals {s t : State} {f : Nat → Guest → Guest} (h : t.guests = s.guests.mapVals f) {slot : Nat}
    {g : Guest} (hg : s.guest slot = some g) : Holds t slot fun g' => g' = f slot g := by
  refine ⟨f slot g, ?_, rfl⟩
  unfold State.guest at *
  rw [h, AMap.get_mapVals, hg]
  rfl

/-- ALLOCATION_PERIOD_START (R401, R406, R408, R556) with no engine to bound the budget and no capacity to slew from: the
period begins, and the weights and limits of the guests take effect. -/
theorem allocationPeriodStart_opens {s z : State} {t p : Nat} (hz : z = s.at t) (hrun : z.fwRuns = true)
    (hp : p = max 1 z.row.period) (horigin : z.row.origin ≤ z.tick) (hdue : (z.tick - z.row.origin) % p = 0)
    (halloc : z.row.alloc = none) (hengine : (z.releaseHeld 5).eff E.ROW_BUDGET_ENGINE = 0xFFFF)
    (hslew : z.plant.capSlewed = none) :
    Answers (.allocationPeriodStart t) s fun u =>
      u.row.alloc = some { t0 := z.tick, period := p, states := [] } ∧ u.plant.capDrop = 0
        ∧ u.plant.capSlewed = some (z.get E.PLANT_CAPACITY)
        ∧ u.get E.ROW_BUDGET = min ((z.releaseHeld 5).eff E.ROW_BUDGET_MAX) (z.get E.PLANT_CAPACITY)
        ∧ ∀ slot g, z.guest slot = some g → Holds u slot fun g' =>
            g' = { g with weightNow := g.weight, operMaxNow := g.operMax, pHist := [] } := by
  subst hz hp
  refine ⟨_, rfl, ?_⟩
  generalize s.at t = z at hrun horigin hdue halloc hengine hslew ⊢
  have capacity : (z.releaseHeld 5).get E.PLANT_CAPACITY = z.get E.PLANT_CAPACITY := State.get_congr (by simp) _
  have slewed : (z.releaseHeld 5).plant.capSlewed = none := hslew
  rw [State.when_of (by simp [hrun, horigin, hdue, halloc])]
  dsimp only
  rw [hengine, slewed, capacity]
  refine ⟨rfl, rfl, rfl, State.get_set_same _ _ _, fun slot g hg => ?_⟩
  refine holds_of_mapVals (s := z) (f := fun _ g => { g with weightNow := g.weight, operMaxNow := g.operMax, pHist := [] })
    ?_ hg
  rfl

/-- What the counts and latches of an allocation's end leave alone: the row program's own state, and how many
allocations have been made. -/
def State.allocView (s : State) : RowP × Nat := (s.row, s.get E.ALLOC_PERIODS)

theorem State.inc_allocView (s : State) {e : Ent} (h : E.ALLOC_PERIODS.key ≠ e.key) :
    (s.inc e).allocView = s.allocView := Prod.ext rfl (State.get_set_ne s e _ _ h)

theorem State.latch_allocView (s : State) {e : Ent} (b key : Nat) (h : E.ALLOC_PERIODS.key ≠ e.key) :
    (s.latch e b key).allocView = s.allocView :=
  Prod.ext (by simp [State.allocView]) (State.get_latch_ne s e _ b key (by decide) h)

theorem State.incLatch_allocView (s : State) {e f : Ent} (b key : Nat) (he : E.ALLOC_PERIODS.key ≠ e.key)
    (hf : E.ALLOC_PERIODS.key ≠ f.key) : ((s.inc e).latch f b key).allocView = s.allocView :=
  (State.latch_allocView _ b key hf).trans (s.inc_allocView he)

theorem State.set_allocView (s : State) {e : Ent} (v : Nat) (h : E.ALLOC_PERIODS.key ≠ e.key) :
    (s.set e v).allocView = s.allocView := Prod.ext rfl (State.get_set_ne s e _ _ h)

theorem State.setClassCapMean_allocView (s : State) (c v : Nat) :
    (s.setU E.CLASS_CAP_MEAN c v).allocView = s.allocView := by
  refine Prod.ext rfl (State.get_setU_ne s _ _ _ _ ?_)
  show 0x404105 ≠ 0x44000A + 256 * c
  omega

theorem State.inc_allocPeriods_allocView (s : State) :
    (s.inc E.ALLOC_PERIODS).allocView = (s.allocView.1, (s.allocView.2 + 1) % 2 ^ 64) :=
  Prod.ext rfl (State.get_set_same _ _ _)

/-- Guests whose floor breaks their limits are counted and latched (R404). -/
theorem State.noteFloors_allocView (floors : List Nat) (s : State) :
    (floors.foldl (fun s slot => (s.inc E.ALLOC_INFEASIBLE_COUNT).latch E.RP_LATCHES 2 (guestKey slot)) s).allocView
      = s.allocView :=
  foldl_eq_of_step (p := State.allocView) (fun u _ => u.incLatch_allocView _ _ (by decide) (by decide)) floors s

/-- ALLOCATION_PERIOD_END, as its counts and latches leave the view of the allocation. -/
theorem allocationPeriodEnd_view {s z : State} {t : Nat} {a : Alloc} (hz : z = s.at t) (halloc : z.row.alloc = some a)
    (hend : z.tick + 1 = a.t0 + a.period) :
    Answers (.allocationPeriodEnd t) s fun u => ∃ r, u.allocView = (r, (z.get E.ALLOC_PERIODS + 1) % 2 ^ 64)
      ∧ r.alloc = none ∧ r.lastEnd = some z.tick ∧ r.readyFor = some (z.tick + 1) := by
  subst hz
  refine ⟨_, rfl, ?_⟩
  generalize s.at t = z at halloc hend ⊢
  simp only [halloc]
  rw [State.when_of (by simpa using hend)]
  generalize z.iterations a _ _ _ _ = iterated
  obtain ⟨shares, lamB, lamR⟩ := iterated
  dsimp only
  generalize z.feasible a shares = solved
  obtain ⟨shares, broken, floors⟩ := solved
  dsimp only
  have bound (u : State) (c : Prop) [Decidable c] :
      (if c then (u.inc E.ALLOC_BUDGET_BOUND).latch E.RP_LATCHES 3 else u).allocView = u.allocView := by
    split
    · exact u.incLatch_allocView _ _ (by decide) (by decide)
    · rfl
  rw [bound, State.noteFloors_allocView, State.inc_allocPeriods_allocView, State.set_allocView _ _ (by decide),
    foldl_eq_of_step (p := State.allocView) fun u c => ?means]
  case means =>
    split
    · rfl
    · exact u.setClassCapMean_allocView c _
  exact ⟨_, rfl, rfl, rfl, rfl⟩

/-- ALLOCATION_PERIOD_END (R403 to R405): the caps are ready for the next tick, and the allocation is counted. -/
theorem allocationPeriodEnd_closes {s z : State} {t : Nat} {a : Alloc} (hz : z = s.at t) (halloc : z.row.alloc = some a)
    (hend : z.tick + 1 = a.t0 + a.period) :
    Answers (.allocationPeriodEnd t) s fun u =>
      u.row.alloc = none ∧ u.row.lastEnd = some z.tick ∧ u.row.readyFor = some (z.tick + 1)
        ∧ u.get E.ALLOC_PERIODS = (z.get E.ALLOC_PERIODS + 1) % 2 ^ 64 := by
  obtain ⟨u, hu, r, hview, hnone, hlast, hready⟩ := allocationPeriodEnd_view hz halloc hend
  obtain ⟨rfl, hcount⟩ := Prod.mk.inj hview
  exact ⟨u, hu, hnone, hlast, hready, hcount⟩

/-! ### The egress of the caps (R22, R405) -/

/-- While the link is up a record that is queued waits in class 2. -/
theorem State.mem_queueCap {s : State} (h : s.linkUp = true) (c : CapDue) : c ∈ (s.queueCap c).desk.class2 := by
  simp only [State.queueCap, h, Bool.not_true, Bool.false_eq_true, if_false]
  split
  next same =>
    obtain ⟨x, hx, hsame⟩ := List.any_eq_true.1 same
    exact List.mem_map.2 ⟨x, hx, if_pos (by simpa using hsame)⟩
  next => exact List.mem_append_right _ (List.mem_singleton_self c)

theorem State.queueCap_frame (s : State) (c : CapDue) : (s.queueCap c).regs = s.regs ∧ (s.queueCap c).row = s.row := by
  unfold State.queueCap
  split <;> exact ⟨rfl, rfl⟩

/-- The ALLOCATE record of a guest without a cut, whose class was lifted before the allocation ended and whose value
differs from the cap last sent (R171, R243). -/
theorem State.sendAlloc_of_lifted {s : State} {slot v l e : Nat} {g : Guest} {r : CapRec}
    (hg : s.presentGuest slot = some g) (hstale : g.stale = false) (hcut : g.cut = none) (hlast : g.lastCap = some r)
    (hne : r.ceiling ≠ v) (hlift : s.desk.lifted.get g.pp.cls = some l) (hend : s.row.lastEnd = some e) (hle : l ≤ e) :
    s.sendAlloc slot v = (s.mapGuest slot fun g => { g with firstAllocSent := true }).queueCap
      { slot := slot, kind := 0, ceiling := v, slew := if g.firstAllocSent then s.allocSlew g else s.eff E.LIFT_SLEW
        hold := s.eff E.CAP_HOLD_TICKS } := by
  rw [State.sendAlloc, State.withGuest_of_present hg]
  simp [hlift, hend, hle, hstale, hcut, hlast, hne]

/-- ALLOCATE_EGRESS_TICK (R22): the record of a guest that is ready enters class 2. -/
theorem allocateEgressTick_queues {s z : State} {t slot v l e : Nat} {g : Guest} {r : CapRec} (hz : z = s.at t)
    (hready : z.row.readyFor = some z.tick) (hrest : z.inRest = false) (hlink : z.linkUp = true)
    (hsending : z.port.sending = true) (hceilings : z.get E.MODEL_CEILINGS ≠ 0) (hlist : z.row.ready = [(slot, v)])
    (hg : z.presentGuest slot = some g) (hstale : g.stale = false) (hcut : g.cut = none) (hlast : g.lastCap = some r)
    (hne : r.ceiling ≠ v) (hlift : z.desk.lifted.get g.pp.cls = some l) (hend : z.row.lastEnd = some e) (hle : l ≤ e) :
    Answers (.allocateEgressTick t) s fun u =>
      u.row.readyFor = none ∧ u.regs = z.regs ∧ ∃ c, c ∈ u.desk.class2 ∧ c.slot = slot ∧ c.kind = 0 ∧ c.ceiling = v
        ∧ c.hold = z.eff E.CAP_HOLD_TICKS := by
  subst hz
  refine ⟨_, rfl, ?_⟩
  generalize s.at t = z at *
  rw [State.when_of (by simpa using hready)]
  dsimp only
  generalize hy : State.egressBranches _ = y
  obtain ⟨hyrest, hylink, hysending, hyceilings⟩ : y.inRest = false ∧ y.linkUp = true ∧ y.port.sending = true
      ∧ y.get E.MODEL_CEILINGS ≠ 0 := by
    subst hy
    exact ⟨hrest, hlink, hsending, hceilings⟩
  obtain ⟨hyg, hylift, hyend⟩ : y.presentGuest slot = some g ∧ y.desk.lifted.get g.pp.cls = some l
      ∧ y.row.lastEnd = some e := by
    subst hy
    exact ⟨hg, hlift, hend⟩
  obtain ⟨hyregs, hyready, hyhold⟩ : y.regs = z.regs ∧ y.row.readyFor = none
      ∧ y.eff E.CAP_HOLD_TICKS = z.eff E.CAP_HOLD_TICKS := by
    subst hy
    exact ⟨rfl, rfl, rfl⟩
  rw [if_neg (by simp [hyrest, hylink, hysending, hyceilings]), hlist, List.foldl_cons, List.foldl_nil,
    State.sendAlloc_of_lifted hyg hstale hcut hlast hne hylift hyend hle]
  refine ⟨?_, (State.queueCap_frame _ _).1.trans hyregs, _, State.mem_queueCap ?_ _, rfl, rfl, rfl, hyhold⟩
  · rw [(State.queueCap_frame _ _).2]
    exact hyready
  · exact hylink

/-! ### What a run of a served command leaves -/

/-- Reading an entry that a reply does not count in. -/
theorem State.get_answer (s : State) (q : Req) (a : Ans) {e : Ent} (h : e.key ∉ countKeys) :
    (s.answer q a).get e = s.get e := State.getU_answer s q a e 0 h

/-- A served command whose run answers at once leaves what its run leaves, but for the reply. -/
theorem answers_of_run {c : Instr} {s a u : State} {t : Nat} {rx : Rx} {v : Service} {live : Bool} {P : State → Prop}
    (hc : exec c s = .next ((s.at t).serve rx v)) (hs : (s.at t).screen rx v = .run live a)
    (hr : ∃ ans, v.run (Req.parse rx) live a = (some ans, u)) (h : ∀ ans, P (u.answer (Req.parse rx) ans)) :
    Answers c s P := by
  obtain ⟨ans, hr⟩ := hr
  exact ⟨_, hc, State.serve_of_run hs hr ▸ h ans⟩

/-- A write to an entry with a row of its own does what that row does (R106). -/
theorem ownService_run {q : Req} {r : Row} {w k : Nat} (he : q.entry = some (r, w)) (hk : k = q.sub - r.ent.key % 256)
    (l : List Ent) (run : Row → Nat → Nat → Nat → State → State) (live : Bool) (s : State) :
    ∃ ans, (ownService l run).run q live s = (some ans, run r w k (beNat q.value) s) :=
  hk ▸ ⟨_, writeService_run he _ run live s⟩

/-- A served command entry does what its row does (R112, R113). -/
theorem cmdService_run (q : Req) (live : Bool) (s : State) (e : Ent) (units : Nat) (isK : Bool) (len : Option Nat)
    (arg : Bytes → Bool) (keyFree : State → Bool) (codes : Nat → Bytes → State → List Nat)
    (run : Nat → Bytes → State → Bytes × State) :
    ∃ ans, (cmdService e units isK len arg keyFree codes run).run q live s
      = (some ans, (run (q.index - e.key / 256) q.value s).2) := ⟨_, rfl⟩

/-! ### Storing a value that nothing holds back yet (R10, R110) -/

theorem State.applyHeld_of_none {s : State} {key : Nat} (h : s.dict.held.get key = none) : s.applyHeld key = s := by
  simp [State.applyHeld, h]

/-- Storing a value with no earlier write held writes the entry, and beside it FRAM and the held values only. -/
theorem State.store_shape {s : State} {r : Row} {u k : Nat} (h : s.dict.held.get (r.ent.key + k + 256 * u) = none)
    (v : Nat) : ∃ fram dict, s.store r u k v
      = { s.setU ⟨r.ent.key + k, r.ent.dflt⟩ u (storedValue r.ent v) with fram := fram, dict := dict } := by
  unfold State.store
  cases deferKind r.ent with
  | none =>
    dsimp only
    split <;> exact ⟨_, _, rfl⟩
  | some kind =>
    simp only [State.hold, State.applyHeld_of_none h]
    split <;> exact ⟨_, _, rfl⟩

theorem State.getU_store_same {s : State} {r : Row} {u k : Nat}
    (h : s.dict.held.get (r.ent.key + k + 256 * u) = none) (v : Nat) :
    (s.store r u k v).getU ⟨r.ent.key + k, r.ent.dflt⟩ u = storedValue r.ent v := by
  obtain ⟨fram, dict, hstore⟩ := State.store_shape h v
  rw [hstore]
  exact State.getU_setU_same s _ u _

theorem State.get_store_ne {s : State} {r : Row} {u k : Nat} (h : s.dict.held.get (r.ent.key + k + 256 * u) = none)
    (v : Nat) {e : Ent} (hne : e.key ≠ r.ent.key + k + 256 * u) : (s.store r u k v).get e = s.get e := by
  obtain ⟨fram, dict, hstore⟩ := State.store_shape h v
  rw [hstore]
  exact State.get_setU_ne s ⟨r.ent.key + k, r.ent.dflt⟩ e u _ hne

theorem State.store_frame {s : State} {r : Row} {u k : Nat} (h : s.dict.held.get (r.ent.key + k + 256 * u) = none)
    (v : Nat) : (s.store r u k v).stancePending = s.stancePending ∧ (s.store r u k v).wheel = s.wheel
      ∧ (s.store r u k v).plant = s.plant ∧ (s.store r u k v).ioc = s.ioc := by
  obtain ⟨fram, dict, hstore⟩ := State.store_shape h v
  simp [hstore]

/-- What is stored stands in its entry when the reply has gone, if nothing after storing it writes a register. -/
theorem State.getU_answer_of_store {s t : State} {r : Row} {u k v : Nat}
    (hheld : s.dict.held.get (r.ent.key + k + 256 * u) = none) (hcount : r.ent.key + k + 256 * u ∉ countKeys)
    (hregs : t.regs = (s.store r u k v).regs) (q : Req) (a : Ans) :
    (t.answer q a).getU ⟨r.ent.key + k, r.ent.dflt⟩ u = storedValue r.ent v :=
  ((State.getU_answer t q a _ _ hcount).trans (State.getU_congr hregs _ _)).trans (State.getU_store_same hheld v)

/-! ### Relocking (R52, R53) -/

theorem State.get_enterRelock_wheelState (s : State) : s.enterRelock.get E.WHEEL_STATE = 3 := by
  unfold State.enterRelock State.setWheelState
  rw [State.get_set_ne _ _ _ _ (by decide)]
  exact State.get_set_same _ _ _

theorem State.enterRelock_wheel (s : State) : s.enterRelock.wheel = { s.wheel with lockRun := 0, closing := false } := rfl

/-! ### Engines -/

theorem State.eng_congr {s t : State} (h : t.ioc = s.ioc) (n : Nat) : t.eng n = s.eng n := by
  unfold State.eng
  rw [h]

theorem State.eng_answer (s : State) (q : Req) (a : Ans) (n : Nat) : (s.answer q a).eng n = s.eng n :=
  State.eng_congr (by simp) n

@[simp] theorem State.putEng_regs (s : State) (n : Nat) (x : Eng) : (s.putEng n x).regs = s.regs := rfl

@[simp] theorem State.eng_putEng_same (s : State) (n : Nat) (x : Eng) : (s.putEng n x).eng n = x := by
  simp [State.eng, State.putEng, AMap.getD, AMap.get_set_same]

/-! ### What each write with an effect of its own leaves -/

section

variable {s a : State} {t w k : Nat} {rx : Rx} {live : Bool} {r : Row}
  (he : (Req.parse rx).entry = some (r, w)) (hk : k = (Req.parse rx).sub - r.ent.key % 256)
  (hheld : a.dict.held.get (r.ent.key + k + 256 * w) = none)

include he hk hheld

/-- STANCE_WRITE (R34): the moment of the write selects the turn. -/
theorem stanceWrite_pends (hs : (s.at t).screen rx stanceWriteService = .run live a) :
    Answers (.stanceWrite t rx) s fun u => u.stancePending = a.stancePending.set
      (if a.wheel.idx < (a.store r w k (beNat (Req.parse rx).value)).ticksPerTurn / 2 then a.turn + 1 else a.turn + 2)
      (beNat (Req.parse rx).value) := by
  refine answers_of_run rfl hs (ownService_run he hk _ _ _ _) fun ans => ?_
  obtain ⟨hpending, hwheel, -, -⟩ := State.store_frame hheld (beNat (Req.parse rx).value)
  simp [hpending, hwheel, State.turn]

/-- WHEEL_PHASE_WRITE (R52) while the wheel is not locked: the value is stored and the wheel goes on. -/
theorem wheelPhaseWrite_stores (hs : (s.at t).screen rx wheelPhaseWriteService = .run live a)
    (hne : r.ent.key + k + 256 * w ≠ E.WHEEL_STATE.key) (hcount : r.ent.key + k + 256 * w ∉ countKeys)
    (hstate : a.get E.WHEEL_STATE ≠ 1) :
    Answers (.wheelPhaseWrite t rx) s fun u =>
      u.getU ⟨r.ent.key + k, r.ent.dflt⟩ w = storedValue r.ent (beNat (Req.parse rx).value) ∧ u.wheel = a.wheel := by
  refine answers_of_run rfl hs (ownService_run he hk _ _ _ _) fun ans => ?_
  rw [if_neg (State.get_store_ne hheld _ hne.symm ▸ hstate)]
  obtain ⟨-, hwheel, -, -⟩ := State.store_frame hheld (beNat (Req.parse rx).value)
  refine ⟨State.getU_answer_of_store hheld hcount rfl _ _, ?_⟩
  simp [hwheel]

/-- WHEEL_PHASE_WRITE (R52, R53) while the wheel is locked: it relocks. -/
theorem wheelPhaseWrite_relocks (hs : (s.at t).screen rx wheelPhaseWriteService = .run live a)
    (hne : r.ent.key + k + 256 * w ≠ E.WHEEL_STATE.key) (hstate : a.get E.WHEEL_STATE = 1) :
    Answers (.wheelPhaseWrite t rx) s fun u =>
      u.get E.WHEEL_STATE = 3 ∧ u.wheel.lockRun = 0 ∧ u.wheel.closing = false := by
  refine answers_of_run rfl hs (ownService_run he hk _ _ _ _) fun ans => ?_
  rw [if_pos ((State.get_store_ne hheld _ hne.symm).trans hstate)]
  constructor
  · rw [State.get_answer _ _ _ (by decide), State.get_latch_ne _ _ _ _ _ (by decide) (by decide)]
    exact State.get_enterRelock_wheelState _
  · simp [State.enterRelock_wheel]

variable (hcount : r.ent.key + k + 256 * w ∉ countKeys)

include hcount

/-- PHASE_SOURCE_WRITE (R432, R452): the engine's table is to be cleared. -/
theorem phaseSourceWrite_clearsTable (hs : (s.at t).screen rx phaseSourceWriteService = .run live a) :
    Answers (.phaseSourceWrite t rx) s fun u =>
      u.getU ⟨r.ent.key + k, r.ent.dflt⟩ w = storedValue r.ent (beNat (Req.parse rx).value)
        ∧ u.eng w = { a.eng w with clearTable := true } := by
  refine answers_of_run rfl hs (ownService_run he hk _ _ _ _) fun ans => ?_
  obtain ⟨-, -, -, hioc⟩ := State.store_frame hheld (beNat (Req.parse rx).value)
  refine ⟨State.getU_answer_of_store hheld hcount (State.putEng_regs ..) _ _, ?_⟩
  simp [State.eng_answer, State.eng_congr hioc]

/-- LOOP_MODE_WRITE (R435): an acceptance given before is void. -/
theorem loopModeWrite_voidsAcceptance (hs : (s.at t).screen rx loopModeWriteService = .run live a) :
    Answers (.loopModeWrite t rx) s fun u =>
      u.getU ⟨r.ent.key + k, r.ent.dflt⟩ w = storedValue r.ent (beNat (Req.parse rx).value)
        ∧ u.eng w = { a.eng w with accept := false } := by
  refine answers_of_run rfl hs (ownService_run he hk _ _ _ _) fun ans => ?_
  obtain ⟨-, -, -, hioc⟩ := State.store_frame hheld (beNat (Req.parse rx).value)
  refine ⟨State.getU_answer_of_store hheld hcount (State.putEng_regs ..) _ _, ?_⟩
  simp [State.eng_answer, State.eng_congr hioc]

/-- MANUAL_VALUE_WRITE (R435, R439): the engines run on until their next run finds the value. -/
theorem manualValueWrite_stores (hs : (s.at t).screen rx manualValueWriteService = .run live a) :
    Answers (.manualValueWrite t rx) s fun u =>
      u.getU ⟨r.ent.key + k, r.ent.dflt⟩ w = storedValue r.ent (beNat (Req.parse rx).value) ∧ u.ioc = a.ioc := by
  refine answers_of_run rfl hs (ownService_run he hk _ _ _ _) fun ans => ?_
  obtain ⟨-, -, -, hioc⟩ := State.store_frame hheld (beNat (Req.parse rx).value)
  refine ⟨State.getU_answer_of_store hheld hcount rfl _ _, ?_⟩
  simp [hioc]

/-- BR_ENABLE_WRITE (R557): the plant keeps running on the value in force. -/
theorem brEnableWrite_stores (hs : (s.at t).screen rx brEnableWriteService = .run live a) :
    Answers (.brEnableWrite t rx) s fun u =>
      u.getU ⟨r.ent.key + k, r.ent.dflt⟩ w = storedValue r.ent (beNat (Req.parse rx).value) ∧ u.plant = a.plant := by
  refine answers_of_run rfl hs (ownService_run he hk _ _ _ _) fun ans => ?_
  obtain ⟨-, -, hplant, -⟩ := State.store_frame hheld (beNat (Req.parse rx).value)
  refine ⟨State.getU_answer_of_store hheld hcount rfl _ _, ?_⟩
  simp [hplant]

/-- HIST_COUNT_WRITE (R592). -/
theorem histCountWrite_stores (hs : (s.at t).screen rx histCountWriteService = .run live a) :
    Answers (.histCountWrite t rx) s fun u =>
      u.getU ⟨r.ent.key + k, r.ent.dflt⟩ w = storedValue r.ent (beNat (Req.parse rx).value) :=
  answers_of_run rfl hs (ownService_run he hk _ _ _ _) fun _ => State.getU_answer_of_store hheld hcount (by dsimp only) _ _

end

/-- LOOP_CMD (R438): what a value of the command does to its engine stands when the reply has gone. -/
theorem loopCmd_runs {c : Instr} {s a : State} {t v i : Nat} {rx : Rx} {live : Bool} {mine : Bytes → Bool}
    {run : Eng → Eng} (hs : (s.at t).screen rx (loopCmd v mine run) = .run live a)
    (hi : i = (Req.parse rx).index - E.LOOP_CMD.key / 256)
    (hc : exec c s = .next ((s.at t).serve rx (loopCmd v mine run))) :
    Answers c s fun u => u.eng i = run (a.eng i) := by
  rw [hi]
  exact answers_of_run hc hs (cmdService_run ..) fun _ => (State.eng_answer _ _ _ _).trans (State.eng_putEng_same _ _ _)

/-! ### The last-gasp store (R604, R614) -/

/-- Staging a condition leaves the last-gasp store alone. -/
theorem State.cond_gasp (s : State) (c : Cond) (isOpen : Bool) : (s.cond c isOpen).recorder.gasp = s.recorder.gasp := by
  have lost : (s.condLost c).recorder.gasp = s.recorder.gasp := by
    unfold State.condLost
    dsimp only
    split <;> rfl
  unfold State.cond
  dsimp only
  split
  next => rfl
  next =>
    split
    next => rfl
    next =>
      split
      next => split <;> simp [Recorder.keep_gasp, lost]
      next => split <;> simp [lost]

/-- A last-gasp record enters the store while it has room. -/
theorem State.lastGasp_gasp {s : State} (h : s.recorder.gasp.length < 64) (bit detail : Nat) :
    ∃ c, (s.lastGasp bit detail).recorder.gasp = s.recorder.gasp ++ [c] ∧ c.index = 0x9002 ∧ c.bit = bit
      ∧ c.start = s.tick := by
  unfold State.lastGasp State.gasp
  simp only [State.cond_gasp, if_pos h]
  exact ⟨_, rfl, rfl, rfl, rfl⟩

/-- Entering the last-gasp store writes no entry but the recorder's own. -/
theorem State.getD_gasp (s : State) (c : Cond) {k : Nat} (h : k ∉ logKeys) (d : Nat) :
    (s.gasp c).regs.getD k d = s.regs.getD k d := by
  have count : k ≠ E.LASTGASP_COUNT.key := fun e => h (by simp [logKeys, e])
  have overflow : k ≠ E.LASTGASP_OVERFLOW.key := fun e => h (by simp [logKeys, e])
  have latches : k ≠ E.REC_LATCHES.key := fun e => h (by simp [logKeys, e])
  unfold State.gasp
  dsimp only
  split
  next => exact State.getD_set_ne _ _ _ count d
  next =>
    split
    next => exact State.getD_set_ne _ _ _ overflow d
    next =>
      rw [State.latch, State.getD_latchU _ _ _ _ _ h (by simpa using latches)]
      exact State.getD_set_ne _ _ _ overflow d

theorem State.get_lastGasp (s : State) (bit detail : Nat) {e : Ent} (h : e.key ∉ logKeys) :
    (s.lastGasp bit detail).get e = s.get e := (State.getD_gasp _ _ h _).trans (State.getD_cond _ _ _ h _)

/-! ### The rest stance (R37) -/

/-- Outside the rest stance, entering it shows in the stance in force and in its cause. -/
theorem State.get_enterRest {s : State} (h : s.inRest = false) (cause : Nat) :
    (s.enterRest cause).get E.STANCE_ACTIVE = 3 ∧ (s.enterRest cause).get E.REST_CAUSE = cause := by
  simp only [State.enterRest, h, Bool.false_eq_true, if_false]
  constructor
  · rw [State.get_lastGasp _ _ _ (by decide), State.get_set_ne _ _ _ _ (by decide), State.get_set_same]
  · rw [State.get_lastGasp _ _ _ (by decide), State.get_set_same]

/-- Entering the rest stance writes the stance in force, its cause and the recorder's counts only. -/
theorem State.get_enterRest_ne (s : State) (cause : Nat) {e : Ent} (hlog : e.key ∉ logKeys)
    (hstance : e.key ≠ E.STANCE_ACTIVE.key) (hcause : e.key ≠ E.REST_CAUSE.key) :
    (s.enterRest cause).get e = s.get e := by
  unfold State.enterRest
  split
  next =>
    split
    next => exact State.get_set_ne _ _ _ _ hcause
    next => rfl
  next => rw [State.get_lastGasp _ _ _ hlog, State.get_set_ne _ _ _ _ hcause, State.get_set_ne _ _ _ _ hstance]

/-! ### Logic power (R615, R670) -/

/-- LOGIC_POWER_LOSS (R615, R670): the guests and what was staged are gone; FRAM stands; a running recorder with room
keeps a POWER_LOSS record. -/
theorem logicPowerLoss_stops {s z : State} {t : Nat} (hz : z = s.at t) (hpower : z.elec.power = 1) :
    Answers (.logicPowerLoss t) s fun u =>
      u.elec.power = 2 ∧ u.recorder.staged = [] ∧ u.guests = [] ∧ u.fram = z.fram ∧
      (z.recorder.running = false → u.recorder.gasp = z.recorder.gasp) ∧
      (z.recorder.running = true → z.recorder.gasp.length < 64 →
        ∃ c, u.recorder.gasp = z.recorder.gasp ++ [c] ∧ c.index = 0x9002 ∧ c.bit = 3 ∧ c.start = z.tick) := by
  subst hz
  refine ⟨_, rfl, ?_⟩
  generalize s.at t = z at hpower ⊢
  rw [State.when_of (by simpa using hpower)]
  refine ⟨rfl, rfl, rfl, ?fram, ?stopped, ?record⟩
  case fram =>
    dsimp only [State.chipReset]
    split <;> simp
  case stopped =>
    intro hrun
    simp [hrun]
  case record =>
    intro hrun hroom
    simp only [hrun, hroom, decide_true, Bool.and_self, if_true]
    exact State.lastGasp_gasp hroom 3 0

/-- FRAM_COPY_DONE (R615, R670): the store of a running recorder stands in FRAM and is empty. -/
theorem framCopyDone_copies {s z : State} {t : Nat} (hz : z = s.at t) (hpower : z.elec.power = 2) :
    Answers (.framCopyDone t) s fun u =>
      u.elec.power = 3 ∧ u.recorder.gasp = [] ∧ (z.recorder.running = false → u.fram = z.fram) ∧
      (z.recorder.running = true → u.fram = { z.fram with gasp := z.recorder.gasp, dieRf := z.recorder.dieRf }) := by
  subst hz
  refine ⟨_, rfl, ?_⟩
  generalize s.at t = z at hpower ⊢
  rw [State.when_of (by simpa using hpower)]
  refine ⟨rfl, rfl, fun hrun => ?_, fun hrun => ?_⟩
  · simp [State.chipReset, hrun]
  · simp [State.chipReset, State.copyToFram, hrun]

/-! ### The actuator fuse (R672) -/

theorem State.valvesRegain_regs (s : State) : s.valvesRegain.regs = s.regs := by
  unfold State.valvesRegain
  split
  · rfl
  · exact foldl_eq_of_step (p := State.regs) (fun u c => by split <;> rfl) _ _

theorem State.get_setFanState_fuse (s : State) (c v : Nat) :
    (s.setFanState c v).get E.ACT_FUSE_STATE = s.get E.ACT_FUSE_STATE := by
  unfold State.setFanState State.fanSet
  split
  · exact State.get_setU_ne _ _ _ _ _ (by show 0xC00006 ≠ 0x71001C + 256 * _; omega)
  · exact State.get_setU_ne _ _ _ _ _ (by show 0xC00006 ≠ 0x718002 + 256 * _; omega)

theorem State.get_fansRegain_fuse (s : State) : s.fansRegain.get E.ACT_FUSE_STATE = s.get E.ACT_FUSE_STATE := by
  have stopped (u : State) (l : List Nat) :
      (l.foldl (fun s c => s.setFanState c 0) u).get E.ACT_FUSE_STATE = u.get E.ACT_FUSE_STATE :=
    foldl_eq_of_step (p := fun u => u.get E.ACT_FUSE_STATE) (fun u c => State.get_setFanState_fuse u c 0) l u
  unfold State.fansRegain
  dsimp only
  split
  next => rfl
  next =>
    split
    next => rfl
    next =>
      split
      next => exact stopped _ _
      next => exact (State.get_setFanState_fuse _ _ _).trans (stopped _ _)

/-- A fuse that closes reads closed, whatever the channels do that have their feed again. -/
theorem State.get_closeFuse (s : State) : s.closeFuse.get E.ACT_FUSE_STATE = 0 := by
  have closed : (s.set E.ACT_FUSE_STATE 0).get E.ACT_FUSE_STATE = 0 := State.get_set_same _ _ _
  have fans (u : State) (h : u.get E.ACT_FUSE_STATE = 0) :
      (if 20000 ≤ u.ioc.feed then u.fansRegain else u).get E.ACT_FUSE_STATE = 0 := by
    split
    · exact (State.get_fansRegain_fuse u).trans h
    · exact h
  unfold State.closeFuse
  refine fans _ ?_
  split
  · exact (State.get_congr (State.valvesRegain_regs _) _).trans closed
  · exact closed

/-! ### What each power and fuse command leaves -/

section

variable {s a : State} {t : Nat} {rx : Rx} {live : Bool}

/-- START_CMD (R37, R640): a restart is ordered, unless one is already, and the module enters the rest stance. -/
theorem startCmd_orders (hs : (s.at t).screen rx startCmdService = .run live a) :
    Answers (.startCmd t rx) s fun u =>
      (∀ x, a.start.restart = some x → u.start.restart = some x) ∧
      (a.start.restart = none → u.start.restart = some (100 * ms
        + if a.get E.WHEEL_STATE = 0 then a.now else a.wheel.tickStart + a.wheel.tickLen)) ∧
      (a.inRest = false → u.get E.STANCE_ACTIVE = 3 ∧ u.get E.REST_CAUSE = 3) := by
  refine answers_of_run rfl hs (cmdService_run ..) fun ans => ⟨fun x hx => ?ordered, fun hnone => ?first, fun hrest => ?rest⟩
  case ordered => simp [hx]
  case first =>
    have wheel := State.get_enterRest_ne a 3 (e := E.WHEEL_STATE) (by decide) (by decide) (by decide)
    simp [hnone, wheel, Nat.add_comm]
  case rest =>
    rw [State.get_answer _ _ _ (by decide), State.get_answer _ _ _ (by decide)]
    exact State.get_enterRest hrest 3

/-- ACT_CMD (R672): the fuse is closed. -/
theorem actCmd_closes (hs : (s.at t).screen rx actCmdService = .run live a) :
    Answers (.actCmd t rx) s fun u => u.get E.ACT_FUSE_STATE = 0 :=
  answers_of_run rfl hs (cmdService_run ..) fun _ => (State.get_answer _ _ _ (by decide)).trans (State.get_closeFuse a)

/-- FUSE_SEC_RAISE (R632): the security version of the running image is fused. -/
theorem fuseSecRaise_fuses (hs : (s.at t).screen rx fuseSecRaiseService = .run live a) :
    Answers (.fuseSecRaise t rx) s fun u =>
      u.get E.FUSE_SEC_VERSION = a.get E.FW_SEC_VERSION ∧ u.start.fuseSec = a.get E.FW_SEC_VERSION := by
  refine answers_of_run rfl hs (cmdService_run ..) fun ans => ⟨?_, by simp⟩
  exact (State.get_answer _ _ _ (by decide)).trans (State.get_set_same _ _ _)

/-- FUSE_KEY_REVOKE (R632): fused key slot 0 is revoked. -/
theorem fuseKeyRevoke_fuses (hs : (s.at t).screen rx fuseKeyRevokeService = .run live a) :
    Answers (.fuseKeyRevoke t rx) s fun u =>
      u.get E.FUSE_KEY_REVOKED = setBit a.start.fuseRevoked 0 ∧ u.start.fuseRevoked = setBit a.start.fuseRevoked 0 := by
  refine answers_of_run rfl hs (cmdService_run ..) fun ans => ⟨?_, by simp⟩
  exact (State.get_answer _ _ _ (by decide)).trans (State.get_set_same _ _ _)

end

end Sys2Proof.Machine

namespace Sys2Proof.Proofs

open Sys2Proof Sys2Proof.Machine

/-- Settles O3: with no command waiting the module idles, and a command at the front of the queue runs on the rest of it. -/
theorem stepAnswersInOrder : Obligations.StepAnswersInOrder := by
  unfold Obligations.StepAnswersInOrder
  intro s
  unfold step
  cases hq : s.pending with
  | nil => exact ⟨s, rfl, Nat.le_refl _, hq⟩
  | cons c rest =>
    obtain ⟨z, hz, kept⟩ := exec_kept c { s with pending := rest }
    exact ⟨z, hz, kept.now, kept.pending⟩

/-- Settles O30, command by command. -/
theorem rowProgramAllocates : Obligations.RowProgramAllocates := by
  unfold Obligations.RowProgramAllocates
  refine ⟨?step, ?cutoff, ?settle, ?periodStart, ?periodEnd, ?egress⟩
  case step => exact fun s z t hz hrun hslot hdone => rowProgramStep_marks hz hrun hslot hdone
  case cutoff =>
    exact fun s z t hz hrun hslot hstep hcutoff => measurementCutoff_counts hz hrun hslot hstep hcutoff
  case settle =>
    exact fun s z t slot g hz hg hsettling hsettle hrestart => settleEnd_settles hz hg hsettling hsettle hrestart
  case periodStart =>
    exact fun s z t p hz hrun hp horigin hdue halloc hengine hslew =>
      allocationPeriodStart_opens hz hrun hp horigin hdue halloc hengine hslew
  case periodEnd => exact fun s z t a hz halloc hend => allocationPeriodEnd_closes hz halloc hend
  case egress =>
    exact fun s z t slot v l e g r hz hready hrest hlink hsending hceilings hlist hg hstale hcut hlast hne hlift hend hle =>
      allocateEgressTick_queues hz hready hrest hlink hsending hceilings hlist hg hstale hcut hlast hne hlift hend hle

/-- Settles O39, command by command. -/
theorem writesAct : Obligations.WritesAct := by
  unfold Obligations.WritesAct
  refine ⟨?stance, ?wheelPhase, ?phaseSource, ?loopMode, ?manualValue, ?brEnable, ?histCount, ?accept, ?clearTable⟩
  case stance => exact fun s a t w k rx live r hs he hk hheld => stanceWrite_pends he hk hheld hs
  case wheelPhase =>
    rintro s a t w k key rx live r hs he hk hheld rfl hne
    exact ⟨fun hcount hstate => wheelPhaseWrite_stores he hk hheld hs hne hcount hstate,
      fun hstate => wheelPhaseWrite_relocks he hk hheld hs hne hstate⟩
  case phaseSource =>
    exact fun s a t w k rx live r hs he hk hheld hcount => phaseSourceWrite_clearsTable he hk hheld hcount hs
  case loopMode =>
    exact fun s a t w k rx live r hs he hk hheld hcount => loopModeWrite_voidsAcceptance he hk hheld hcount hs
  case manualValue =>
    exact fun s a t w k rx live r hs he hk hheld hcount => manualValueWrite_stores he hk hheld hcount hs
  case brEnable => exact fun s a t w k rx live r hs he hk hheld hcount => brEnableWrite_stores he hk hheld hcount hs
  case histCount => exact fun s a t w k rx live r hs he hk hheld hcount => histCountWrite_stores he hk hheld hcount hs
  case accept => exact fun s a t i rx live hs hi => loopCmd_runs hs hi rfl
  case clearTable => exact fun s a t i rx live hs hi => loopCmd_runs hs hi rfl

/-- Settles O50, command by command. -/
theorem powerAndFuses : Obligations.PowerAndFuses := by
  unfold Obligations.PowerAndFuses
  refine ⟨?powerLoss, ?framCopy, ?startCmd, ?actCmd, ?fuseSec, ?fuseKey⟩
  case powerLoss => exact fun s z t hz hpower => logicPowerLoss_stops hz hpower
  case framCopy => exact fun s z t hz hpower => framCopyDone_copies hz hpower
  case startCmd => exact fun s a t rx live hs => startCmd_orders hs
  case actCmd => exact fun s a t rx live hs => actCmd_closes hs
  case fuseSec => exact fun s a t rx live hs => fuseSecRaise_fuses hs
  case fuseKey => exact fun s a t rx live hs => fuseKeyRevoke_fuses hs

end Sys2Proof.Proofs
end

section
/-! PROOFS. The statements of spec/02_wheel.md: the fraction of wheel time (R41), the notices and the PTP messages, the
wheel's start, its cycles and its boundaries, and the IOC's link and hand-over. -/

namespace Sys2Proof.Machine

open Sys2Proof

/-! ### The fraction of wheel time (R41) -/

/-- While the tick is not empty, the fraction is the quotient of R41 rounded down. -/
theorem State.fracAt_of_pos {s : State} (h : 0 < s.wheel.tickLen) (x : Nat) :
    s.fracAt x = (x - s.wheel.tickStart) * 65536 / s.wheel.tickLen := if_neg (Nat.ne_of_gt h)

/-! ### Egress in class 1 (R89, R93) -/

/-- Where class 1 has room, its datagram is queued. -/
theorem State.send_class1_egress {s : State} {d : Dgram} (hcls : d.cls = 1) (hlink : s.linkUp = true)
    (hroom : sumOf Dgram.size (s.port.egress.filter fun x => x.cls == 1) + d.size ≤ 8388608) :
    (s.send d).port.egress = s.port.egress ++ [d] := by
  have room : s.port.room d = true := by simp [Port.room, hcls, hroom]
  simp [State.send, hlink, room]

/-- Taking a datagram in leaves the egress queues alone. -/
@[simp] theorem State.take_egress (s : State) (rx : Rx) : (s.take rx).port.egress = s.port.egress := rfl

/-! ### The octets of PTP messages (R60) -/

@[simp] theorem length_beBytes (n v : Nat) : (beBytes n v).length = n := by
  induction n with
  | zero => rfl
  | succ n ih => simp [beBytes, ih]

@[simp] theorem State.length_ptpHeader (s : State) (ty len seq corr ctl log : Nat) :
    (s.ptpHeader ty len seq corr ctl log).length = 34 := by
  simp [State.ptpHeader, clockIdentity]

@[simp] theorem length_ptpStamp (ns : Nat) : (ptpStamp ns).length = 10 := by
  simp [ptpStamp]

/-! ### What the notices and the PTP messages leave (R50, R60, R62, R65) -/

section

variable {s z : State} {t : Nat}

/-- Choosing the length of the next turn at most draws a free value and begins to close the phase error (R49, R50). -/
theorem State.nextTickLen_shape (s : State) : ∃ ctr c,
    s.nextTickLen.2 = { s with freeCtr := ctr, wheel := { s.wheel with closing := c } } := by
  unfold State.nextTickLen
  dsimp only
  split
  next => exact ⟨_, _, rfl⟩
  next =>
    split
    next => exact ⟨_, _, rfl⟩
    next => split <;> exact ⟨_, _, rfl⟩
  next => exact ⟨_, _, rfl⟩

/-- WHEEL_NOTICE (R50, R65): the length of the next turn is set and its notice noted. -/
theorem wheelNotice_notes (hz : z = s.at t) (hstate : z.get E.WHEEL_STATE ≠ 0)
    (hidx : z.wheel.idx = z.ticksPerTurn / 2) (hturn : z.wheel.noticeTurn ≠ some (z.turn + 1)) :
    Answers (.wheelNotice t) s fun u =>
      u.wheel.noticeTurn = some (z.turn + 1) ∧ u.wheel.noticeTick = z.tick ∧ u.wheel.noticeRepeated = false
        ∧ u.wheel.nextLen = some z.nextTickLen.1 := by
  subst hz
  refine ⟨_, rfl, ?_⟩
  generalize s.at t = z at hstate hidx hturn ⊢
  obtain ⟨ctr, c, hshape⟩ := z.nextTickLen_shape
  rw [State.when_of (by simpa [hstate, hidx] using hturn)]
  simp [State.sendNotice, hshape]

/-- WHEEL_NOTICE_REPEAT (R65): the notice is queued again. -/
theorem wheelNoticeRepeat_queues (hz : z = s.at t) (hstate : z.get E.WHEEL_STATE ≠ 0)
    (hfirst : z.wheel.noticeRepeated = false) (hdue : z.wheel.noticeTick + 8 ≤ z.tick) (hlink : z.linkUp = true)
    (hroom : sumOf Dgram.size (z.port.egress.filter fun x => x.cls == 1) + (z.wheel.notice.length + 48) ≤ 8388608) :
    Answers (.wheelNoticeRepeat t) s fun u =>
      u.wheel.noticeRepeated = true
        ∧ ∃ d, u.port.egress = z.port.egress ++ [d] ∧ d.cls = 1 ∧ d.bytes = z.wheel.notice := by
  subst hz
  refine ⟨_, rfl, ?_⟩
  generalize s.at t = z at *
  rw [State.when_of (by simp [hstate, hfirst, hdue]), State.sendNotice]
  exact ⟨by simp, _, State.send_class1_egress rfl hlink (by simpa [Dgram.size] using hroom), rfl, rfl⟩

/-- PTP_SYNC (R60, R62): a Sync of 44 octets is queued and numbered. -/
theorem ptpSync_queues (hz : z = s.at t) (hstate : z.get E.WHEEL_STATE ≠ 0)
    (hdue : z.wheel.syncNext ≤ z.wheel.tickStart) (hlink : z.linkUp = true)
    (hroom : sumOf Dgram.size (z.port.egress.filter fun x => x.cls == 1) + 92 ≤ 8388608) :
    Answers (.ptpSync t) s fun u =>
      u.wheel.ptpSeq = modAt z.wheel.ptpSeq 0 (fun x => (x + 1) % 65536)
        ∧ ∃ d, u.port.egress = z.port.egress ++ [d] ∧ d.cls = 1 ∧ d.dport = 319 ∧ d.tag = 6 ∧ d.bytes.length = 44 := by
  subst hz
  refine ⟨_, rfl, ?_⟩
  generalize s.at t = z at *
  rw [State.when_of (by simp [hstate, hdue])]
  dsimp only [State.sendPtp]
  exact ⟨by simp, _, State.send_class1_egress rfl hlink (by simpa [Dgram.size] using hroom), rfl, rfl, rfl, by simp⟩

/-- PTP_ANNOUNCE (R60): an Announce of 64 octets is queued and numbered. -/
theorem ptpAnnounce_queues (hz : z = s.at t) (hstate : z.get E.WHEEL_STATE ≠ 0) (hdue : z.wheel.announceNext ≤ z.now)
    (hlink : z.linkUp = true)
    (hroom : sumOf Dgram.size (z.port.egress.filter fun x => x.cls == 1) + 112 ≤ 8388608) :
    Answers (.ptpAnnounce t) s fun u =>
      u.wheel.ptpSeq = modAt z.wheel.ptpSeq 1 (fun x => (x + 1) % 65536)
        ∧ ∃ d, u.port.egress = z.port.egress ++ [d] ∧ d.cls = 1 ∧ d.dport = 320 ∧ d.bytes.length = 64 := by
  subst hz
  refine ⟨_, rfl, ?_⟩
  generalize s.at t = z at *
  rw [State.when_of (by simp [hstate, hdue])]
  dsimp only [State.sendPtp]
  exact ⟨by simp, _, State.send_class1_egress rfl hlink (by simpa [Dgram.size, clockIdentity] using hroom), rfl, rfl,
    by simp [clockIdentity]⟩

/-- PTP_DELAY_REQ (R60): a Delay_Resp of 54 octets is queued. -/
theorem ptpDelayReq_queues {rx : Rx} (hz : z = s.at t) (hstate : z.get E.WHEEL_STATE ≠ 0) (hport : rx.dport = 319)
    (hlength : 44 ≤ rx.bytes.length) (htype : field rx.bytes 0 1 % 16 = 1) (hversion : field rx.bytes 1 1 % 16 = 2)
    (hdomain : field rx.bytes 4 1 = z.eff E.PTP_DOMAIN) (hlink : z.linkUp = true)
    (hroom : sumOf Dgram.size (z.port.egress.filter fun x => x.cls == 1) + 102 ≤ 8388608) :
    Answers (.ptpDelayReq t rx) s fun u =>
      ∃ d, u.port.egress = z.port.egress ++ [d] ∧ d.cls = 1 ∧ d.dport = 320 ∧ d.bytes.length = 54 := by
  subst hz
  refine ⟨_, rfl, ?_⟩
  generalize s.at t = z at *
  have domain : (z.take rx).eff E.PTP_DOMAIN = z.eff E.PTP_DOMAIN := rfl
  have state : (z.take rx).get E.WHEEL_STATE = z.get E.WHEEL_STATE := rfl
  have requested : (slice rx.bytes 20 10).length = 10 := by rw [slice, List.length_take, List.length_drop]; omega
  rw [State.when_of (by simp [hstate, hport, hlength, htype, hversion, hdomain, domain, state])]
  dsimp only [State.sendPtp]
  exact ⟨_, State.send_class1_egress rfl hlink (by simpa [Dgram.size, requested] using hroom), rfl, rfl,
    by simp [requested]⟩

end

/-! ### What leaves the wheel alone

The branches of an operation and the steps of its folds leave the wheel alone, so it does. -/

@[simp] theorem State.wheel_ite (c : Prop) [Decidable c] (s t : State) :
    (if c then s else t).wheel = if c then s.wheel else t.wheel := apply_ite State.wheel c s t

@[simp] theorem State.wheel_when {s : State} {f : State → State} (h : (f s).wheel = s.wheel) (b : Bool) :
    (s.when b f).wheel = s.wheel := by simp [State.when, h]

@[simp] theorem State.wheel_foldl {β : Type} {f : State → β → State} (h : ∀ s b, (f s b).wheel = s.wheel) (l : List β)
    (s : State) : (l.foldl f s).wheel = s.wheel := foldl_eq_of_step (p := State.wheel) h l s

theorem State.latch_wheel (s : State) (e : Ent) (b key : Nat) : (s.latch e b key).wheel = s.wheel := by simp

theorem State.set_wheel (s : State) (e : Ent) (v : Nat) : (s.set e v).wheel = s.wheel := by simp

/-! The recorder and the ledger of spared units. -/

@[simp] theorem State.tallied_wheel (s : State) (stack n size : Nat) (m : AMap Nat) :
    (s.tallied stack n size m).wheel = s.wheel := by simp [State.tallied]

@[simp] theorem State.histValue_wheel (s : State) (src sel v : Nat) : (s.histValue src sel v).wheel = s.wheel := by
  simp [State.histValue]

@[simp] theorem State.clearLog_wheel (s : State) : s.clearLog.wheel = s.wheel := by
  simp [State.clearLog]

@[simp] theorem State.recEffect_wheel (s : State) (v : Nat) : (s.recEffect v).wheel = s.wheel := by
  unfold State.recEffect
  split <;> simp

@[simp] theorem State.recorderTick_wheel (s : State) : s.recorderTick.wheel = s.wheel := by
  simp [State.recorderTick]

@[simp] theorem State.recorderTurn_wheel (s : State) : s.recorderTurn.wheel = s.wheel := by
  unfold State.recorderTurn
  split <;> rfl

@[simp] theorem State.ifanSwap_wheel (s : State) : s.ifanSwap.wheel = s.wheel := by
  unfold State.ifanSwap
  split
  next => rfl
  next => simp [State.setVolts, State.setFanState, State.fanSet, State.putFan]

@[simp] theorem State.refreshArrays_wheel (s : State) : s.refreshArrays.wheel = s.wheel := by
  simp [State.refreshArrays]

@[simp] theorem State.startTests_wheel (s : State) : s.startTests.wheel = s.wheel := by
  simp [State.startTests]

/-! The fabric, its programs and the stacks. -/

@[simp] theorem State.putProg_wheel (s : State) (p : Nat) (g : Prog) : (s.putProg p g).wheel = s.wheel := rfl

@[simp] theorem State.refreshProg_wheel (s : State) (p : Nat) : (s.refreshProg p).wheel = s.wheel := by
  simp [State.refreshProg]

@[simp] theorem State.rateTest_wheel (s : State) : s.rateTest.wheel = s.wheel := by
  refine State.wheel_foldl (fun u q => ?_) s.loadedProgs s
  rw [State.refreshProg_wheel, State.wheel_when (by rw [State.latch_wheel])]
  exact State.putProg_wheel _ _ _

@[simp] theorem State.loseStep_wheel (s : State) (p : Nat) : (s.loseStep p).wheel = s.wheel := by
  unfold State.loseStep
  dsimp only
  split
  next => simp
  next => rfl

@[simp] theorem restartHinges_wheel (base : Nat) (hs : AMap Hinge) (s : State) :
    (restartHinges base hs s).wheel = s.wheel := by
  unfold restartHinges
  refine State.wheel_foldl (fun u h => ?_) hs s
  dsimp only
  split <;> simp

@[simp] theorem State.fitLoop_wheel (s : State) (n : Nat) : (s.fitLoop n).wheel = s.wheel := by
  induction n generalizing s with
  | zero => rfl
  | succ n ih =>
    unfold State.fitLoop
    dsimp only
    split
    next => rfl
    next =>
      split
      next => simp [ih]
      next => split <;> simp [ih]

@[simp] theorem State.replace_wheel (s : State) : s.replace.wheel = s.wheel := by
  unfold State.replace
  dsimp only
  rw [State.wheel_when (by simp), State.wheel_foldl fun u q => by simp, State.fitLoop_wheel,
    State.wheel_foldl fun u q => State.putProg_wheel _ _ _]
  simp

@[simp] theorem State.loaderTurn_wheel (s : State) : s.loaderTurn.wheel = s.wheel := by
  simp [State.loaderTurn]

@[simp] theorem State.diePowerTick_wheel (s : State) (p : Nat) : (s.diePowerTick p).wheel = s.wheel := by
  simp [State.diePowerTick]

@[simp] theorem State.stretchAdjust_wheel (s : State) : s.stretchAdjust.wheel = s.wheel := by
  simp [State.stretchAdjust]

@[simp] theorem State.putStack_wheel (s : State) (k : Nat) (x : Stack) : (s.putStack k x).wheel = s.wheel := rfl

@[simp] theorem State.stackTick_wheel (s : State) (u : List Nat) : (s.stackTick u).wheel = s.wheel := by
  simp [State.stackTick]

@[simp] theorem State.unitsTurn_wheel (s : State) (x : TurnIn) : (s.unitsTurn x).wheel = s.wheel := by
  simp [State.unitsTurn]

@[simp] theorem State.everyLong_wheel (s : State) (x : TurnIn) : (s.everyLong x).wheel = s.wheel := by
  simp [State.everyLong]

@[simp] theorem State.giveRole_wheel (s : State) (a : Nat) (isRow borrowed : Bool) :
    (s.giveRole a isRow borrowed).wheel = s.wheel := by
  simp [State.giveRole, State.putArr]

@[simp] theorem State.rowTo_wheel (s : State) (r q : Nat) : (s.rowTo r q).wheel = s.wheel := by
  simp [State.rowTo]

@[simp] theorem State.reserve_wheel (s : State) (n : Nat) : (s.reserve n).wheel = s.wheel := by
  unfold State.reserve
  dsimp only
  rw [State.wheel_ite]
  simp only [State.enterRest_frame, ite_self, State.refreshArrays_wheel]
  rw [State.wheel_foldl fun u r => by simp, State.wheel_foldl fun u r => by simp]

@[simp] theorem State.refreshStore_wheel (s : State) : s.refreshStore.wheel = s.wheel := State.set_wheel s _ _

@[simp] theorem State.refreshHosted_wheel (s : State) : s.refreshHosted.wheel = s.wheel := by
  simp [State.refreshHosted]

@[simp] theorem State.unloadProg_wheel (s : State) (p result : Nat) : (s.unloadProg p result).wheel = s.wheel := by
  simp [State.unloadProg]

@[simp] theorem State.evict_wheel (s : State) (k n : Nat) : (s.evict k n).wheel = s.wheel := by
  induction n generalizing s with
  | zero => rfl
  | succ n ih =>
    unfold State.evict
    dsimp only
    split
    next => rfl
    next =>
      split
      next => rfl
      next => split <;> simp [ih]

@[simp] theorem State.carve_wheel (s : State) (back : Bool) : (s.carve back).wheel = s.wheel := by
  unfold State.carve
  dsimp only
  rw [State.refreshStore_wheel, State.wheel_foldl fun u k => by simp, State.refreshHosted_wheel]

@[simp] theorem State.placeClass_wheel (s : State) (c : Nat) : (s.placeClass c).wheel = s.wheel := by
  unfold State.placeClass
  dsimp only
  split <;> simp

@[simp] theorem State.placeClasses_wheel (s : State) (cs : List Nat) : (s.placeClasses cs).wheel = s.wheel := by
  simp [State.placeClasses]

/-! The start, the stance, the desk, the guard, the row program and its phases. -/

@[simp] theorem State.phaseAdvance_wheel (s : State) (n : Nat) : (s.phaseAdvance n).wheel = s.wheel := by
  unfold State.phaseAdvance
  dsimp only
  split <;> simp

@[simp] theorem State.ceilingSwitch_wheel (s : State) : s.ceilingSwitch.wheel = s.wheel := by
  simp [State.ceilingSwitch]

@[simp] theorem State.emulTick_wheel (s : State) : s.emulTick.wheel = s.wheel := rfl

@[simp] theorem State.detectorTick_wheel (s : State) : s.detectorTick.wheel = s.wheel := rfl

@[simp] theorem State.detect_wheel (s : State) (n : Nat) : (s.detect n).wheel = s.wheel := by
  simp [State.detect]

@[simp] theorem State.countCuts_wheel (s : State) : s.countCuts.wheel = s.wheel := by
  simp [State.countCuts]

@[simp] theorem State.coverTick_wheel (s : State) (c : Nat) : (s.coverTick c).wheel = s.wheel := by
  simp [State.coverTick]

@[simp] theorem State.coherence_wheel (s : State) : s.coherence.wheel = s.wheel := by
  simp [State.coherence]

@[simp] theorem State.stanceApply_wheel (s : State) : s.stanceApply.wheel = s.wheel := by
  unfold State.stanceApply
  split <;> simp

@[simp] theorem State.admitLimit_wheel (s : State) : s.admitLimit.wheel = s.wheel := State.set_wheel s _ _

@[simp] theorem State.admitTurn_wheel (s : State) (len : Nat) : (s.admitTurn len).wheel = s.wheel := by
  simp [State.admitTurn]

@[simp] theorem State.guardTurn_wheel (s : State) : s.guardTurn.wheel = s.wheel := by
  simp [State.guardTurn]

@[simp] theorem State.classTurn_wheel (s : State) : s.classTurn.wheel = s.wheel := by
  simp [State.classTurn]

/-! The valves and the field bus. -/

@[simp] theorem State.valveTick_wheel (s : State) (coils : List (Nat × Nat)) (banks : List Nat) (rail : Nat) :
    (s.valveTick coils banks rail).wheel = s.wheel := by
  simp [State.valveTick]

@[simp] theorem State.valveOffCheck_wheel (s : State) (noCoil : List Nat) : (s.valveOffCheck noCoil).wheel = s.wheel := by
  simp [State.valveOffCheck, State.valveFault, State.clearValveFault]

@[simp] theorem State.valveTurn_wheel (s : State) : s.valveTurn.wheel = s.wheel := by
  simp [State.valveTurn, State.putBank]

@[simp] theorem State.putPort_wheel (s : State) (p : Nat) (x : FbPort) : (s.putPort p x).wheel = s.wheel := rfl

@[simp] theorem State.suppress_wheel (s : State) (p : Nat) : (s.suppress p).wheel = s.wheel := by
  simp [State.suppress, State.putTx]

@[simp] theorem State.loadCheck_wheel (s : State) (p len busy : Nat) : (s.loadCheck p len busy).wheel = s.wheel := by
  simp [State.loadCheck]

@[simp] theorem State.fbTick_wheel (s : State) (len : Nat) (busy : List Nat) : (s.fbTick len busy).wheel = s.wheel := by
  refine State.wheel_foldl (fun u p => ?_) _ s
  dsimp only
  split <;> simp

@[simp] theorem State.fbTurn_wheel (s : State) : s.fbTurn.wheel = s.wheel := by
  simp [State.fbTurn]

/-! The plant, the module's own sensors and the cage. -/

@[simp] theorem State.putAin_wheel (s : State) (n : Nat) (x : Ain) : (s.putAin n x).wheel = s.wheel := rfl

@[simp] theorem State.ainFaultTo_wheel (s : State) (n f : Nat) : (s.ainFaultTo n f).wheel = s.wheel := by
  simp [State.ainFaultTo]

@[simp] theorem State.ainLatch_wheel (s : State) (n : Nat) (x : Int) : (s.ainLatch n x).wheel = s.wheel := by
  simp [State.ainLatch]

@[simp] theorem State.ainTick_wheel (s : State) (xs : List Int) : (s.ainTick xs).wheel = s.wheel := by
  simp [State.ainTick]

@[simp] theorem State.ainReference_wheel (s : State) (bad : List Nat) : (s.ainReference bad).wheel = s.wheel := by
  simp [State.ainReference]

@[simp] theorem State.angleTick_wheel (s : State) (len : Nat) (xs : List AngleIn) :
    (s.angleTick len xs).wheel = s.wheel := by
  simp [State.angleTick, State.angleLatch, State.putAngle]

@[simp] theorem State.mainsTurn_wheel (s : State) (v : List Nat) (rotation : Nat) :
    (s.mainsTurn v rotation).wheel = s.wheel := by
  simp [State.mainsTurn]

@[simp] theorem State.pumpTurn_wheel (s : State) : s.pumpTurn.wheel = s.wheel := by
  simp [State.pumpTurn]

@[simp] theorem State.showTemps_wheel (s : State) (e : Ent) (l : List Int) : (s.showTemps e l).wheel = s.wheel := by
  simp [State.showTemps]

@[simp] theorem State.showFeeds_wheel (s : State) (x : TickIn) : (s.showFeeds x).wheel = s.wheel := by
  simp [State.showFeeds]

@[simp] theorem State.coolQuarantine_wheel (s : State) (k : Nat) : (s.coolQuarantine k).wheel = s.wheel := by
  simp [State.coolQuarantine]

@[simp] theorem State.coolPairs_wheel (s : State) (x : TickIn) : (s.coolPairs x).wheel = s.wheel := by
  unfold State.coolPairs
  dsimp only
  refine (State.wheel_foldl (fun u p => ?die) _ _).trans ?inlet
  case die =>
    split
    next => rfl
    next => split <;> simp
  case inlet =>
    split
    next => split <;> simp
    next => rfl

@[simp] theorem State.coolGuard_wheel (s : State) (inlet die : Int) : (s.coolGuard inlet die).wheel = s.wheel := by
  simp [State.coolGuard, State.refreshCeiling]

@[simp] theorem State.putQuantity_wheel (s : State) (n : Nat) (v : Br) (tick : Option Nat) :
    (s.putQuantity n v tick).wheel = s.wheel := rfl

@[simp] theorem State.coolingTick_wheel (s : State) (x : TickIn) : (s.coolingTick x).wheel = s.wheel := by
  unfold State.coolingTick
  dsimp only
  rw [State.coolGuard_wheel, State.coolPairs_wheel]
  split
  next => rw [State.putQuantity_wheel]; split <;> simp
  next => rw [State.putQuantity_wheel]; split <;> simp

@[simp] theorem State.lanesTurn_wheel (s : State) (x : TurnIn) : (s.lanesTurn x).wheel = s.wheel := by
  simp [State.lanesTurn]

/-! ### The tick and the turn in progress -/

/-- The IOC latches its instant at the boundary; the tick in progress is the wheel's. -/
@[simp] theorem State.iocTick_tick (s : State) (len : Nat) (x : TickIn) :
    (s.iocTick len x).wheel.tick = s.wheel.tick := by
  unfold State.iocTick
  dsimp only
  split
  next => rfl
  next => simp

theorem State.newTurn_tick (s : State) : s.newTurn.wheel.tick = s.wheel.tick + 1 := by
  obtain ⟨ctr, c, hshape⟩ := s.nextTickLen_shape
  unfold State.newTurn
  dsimp only
  split
  next => rfl
  next => simp [hshape]

/-- The tick that begins is the next one, within the turn or in the next (R42, R43). -/
theorem State.newTick_tick (s : State) : s.newTick.wheel.tick = s.wheel.tick + 1 := by
  unfold State.newTick
  split
  next => rfl
  next => exact s.newTurn_tick

section

variable {s z : State} {t : Nat}

/-- TICK_BOUNDARY (R42, R57): the next tick begins, and what every chapter does at the boundary leaves it. -/
theorem tickBoundary_advances {x : TickIn} (hz : z = s.at t) (hstate : z.get E.WHEEL_STATE ≠ 0) (hpower : z.elec.power = 1)
    (hend : z.wheel.tickStart + z.wheel.tickLen ≤ z.now) :
    Answers (.tickBoundary t x) s fun u => u.wheel.tick = z.wheel.tick + 1 := by
  subst hz
  refine ⟨_, rfl, ?_⟩
  generalize s.at t = z at *
  rw [State.when_of (by simp [hstate, hpower, hend])]
  simp [State.newTick_tick]

/-- TURN_BOUNDARY (R303): the boundary's work is marked as done, and none of it touches the wheel. -/
theorem turnBoundary_marks {x : TurnIn} (hz : z = s.at t) (hstate : z.get E.WHEEL_STATE ≠ 0) (hpower : z.elec.power = 1)
    (hidx : z.wheel.idx = 0) (hfirst : z.wheel.turnDone = false) :
    Answers (.turnBoundary t x) s fun u => u.wheel.turnDone = true := by
  subst hz
  refine ⟨_, rfl, ?_⟩
  generalize s.at t = z at *
  rw [State.when_of (by simp [hstate, hpower, hidx, hfirst])]
  simp

end

theorem State.when_of_not {s : State} {b : Bool} {f : State → State} (h : b = false) : s.when b f = s := by
  rw [h]
  rfl

/-! ### The wheel's states (R47, R54) -/

@[simp] theorem State.setWheelState_wheel (s : State) (v : Nat) : (s.setWheelState v).wheel = s.wheel := by
  simp [State.setWheelState]

theorem State.get_setWheelState (s : State) (v : Nat) : (s.setWheelState v).get E.WHEEL_STATE = v := by
  unfold State.setWheelState
  rw [State.get_set_ne _ _ _ _ (by decide)]
  exact State.get_set_same _ _ _

/-- Entry into Holdover starts the run of valid cycles again, and leaves the crossings and their absence as noted. -/
theorem State.enterHoldover_wheel (s : State) : s.enterHoldover.wheel.validRun = 0
    ∧ s.enterHoldover.wheel.absentSeen = s.wheel.absentSeen ∧ s.enterHoldover.wheel.cross = s.wheel.cross := by
  simp [State.enterHoldover]

theorem State.get_enterHoldover (s : State) : s.enterHoldover.get E.WHEEL_STATE = 2 :=
  (State.get_latch_ne _ _ _ _ _ (by decide) (by decide)).trans (State.get_setWheelState _ _)

/-- The wheel in turn 0, which begins at `x` (R43, R48). -/
theorem State.beginTurn0_wheel (s : State) (x len st : Nat) :
    (s.beginTurn0 x len st).wheel.tick = 0 ∧ (s.beginTurn0 x len st).wheel.turn = 0
      ∧ (s.beginTurn0 x len st).wheel.tickStart = x ∧ (s.beginTurn0 x len st).wheel.waitFrom = none
      ∧ (s.beginTurn0 x len st).wheel.cross = s.wheel.cross := by
  simp [State.beginTurn0, State.sendNotice]

/-- A step before the last ends with the next in progress (R624). -/
theorem State.endStep_step (s : State) {k : Nat} (h : k < 14) : (s.endStep k).start.step = k + 1 := by
  simp [State.endStep, h, State.beginStep, State.putDiary]

/-- Turn 0 ends the wheel step (R624). -/
theorem State.beginTurn0_step {s : State} (h : s.start.step = 12) (x len st : Nat) :
    (s.beginTurn0 x len st).start.step = 13 := by
  unfold State.beginTurn0
  dsimp only
  rw [if_pos (by simp [State.sendNotice, State.setWheelState, h])]
  exact State.endStep_step _ (by decide)

/-! ### The crossings that a cycle notes (R45, R46) -/

@[simp] theorem State.cross_when {s : State} {f : State → State} (h : (f s).wheel.cross = s.wheel.cross) (b : Bool) :
    (s.when b f).wheel.cross = s.wheel.cross := by
  cases b
  case false => rfl
  case true => exact h

@[simp] theorem State.validCycle_cross (s : State) (p : Nat) : (s.validCycle p).wheel.cross = s.wheel.cross := by
  unfold State.validCycle
  dsimp only
  split
  next => rw [State.cross_when (by simp [State.enterRelock])]; simp
  next => rw [State.cross_when (by simp)]; simp
  next => simp

@[simp] theorem State.badCycle_cross (s : State) (range : Bool) : (s.badCycle range).wheel.cross = s.wheel.cross := by
  unfold State.badCycle
  dsimp only
  split
  next => simp [(State.enterHoldover_wheel _).2.2]
  next => simp

section

variable {s z : State} {t : Nat}

/-- WHEEL_STEP (R48, R624): the wait for a valid cycle begins, and the origin of wheel time is read. -/
theorem wheelStep_waits {x : Nat} (hz : z = s.at t) (hstep : z.inStep 12 = true) (hwait : z.wheel.waitFrom = none)
    (hstart : z.wheel.startAt = some x) (hdue : x ≤ z.now) :
    Answers (.wheelStep t) s fun u =>
      u.wheel.waitFrom = some z.now ∧ u.wheel.startAt = none ∧ u.wheel.originS = z.get E.PTP_ORIGIN_S := by
  subst hz
  refine ⟨_, rfl, ?_⟩
  generalize s.at t = z at *
  rw [State.when_of (by simp [hstep, hwait, hstart, hdue])]
  exact ⟨rfl, rfl, rfl⟩

/-- WHEEL_START_TIMEOUT (R48): turn 0 begins at once and ends the wheel step. -/
theorem wheelStartTimeout_begins {f : Nat} (hz : z = s.at t) (hwait : z.wheel.waitFrom = some f)
    (hpassed : z.halfTurnsPassed f 4 = true) :
    Answers (.wheelStartTimeout t) s fun u =>
      u.wheel.tick = 0 ∧ u.wheel.turn = 0 ∧ u.wheel.tickStart = z.now ∧ u.wheel.waitFrom = none
        ∧ (z.start.step = 12 → u.start.step = 13) := by
  subst hz
  refine ⟨_, rfl, ?_⟩
  generalize s.at t = z at *
  simp only [hwait]
  rw [State.when_of hpassed]
  obtain ⟨htick, hturn, hstart, hnone, -⟩ := z.beginTurn0_wheel z.now z.nominal 2
  exact ⟨htick, hturn, hstart, hnone, fun hstep => State.beginTurn0_step hstep _ _ _⟩

/-- MAINS_CYCLE (R45 to R48): the crossing is noted, and that of another phase than the reference changes no entry. -/
theorem mainsCycle_notes {phase : Nat} (hz : z = s.at t) :
    Answers (.mainsCycle t phase) s fun u =>
      u.wheel.cross = modAt z.wheel.cross phase (fun _ => some z.now)
        ∧ (phase ≠ z.get E.WHEEL_REF_PHASE → u.regs = z.regs) := by
  subst hz
  refine ⟨_, rfl, ?cross, fun hother => ?regs⟩
  case cross =>
    refine (State.cross_when ?_ _).trans rfl
    dsimp only
    split
    next => rfl
    next =>
      split
      next => rw [State.cross_when (by simp [State.beginTurn0_wheel])]
      next =>
        split
        next => rw [State.cross_when (by simp)]
        next => split <;> simp
  case regs =>
    rw [State.when_of_not (by exact beq_eq_false_iff_ne.2 hother)]

/-- MAINS_ABSENT (R53, R56): the absence is noted, and Locked and Relocking end in Holdover. -/
theorem mainsAbsent_holds (hz : z = s.at t) (hstate : z.get E.WHEEL_STATE ≠ 0) (hfirst : z.wheel.absentSeen = false)
    (hpassed : z.halfTurnsPassed ((nth z.wheel.cross (z.get E.WHEEL_REF_PHASE) none).getD z.wheel.origin) 3 = true) :
    Answers (.mainsAbsent t) s fun u =>
      u.wheel.absentSeen = true ∧ u.wheel.validRun = 0
        ∧ (z.get E.WHEEL_STATE = 1 ∨ z.get E.WHEEL_STATE = 3 → u.get E.WHEEL_STATE = 2) := by
  subst hz
  refine ⟨_, rfl, ?_⟩
  generalize s.at t = z at *
  rw [State.when_of (by simp [hstate, hfirst, hpassed])]
  dsimp only
  generalize hy : State.latch _ E.WHEEL_LATCHES 4 = y
  have wheel : y.wheel.absentSeen = true ∧ y.wheel.validRun = 0 := by simp [← hy]
  have state : y.get E.WHEEL_STATE = z.get E.WHEEL_STATE := by
    rw [← hy]
    exact State.get_latch_ne _ _ _ _ _ (by decide) (by decide)
  by_cases hlocked : z.get E.WHEEL_STATE = 1 ∨ z.get E.WHEEL_STATE = 3
  · obtain ⟨hvalid, habsent, -⟩ := y.enterHoldover_wheel
    rw [State.when_of (by simpa [state] using hlocked)]
    exact ⟨habsent.trans wheel.1, hvalid, fun _ => y.get_enterHoldover⟩
  · rw [State.when_of_not (by simpa [state] using hlocked)]
    exact ⟨wheel.1, wheel.2, fun h => absurd h hlocked⟩

/-- HOLDOVER_LONG (R51, R53): the latch is set once. -/
theorem holdoverLong_latches (hz : z = s.at t) (hstate : z.get E.WHEEL_STATE = 2) (hlimit : z.get E.HOLDOVER_LIMIT ≠ 0)
    (hfirst : z.wheel.longDone = false) (hdue : z.wheel.holdFrom + z.get E.HOLDOVER_LIMIT * sec ≤ z.now) :
    Answers (.holdoverLong t) s fun u =>
      u.wheel.longDone = true ∧ u.get E.WHEEL_LATCHES = setBit (z.get E.WHEEL_LATCHES) 1 := by
  subst hz
  refine ⟨_, rfl, ?_⟩
  generalize s.at t = z at *
  rw [State.when_of (by simpa [hstate, hlimit, hfirst] using hdue)]
  exact ⟨by rw [State.latch_wheel], State.get_latch_same _ _ _ _ (by decide)⟩

end

/-! ### The roles of the units (R646, R654) -/

theorem State.unit_congr {s t : State} (h : t.wear = s.wear) (row : Nat) : t.unit row = s.unit row := by
  unfold State.unit
  rw [h]

theorem State.unit_putUnit_same (s : State) (row : Nat) (u : LedgerUnit) : (s.putUnit row u).unit row = u := by
  simp [State.unit, State.putUnit, AMap.getD, AMap.get_set_same]

/-- A unit holds the role it took. -/
theorem State.unit_setRole_role (s : State) (row role serves : Nat) :
    ((s.setRole row role serves).unit row).role = role := by
  have counted (u : State) (k : Nat) : (u.refreshKind k).unit row = u.unit row := State.unit_congr (by simp) row
  unfold State.setRole
  rw [counted, State.unit_putUnit_same]

/-- A spare that is promoted is active. -/
theorem State.unit_promote_role (s : State) (row serves : Nat) : ((s.promote row serves).unit row).role = 0 := by
  have counted (u : State) (e f : Ent) (k b key : Nat) : ((u.incU e k).latch f b key).unit row = u.unit row :=
    State.unit_congr (by simp) row
  unfold State.promote
  rw [counted, State.unit_setRole_role]

/-! ### The marks of the IOC (R38, R57) -/

/-- The marks of the IOC: whether its link is lost, whether the rest owner's order has begun, and the ticks of its last
delivery, hand-off and update. -/
def State.iocMarks (s : State) : Bool × Bool × Option Nat × Option Nat × Option Nat :=
  (s.ioc.linkLost, s.ioc.restFans, s.ioc.delivered, s.ioc.handed, s.ioc.updated)

theorem State.iocMarks_congr {s t : State} (h : t.ioc = s.ioc) : t.iocMarks = s.iocMarks := by
  unfold State.iocMarks
  rw [h]

/-- What keeps the marks keeps each of them. -/
theorem ioc_of_iocMarks {s t : State} (h : t.iocMarks = s.iocMarks) :
    t.ioc.linkLost = s.ioc.linkLost ∧ t.ioc.restFans = s.ioc.restFans ∧ t.ioc.delivered = s.ioc.delivered
      ∧ t.ioc.handed = s.ioc.handed ∧ t.ioc.updated = s.ioc.updated := by
  simpa [State.iocMarks] using h

@[simp] theorem State.iocMarks_ite (c : Prop) [Decidable c] (s t : State) :
    (if c then s else t).iocMarks = if c then s.iocMarks else t.iocMarks := apply_ite State.iocMarks c s t

@[simp] theorem State.iocMarks_when {s : State} {f : State → State} (h : (f s).iocMarks = s.iocMarks) (b : Bool) :
    (s.when b f).iocMarks = s.iocMarks := by simp [State.when, h]

@[simp] theorem State.iocMarks_foldl {β : Type} {f : State → β → State} (h : ∀ s b, (f s b).iocMarks = s.iocMarks)
    (l : List β) (s : State) : (l.foldl f s).iocMarks = s.iocMarks := foldl_eq_of_step (p := State.iocMarks) h l s

@[simp] theorem State.setU_iocMarks (s : State) (e : Ent) (u v : Nat) : (s.setU e u v).iocMarks = s.iocMarks := rfl

@[simp] theorem State.incU_iocMarks (s : State) (e : Ent) (u : Nat) : (s.incU e u).iocMarks = s.iocMarks := rfl

@[simp] theorem State.latchU_iocMarks (s : State) (e : Ent) (u b key : Nat) :
    (s.latchU e u b key).iocMarks = s.iocMarks := State.iocMarks_congr (by simp)

@[simp] theorem State.latch_iocMarks (s : State) (e : Ent) (b key : Nat) :
    (s.latch e b key).iocMarks = s.iocMarks := State.iocMarks_congr (by simp)

@[simp] theorem State.enterRest_iocMarks (s : State) (cause : Nat) : (s.enterRest cause).iocMarks = s.iocMarks :=
  State.iocMarks_congr (by simp)

@[simp] theorem State.putAin_iocMarks (s : State) (n : Nat) (x : Ain) : (s.putAin n x).iocMarks = s.iocMarks := rfl

@[simp] theorem State.putAngle_iocMarks (s : State) (n : Nat) (x : Angle) : (s.putAngle n x).iocMarks = s.iocMarks := rfl

@[simp] theorem State.putEng_iocMarks (s : State) (n : Nat) (x : Eng) : (s.putEng n x).iocMarks = s.iocMarks := rfl

@[simp] theorem State.putValve_iocMarks (s : State) (c : Nat) (x : Valve) : (s.putValve c x).iocMarks = s.iocMarks := rfl

@[simp] theorem State.putBank_iocMarks (s : State) (b : Nat) (x : Bank) : (s.putBank b x).iocMarks = s.iocMarks := rfl

@[simp] theorem State.putFan_iocMarks (s : State) (c : Nat) (x : Fan) : (s.putFan c x).iocMarks = s.iocMarks := rfl

@[simp] theorem State.putRx_iocMarks (s : State) (k : Nat) (x : RxObj) : (s.putRx k x).iocMarks = s.iocMarks := rfl

@[simp] theorem State.putTx_iocMarks (s : State) (k : Nat) (x : TxObj) : (s.putTx k x).iocMarks = s.iocMarks := rfl

@[simp] theorem State.putPort_iocMarks (s : State) (p : Nat) (x : FbPort) : (s.putPort p x).iocMarks = s.iocMarks := rfl

@[simp] theorem State.setObj_iocMarks (s : State) (e : Ent) (k v : Nat) : (s.setObj e k v).iocMarks = s.iocMarks := rfl

theorem State.stagger_iocMarks (s : State) (l : List Nat) (x : Nat) :
    ({ s with ioc := { s.ioc with stagger := l, staggerAt := x } } : State).iocMarks = s.iocMarks := rfl

/-! Delivery and hand-off. -/

@[simp] theorem State.tallied_ioc (s : State) (stack n size : Nat) (m : AMap Nat) :
    (s.tallied stack n size m).ioc = s.ioc := by
  simp [State.tallied, apply_ite State.ioc]

@[simp] theorem State.histValue_iocMarks (s : State) (src sel v : Nat) :
    (s.histValue src sel v).iocMarks = s.iocMarks := by
  refine State.iocMarks_congr ?_
  unfold State.histValue
  dsimp only
  split
  next => rfl
  next => exact foldl_eq_of_step (p := State.ioc) (fun u q => by simp) _ s

@[simp] theorem State.deliver_iocMarks (s : State) (late : List Nat) : (s.deliver late).iocMarks = s.iocMarks := by
  unfold State.deliver
  dsimp only
  refine (State.iocMarks_foldl (fun u p => by simp) _ _).trans ?_
  refine (State.iocMarks_foldl (fun u c => ?fan) _ _).trans ?_
  case fan => split <;> simp
  refine (State.iocMarks_foldl (fun u p => ?angle) _ _).trans (State.iocMarks_foldl (fun u p => ?ain) _ _)
  case angle => split <;> simp
  case ain => split <;> simp

@[simp] theorem State.writeTx_iocMarks (s : State) (k off : Nat) (new : Bytes) :
    (s.writeTx k off new).iocMarks = s.iocMarks := by
  simp [State.writeTx]

@[simp] theorem State.handOff_iocMarks (s : State) (n : Nat) : (s.handOff n).iocMarks = s.iocMarks := by
  unfold State.handOff
  dsimp only
  split <;> simp

/-! The valves. -/

@[simp] theorem State.clearValveFault_iocMarks (s : State) (c b : Nat) :
    (s.clearValveFault c b).iocMarks = s.iocMarks := rfl

@[simp] theorem State.setPhase_iocMarks (s : State) (c ph : Nat) : (s.setPhase c ph).iocMarks = s.iocMarks := by
  simp [State.setPhase]

@[simp] theorem State.leaveQueue_iocMarks (s : State) (c : Nat) : (s.leaveQueue c).iocMarks = s.iocMarks := by
  simp [State.leaveQueue]

@[simp] theorem State.abandonSeat_iocMarks (s : State) (c : Nat) : (s.abandonSeat c).iocMarks = s.iocMarks := by
  unfold State.abandonSeat State.endSeat
  dsimp only
  split <;> rfl

@[simp] theorem State.startBoost_iocMarks (s : State) (c : Nat) : (s.startBoost c).iocMarks = s.iocMarks := by
  simp [State.startBoost]

@[simp] theorem State.energise_iocMarks (s : State) (c : Nat) : (s.energise c).iocMarks = s.iocMarks := by
  simp [State.energise]

@[simp] theorem State.deenergise_iocMarks (s : State) (c : Nat) : (s.deenergise c).iocMarks = s.iocMarks := by
  simp [State.deenergise, State.openSeat]

@[simp] theorem State.tryEnergise_iocMarks (s : State) (c : Nat) : (s.tryEnergise c).iocMarks = s.iocMarks := by
  simp [State.tryEnergise]

@[simp] theorem State.latchValve_iocMarks (s : State) (c : Nat) : (s.latchValve c).iocMarks = s.iocMarks := by
  simp [State.latchValve]

@[simp] theorem State.latchValves_iocMarks (s : State) : s.latchValves.iocMarks = s.iocMarks :=
  State.iocMarks_foldl State.latchValve_iocMarks _ s

@[simp] theorem State.valvesOff_iocMarks (s : State) : s.valvesOff.iocMarks = s.iocMarks := by
  simp [State.valvesOff]

/-! The fans and the field bus. -/

@[simp] theorem State.fanFull_iocMarks (s : State) (c : Nat) : (s.fanFull c).iocMarks = s.iocMarks := by
  simp [State.fanFull, State.setVolts, State.setFanState, State.fanSet]

@[simp] theorem State.queueTx_iocMarks (s : State) (k : Nat) (periodic : Bool) :
    (s.queueTx k periodic).iocMarks = s.iocMarks := by
  simp [State.queueTx]

@[simp] theorem State.queueDue_iocMarks (s : State) (k : Nat) : (s.queueDue k).iocMarks = s.iocMarks := by
  simp [State.queueDue]

@[simp] theorem State.offer_iocMarks (s : State) (p : Nat) : (s.offer p).iocMarks = s.iocMarks := by
  unfold State.offer
  dsimp only
  split
  next => rfl
  next => split <;> simp

@[simp] theorem State.queuePorts_iocMarks (s : State) : s.queuePorts.iocMarks = s.iocMarks := by
  simp [State.queuePorts]

/-! ### What the IOC's commands leave -/

section

variable {s z : State} {t : Nat}

/-- IOC_LANE_FAIL (R27, R655): an active lane that is fenced waits for a spare from this turn on. -/
theorem iocLaneFail_waits {lane row : Nat} (hz : z = s.at t) (hrow : row = kindRow 16 + lane) (hrun : z.fwRuns = true)
    (hlane : lane < 14) (hrole : (z.unit row).role = 0) :
    Answers (.iocLaneFail t lane) s fun u => u.ioc.lanesFailed = z.ioc.lanesFailed ++ [z.turn] := by
  subst hz hrow
  refine ⟨_, rfl, ?_⟩
  generalize s.at t = z at *
  rw [State.when_of (by simp [hrun, hlane, hrole])]
  simp [hrole, State.turn]

/-- IOC_LANE_SPARE (R27): the best spare takes the place of the lane that failed in an earlier turn. -/
theorem iocLaneSpare_promotes {n r : Nat} (hz : z = s.at t) (hrun : z.fwRuns = true) (hidx : z.wheel.idx = 0)
    (hfailed : z.ioc.lanesFailed = [n]) (hturn : n < z.turn) (hspare : z.bestSpare (kindRows 16) = some r) :
    Answers (.iocLaneSpare t) s fun u => u.ioc.lanesFailed = [] ∧ (u.unit r).role = 0 := by
  subst hz
  refine ⟨_, rfl, ?_⟩
  generalize s.at t = z at *
  have due : z.ioc.lanesFailed.filter (fun n => decide (n < z.turn)) = [n] := by simp [hfailed, hturn]
  have waiting : z.ioc.lanesFailed.filter (fun n => decide (z.turn ≤ n)) = [] := by simp [hfailed, hturn]
  rw [State.when_of (by simp [hrun, hidx])]
  dsimp only
  rw [due, waiting, List.foldl_cons, List.foldl_nil]
  generalize hy : State.mk _ _ _ _ _ _ _ _ _ _ _ _ _ _ _ _ _ _ _ _ _ _ _ _ _ = y
  have spare : y.bestSpare (kindRows 16) = some r := by rw [← hy]; exact hspare
  have empty : y.ioc.lanesFailed = [] := by rw [← hy]
  simp only [spare]
  exact ⟨by simpa using empty, y.unit_promote_role r 0xFFFF⟩

/-- IOC_LINK_LOSS (R38): the loss and the rest owner's order stand when the outputs have their rest values. -/
theorem iocLinkLoss_marks (hz : z = s.at t) (hrun : z.fwRuns = true) (hlink : z.ioc.linkLost = false) :
    Answers (.iocLinkLoss t) s fun u => u.ioc.linkLost = true ∧ u.ioc.restFans = true := by
  subst hz
  refine ⟨_, rfl, ?_⟩
  generalize s.at t = z at *
  rw [State.when_of (by simp [hrun, hlink])]
  dsimp only
  have marked {u : State} (h : u.iocMarks = (true, true, z.ioc.delivered, z.ioc.handed, z.ioc.updated)) :
      u.ioc.linkLost = true ∧ u.ioc.restFans = true := by
    obtain ⟨hlost, hrest, -⟩ := ioc_of_iocMarks
      (s := { z with ioc := { z.ioc with linkLost := true, restFans := true } }) h
    exact ⟨hlost, hrest⟩
  refine marked ?_
  rw [State.enterRest_iocMarks]
  split
  next => exact (State.iocMarks_foldl (fun u p => by simp) _ _).trans (State.valvesOff_iocMarks _)
  next =>
    rw [State.fanFull_iocMarks, State.stagger_iocMarks]
    exact (State.iocMarks_foldl (fun u p => by simp) _ _).trans (State.valvesOff_iocMarks _)

/-- CHIP_LEVEL_ERROR (R29, R38): the module enters the rest stance with cause 1. -/
theorem chipLevelError_rests (hz : z = s.at t) (hrun : z.fwRuns = true) (hrest : z.inRest = false) :
    Answers (.chipLevelError t) s fun u => u.get E.STANCE_ACTIVE = 3 ∧ u.get E.REST_CAUSE = 1 := by
  subst hz
  refine ⟨_, rfl, ?_⟩
  rw [State.when_of hrun]
  exact State.get_enterRest hrest 1

/-- DIE_OVERTEMP_ERROR (R578): 8 hot ticks in a row are a chip-level error. -/
theorem dieOvertempError_rests (hz : z = s.at t) (hrun : z.fwRuns = true) (hhot : 8 ≤ z.plant.dieHotRun)
    (hrest : z.inRest = false) :
    Answers (.dieOvertempError t) s fun u => u.get E.STANCE_ACTIVE = 3 ∧ u.get E.REST_CAUSE = 1 := by
  subst hz
  refine ⟨_, rfl, ?_⟩
  rw [State.when_of (by simpa [hrun] using hhot)]
  exact State.get_enterRest hrest 1

/-- SENSOR_DELIVERY (R57): the tick is marked as delivered. -/
theorem sensorDelivery_marks {x : SensorIn} (hz : z = s.at t) (hrun : z.fwRuns = true) (hlink : z.ioc.linkLost = false)
    (hfirst : z.ioc.delivered ≠ some z.tick) :
    Answers (.sensorDelivery t x) s fun u => u.ioc.delivered = some z.tick := by
  subst hz
  refine ⟨_, rfl, ?_⟩
  generalize s.at t = z at *
  rw [State.when_of (by simp [hrun, hlink, hfirst])]
  have kept (u : State) : (u.deliver x.late).ioc.delivered = u.ioc.delivered := by
    obtain ⟨-, -, hdelivered, -⟩ := ioc_of_iocMarks (u.deliver_iocMarks x.late)
    exact hdelivered
  dsimp only
  rw [kept]

/-- OUTPUT_HANDOFF (R57): the tick is marked as handed over. -/
theorem outputHandoff_marks (hz : z = s.at t) (hrun : z.fwRuns = true) (hlink : z.ioc.linkLost = false)
    (hslot : z.pastSlot 40 = true) (hfirst : z.ioc.handed ≠ some z.tick) :
    Answers (.outputHandoff t) s fun u => u.ioc.handed = some z.tick := by
  subst hz
  refine ⟨_, rfl, ?_⟩
  generalize s.at t = z at *
  rw [State.when_of (by simp [hrun, hlink, hslot, hfirst])]
  have kept (u : State) (l : AMap Eng) :
      (l.foldl (fun s p => if (s.eng p.1).send then s.handOff p.1 else s) u).iocMarks = u.iocMarks :=
    State.iocMarks_foldl (fun u p => by simp) l u
  obtain ⟨-, -, -, hhanded, -⟩ := ioc_of_iocMarks
    (kept { z with ioc := { z.ioc with handed := some z.tick } } z.ioc.engines)
  exact hhanded

/-- ACTUATOR_UPDATE (R57): the tick is marked as updated. -/
theorem actuatorUpdate_marks (hz : z = s.at t) (hpower : z.elec.power = 1) (hrunning : 0 < z.wheel.tickLen)
    (hslot : z.pastSlot 50 = true) (hfirst : z.ioc.updated ≠ some z.tick) (hlink : z.ioc.linkLost = false) :
    Answers (.actuatorUpdate t) s fun u => u.ioc.updated = some z.tick := by
  subst hz
  refine ⟨_, rfl, ?_⟩
  generalize s.at t = z at *
  rw [State.when_of (by simp [hpower, hrunning, hslot, hfirst, hlink])]
  have kept (u : State) (b : Bool) : (u.latchValves.when b State.queuePorts).iocMarks = u.iocMarks := by simp
  obtain ⟨-, -, -, -, hupdated⟩ := ioc_of_iocMarks
    (kept { z with ioc := { z.ioc with updated := some z.tick } } _)
  exact hupdated

end

end Sys2Proof.Machine

namespace Sys2Proof.Proofs

open Sys2Proof Sys2Proof.Machine

/-- Settles O10, by the division that defines the fraction. -/
theorem fractionRoundsDown : Obligations.FractionRoundsDown := by
  unfold Obligations.FractionRoundsDown
  intro s x hstart hend
  have pos : 0 < s.wheel.tickLen := by omega
  rw [State.fracAt_of_pos pos]
  refine ⟨?below, Nat.div_mul_le_self _ _, ?next⟩
  case below =>
    rw [Nat.div_lt_iff_lt_mul pos, Nat.mul_comm 65536]
    exact Nat.mul_lt_mul_of_pos_right (by omega) (by decide)
  case next => exact Nat.lt_mul_of_div_lt (Nat.lt_succ_self _) pos

/-- Settles O18, command by command. -/
theorem noticesAndPtpLeave : Obligations.NoticesAndPtpLeave := by
  unfold Obligations.NoticesAndPtpLeave
  refine ⟨?notice, ?again, ?sync, ?announce, ?delayReq⟩
  case notice => exact fun s z t hz hstate hidx hturn => wheelNotice_notes hz hstate hidx hturn
  case again =>
    exact fun s z t hz hstate hfirst hdue hlink hroom => wheelNoticeRepeat_queues hz hstate hfirst hdue hlink hroom
  case sync => exact fun s z t hz hstate hdue hlink hroom => ptpSync_queues hz hstate hdue hlink hroom
  case announce => exact fun s z t hz hstate hdue hlink hroom => ptpAnnounce_queues hz hstate hdue hlink hroom
  case delayReq =>
    exact fun s z t rx hz hstate hport hlength htype hversion hdomain hlink hroom =>
      ptpDelayReq_queues hz hstate hport hlength htype hversion hdomain hlink hroom

/-- Settles O17, command by command. -/
theorem wheelMoves : Obligations.WheelMoves := by
  unfold Obligations.WheelMoves
  refine ⟨?step, ?timeout, ?cycle, ?absent, ?long, ?tick, ?turn⟩
  case step => exact fun s z t x hz hstep hwait hstart hdue => wheelStep_waits hz hstep hwait hstart hdue
  case timeout => exact fun s z t f hz hwait hpassed => wheelStartTimeout_begins hz hwait hpassed
  case cycle => exact fun s z t phase hz => mainsCycle_notes hz
  case absent => exact fun s z t hz hstate hfirst hpassed => mainsAbsent_holds hz hstate hfirst hpassed
  case long => exact fun s z t hz hstate hlimit hfirst hdue => holdoverLong_latches hz hstate hlimit hfirst hdue
  case tick => exact fun s z t x hz hstate hpower hend => tickBoundary_advances hz hstate hpower hend
  case turn => exact fun s z t x hz hstate hpower hidx hfirst => turnBoundary_marks hz hstate hpower hidx hfirst

/-- Settles O37, command by command. -/
theorem iocServes : Obligations.IocServes := by
  unfold Obligations.IocServes
  refine ⟨?laneFail, ?laneSpare, ?linkLoss, ?chipError, ?overtemp, ?delivery, ?handoff, ?update⟩
  case laneFail => exact fun s z t lane row hz hrow hrun hlane hrole => iocLaneFail_waits hz hrow hrun hlane hrole
  case laneSpare =>
    exact fun s z t n r hz hrun hidx hfailed hturn hspare => iocLaneSpare_promotes hz hrun hidx hfailed hturn hspare
  case linkLoss => exact fun s z t hz hrun hlink => iocLinkLoss_marks hz hrun hlink
  case chipError => exact fun s z t hz hrun hrest => chipLevelError_rests hz hrun hrest
  case overtemp => exact fun s z t hz hrun hhot hrest => dieOvertempError_rests hz hrun hhot hrest
  case delivery => exact fun s z t x hz hrun hlink hfirst => sensorDelivery_marks hz hrun hlink hfirst
  case handoff => exact fun s z t hz hrun hlink hslot hfirst => outputHandoff_marks hz hrun hlink hslot hfirst
  case update =>
    exact fun s z t hz hpower hrunning hslot hfirst hlink => actuatorUpdate_marks hz hpower hrunning hslot hfirst hlink

end Sys2Proof.Proofs
end

section
/-! PROOFS. The statements of spec/03_port.md: the link's bring-up, its failures and its loss, the frames it carries, and
the module's addresses. -/

namespace Sys2Proof.Machine

open Sys2Proof

/-! ### Effects under a condition -/

/-- What an effect leaves as it stands, it leaves under a condition. -/
theorem State.when_eq_of_eq {α : Type} {p : State → α} {s : State} {f : State → State} (h : p (f s) = p s) (b : Bool) :
    p (s.when b f) = p s := by
  cases b
  · rfl
  · exact h

/-- A command whose condition holds leaves what its effect leaves. -/
theorem answers_of_when {c : Instr} {s z : State} {b : Bool} {f : State → State} {P : State → Prop}
    (hc : exec c s = .next (z.when b f)) (hb : b = true) (h : P (f z)) : Answers c s P :=
  ⟨_, hc, (State.when_of hb).symm ▸ h⟩

theorem State.linkUp_iff {s : State} : s.linkUp = true ↔ s.port.step = 7 := beq_iff_eq

/-! ### Entries, counts and values in force (R10, R110) -/

theorem State.get_add_same (s : State) (e : Ent) (n : Nat) : (s.add e n).get e = (s.get e + n) % 2 ^ 64 :=
  State.get_set_same _ _ _

theorem State.get_add_ne (s : State) (e f : Ent) (n : Nat) (h : f.key ≠ e.key) : (s.add e n).get f = s.get f :=
  State.get_set_ne s e f _ h

theorem State.get_inc_same (s : State) (e : Ent) : (s.inc e).get e = (s.get e + 1) % 2 ^ 64 := s.get_add_same e 1

theorem State.get_inc_ne (s : State) (e f : Ent) (h : f.key ≠ e.key) : (s.inc e).get f = s.get f :=
  s.get_add_ne e f 1 h

theorem State.eff_add_ne (s : State) (e f : Ent) (n : Nat) (h : f.key ≠ e.key) : (s.add e n).eff f = s.eff f := by
  simp [State.eff, State.get_add_ne s e f n h]

/-! ### The cage check (R80, R97, R666) -/

/-- An empty cage ends the attempt with no medium and the link down. -/
theorem State.get_cageResult_of_absent (s : State) {c : Cage} (h : c.present = false) :
    (s.cageResult c).get E.PORT_MEDIA = 0 ∧ (s.cageResult c).get E.LINK_STATE = 0 := by
  simp (disch := decide) [State.cageResult, h, State.get_latch_ne, State.get_set_ne]

/-- A cage whose medium or power the port refuses is checked again later. -/
theorem State.cageResult_of_refused (s : State) {c : Cage} (hpresent : c.present = true)
    (hrefused : 4 ≤ c.media ∨ c.media = 0 ∨ 33 < c.watts) :
    (s.cageResult c).get E.PORT_MEDIA = 4 ∧ (s.cageResult c).get E.LINK_STATE = 0
      ∧ (s.cageResult c).port = { s.port with step := 0, stepFrom := s.now, recheckFrom := some s.now } := by
  have refused : (decide (c.media ≥ 4) || decide (c.media = 0) || decide (c.watts > 33)) = true := by
    simpa [or_assoc] using hrefused
  simp (disch := decide) [State.cageResult, State.portStep, hpresent, refused, State.get_latch_ne, State.get_set_ne]

/-- A cage that the port accepts is powered up. -/
theorem State.cageResult_of_accepted (s : State) {c : Cage} (hpresent : c.present = true) (hmedia : c.media < 4)
    (hknown : c.media ≠ 0) (hwatts : c.watts ≤ 33) :
    (s.cageResult c).get E.PORT_MEDIA = c.media ∧ (s.cageResult c).get E.LINK_STATE = 1
      ∧ (s.cageResult c).port = { s.port with
          step := 2, stepFrom := s.now, powerUpMax := min c.powerUpMs 3000 * ms, recheckFrom := none } := by
  have accepted : (decide (c.media ≥ 4) || decide (c.media = 0) || decide (c.watts > 33)) = false := by
    simp [hmedia, hknown, hwatts]
  simp (disch := decide) [State.cageResult, State.portStep, hpresent, accepted, State.get_set_ne]

/-! ### An attempt begins (R80, R81) -/

theorem State.get_portAttempt (s : State) :
    s.portAttempt.get E.LINK_STATE = 1 ∧ s.portAttempt.get E.PORT_LANE_MAP = s.port.map := by
  simp (disch := decide) [State.portAttempt, State.get_set_ne]

theorem State.get_portAttempt_ne (s : State) {e : Ent} (hstate : e.key ≠ E.LINK_STATE.key)
    (hmap : e.key ≠ E.PORT_LANE_MAP.key) : s.portAttempt.get e = s.get e :=
  (State.get_set_ne _ _ _ _ hmap).trans (State.get_set_ne _ _ _ _ hstate)

/-! ### ICMPv6 (R84 to R86) -/

/-- An ICMPv6 message touches its egress queue only. -/
theorem State.sendIcmp_shape (s : State) (src dst ty tag : Nat) (rest : Bytes) :
    ∃ q, s.sendIcmp src dst ty tag rest = { s with port := { s.port with egress := q } } := by
  unfold State.sendIcmp State.send
  split
  next => exact ⟨_, rfl⟩
  next =>
    split
    next => exact ⟨_, rfl⟩
    next =>
      rw [if_neg (show ¬ 4 ≤ 2 by decide)]
      exact ⟨_, rfl⟩

/-- Where its class has room, an ICMPv6 message is queued. -/
theorem State.sendIcmp_of_room {s : State} (h : ReplyRoom s) (src dst ty tag : Nat) (rest : Bytes) :
    s.sendIcmp src dst ty tag rest = { s with port := { s.port with egress := s.port.egress ++
      [{ cls := 4, dst := dst, sport := 0, dport := 0, proto := 58, tag := tag, bytes := icmp6 src dst ty rest }] } } := by
  obtain ⟨hup, hroom⟩ := h
  simp [State.sendIcmp, State.send, Port.room, hup, hroom]

theorem State.dadStart_shape (s : State) (addr : Nat) :
    ∃ q, s.dadStart addr = { s with port := { s.port with egress := q } } := s.sendIcmp_shape _ _ _ _ _

theorem State.mldReport_shape (s : State) : ∃ q, s.mldReport = { s with port := { s.port with egress := q } } :=
  s.sendIcmp_shape _ _ _ _ _

/-- Trying the other address touches its state and the egress queue only. -/
theorem State.tryOther_shape (s : State) :
    ∃ q u, s.tryOther = { s with port := { s.port with egress := q, unicast := u } } := by
  unfold State.tryOther
  split
  next a _ =>
    obtain ⟨q, h⟩ := State.dadStart_shape { s with port := { s.port with unicast := 1 } } a
    exact ⟨q, 1, h⟩
  next => exact ⟨_, _, rfl⟩

/-- Once the other address is known, it is tentative. -/
theorem State.tryOther_of_some {s : State} {a : Nat} (h : s.otherAddr = some a) :
    ∃ q, s.tryOther = { s with port := { s.port with egress := q, unicast := 1 } } := by
  simp only [State.tryOther, h]
  exact State.dadStart_shape _ _

/-! ### The start sequence around the port's step (R624, R635) -/

/-- The end of a start step writes no entry but the stage. -/
theorem State.get_endStep (s : State) (k : Nat) {e : Ent} (h : e.key ≠ E.START_STAGE.key) :
    (s.endStep k).get e = s.get e := by
  unfold State.endStep
  dsimp only
  split
  next => exact State.get_set_ne _ _ _ _ h
  next => exact State.get_set_ne _ _ _ _ h

/-- The end of a start step leaves the diary's record of the link. -/
theorem State.endStep_diary (s : State) (k : Nat) :
    (s.endStep k).start.diary.cameUp = s.start.diary.cameUp
      ∧ (s.endStep k).start.diary.laneMap = s.start.diary.laneMap := by
  unfold State.endStep
  dsimp only
  split <;> exact ⟨rfl, rfl⟩

/-- What the bring-up shows of the link: its step and attempt, its entries, and the diary's record of it. -/
def State.linkView (s : State) : (Nat × Nat) × (Nat × Nat) × (Bool × Nat) :=
  ((s.port.step, s.port.attempt), (s.get E.LINK_STATE, s.get E.PORT_LANE_MAP),
    (s.start.diary.cameUp, s.start.diary.laneMap))

theorem State.linkView_iff {s : State} {step attempt state map lane : Nat} {up : Bool} :
    s.linkView = ((step, attempt), (state, map), (up, lane)) ↔ s.port.step = step ∧ s.port.attempt = attempt
      ∧ s.get E.LINK_STATE = state ∧ s.get E.PORT_LANE_MAP = map ∧ s.start.diary.cameUp = up
      ∧ s.start.diary.laneMap = lane := by
  simp [State.linkView, and_assoc]

theorem State.dadStart_linkView (s : State) (addr : Nat) : (s.dadStart addr).linkView = s.linkView := by
  obtain ⟨q, h⟩ := s.dadStart_shape addr
  rw [h]
  rfl

theorem State.endStep_linkView (s : State) (k : Nat) : (s.endStep k).linkView = s.linkView := by
  obtain ⟨hup, hmap⟩ := s.endStep_diary k
  simp (disch := decide) [State.linkView, State.get_endStep, hup, hmap]

theorem State.latch_linkView (s : State) (b : Nat) : (s.latch E.PORT_LATCHES b).linkView = s.linkView := by
  simp (disch := decide) [State.linkView, State.get_latch_ne]

/-- A diary entry that is written shows in the diary's record of the link, and nowhere else. -/
theorem State.putDiary_linkView (s : State) (d : Diary) :
    (s.putDiary d).linkView = (s.linkView.1, s.linkView.2.1, (d.cameUp, d.laneMap)) := rfl

/-! ### What each step of the bring-up leaves (R80, R97, R98) -/

section

variable {s z : State} {t : Nat}

/-- CAGE_CHECK (R80, R97): in time, the command leaves what the cage decides. -/
theorem cageCheck_reads {c : Cage} (hz : z = s.at t) (hin : z.portIn 1 = true) {P : State → Prop}
    (h : P (z.cageResult c)) : Answers (.cageCheck t c) s P := by
  subst hz
  exact answers_of_when rfl hin h

/-- CAGE_RECHECK (R97): 10 s after refused media a cage that is accepted is powered up. -/
theorem cageRecheck_powersUp {f : Nat} {c : Cage} (hz : z = s.at t) (hrefused : z.port.recheckFrom = some f)
    (hdue : f + 10 * sec ≤ z.now) (hpresent : c.present = true) (hmedia : c.media < 4) (hknown : c.media ≠ 0)
    (hwatts : c.watts ≤ 33) :
    Answers (.cageRecheck t c) s fun u =>
      u.get E.PORT_MEDIA = c.media ∧ u.get E.LINK_STATE = 1 ∧ u.port.step = 2 ∧ u.port.recheckFrom = none := by
  subst hz
  refine ⟨_, rfl, ?_⟩
  generalize s.at t = z at *
  rw [State.when_of (by simpa [hrefused] using hdue)]
  obtain ⟨media, state, port⟩ := State.cageResult_of_accepted z.portAttempt hpresent hmedia hknown hwatts
  exact ⟨media, state, by rw [port], by rw [port]⟩

/-- OPTICAL_MODULE_POWER_UP (R80): auto-negotiation follows for passive copper alone. -/
theorem opticalModulePowerUp_steps (hz : z = s.at t) (hin : z.portIn 2 = true) :
    Answers (.opticalModulePowerUp t true) s fun u =>
      u.port.step = (if z.get E.PORT_MEDIA = 3 then 3 else 4) ∧ u.port.stepFrom = z.now ∧ u.regs = z.regs := by
  subst hz
  exact answers_of_when rfl (by simpa using hin) ⟨rfl, rfl, rfl⟩

/-- AUTO_NEGOTIATION (R80). -/
theorem autoNegotiation_steps (hz : z = s.at t) (hin : z.portIn 3 = true) :
    Answers (.autoNegotiation t true) s fun u => u.port.step = 4 ∧ u.port.stepFrom = z.now ∧ u.regs = z.regs := by
  subst hz
  exact answers_of_when rfl (by simpa using hin) ⟨rfl, rfl, rfl⟩

/-- LINK_TRAINING (R80). -/
theorem linkTraining_steps (hz : z = s.at t) (hin : z.portIn 4 = true) :
    Answers (.linkTraining t true) s fun u => u.port.step = 5 ∧ u.port.stepFrom = z.now ∧ u.regs = z.regs := by
  subst hz
  exact answers_of_when rfl (by simpa using hin) ⟨rfl, rfl, rfl⟩

/-- PCS_ALIGNMENT (R80): the hold-up begins with no uncorrectable codeword seen. -/
theorem pcsAlignment_steps (hz : z = s.at t) (hin : z.portIn 5 = true) :
    Answers (.pcsAlignment t true) s fun u =>
      u.port.step = 6 ∧ u.port.stepFrom = z.now ∧ u.port.lastUncorr = none ∧ u.regs = z.regs := by
  subst hz
  exact answers_of_when rfl (by simpa using hin) ⟨rfl, rfl, rfl, rfl⟩

/-- LINK_HOLD_UP (R80, R81, R98): the link is up on the map of the attempt, in the entries and in the diary. -/
theorem linkHoldUp_comesUp (hz : z = s.at t) (hstep : z.port.step = 6) (hclean : z.port.lastUncorr = none)
    (hpower : z.elec.power = 1) (hdue : z.port.stepFrom + 10 * ms ≤ z.now) :
    Answers (.linkHoldUp t) s fun u =>
      u.port.step = 7 ∧ u.port.attempt = 0 ∧ u.get E.LINK_STATE = 2 ∧ u.get E.PORT_LANE_MAP = z.port.map
        ∧ u.start.diary.cameUp = true ∧ u.start.diary.laneMap = z.port.map := by
  subst hz
  refine ⟨_, rfl, ?_⟩
  generalize s.at t = z at *
  rw [State.when_of (by simp [hstep, hclean, hpower, hdue])]
  have last (u : State) : (u.when (u.inStep 7) fun s =>
      let s := s.endStep 7
      { s with start := { s.start with imageReqAt := some s.now } }).linkView = u.linkView :=
    State.when_eq_of_eq (p := State.linkView) (u.endStep_linkView 7) _
  refine State.linkView_iff.1 ?_
  dsimp only at last ⊢
  rw [last, State.when_eq_of_eq (p := State.linkView) (State.dadStart_linkView _ _),
    State.putDiary_linkView, State.when_eq_of_eq (p := State.linkView) (State.latch_linkView _ 6), State.latch_linkView]
  simp (disch := decide) [State.linkView, State.get_set_ne]

end

/-! ### The frames that arrive (R87, R99) -/

/-- The checks of R87 read no count of codewords. -/
theorem State.frameFault_add (s : State) (n : Nat) (f : Frame) :
    (s.add E.FEC_CORRECTED n).frameFault f = s.frameFault f := by
  have linkLocal : (s.add E.FEC_CORRECTED n).linkLocalAddr = s.linkLocalAddr := by
    simp (disch := decide) [State.linkLocalAddr, State.get_add_ne]
  have other : (s.add E.FEC_CORRECTED n).otherAddr = s.otherAddr := by
    simp (disch := decide) [State.otherAddr, State.eff_add_ne, State.get_add_ne]
  have addrs : (s.add E.FEC_CORRECTED n).myAddrs = s.myAddrs := by simp [State.myAddrs, linkLocal, other]
  have groups : (s.add E.FEC_CORRECTED n).myGroups = s.myGroups := by
    simp (disch := decide) [State.myGroups, State.ptpGroup, State.eff_add_ne, linkLocal, other]
  have ports : (s.add E.FEC_CORRECTED n).udpPorts = s.udpPorts := by
    simp (disch := decide) [State.udpPorts, State.eff_add_ne]
  unfold State.frameFault
  rw [addrs, groups, ports, State.eff_add_ne _ _ E.PORT_MTU _ (by decide)]

theorem dropCounter_ne_corrected (k : Nat) : (dropCounter k).key ≠ E.FEC_CORRECTED.key := by
  unfold dropCounter
  split <;> decide

theorem txClass_ne_totals (k : Nat) :
    E.TX_FRAMES.key ≠ (txClass k).key ∧ E.TX_BYTES.key ≠ (txClass k).key := by
  unfold txClass
  split <;> decide

/-! ### Cuts and notices that sending resumes with (R96) -/

theorem State.mapGuest_port (s : State) (slot : Nat) (f : Guest → Guest) : (s.mapGuest slot f).port = s.port := rfl

theorem State.buildRowCuts_port (s : State) : s.buildRowCuts.port = s.port := by
  unfold State.buildRowCuts
  dsimp only
  split
  next => rfl
  next =>
    refine foldl_eq_of_step (p := State.port) (fun u c => ?_) _ s
    simp [foldl_eq_of_step (p := State.port) fun u x => State.mapGuest_port u (CutRec.slot x) _]

theorem State.queueCut_port (s : State) (g : Guest) (c : CutRec) : (s.queueCut g c).port = s.port := by
  unfold State.queueCut
  split
  next => rfl
  next =>
    dsimp only
    rw [apply_ite State.port, State.buildRowCuts_port, State.when_eq_of_eq (p := State.port) (by simp)]
    exact ite_self _

/-- A datagram that is sent touches its egress queue only, of all the port. -/
theorem State.send_port (s : State) (d : Dgram) : ∃ q, (s.send d).port = { s.port with egress := q } := by
  unfold State.send
  split
  next => exact ⟨_, rfl⟩
  next =>
    split
    next => exact ⟨_, rfl⟩
    next => split <;> exact ⟨_, rfl⟩

theorem State.sendNotice_port (s : State) (bytes : Bytes) :
    ∃ q, (s.sendNotice bytes).port = { s.port with egress := q } := s.send_port _

/-! ### What each failure, loss and frame leaves (R81, R82, R87, R89, R94, R96, R99) -/

section

variable {s z : State} {t : Nat}

/-- LINK_ATTEMPT_FAIL (R81): the next attempt of the round begins on its map. -/
theorem linkAttemptFail_triesNext (hz : z = s.at t) (hfirst : 1 ≤ z.port.step) (hlast : z.port.step ≤ 6)
    (hpower : z.elec.power = 1) (hdiary : z.port.diaryMap = none) (hround : z.port.attempt < 4) :
    Answers (.linkAttemptFail t true) s fun u =>
      u.port.attempt = z.port.attempt + 1 ∧ u.port.step = 1 ∧ u.get E.LINK_STATE = 1
        ∧ u.get E.PORT_LANE_MAP = mapOf (z.port.attempt + 1) := by
  subst hz
  refine ⟨_, rfl, ?_⟩
  generalize s.at t = z at *
  rw [State.when_of (by simp [hfirst, hlast, hpower]), if_neg (by simp [hdiary]), if_pos hround]
  obtain ⟨state, map⟩ := State.get_portAttempt
    { z with port := { z.port with attempt := z.port.attempt + 1, lastUncorr := none } }
  exact ⟨rfl, rfl, state, map.trans (by simp [Port.map, hdiary])⟩

/-- LINK_ATTEMPT_FAIL (R81): after five failures the round ends and the port waits. -/
theorem linkAttemptFail_endsRound (hz : z = s.at t) (hfirst : 1 ≤ z.port.step) (hlast : z.port.step ≤ 6)
    (hpower : z.elec.power = 1) (hdiary : z.port.diaryMap = none) (hround : 4 ≤ z.port.attempt) :
    Answers (.linkAttemptFail t true) s fun u =>
      u.port.attempt = 0 ∧ u.port.roundWait = some z.now ∧ u.port.step = 0 ∧ u.get E.LINK_STATE = 0 := by
  subst hz
  refine ⟨_, rfl, ?_⟩
  generalize s.at t = z at *
  rw [State.when_of (by simp [hfirst, hlast, hpower]), if_neg (by simp [hdiary]), if_neg (Nat.not_lt.2 hround)]
  exact ⟨rfl, rfl, rfl, State.get_set_same _ _ _⟩

/-- LANE_MAP_ROUND_WAIT (R81): the next round begins. -/
theorem laneMapRoundWait_begins {f : Nat} (hz : z = s.at t) (hwait : z.port.roundWait = some f)
    (hdue : f + 10 * sec ≤ z.now) :
    Answers (.laneMapRoundWait t) s fun u =>
      u.port.roundWait = none ∧ u.port.attempt = 0 ∧ u.port.step = 1 ∧ u.get E.LINK_STATE = 1 := by
  subst hz
  refine ⟨_, rfl, ?_⟩
  generalize s.at t = z at *
  rw [State.when_of (by simpa [hwait] using hdue)]
  exact ⟨rfl, rfl, rfl, (State.get_portAttempt _).1⟩

/-- LINK_DOWN (R82, R94): every queue is flushed, the loss is counted and the bring-up starts again. -/
theorem linkDown_flushes {cause : Nat} (hz : z = s.at t) (hlink : z.linkUp = true) (hpower : z.elec.power = 1) :
    Answers (.linkDown t cause) s fun u =>
      u.port.step = 1 ∧ u.port.egress = [] ∧ u.port.sending = false ∧ u.desk.class0 = [] ∧ u.desk.rowOut = []
        ∧ u.desk.class2 = [] ∧ u.get E.LINK_STATE = 1
        ∧ u.get E.LINK_DOWNS = (z.get E.LINK_DOWNS + 1) % 2 ^ 64 := by
  subst hz
  refine ⟨_, rfl, ?_⟩
  generalize s.at t = z at *
  rw [State.when_of (by simp [hlink, hpower])]
  dsimp only
  generalize hy : State.latch _ E.PORT_LATCHES 0 = y
  obtain ⟨queue, sending, class0, rowOut, class2⟩ : y.port.egress = [] ∧ y.port.sending = false
      ∧ y.desk.class0 = [] ∧ y.desk.rowOut = [] ∧ y.desk.class2 = [] := by
    simp [← hy, State.flushEgress]
  have downs : y.get E.LINK_DOWNS = (z.get E.LINK_DOWNS + 1) % 2 ^ 64 := by
    rw [← hy, State.get_latch_ne _ _ _ _ _ (by decide) (by decide), State.get_inc_same]
    exact congrArg (fun n => (n + 1) % 2 ^ 64) (State.get_add_ne _ _ _ _ (by decide))
  generalize hx : (if cause = 2 then y.latch E.PORT_LATCHES 4 else y) = x
  obtain ⟨port, desk, get⟩ : x.port = y.port ∧ x.desk = y.desk ∧ x.get E.LINK_DOWNS = y.get E.LINK_DOWNS := by
    subst hx
    split
    next => simp (disch := decide) [State.get_latch_ne]
    next => exact ⟨rfl, rfl, rfl⟩
  rw [← port] at queue sending
  rw [← desk] at class0 rowOut class2
  exact ⟨rfl, queue, sending, class0, rowOut, class2, x.get_portAttempt.1,
    (x.get_portAttempt_ne (by decide) (by decide)).trans (get.trans downs)⟩

/-- SEND_RESUME (R96): sending resumes, behind the cuts in force and the notice. -/
theorem sendResume_sends (hz : z = s.at t) (hlink : z.linkUp = true) (hpower : z.elec.power = 1)
    (hsending : z.port.sending = false) (hdue : z.get E.WHEEL_STATE = 0 ∨ z.port.upTick < z.tick) :
    Answers (.sendResume t) s fun u => u.port.sending = true ∧ u.port.step = 7 := by
  subst hz
  refine ⟨_, rfl, ?_⟩
  generalize s.at t = z at *
  rw [State.when_of (by simpa [hlink, hpower, hsending] using hdue)]
  dsimp only
  generalize hy : List.foldl _ _ _ = y
  have port : y.port = { z.port with sending := true } := by
    rw [← hy]
    refine foldl_eq_of_step (p := State.port) (fun u p => ?_) _ _
    split
    next => split <;> simp [State.queueCut_port]
    next => rfl
  have step : z.port.step = 7 := State.linkUp_iff.1 hlink
  split
  next => simp [port, step]
  next =>
    obtain ⟨q, noted⟩ := y.sendNotice_port y.wheel.currentNotice
    simp [noted, port, step]

/-- A frame without an uncorrectable codeword has its corrected symbols counted, and the checks of R87 decide on it. -/
theorem frameReceive_checks {f : Frame} (hz : z = s.at t) (hlink : z.linkUp = true) (hpower : z.elec.power = 1)
    (hclean : f.uncorrectable = false) :
    Answers (.frameReceive t f) s fun u =>
      (z.frameFault f = 0 → z.fwRuns = true → f.nextHeader = 17 →
        u.port = { z.port with ingress := z.port.ingress ++ [f.rx] }
          ∧ u.regs = (((z.add E.FEC_CORRECTED f.corrected).inc E.RX_FRAMES).add E.RX_BYTES f.len).regs)
        ∧ ∀ k, z.frameFault f = k + 1 →
          u.port = z.port ∧ u.regs = ((z.add E.FEC_CORRECTED f.corrected).inc (dropCounter (k + 1))).regs := by
  subst hz
  refine ⟨_, rfl, ?_⟩
  generalize s.at t = z at *
  have reached : 6 ≤ z.port.step := by simp [State.linkUp_iff.1 hlink]
  have up : (z.add E.FEC_CORRECTED f.corrected).linkUp = true := hlink
  rw [State.when_of (by simp [reached, hpower])]
  dsimp only
  rw [State.when_of_not hclean, State.when_of up, State.frameFault_add]
  constructor
  · intro hpass hrun hudp
    have runs : (z.add E.FEC_CORRECTED f.corrected).fwRuns = true := hrun
    simp [hpass, runs, hudp]
  · intro k hfault
    simp [hfault]

/-- FRAME_RECEIVE (R87, R99): a datagram that passes every check waits for its unit, and is counted. -/
theorem frameReceive_delivers {f : Frame} (hz : z = s.at t) (hlink : z.linkUp = true) (hpower : z.elec.power = 1)
    (hclean : f.uncorrectable = false) (hpass : z.frameFault f = 0) (hrun : z.fwRuns = true) (hudp : f.nextHeader = 17) :
    Answers (.frameReceive t f) s fun u =>
      u.port.ingress = z.port.ingress ++ [f.rx] ∧ u.get E.RX_FRAMES = (z.get E.RX_FRAMES + 1) % 2 ^ 64
        ∧ u.get E.RX_BYTES = (z.get E.RX_BYTES + f.len) % 2 ^ 64 := by
  obtain ⟨u, hu, passed, -⟩ := frameReceive_checks hz hlink hpower hclean
  obtain ⟨port, regs⟩ := passed hpass hrun hudp
  refine ⟨u, hu, by rw [port], ?frames, ?bytes⟩
  case frames =>
    rw [State.get_congr regs, State.get_add_ne _ _ _ _ (by decide), State.get_inc_same,
      State.get_add_ne _ _ _ _ (by decide)]
  case bytes =>
    rw [State.get_congr regs, State.get_add_same, State.get_inc_ne _ _ _ (by decide),
      State.get_add_ne _ _ _ _ (by decide)]

/-- FRAME_RECEIVE (R87): the first check that fails drops the frame and counts it. -/
theorem frameReceive_drops {f : Frame} {k : Nat} (hz : z = s.at t) (hlink : z.linkUp = true) (hpower : z.elec.power = 1)
    (hclean : f.uncorrectable = false) (hfault : z.frameFault f = k + 1) :
    Answers (.frameReceive t f) s fun u =>
      u.port = z.port ∧ u.get (dropCounter (k + 1)) = (z.get (dropCounter (k + 1)) + 1) % 2 ^ 64 := by
  obtain ⟨u, hu, -, dropped⟩ := frameReceive_checks hz hlink hpower hclean
  obtain ⟨port, regs⟩ := dropped k hfault
  refine ⟨u, hu, port, ?_⟩
  rw [State.get_congr regs, State.get_inc_same, State.get_add_ne _ _ _ _ (dropCounter_ne_corrected _)]

/-- EGRESS_SERVE (R89, R90, R99): the next datagram leaves with the mark of its class, and is counted. -/
theorem egressServe_sends {d : Dgram} (hz : z = s.at t) (hlink : z.linkUp = true) (hsending : z.port.sending = true)
    (hpower : z.elec.power = 1) (hfree : z.port.cageFreeAt ≤ z.now) (hnext : z.nextOut = some d) (hsync : d.tag ≠ 6) :
    Answers (.egressServe t) s fun u =>
      u.port.egress = z.port.egress.erase d
        ∧ u.port.lastSent = some { d with dscp := z.classDscp E.DSCP_GUARD d.cls }
        ∧ u.port.cageFreeAt = z.now + (d.frame + 20) * 5
        ∧ u.get E.TX_FRAMES = (z.get E.TX_FRAMES + 1) % 2 ^ 64
        ∧ u.get E.TX_BYTES = (z.get E.TX_BYTES + d.frame) % 2 ^ 64 := by
  subst hz
  refine ⟨_, rfl, ?_⟩
  generalize s.at t = z at *
  rw [State.when_of (by simp [hlink, hsending, hpower, hfree])]
  obtain ⟨frames, bytes⟩ := txClass_ne_totals d.cls
  simp only [hnext]
  refine ⟨rfl, by simp [hsync], rfl, ?frames, ?bytes⟩
  case frames =>
    rw [State.get_inc_ne _ _ _ frames, State.get_add_ne _ _ _ _ (by decide), State.get_inc_same]
    rfl
  case bytes =>
    rw [State.get_inc_ne _ _ _ bytes, State.get_add_same, State.get_inc_ne _ _ _ (by decide)]
    rfl

end

/-! ### The addresses the port may use (R83, R84) -/

/-- Under SLAAC the first advertisement and the interface identifier form the other address. -/
theorem State.otherAddr_of_slaac {s : State} {p : Nat} (hmode : s.eff E.PORT_ADDR_MODE = 1)
    (hadvertised : s.port.prefix64 = some p) :
    s.otherAddr = some (p / 2 ^ 64 * 2 ^ 64 + ifaceId (s.get E.PORT_MAC)) := by
  simp [State.otherAddr, hmode, hadvertised]

/-! ### What each address event leaves (R83 to R86) -/

section

variable {s z : State} {t : Nat}

/-- DUPLICATE_ADDRESS_DETECTION (R84) that fails on the link-local address. -/
theorem duplicateAddressDetection_losesLinkLocal (hz : z = s.at t) (hlink : z.linkUp = true)
    (htentative : z.port.linkLocal = 1) :
    Answers (.duplicateAddressDetection t true false) s fun u => u.port.linkLocal = 3 ∧ u.port.dadFailAt = z.now := by
  subst hz
  refine ⟨_, rfl, ?_⟩
  generalize s.at t = z at *
  simp [State.when_of, hlink, htentative]

/-- DUPLICATE_ADDRESS_DETECTION (R84) that passes on the link-local address: it is in use and shown. -/
theorem duplicateAddressDetection_takesLinkLocal (hz : z = s.at t) (hlink : z.linkUp = true)
    (htentative : z.port.linkLocal = 1) (hother : z.port.unicast ≠ 2) :
    Answers (.duplicateAddressDetection t true true) s fun u =>
      u.port.linkLocal = 2 ∧ u.get E.PORT_ADDR_ACTIVE = z.linkLocalAddr := by
  subst hz
  refine ⟨_, rfl, ?_⟩
  generalize s.at t = z at *
  rw [State.when_of hlink]
  dsimp only
  rw [if_pos rfl, State.when_of (by simp [htentative]), if_pos rfl, State.when_of (by simp [hother])]
  generalize hy : State.set _ E.PORT_ADDR_ACTIVE _ = y
  obtain ⟨q, report⟩ := y.mldReport_shape
  obtain ⟨q', u, other⟩ := y.mldReport.tryOther_shape
  rw [other, report, ← hy]
  exact ⟨rfl, State.get_set_same _ _ _⟩

/-- DUPLICATE_ADDRESS_DETECTION (R84) that fails on the other address: the port stays on the link-local one. -/
theorem duplicateAddressDetection_losesOther (hz : z = s.at t) (hlink : z.linkUp = true)
    (htentative : z.port.unicast = 1) :
    Answers (.duplicateAddressDetection t false false) s fun u =>
      u.port.unicast = 3 ∧ u.get E.PORT_ADDR_ACTIVE = z.linkLocalAddr := by
  subst hz
  refine ⟨_, rfl, ?_⟩
  generalize s.at t = z at *
  rw [State.when_of hlink]
  dsimp only
  rw [if_neg (by decide), State.when_of (by simp [htentative]), if_neg (by decide),
    State.get_latch_ne _ _ _ _ _ (by decide) (by decide), State.get_set_same]
  exact ⟨by simp, rfl⟩

/-- DAD_RETRY (R84): detection on the link-local address begins again. -/
theorem dadRetry_solicits (hz : z = s.at t) (hlink : z.linkUp = true) (hfailed : z.port.linkLocal = 3)
    (hdue : z.port.dadFailAt + 10 * sec ≤ z.now) (hroom : (z.port.egress.filter fun x => x.cls == 4).length < 256) :
    Answers (.dadRetry t) s fun u =>
      u.port.linkLocal = 1 ∧ ∃ d, u.port.egress = z.port.egress ++ [d] ∧ d.tag = 7 ∧ d.dst = solicited z.linkLocalAddr := by
  subst hz
  refine ⟨_, rfl, ?_⟩
  generalize s.at t = z at *
  rw [State.when_of (by simp [hlink, hfailed, hdue]), State.dadStart, State.sendIcmp_of_room]
  · exact ⟨rfl, _, rfl, rfl, rfl⟩
  · exact ⟨hlink, hroom⟩

/-- ROUTER_ADVERTISEMENT (R83): the address that the advertisement forms is tentative. -/
theorem routerAdvertisement_forms {pfx : Nat} (hz : z = s.at t) (hlink : z.linkUp = true)
    (hmode : z.eff E.PORT_ADDR_MODE = 1) (hfirst : z.port.prefix64 = none) (hlocal : z.port.linkLocal = 2) :
    Answers (.routerAdvertisement t pfx 64 true) s fun u => u.port.prefix64 = some pfx ∧ u.port.unicast = 1 := by
  subst hz
  refine ⟨_, rfl, ?_⟩
  generalize s.at t = z at *
  rw [State.when_of (by simp [hlink, hmode, hfirst, hlocal])]
  obtain ⟨q, tried⟩ := State.tryOther_of_some
    (State.otherAddr_of_slaac (s := { z with port := { z.port with prefix64 := some pfx } }) hmode rfl)
  dsimp only
  rw [tried]
  exact ⟨rfl, rfl⟩

/-- NEIGHBOUR_SOLICITATION (R85): the port answers for its address, to all nodes where no source is given. -/
theorem neighbourSolicitation_answered {src target : Nat} (hz : z = s.at t) (hlink : z.linkUp = true)
    (hmine : target ∈ z.myAddrs) (hroom : (z.port.egress.filter fun x => x.cls == 4).length < 256) :
    Answers (.neighbourSolicitation t src target) s fun u =>
      ∃ d, u.port.egress = z.port.egress ++ [d] ∧ d.tag = 7 ∧ d.proto = 58
        ∧ d.dst = (if src = 0 then 0xFF02 * 2 ^ 112 + 1 else src) := by
  subst hz
  refine ⟨_, rfl, ?_⟩
  generalize s.at t = z at *
  rw [State.when_of (by simp [hlink, hmine])]
  dsimp only
  rw [State.sendIcmp_of_room ⟨hlink, hroom⟩]
  exact ⟨_, rfl, rfl, rfl, rfl⟩

/-- ECHO_REQUEST (R86) within the 100 of its second: it is counted and answered. -/
theorem echoRequest_answered {src dst : Nat} {body : Bytes} (hz : z = s.at t) (hlink : z.linkUp = true)
    (hmine : dst ∈ z.myAddrs) (hroom : (z.port.egress.filter fun x => x.cls == 4).length < 256)
    (hsecond : z.now < z.port.echoFrom + sec) (hcount : z.port.echoCount < 100) :
    Answers (.echoRequest t src dst body) s fun u =>
      u.port.echoCount = z.port.echoCount + 1
        ∧ ∃ d, u.port.egress = z.port.egress ++ [d] ∧ d.dst = src ∧ d.bytes = icmp6 dst src 129 body := by
  subst hz
  refine ⟨_, rfl, ?_⟩
  generalize s.at t = z at *
  have running : decide (z.port.echoFrom + sec ≤ z.now) = false := by simpa using hsecond
  rw [State.when_of (by simp [hlink, hmine])]
  simp only [running]
  rw [State.when_of (by simpa using hcount), State.sendIcmp_of_room]
  · exact ⟨rfl, _, rfl, rfl, rfl⟩
  · exact ⟨hlink, hroom⟩

/-- ECHO_REQUEST (R86) beyond the 100 of its second is ignored. -/
theorem echoRequest_ignored {src dst : Nat} {body : Bytes} (hz : z = s.at t) (hlink : z.linkUp = true)
    (hmine : dst ∈ z.myAddrs) (hsecond : z.now < z.port.echoFrom + sec) (hcount : 100 ≤ z.port.echoCount) :
    Answers (.echoRequest t src dst body) s fun u => u = z := by
  subst hz
  refine ⟨_, rfl, ?_⟩
  generalize s.at t = z at *
  have running : decide (z.port.echoFrom + sec ≤ z.now) = false := by simpa using hsecond
  rw [State.when_of (by simp [hlink, hmine])]
  simp only [running]
  exact State.when_of_not (by simpa using hcount)

end

end Sys2Proof.Machine

namespace Sys2Proof.Proofs

open Sys2Proof Sys2Proof.Machine

/-- Settles O19, step by step of the bring-up. -/
theorem linkComesUp : Obligations.LinkComesUp := by
  unfold Obligations.LinkComesUp
  refine ⟨?cage, ?recheck, ?powerUp, ?negotiation, ?training, ?alignment, ?holdUp⟩
  case cage =>
    intro s z t c hz hin
    refine ⟨fun habsent => ?absent, fun hpresent hmedia hknown hwatts => ?accepted, fun hpresent hrefused => ?refused⟩
    case absent => exact cageCheck_reads hz hin (z.get_cageResult_of_absent habsent)
    case accepted =>
      obtain ⟨media, state, port⟩ := z.cageResult_of_accepted hpresent hmedia hknown hwatts
      exact cageCheck_reads hz hin ⟨media, state, by rw [port], by rw [port], by rw [port]⟩
    case refused =>
      obtain ⟨media, state, port⟩ := z.cageResult_of_refused hpresent hrefused
      exact cageCheck_reads hz hin ⟨media, state, by rw [port], by rw [port]⟩
  case recheck =>
    exact fun s z t f c hz hrefused hdue hpresent hmedia hknown hwatts =>
      cageRecheck_powersUp hz hrefused hdue hpresent hmedia hknown hwatts
  case powerUp => exact fun s z t hz hin => opticalModulePowerUp_steps hz hin
  case negotiation => exact fun s z t hz hin => autoNegotiation_steps hz hin
  case training => exact fun s z t hz hin => linkTraining_steps hz hin
  case alignment => exact fun s z t hz hin => pcsAlignment_steps hz hin
  case holdUp => exact fun s z t hz hstep hclean hpower hdue => linkHoldUp_comesUp hz hstep hclean hpower hdue

/-- Settles O20, command by command. -/
theorem linkFailsAndCarries : Obligations.LinkFailsAndCarries := by
  unfold Obligations.LinkFailsAndCarries
  refine ⟨?fail, ?round, ?down, ?resume, ?receive, ?serve⟩
  case fail =>
    exact fun s z t hz hfirst hlast hpower =>
      ⟨fun hdiary hround => linkAttemptFail_triesNext hz hfirst hlast hpower hdiary hround,
        fun hdiary hround => linkAttemptFail_endsRound hz hfirst hlast hpower hdiary hround⟩
  case round => exact fun s z t f hz hwait hdue => laneMapRoundWait_begins hz hwait hdue
  case down => exact fun s z t cause hz hlink hpower => linkDown_flushes hz hlink hpower
  case resume =>
    exact fun s z t hz hlink hpower hsending hdue => sendResume_sends hz hlink hpower hsending hdue
  case receive =>
    exact fun s z t f hz hlink hpower hclean =>
      ⟨fun hpass hrun hudp => frameReceive_delivers hz hlink hpower hclean hpass hrun hudp,
        fun k hfault => frameReceive_drops hz hlink hpower hclean hfault⟩
  case serve =>
    exact fun s z t d hz hlink hsending hpower hfree hnext hsync =>
      egressServe_sends hz hlink hsending hpower hfree hnext hsync

/-- Settles O21, command by command. -/
theorem addressesForm : Obligations.AddressesForm := by
  unfold Obligations.AddressesForm
  refine ⟨?detection, ?retry, ?advertisement, ?solicitation, ?echo⟩
  case detection =>
    exact fun s z t hz hlink =>
      ⟨fun htentative => duplicateAddressDetection_losesLinkLocal hz hlink htentative,
        fun htentative hother => duplicateAddressDetection_takesLinkLocal hz hlink htentative hother,
        fun htentative => duplicateAddressDetection_losesOther hz hlink htentative⟩
  case retry => exact fun s z t hz hlink hfailed hdue hroom => dadRetry_solicits hz hlink hfailed hdue hroom
  case advertisement =>
    exact fun s z t pfx hz hlink hmode hfirst hlocal => routerAdvertisement_forms hz hlink hmode hfirst hlocal
  case solicitation =>
    exact fun s z t src target hz hlink hmine hroom => neighbourSolicitation_answered hz hlink hmine hroom
  case echo =>
    exact fun s z t src dst body hz hlink hmine hroom =>
      ⟨fun hsecond hcount => echoRequest_answered hz hlink hmine hroom hsecond hcount,
        fun hsecond hcount => echoRequest_ignored hz hlink hmine hsecond hcount⟩

end Sys2Proof.Proofs
end

section
/-! PROOFS. The statements of spec/04_dictionary.md: the step and its invariant (R111, R117, R123, R132, R606, R614),
the checks and refusals of a request (R104, R108, R134), bulk transactions and subscriptions (R114 to R118, R122 to
R125), and keyed sessions with their keyring (R126 to R132, R633). -/

namespace Sys2Proof.Machine

open Sys2Proof

/-! ### What hearing and answering a request leave of the dictionary server (R106, R111, R125) -/

@[simp] theorem State.heard_lists (s : State) (rx : Rx) :
    (s.heard rx).dict.sessions = s.dict.sessions ∧ (s.heard rx).dict.subs = s.dict.subs
      ∧ (s.heard rx).dict.bulks = s.dict.bulks := ⟨rfl, rfl, rfl⟩

/-- A reply is kept in the reply cache and changes nothing else of the dictionary server. -/
@[simp] theorem State.answer_lists (s : State) (q : Req) (a : Ans) :
    (s.answer q a).dict.sessions = s.dict.sessions ∧ (s.answer q a).dict.subs = s.dict.subs
      ∧ (s.answer q a).dict.bulks = s.dict.bulks ∧ (s.answer q a).dict.bulkWrites = s.dict.bulkWrites := by
  obtain ⟨cache, ha⟩ := State.answer_shape s q a
  simp [ha]

@[simp] theorem State.refuse_lists (s : State) (q : Req) (code : Nat) (body : Bytes) (key : Option Nat) :
    (s.refuse q code body key).dict.sessions = s.dict.sessions ∧ (s.refuse q code body key).dict.subs = s.dict.subs
      ∧ (s.refuse q code body key).dict.bulks = s.dict.bulks := by
  simp [State.refuse]

/-! ### Refusals (R104, R108, R134) -/

theorem State.getU_inc_ne (s : State) (e f : Ent) (u : Nat) (h : f.key + 256 * u ≠ e.key) :
    (s.inc e).getU f u = s.getU f u := State.getU_set_ne s e f u _ h

/-- A refused request counts as a request and as a refusal, and changes no other entry. -/
theorem State.getU_refuse_heard {s : State} (room : ReplyRoom s) (rx : Rx) (q : Req) (code : Nat) (body : Bytes)
    (key : Option Nat) {e : Ent} {u : Nat} (hreq : e.key + 256 * u ≠ E.DICT_REQUESTS.key)
    (href : e.key + 256 * u ≠ E.DICT_REFUSED.key) : ((s.heard rx).refuse q code body key).getU e u = s.getU e u := by
  have roomRefused : ReplyRoom ((s.heard rx).inc E.DICT_REFUSED) := room
  calc ((s.heard rx).refuse q code body key).getU e u
      = ((s.heard rx).inc E.DICT_REFUSED).getU e u :=
        State.getU_congr (State.answer_regs_of_room roomRefused q _) e u
    _ = (s.heard rx).getU e u := State.getU_inc_ne _ _ _ _ href
    _ = s.getU e u := State.getU_inc_ne _ _ _ _ hreq

/-- A refusal is one reply in class 4, to the sender of the request. -/
theorem State.refuse_heard_egress {s : State} (room : ReplyRoom s) (rx : Rx) (q : Req) (code : Nat) (body : Bytes)
    (key : Option Nat) : ∃ d, ((s.heard rx).refuse q code body key).port.egress = s.port.egress ++ [d]
      ∧ d.dst = q.rx.src ∧ d.dport = q.rx.sport
      ∧ d.bytes = replyBytes q.op q.seq 0 { status := code, body := body, session := q.session, key := key } := by
  have roomRefused : ReplyRoom ((s.heard rx).inc E.DICT_REFUSED) := room
  exact State.answer_egress_of_room roomRefused q _

/-- The header of an untagged refusal without a body: `VERSION`, `STATUS` and `LENGTH` (R101, R102). -/
theorem refusalBytes_header {code : Nat} (h : code < 65536) (op seq session : Nat) :
    let b := replyBytes op seq 0 { status := code, body := [], session := session, key := none }
    field b 0 1 = 1 ∧ field b 12 2 = code ∧ field b 14 2 = 0 ∧ b.length = 16 := by
  have status : code / 256 % 256 * 256 + code % 256 = code := by omega
  simp [replyBytes, field, slice, beBytes, beNat, status]

/-- The checks end at another version (R104): the request is answered `BAD_VERSION` and goes no further. -/
theorem State.screen_of_badVersion {s : State} {rx : Rx} {v : Service} (hrun : s.fwRuns = true)
    (hport : rx.dport = s.eff E.UDP_PORT_DICT) (hlen : 16 ≤ rx.bytes.length) (hmine : v.mine (Req.parse rx) s = true)
    (hversion : (Req.parse rx).version ≠ 1) :
    s.screen rx v = .dealt ((s.heard rx).refuse (Req.parse rx) St.badVersion [] none) := by
  simp [State.screen, hrun, hport, Nat.not_lt.2 hlen, hmine, hversion]

/-- A request outside a session against which no code of its operation stands runs. -/
theorem PlainRequest.screen_runs {s : State} {rx : Rx} {v : Service} (h : PlainRequest s rx v)
    (hcodes : v.codes (Req.parse rx) false (s.heard rx) = []) : s.screen rx v = .run false (s.heard rx) := by
  rw [h.screen, hcodes]
  rfl

/-- A request outside a session against which codes of its operation stand is refused with the lowest of them. -/
theorem PlainRequest.serve_refuses {s : State} {rx : Rx} {v : Service} {c : Nat} (h : PlainRequest s rx v)
    (hcode : lowestCode (v.codes (Req.parse rx) false (s.heard rx)) = some c) :
    s.serve rx v = (s.heard rx).refuse (Req.parse rx) c (v.refused (Req.parse rx) (s.heard rx)) none :=
  State.serve_of_dealt (h.screen.trans (by rw [hcode]; rfl))

/-! ### Datagrams of the server, and replies made later (R93, R105) -/

/-- A served command that is answered later leaves what its run leaves. -/
theorem answers_of_run_later {c : Instr} {s a u : State} {t : Nat} {rx : Rx} {v : Service} {live : Bool}
    {P : State → Prop} (hc : exec c s = .next ((s.at t).serve rx v)) (hs : (s.at t).screen rx v = .run live a)
    (hr : v.run (Req.parse rx) live a = (none, u)) (h : P u) : Answers c s P := by
  refine ⟨_, hc, ?_⟩
  simpa [State.serve, hs, hr] using h

/-- Where the link is up and its queue has room, a datagram of class 3, 4 or 5 is queued and nothing else changes. -/
theorem State.send_of_canSend {s : State} {d : Dgram} (h : s.canSend d = true) :
    s.send d = { s with port := { s.port with egress := s.port.egress ++ [d] } } := by
  obtain ⟨hup, hroom⟩ := Bool.and_eq_true_iff.1 h
  simp [State.send, hup, hroom]

theorem State.canSend_of_length {s : State} {d : Dgram} (hcls : 2 < d.cls) (hup : s.linkUp = true)
    (hroom : (s.port.egress.filter fun x => x.cls == d.cls).length < 256) : s.canSend d = true := by
  have urgent : d.cls ≠ 0 := by omega
  have bytesCounted : ¬ d.cls ≤ 2 := by omega
  simp [State.canSend, Port.room, hup, hroom, urgent, bytesCounted]

/-! ### Bulk transactions: what each command leaves (R114 to R118) -/

section

variable {s z a : State} {t : Nat} {rx : Rx} {live : Bool}

/-- READ_BULK (R114): a bulk reply starts at the first row asked for, and no entry changes. -/
theorem readBulk_starts (hs : (s.at t).screen rx readBulkService = .run live a) :
    Answers (.readBulk t rx) s fun u =>
      u.regs = a.regs ∧ ∃ k, u.dict.bulks = a.dict.bulks ++ [k] ∧ k.src = rx.src ∧ k.sport = rx.sport
        ∧ k.seq = (Req.parse rx).seq ∧ k.table = (Req.parse rx).table ∧ k.next = (Req.parse rx).first :=
  answers_of_run_later rfl hs rfl ⟨rfl, _, rfl, rfl, rfl, rfl, rfl, rfl⟩

/-- BULK_FRAGMENT (R115, R116): the next fragment leaves, and what remains takes the place of the bulk reply. -/
theorem bulkFragment_sends {id : Nat} {k : Bulk} {body : Bytes} {rest : Option Bulk} (hz : z = s.at t)
    (hk : (z.dict.bulks.find? fun k => k.id == id) = some k) (hlives : z.sessionLives k.session = true)
    (hbody : z.fragment (z.skipOld k) = (body, rest)) (hrun : z.fwRuns = true) (hend : z.atTickEnd = true)
    (hlink : z.linkUp = true)
    (hroom : (z.port.egress.filter fun x => x.cls == (if inClass5 k.table then 5 else 4)).length < 256) :
    Answers (.bulkFragment t id) s fun u =>
      u.dict.bulks = (z.dict.bulks.filterMap fun x => if x.id = id then rest else some x)
        ∧ ∃ d, u.port.egress = z.port.egress ++ [d] ∧ d.dst = k.src ∧ d.dport = k.sport
            ∧ d.bytes = replyBytes 3 k.seq (if rest.isSome then 2 else 0)
                { status := St.ok, body := body, session := k.session, key := z.keyOf k.session } := by
  subst hz
  refine ⟨_, rfl, ?_⟩
  generalize s.at t = z at *
  have aboveClass2 : 2 < if inClass5 k.table then 5 else 4 := by split <;> decide
  simp only [hk, hlives, hbody, Bool.not_true, Bool.false_eq_true, if_false]
  rw [State.when_of (by rw [hrun, hend, State.canSend_of_length aboveClass2 hlink hroom]; rfl),
    State.send_of_canSend (s := z.putBulk id rest) (State.canSend_of_length aboveClass2 hlink hroom)]
  exact ⟨rfl, _, rfl, rfl, rfl, rfl⟩

/-- WRITE_BULK (R118): the rows wait for the next tick boundary, and no entry changes. -/
theorem writeBulk_waits (hs : (s.at t).screen rx writeBulkService = .run live a) :
    Answers (.writeBulk t rx) s fun u =>
      u.regs = a.regs ∧ ∃ w, u.dict.bulkWrites = a.dict.bulkWrites ++ [w] ∧ w.src = rx.src
        ∧ w.first = (Req.parse rx).first ∧ w.count = (Req.parse rx).count ∧ w.rows = (Req.parse rx).body.drop 12
        ∧ w.due = (if a.get E.WHEEL_STATE = 0 then 0 else a.tick + 1) :=
  answers_of_run_later rfl hs rfl ⟨rfl, _, rfl, rfl, rfl, rfl, rfl, rfl⟩

/-- Applying an accepted WRITE_BULK of one row writes the weights of its guest. -/
theorem State.applyBulk_of_one (s : State) {w : BulkWrite} (h : w.count = 1) :
    (s.applyBulk w).dict.bulkWrites = s.dict.bulkWrites ∧ (s.applyBulk w).guests = s.guests.adjust w.first fun g =>
      { g with weight := field (slice w.rows 0 4) 0 2, operMax := field (slice w.rows 0 4) 2 2 } := by
  unfold State.applyBulk
  rw [h]
  dsimp only
  split
  next => exact ⟨rfl, rfl⟩
  next =>
    simp only [State.sendReply_frame]
    exact ⟨rfl, rfl⟩

/-- WRITE_BULK_APPLY (R118): at its boundary an accepted write of one row writes the weights of its guest. -/
theorem writeBulkApply_writes {w : BulkWrite} (hz : z = s.at t) (hrun : z.fwRuns = true)
    (hwheel : z.get E.WHEEL_STATE ≠ 0) (hone : z.dict.bulkWrites = [w]) (hdue : w.due ≤ z.tick)
    (hcount : w.count = 1) :
    Answers (.writeBulkApply t) s fun u =>
      u.dict.bulkWrites = [] ∧ u.guests = z.guests.adjust w.first fun g =>
        { g with weight := field (slice w.rows 0 4) 0 2, operMax := field (slice w.rows 0 4) 2 2 } := by
  subst hz
  refine answers_of_when rfl (by simp [hrun, hwheel]) ?_
  generalize s.at t = z at *
  simp only [hone, List.filter_cons, List.filter_nil, hdue, Nat.not_lt.2 hdue, decide_true, decide_false, if_true,
    Bool.false_eq_true, if_false, List.foldl_cons, List.foldl_nil]
  exact State.applyBulk_of_one _ hcount

/-! ### Subscriptions: what each command leaves (R122 to R125) -/

/-- SUBSCRIBE (R122): the subscription takes the place of one of the same identity. -/
theorem subscribe_renews (hs : (s.at t).screen rx subscribeService = .run live a)
    (hperiod : field (Req.parse rx).body 2 2 ≠ 0) : Answers (.subscribe t rx) s fun u =>
      ∃ x, u.dict.subs = (a.dict.subs.filter fun y => !y.is rx.src rx.sport (field (Req.parse rx).body 0 1)) ++ [x]
        ∧ x.period = field (Req.parse rx).body 2 2 ∧ x.entries = (Req.parse rx).subEntries ∧ x.renewed = a.now
        ∧ x.session = (Req.parse rx).session := by
  refine answers_of_run rfl hs ⟨_, rfl⟩ fun ans => ?_
  simp only [State.answer_lists]
  exact ⟨_, if_neg hperiod, rfl, rfl, rfl, rfl⟩

/-- SUBSCRIBE with period 0 (R122): the subscription of that identity ends. -/
theorem subscribe_cancels (hs : (s.at t).screen rx subscribeService = .run live a)
    (hperiod : field (Req.parse rx).body 2 2 = 0) : Answers (.subscribe t rx) s fun u =>
      u.dict.subs = a.dict.subs.filter fun y => !y.is rx.src rx.sport (field (Req.parse rx).body 0 1) := by
  refine answers_of_run rfl hs ⟨_, rfl⟩ fun ans => ?_
  simp only [State.answer_lists]
  exact if_pos hperiod

/-- SUBSCRIPTION_PUSH (R124): at its turn the push leaves for the subscriber, and the turn is marked. -/
theorem subscriptionPush_pushes {src sport id : Nat} {x : Subscription} (hz : z = s.at t)
    (hx : (z.dict.subs.find? fun x => x.is src sport id) = some x) (hrun : z.fwRuns = true) (room : ReplyRoom z)
    (hwheel : z.get E.WHEEL_STATE ≠ 0) (hidx : z.wheel.idx = 0) (hturn : z.turn % max 1 x.period = 0)
    (hpushed : x.pushed ≠ z.turn) :
    Answers (.subscriptionPush t src sport id) s fun u =>
      u.dict.subs = (z.dict.subs.map fun y => if y.is src sport id then { y with pushed := z.turn } else y)
        ∧ ∃ d, u.port.egress = z.port.egress ++ [d] ∧ d.dst = src ∧ d.dport = sport := by
  subst hz
  refine ⟨_, rfl, ?_⟩
  generalize s.at t = z at *
  simp only [hx]
  rw [State.when_of (by simp [hrun, room.1, hwheel, hidx, hturn, hpushed]), State.sendReply_of_room]
  · exact ⟨rfl, _, rfl, rfl, rfl⟩
  · exact replyRoom_congr room rfl

/-- SUBSCRIPTION_LAPSE (R125): a subscription whose lease has run out ends, and no entry changes. -/
theorem subscriptionLapse_ends {src sport id : Nat} {x : Subscription} (hz : z = s.at t)
    (hx : (z.dict.subs.find? fun x => x.is src sport id) = some x) (hrun : z.fwRuns = true)
    (hlease : z.get E.SUB_LEASE ≠ 0) (hdue : x.renewed + z.get E.SUB_LEASE * sec ≤ z.now) :
    Answers (.subscriptionLapse t src sport id) s fun u =>
      u.regs = z.regs ∧ u.dict.subs = z.dict.subs.filter fun y => !y.is src sport id := by
  subst hz
  refine ⟨_, rfl, ?_⟩
  generalize s.at t = z at *
  simp only [hx]
  rw [State.when_of (by simp [hrun, hlease, hdue])]
  exact ⟨rfl, rfl⟩

/-! ### Keyed sessions: what each command leaves (R126 to R132) -/

@[simp] theorem State.setSessions_sessions (s : State) (l : List Session) : (s.setSessions l).dict.sessions = l := rfl

/-- A session that ends takes its subscriptions with it (R125). -/
@[simp] theorem State.closeSession_lists (s : State) (id : Nat) :
    (s.closeSession id).dict.sessions = (s.dict.sessions.filter fun y => y.id != id)
      ∧ (s.closeSession id).dict.subs = s.dict.subs.filter fun y => y.session != id := ⟨rfl, rfl⟩

/-- OPEN (R126, R127): a session is pending under the key asked for, from now on and with no `SEQ` seen. -/
theorem openSession_pends (hs : (s.at t).screen rx openService = .run live a) :
    Answers (.openSession t rx) s fun u =>
      u.freeCtr = a.freeCtr + 4 ∧ ∃ x, u.dict.sessions = a.dict.sessions ++ [x] ∧ x.isOpen = false
        ∧ x.keyId = field (Req.parse rx).body 0 1 ∧ x.since = a.now ∧ x.lastSeq = none := by
  refine answers_of_run rfl hs ⟨_, rfl⟩ fun ans => ?_
  simp only [State.answer_lists, State.answer_frame]
  exact ⟨rfl, _, rfl, rfl, rfl, rfl, rfl⟩

/-- PROVE with the signature of the session's key (R128): the session opens. -/
theorem prove_opens {x : Session} (hs : (s.at t).screen rx proveService = .run live a)
    (hx : a.session (Req.parse rx).session = some x)
    (hsig : Config.sm2Verify x.transcript (Req.parse rx).body (beBytes 64 (a.getU E.KEY_PUBLIC x.keyId)) = true) :
    Answers (.prove t rx) s fun u =>
      u.dict.sessions = a.dict.sessions.map fun y =>
        if y.id = x.id then { y with isOpen := true, since := a.now } else y := by
  have run : proveService.run (Req.parse rx) live a = (some { status := St.ok, session := x.id, key := some x.key },
      a.setSessions (a.dict.sessions.map fun y =>
        if y.id = x.id then { y with isOpen := true, since := a.now } else y)) := by
    simp [proveService, State.proveRun, hx, hsig]
  exact answers_of_run rfl hs ⟨_, run⟩ fun ans => by simp

/-- PROVE with another signature (R128): the session is discarded. -/
theorem prove_discards {x : Session} (hs : (s.at t).screen rx proveService = .run live a)
    (hx : a.session (Req.parse rx).session = some x)
    (hsig : Config.sm2Verify x.transcript (Req.parse rx).body (beBytes 64 (a.getU E.KEY_PUBLIC x.keyId)) = false) :
    Answers (.prove t rx) s fun u => u.dict.sessions = a.dict.sessions.filter fun y => y.id != x.id := by
  have run : proveService.run (Req.parse rx) live a =
      (some { status := St.signatureBad, session := (Req.parse rx).session },
        ((a.closeSession x.id).inc E.DICT_REFUSED).latch E.DICT_LATCHES 1) := by
    simp [proveService, State.proveRun, hx, hsig]
  exact answers_of_run rfl hs ⟨_, run⟩ fun ans => by simp

/-- PROVE (R128): the signature decides whether the session opens or is discarded. -/
theorem prove_judges {x : Session} (hs : (s.at t).screen rx proveService = .run live a)
    (hx : a.session (Req.parse rx).session = some x) : Answers (.prove t rx) s fun u =>
      (Config.sm2Verify x.transcript (Req.parse rx).body (beBytes 64 (a.getU E.KEY_PUBLIC x.keyId)) = true →
        u.dict.sessions = a.dict.sessions.map fun y =>
          if y.id = x.id then { y with isOpen := true, since := a.now } else y) ∧
      (Config.sm2Verify x.transcript (Req.parse rx).body (beBytes 64 (a.getU E.KEY_PUBLIC x.keyId)) = false →
        u.dict.sessions = a.dict.sessions.filter fun y => y.id != x.id) := by
  cases hsig : Config.sm2Verify x.transcript (Req.parse rx).body (beBytes 64 (a.getU E.KEY_PUBLIC x.keyId)) with
  | true =>
    obtain ⟨u, hu, opened⟩ := prove_opens hs hx hsig
    exact ⟨u, hu, fun _ => opened, nofun⟩
  | false =>
    obtain ⟨u, hu, discarded⟩ := prove_discards hs hx hsig
    exact ⟨u, hu, nofun, fun _ => discarded⟩

/-- CLOSE (R132): the session ends, with its subscriptions. -/
theorem close_ends (hs : (s.at t).screen rx closeService = .run live a) :
    Answers (.close t rx) s fun u =>
      u.dict.sessions = (a.dict.sessions.filter fun y => y.id != (Req.parse rx).session)
        ∧ u.dict.subs = a.dict.subs.filter fun y => y.session != (Req.parse rx).session :=
  answers_of_run rfl hs ⟨_, rfl⟩ fun ans => by simp

/-- PROVE_TIMEOUT (R128, R132): a session not proved within 5 s ends, with its subscriptions. -/
theorem proveTimeout_ends {id : Nat} {x : Session} (hz : z = s.at t) (hx : z.session id = some x)
    (hrun : z.fwRuns = true) (hpending : x.isOpen = false) (hdue : x.since + 5 * sec ≤ z.now) :
    Answers (.proveTimeout t id) s fun u =>
      u.dict.sessions = (z.dict.sessions.filter fun y => y.id != id)
        ∧ u.dict.subs = z.dict.subs.filter fun y => y.session != id := by
  subst hz
  refine ⟨_, rfl, ?_⟩
  generalize s.at t = z at *
  simp only [hx]
  rw [State.when_of (by simp [hrun, hpending, hdue])]
  exact State.closeSession_lists z id

/-- SESSION_IDLE_TIMEOUT (R132): an open session left idle ends, with its subscriptions. -/
theorem sessionIdleTimeout_ends {id : Nat} {x : Session} (hz : z = s.at t) (hx : z.session id = some x)
    (hrun : z.fwRuns = true) (hopen : x.isOpen = true) (hdue : x.since + z.get E.SESSION_IDLE * sec ≤ z.now) :
    Answers (.sessionIdleTimeout t id) s fun u =>
      u.dict.sessions = (z.dict.sessions.filter fun y => y.id != id)
        ∧ u.dict.subs = z.dict.subs.filter fun y => y.session != id := by
  subst hz
  refine ⟨_, rfl, ?_⟩
  generalize s.at t = z at *
  simp only [hx]
  rw [State.when_of (by simp [hrun, hopen, hdue])]
  exact State.closeSession_lists z id

/-! ### The keyring: what each command leaves (R633) -/

/-- The states and public keys of the keyring's eight slots stand apart from each other and from every count. -/
theorem keyring_keys_apart : ∀ k < 8,
    E.KEY_STATE.key + 256 * k ∉ countKeys ∧ E.KEY_PUBLIC.key + 256 * k ∉ countKeys
      ∧ E.KEY_STATE.key + 256 * k ≠ E.START_LATCHES.key ∧ E.KEY_PUBLIC.key + 256 * k ≠ E.START_LATCHES.key
      ∧ E.KEY_STATE.key + 256 * k ≠ E.SESSIONS_OPEN.key
      ∧ E.KEY_PUBLIC.key + 256 * k ≠ E.KEY_STATE.key + 256 * k := by decide

theorem State.getU_keepInFram (s : State) (e f : Ent) (u w : Nat) : (s.keepInFram e u).getU f w = s.getU f w := rfl

theorem State.getU_setKeyState {k : Nat} (h : k < 8) (s : State) (v : Nat) :
    (s.setKeyState k v).getU E.KEY_STATE k = v ∧ (s.setKeyState k v).getU E.KEY_PUBLIC k = s.getU E.KEY_PUBLIC k := by
  obtain ⟨hstate, hpublic, hstateLatch, hpublicLatch, -, hne⟩ := keyring_keys_apart k h
  unfold State.setKeyState
  constructor
  · rw [State.getU_latch_ne _ _ _ _ _ _ (not_mem_logKeys hstate) hstateLatch]
    exact State.getU_setU_same s _ k v
  · rw [State.getU_latch_ne _ _ _ _ _ _ (not_mem_logKeys hpublic) hpublicLatch]
    exact State.getU_setU_ne s _ _ k k v hne

@[simp] theorem State.setKeyState_sessions (s : State) (k v : Nat) :
    (s.setKeyState k v).dict.sessions = s.dict.sessions := by
  simp [State.setKeyState, State.keepInFram]

/-- KEY_ENROL (R633): the slot is active and holds the key given. -/
theorem keyEnrol_activates {k : Nat} (hs : (s.at t).screen rx keyEnrolService = .run live a)
    (hk : k = field (Req.parse rx).value 0 1) (hlt : k < 8) :
    Answers (.keyEnrol t rx) s fun u =>
      u.getU E.KEY_STATE k = 1 ∧ u.getU E.KEY_PUBLIC k = field (Req.parse rx).value 4 64 := by
  subst hk
  obtain ⟨hstate, hpublic, -⟩ := keyring_keys_apart _ hlt
  refine answers_of_run rfl hs (cmdService_run ..) fun ans => ?_
  rw [State.getU_answer _ _ _ _ _ hstate, State.getU_answer _ _ _ _ _ hpublic]
  refine ⟨(State.getU_setKeyState hlt _ 1).1, ?_⟩
  dsimp only
  rw [(State.getU_setKeyState hlt _ 1).2, State.getU_keepInFram, State.getU_setU_same]

theorem State.getU_closeSession_ne (s : State) (id : Nat) (e : Ent) (u : Nat)
    (h : e.key + 256 * u ≠ E.SESSIONS_OPEN.key) : (s.closeSession id).getU e u = s.getU e u :=
  State.getU_set_ne _ _ _ _ _ h

/-- Closing sessions one by one writes no entry but the count of open ones. -/
theorem State.getU_foldl_closeSession (ids : List Nat) (s : State) {e : Ent} {u : Nat}
    (h : e.key + 256 * u ≠ E.SESSIONS_OPEN.key) : (ids.foldl State.closeSession s).getU e u = s.getU e u :=
  foldl_eq_of_step (p := fun s => s.getU e u) (fun s id => State.getU_closeSession_ne s id e u h) ids s

/-- Closing sessions one by one leaves the sessions of other numbers. -/
theorem State.mem_foldl_closeSession (ids : List Nat) (s : State) (x : Session) :
    x ∈ (ids.foldl State.closeSession s).dict.sessions ↔ x ∈ s.dict.sessions ∧ x.id ∉ ids := by
  induction ids generalizing s with
  | nil => simp
  | cons id ids ih => simp [ih, and_assoc]

/-- KEY_REVOKE (R633): the slot is revoked, and no session of its key is left. -/
theorem keyRevoke_revokes {k : Nat} (hs : (s.at t).screen rx keyRevokeService = .run live a)
    (hk : k = field (Req.parse rx).value 0 1) (hlt : k < 8) :
    Answers (.keyRevoke t rx) s fun u => u.getU E.KEY_STATE k = 2 ∧ ∀ x ∈ u.dict.sessions, x.keyId ≠ k := by
  subst hk
  obtain ⟨hstate, -, -, -, hopen, -⟩ := keyring_keys_apart _ hlt
  refine answers_of_run rfl hs (cmdService_run ..) fun ans => ⟨?revoked, fun x hx hkey => ?closed⟩
  case revoked =>
    rw [State.getU_answer _ _ _ _ _ hstate, State.getU_foldl_closeSession _ _ hopen]
    exact (State.getU_setKeyState hlt a 2).1
  case closed =>
    simp only [State.answer_lists, State.mem_foldl_closeSession, State.setKeyState_sessions] at hx
    obtain ⟨hmem, hid⟩ := hx
    exact hid (List.mem_map_of_mem (List.mem_filter.2 ⟨hmem, beq_iff_eq.2 hkey⟩))

end

end Sys2Proof.Machine

namespace Sys2Proof.Proofs

open Sys2Proof Sys2Proof.Machine

/-- Settles O4: the command that a step takes keeps the invariant, as every command does. -/
theorem stepKeepsBounds : Obligations.StepKeepsBounds := by
  unfold Obligations.StepKeepsBounds
  intro s t hsafe hstep
  unfold step at hstep
  cases hq : s.pending with
  | nil =>
    rw [hq] at hstep
    cases hstep
    exact hsafe
  | cons c rest =>
    obtain ⟨z, hz, kept⟩ := exec_kept c { s with pending := rest }
    rw [hq] at hstep
    cases hz.symm.trans hstep
    exact kept.safe hsafe

/-- Settles O7: the checks end at the version with a refusal. -/
theorem otherVersionIsRefused : Obligations.OtherVersionIsRefused := by
  unfold Obligations.OtherVersionIsRefused
  intro s rx v hrun hport hlen hmine hversion room
  rw [State.serve_of_dealt (State.screen_of_badVersion hrun hport hlen hmine hversion)]
  obtain ⟨d, hegress, hdst, hdport, hbytes⟩ := State.refuse_heard_egress room rx (Req.parse rx) St.badVersion [] none
  obtain ⟨hv, hstatus, hlength, hsize⟩ :=
    refusalBytes_header (code := St.badVersion) (by decide) (Req.parse rx).op (Req.parse rx).seq (Req.parse rx).session
  refine ⟨d, hegress, hdst, hdport, hbytes ▸ hv, hbytes ▸ hstatus, hbytes ▸ hlength, hbytes ▸ hsize,
    fun e u hreq href => State.getU_refuse_heard room rx _ _ _ _ hreq href, ?_⟩
  simp

/-- Settles O12, by the checks of a request outside a session. -/
theorem plainRequestRuns : Obligations.PlainRequestRuns := by
  unfold Obligations.PlainRequestRuns
  intro s rx v q hq hrun hport hlen hmine hversion hsession hprove hclose hcache hlength hsize hcodes
  subst hq
  exact PlainRequest.screen_runs
    ⟨hrun, hport, hlen, hmine, hversion, hsession, hprove, hclose, hcache, hlength, hsize⟩ hcodes

/-- Settles O13, by the checks of a request outside a session and by what a refusal leaves. -/
theorem refusedRequestChangesNothing : Obligations.RefusedRequestChangesNothing := by
  unfold Obligations.RefusedRequestChangesNothing
  intro s rx v q c hq hrun hport hlen hmine hversion hsession hprove hclose hcache hlength hsize hcode room
  subst hq
  rw [PlainRequest.serve_refuses
    ⟨hrun, hport, hlen, hmine, hversion, hsession, hprove, hclose, hcache, hlength, hsize⟩ hcode]
  obtain ⟨d, hegress, -, -, hbytes⟩ :=
    State.refuse_heard_egress room rx (Req.parse rx) c (v.refused (Req.parse rx) (s.heard rx)) none
  refine ⟨d, hegress, hsession ▸ hbytes, fun e u hreq href => State.getU_refuse_heard room rx _ _ _ _ hreq href, ?_⟩
  simp

/-- Settles O23, command by command. -/
theorem bulkAndSubscriptionsServe : Obligations.BulkAndSubscriptionsServe := by
  unfold Obligations.BulkAndSubscriptionsServe
  refine ⟨?readBulk, ?fragment, ?writeBulk, ?apply, ?subscribe, ?push, ?lapse⟩
  case readBulk => exact fun s a t rx live hs => readBulk_starts hs
  case fragment =>
    exact fun s z t id k body rest hz hk hlives hbody hrun hend hlink hroom =>
      bulkFragment_sends hz hk hlives hbody hrun hend hlink hroom
  case writeBulk => exact fun s a t rx live hs => writeBulk_waits hs
  case apply =>
    exact fun s z t w hz hrun hwheel hone hdue hcount => writeBulkApply_writes hz hrun hwheel hone hdue hcount
  case subscribe =>
    intro s a t rx live q hq hs
    subst hq
    exact ⟨subscribe_renews hs, subscribe_cancels hs⟩
  case push =>
    exact fun s z t src sport id x hz hx hrun room hwheel hidx hturn hpushed =>
      subscriptionPush_pushes hz hx hrun room hwheel hidx hturn hpushed
  case lapse => exact fun s z t src sport id x hz hx hrun hlease hdue => subscriptionLapse_ends hz hx hrun hlease hdue

/-- Settles O24, command by command. -/
theorem sessionsAndKeysServe : Obligations.SessionsAndKeysServe := by
  unfold Obligations.SessionsAndKeysServe
  refine ⟨?openSession, ?prove, ?proveTimeout, ?close, ?idle, ?enrol, ?revoke⟩
  case openSession => exact fun s a t rx live hs => openSession_pends hs
  case prove =>
    intro s a t rx live q x hq hs hx
    subst hq
    exact prove_judges hs hx
  case proveTimeout => exact fun s z t id x hz hx hrun hpending hdue => proveTimeout_ends hz hx hrun hpending hdue
  case close => exact fun s a t rx live hs => close_ends hs
  case idle => exact fun s z t id x hz hx hrun hopen hdue => sessionIdleTimeout_ends hz hx hrun hopen hdue
  case enrol => exact fun s a t k rx live hs hk hlt => keyEnrol_activates hs hk hlt
  case revoke => exact fun s a t k rx live hs hk hlt => keyRevoke_revokes hs hk hlt

/-- Settles O1: a step takes the command at the front. -/
theorem stepRunsFrontCommand : Obligations.StepRunsFrontCommand := by
  unfold Obligations.StepRunsFrontCommand
  exact fun c rest s => rfl

/-- Settles O2: a step with no command waiting changes nothing. -/
theorem stepIdles : Obligations.StepIdles := by
  unfold Obligations.StepIdles
  exact fun s => rfl

/-- Settles O5: at reset the register store and every bounded list are empty. -/
theorem resetHasBounds : Obligations.ResetHasBounds := by
  unfold Obligations.ResetHasBounds
  exact (safe_iff _).2 ⟨rfl, rfl, rfl⟩

end Sys2Proof.Proofs
end

section
/-! PROOFS. The statements of spec/05_guests.md: the desk (R147 to R156, R177, R178, R194), ingest (R163, R182 to R186,
R191, R192, R212), guests that turn stale, absent or lapse (R195, R196, R198, R199), and guard cuts, their release and
the caps' bundles (R165 to R171, R235 to R242, R683). -/

namespace Sys2Proof.Machine

open Sys2Proof

/-! ### The register of guests -/

theorem AMap.get_adjust_same {α : Type} (m : AMap α) (k : Nat) (f : α → α) :
    AMap.get (AMap.adjust m k f) k = (AMap.get m k).map f := by
  induction m with
  | nil => rfl
  | cons p m ih =>
    obtain ⟨j, v⟩ := p
    by_cases h : j = k
    · simp [AMap.adjust, AMap.get, h]
    · simpa [AMap.adjust, AMap.get, h] using ih

theorem AMap.get_adjust_ne {α : Type} (m : AMap α) {k l : Nat} (h : l ≠ k) (f : α → α) :
    AMap.get (AMap.adjust m k f) l = AMap.get m l := by
  induction m with
  | nil => rfl
  | cons p m ih =>
    obtain ⟨j, v⟩ := p
    by_cases e : j = k
    · subst e
      simpa [AMap.adjust, AMap.get, Ne.symm h] using ih
    · by_cases f : j = l
      · simp [AMap.adjust, AMap.get, f, h]
      · simpa [AMap.adjust, AMap.get, e, f] using ih

theorem State.guest_congr {s t : State} (h : t.guests = s.guests) (slot : Nat) : t.guest slot = s.guest slot := by
  unfold State.guest
  rw [h]

theorem State.guest_of_present {s : State} {slot : Nat} {g : Guest} (h : s.presentGuest slot = some g) :
    s.guest slot = some g ∧ g.present = true := by
  unfold State.presentGuest at h
  split at h
  next g' hg =>
    split at h
    next here => exact Option.some.inj h ▸ ⟨hg, here⟩
    next => cases h
  next => cases h

end Sys2Proof.Machine

namespace Sys2Proof

open Machine

/-! ### What holds of a guest, through the operations on the register

`Holds.mapGuest` and `holds_putGuest` follow the slot a command writes; `Holds.congr` carries a fact over every operation
that leaves the register alone. -/

section

variable {s t : State} {slot : Nat} {P Q : Guest → Prop}

theorem Holds.imp (h : Holds s slot P) (hPQ : ∀ g, P g → Q g) : Holds s slot Q := by
  obtain ⟨g, hg, hP⟩ := h
  exact ⟨g, hg, hPQ g hP⟩

theorem Holds.congr (h : Holds s slot P) (hst : t.guests = s.guests) : Holds t slot P := by
  obtain ⟨g, hg, hP⟩ := h
  exact ⟨g, (State.guest_congr hst slot).trans hg, hP⟩

theorem holds_putGuest (s : State) (slot : Nat) {g : Guest} (hP : P g) : Holds (s.putGuest slot g) slot P :=
  ⟨g, State.guest_putGuest_same s slot g, hP⟩

theorem Holds.mapGuest {f : Guest → Guest} (h : Holds s slot P) (hPQ : ∀ g, P g → Q (f g)) :
    Holds (s.mapGuest slot f) slot Q := by
  obtain ⟨g, hg, hP⟩ := h
  refine ⟨f g, ?_, hPQ g hP⟩
  exact (AMap.get_adjust_same _ _ _).trans (by rw [show AMap.get s.guests slot = some g from hg]; rfl)

theorem holds_mapGuest {g : Guest} {f : Guest → Guest} (hg : s.guest slot = some g) (hP : P (f g)) :
    Holds (s.mapGuest slot f) slot P :=
  Holds.mapGuest (P := (· = g)) ⟨g, hg, rfl⟩ fun _ e => e ▸ hP

/-- A change of any slot keeps what the change keeps of each guest. -/
theorem Holds.mapGuest_any {f : Guest → Guest} (h : Holds s slot P) (k : Nat) (hP : ∀ g, P g → P (f g)) :
    Holds (s.mapGuest k f) slot P := by
  by_cases hk : slot = k
  · subst hk
    exact h.mapGuest hP
  · obtain ⟨g, hg, hPg⟩ := h
    exact ⟨g, (AMap.get_adjust_ne _ hk _).trans hg, hPg⟩

theorem Holds.mapVals {f : Nat → Guest → Guest} (h : Holds s slot P) (ht : t.guests = s.guests.mapVals f)
    (hPQ : ∀ g, P g → Q (f slot g)) : Holds t slot Q := by
  obtain ⟨g, hg, hP⟩ := h
  refine (holds_of_mapVals ht hg).imp ?_
  rintro _ rfl
  exact hPQ g hP

theorem Holds.add (h : Holds s slot P) (e : Ent) (n : Nat) : Holds (s.add e n) slot P := h.congr (by simp)

theorem Holds.inc (h : Holds s slot P) (e : Ent) : Holds (s.inc e) slot P := h.congr (by simp)

theorem Holds.latch (h : Holds s slot P) (e : Ent) (b key : Nat) : Holds (s.latch e b key) slot P := h.congr (by simp)

theorem Holds.latchOpen (h : Holds s slot P) (e : Ent) (b key : Nat) : Holds (s.latchOpen e b key) slot P :=
  h.congr (by simp)

theorem Holds.latchEnd (h : Holds s slot P) (e : Ent) (u b key : Nat) : Holds (s.latchEnd e u b key) slot P :=
  h.congr (by simp)

theorem Holds.ite {c : Prop} [Decidable c] (hs : Holds s slot P) (ht : Holds t slot P) :
    Holds (if c then s else t) slot P := by
  split
  · exact hs
  · exact ht

theorem Holds.when {f : State → State} (h : Holds s slot P) (hf : Holds (f s) slot P) (b : Bool) :
    Holds (s.when b f) slot P := by
  cases b
  · exact h
  · exact hf

theorem Holds.foldl {β : Type} {f : State → β → State} (h : Holds s slot P) (l : List β)
    (hf : ∀ s b, Holds s slot P → Holds (f s b) slot P) : Holds (l.foldl f s) slot P :=
  List.foldlRecOn (motive := fun u => Holds u slot P) l f h fun u hu b _ => hf u b hu

end

end Sys2Proof

namespace Sys2Proof.Machine

open Sys2Proof

/-! ### What leaves the register alone -/

@[simp] theorem State.guests_ite (c : Prop) [Decidable c] (s t : State) :
    (if c then s else t).guests = if c then s.guests else t.guests := apply_ite State.guests c s t

@[simp] theorem State.guests_when {s : State} {f : State → State} (h : (f s).guests = s.guests) (b : Bool) :
    (s.when b f).guests = s.guests := State.when_eq_of_eq (p := State.guests) h b

@[simp] theorem State.guests_foldl {β : Type} {f : State → β → State} (h : ∀ s b, (f s b).guests = s.guests)
    (l : List β) (s : State) : (l.foldl f s).guests = s.guests := foldl_eq_of_step (p := State.guests) h l s

@[simp] theorem State.desk_ite (c : Prop) [Decidable c] (s t : State) :
    (if c then s else t).desk = if c then s.desk else t.desk := apply_ite State.desk c s t

@[simp] theorem State.desk_foldl {β : Type} {f : State → β → State} (h : ∀ s b, (f s b).desk = s.desk) (l : List β)
    (s : State) : (l.foldl f s).desk = s.desk := foldl_eq_of_step (p := State.desk) h l s

/-! Histograms. -/

@[simp] theorem State.tallied_register (s : State) (stack n size : Nat) (m : AMap Nat) :
    (s.tallied stack n size m).guests = s.guests ∧ (s.tallied stack n size m).desk = s.desk := by
  simp [State.tallied]

@[simp] theorem State.histValue_register (s : State) (src sel v : Nat) :
    (s.histValue src sel v).guests = s.guests ∧ (s.histValue src sel v).desk = s.desk := by
  simp [State.histValue]

/-! Replies and notices (R93, R157). -/

@[simp] theorem State.deskReply_register (s : State) (dst port : Nat) (bytes : Bytes) :
    (s.deskReply dst port bytes).guests = s.guests ∧ (s.deskReply dst port bytes).desk = s.desk := by
  simp [State.deskReply]

@[simp] theorem State.notice_guests (s : State) (kind slot dst port : Nat) :
    (s.notice kind slot dst port).guests = s.guests := by
  simp [State.notice]

@[simp] theorem State.refuseCheckIn_register (s : State) (rx : Rx) (reason retry detail : Nat) :
    (s.refuseCheckIn rx reason retry detail).guests = s.guests
      ∧ (s.refuseCheckIn rx reason retry detail).desk = s.desk := by
  unfold State.refuseCheckIn
  dsimp only
  split <;> simp

/-! Placement (R319, R373, R400). -/

@[simp] theorem State.refreshDesk_guests (s : State) : s.refreshDesk.guests = s.guests := by
  simp [State.refreshDesk]

@[simp] theorem State.refreshClass_guests (s : State) (c : Nat) : (s.refreshClass c).guests = s.guests := by
  simp [State.refreshClass]

@[simp] theorem State.refreshHosted_guests (s : State) : s.refreshHosted.guests = s.guests := by
  simp [State.refreshHosted]

@[simp] theorem State.refreshStore_guests (s : State) : s.refreshStore.guests = s.guests := by
  simp [State.refreshStore]

@[simp] theorem State.unloadProg_guests (s : State) (p result : Nat) : (s.unloadProg p result).guests = s.guests := by
  simp [State.unloadProg]

@[simp] theorem State.evict_guests (s : State) (k n : Nat) : (s.evict k n).guests = s.guests := by
  induction n generalizing s with
  | zero => rfl
  | succ n ih =>
    unfold State.evict
    dsimp only
    split
    next => rfl
    next =>
      split
      next => rfl
      next => split <;> simp [ih]

@[simp] theorem State.carve_guests (s : State) (back : Bool) : (s.carve back).guests = s.guests := by
  unfold State.carve
  dsimp only
  rw [State.refreshStore_guests, State.guests_foldl fun u k => by simp, State.refreshHosted_guests]

/-- A guest is moved to another stack when its class is placed; nothing else changes in the register (R400). -/
theorem State.placeClass_guests (s : State) (c : Nat) : ∃ f : Nat → Guest → Guest,
    (s.placeClass c).guests = s.guests.mapVals f ∧ ∀ k g, ∃ r, f k g = { g with stack := r } := by
  unfold State.placeClass
  dsimp only
  split
  next => exact ⟨fun _ g => g, by simp [AMap.mapVals], fun k g => ⟨g.stack, rfl⟩⟩
  next r _ =>
    refine ⟨fun _ g => if g.pp.cls = c then { g with stack := r } else g, State.carve_guests _ _, fun k g => ?_⟩
    dsimp only
    split
    next => exact ⟨r, rfl⟩
    next => exact ⟨g.stack, rfl⟩

theorem State.classChanged_guests (s : State) (c : Nat) : ∃ f : Nat → Guest → Guest,
    (s.classChanged c).guests = s.guests.mapVals f ∧ ∀ k g, ∃ r, f k g = { g with stack := r } := by
  unfold State.classChanged
  dsimp only
  split
  next => exact State.refreshClass_guests s c ▸ State.placeClass_guests (s.refreshClass c) c
  next => exact ⟨fun _ g => g, by simp [AMap.mapVals], fun k g => ⟨g.stack, rfl⟩⟩

theorem holds_classChanged {s : State} {slot : Nat} {P : Guest → Prop} (h : Holds s slot P) (c : Nat)
    (hP : ∀ g r, P g → P { g with stack := r }) : Holds (s.classChanged c) slot P := by
  obtain ⟨f, hf, hstack⟩ := s.classChanged_guests c
  refine h.mapVals hf fun g hg => ?_
  obtain ⟨r, hr⟩ := hstack slot g
  exact hr ▸ hP g r hg

theorem State.guest_classChanged_none {s : State} {slot : Nat} (h : s.guest slot = none) (c : Nat) :
    (s.classChanged c).guest slot = none := by
  obtain ⟨f, hf, -⟩ := s.classChanged_guests c
  unfold State.guest at *
  rw [hf, AMap.get_mapVals, h]
  rfl

/-! ### A guard cut that is queued (R94, R234 to R238) -/

/-- Building row cuts defers the cuts they cover; of a guest only its cut changes (R237, R238). -/
theorem holds_buildRowCuts {s : State} {slot : Nat} {P : Guest → Prop} (h : Holds s slot P)
    (hP : ∀ g k, P g → P { g with cut := k }) : Holds s.buildRowCuts slot P := by
  unfold State.buildRowCuts
  dsimp only
  split
  next => exact h
  next =>
    refine h.foldl _ fun u c hu => Holds.latch (Holds.inc (Holds.add (Holds.foldl ?_ _ fun u x hu => ?_) _ _) _) _ _ _
    · exact hu.congr rfl
    · exact hu.mapGuest_any _ fun g => hP g _

theorem holds_queueCut {s : State} {slot : Nat} {P : Guest → Prop} (h : Holds s slot P) (g : Guest) (c : CutRec)
    (hP : ∀ g k, P g → P { g with cut := k }) : Holds (s.queueCut g c) slot P := by
  unfold State.queueCut
  dsimp only
  split
  next => exact h
  next =>
    refine Holds.ite ?_ ?_
    · refine Holds.inc (Holds.mapGuest_any (P := P) ?_ _ fun g => hP g _) _
      exact h.congr rfl
    · exact holds_buildRowCuts (h.congr (by simp)) hP

/-! ### A per-guest record that is queued (R169) -/

theorem State.queueCap_guests (s : State) (c : CapDue) : (s.queueCap c).guests = s.guests := by
  unfold State.queueCap
  split <;> rfl

section

variable {s : State} {slot : Nat} {P : Guest → Prop}

theorem holds_queueCap (h : Holds s slot P) (c : CapDue) : Holds (s.queueCap c) slot P := h.congr (s.queueCap_guests c)

theorem holds_dropCaps (h : Holds s slot P) (k : Nat) (kinds : List Nat) : Holds (s.dropCaps k kinds) slot P :=
  h.congr rfl

theorem holds_notice (h : Holds s slot P) (kind k dst port : Nat) : Holds (s.notice kind k dst port) slot P :=
  h.congr (s.notice_guests kind k dst port)

theorem holds_refreshDesk (h : Holds s slot P) : Holds s.refreshDesk slot P := h.congr s.refreshDesk_guests

theorem holds_deskReply (h : Holds s slot P) (dst port : Nat) (bytes : Bytes) :
    Holds (s.deskReply dst port bytes) slot P := h.congr (s.deskReply_register dst port bytes).1

end

/-- The record in force is sent again; of the guest only its cut may change (R177, R238). -/
theorem holds_resend {s : State} {slot : Nat} {P : Guest → Prop} (h : Holds s slot P) (k : Nat) (g : Guest)
    (hP : ∀ g k, P g → P { g with cut := k }) : Holds (s.resend k g) slot P := by
  have cap (c : CapDue) : Holds (s.queueCap c) slot P := holds_queueCap h c
  have cut (c : CutRec) : Holds (s.queueCut g c) slot P := holds_queueCut h g c hP
  unfold State.resend
  dsimp only
  cases g.lastCap with
  | none =>
    dsimp only
    split
    next => exact cut _
    next => exact h
  | some r =>
    dsimp only
    split
    next => exact Holds.ite (cap _) (cut _)
    next =>
      split
      next => exact cap _
      next => exact h
      next => exact h
      next => exact cap _

theorem State.take_eff (s : State) (rx : Rx) (e : Ent) : (s.take rx).eff e = s.eff e := rfl

theorem State.take_guest (s : State) (rx : Rx) (slot : Nat) : (s.take rx).guest slot = s.guest slot := rfl

/-! ### Serving a check-in (R148, R150) -/

/-- A check-in of a known class on an enabled branch, new to the register, is admitted to the lowest free slot while the
desk is open and below its limit. -/
theorem State.serveCheckIn_of_free {s : State} {rx : Rx} {slot : Nat} {p : Passport} (hp : p = Passport.read rx.bytes)
    (hopen : s.get E.DESK_OPEN ≠ 0) (hversion : field rx.bytes 0 1 = 1) (hfault : s.passportFault rx.bytes = 0)
    (hclass : s.getU E.CLASS_STATE p.cls ≠ 0) (hbranch : s.getU E.BR_ENABLE p.branch ≠ 0) (hnew : s.byId p.id = none)
    (hfree : lowestFree s.guests 0 = some slot)
    (hlimit : s.get E.DESK_PRESENT + s.get E.DESK_RESERVED < s.get E.ADMIT_LIMIT) :
    s.serveCheckIn rx = s.takeIn rx slot := by
  subst hp
  simp [State.serveCheckIn, hopen, hversion, hfault, hclass, hbranch, hnew, hfree, hlimit]

theorem State.serveCheckIn_of_closed {s : State} (h : s.get E.DESK_OPEN = 0) (rx : Rx) :
    s.serveCheckIn rx = s.refuseCheckIn rx 5 1 0 := by
  simp [State.serveCheckIn, h]

/-- The guest that an admission puts into the slot (R150, R389). -/
theorem holds_takeIn (s : State) (rx : Rx) (slot : Nat) : Holds (s.takeIn rx slot) slot fun g =>
    g.present = true ∧ g.pp = Passport.read rx.bytes ∧ g.src = rx.src ∧ g.sport = rx.sport ∧ g.servedAt = s.now
      ∧ g.firstTick = s.tick + 2 ∧ g.joinTick = s.tick + 2 := by
  unfold State.takeIn
  dsimp only
  refine holds_deskReply (Holds.inc (holds_classChanged (holds_refreshDesk ?_) _ fun g r h => h) _) _ _ _
  exact (holds_putGuest s slot ⟨rfl, rfl, rfl, rfl, rfl, rfl, rfl⟩).congr rfl

/-- A slot that is freed holds no guest (R155, R156). -/
theorem State.guest_freeSlot (s : State) (slot : Nat) : (s.freeSlot slot).guest slot = none := by
  unfold State.freeSlot
  split
  next h => exact h
  next =>
    refine State.guest_classChanged_none ?_ _
    exact (State.guest_congr (State.refreshDesk_guests _) slot).trans (AMap.get_erase_same _ _)

/-- A reply of the desk counts at most its own loss (R93). -/
theorem State.get_deskReply_ne (s : State) (dst port : Nat) (bytes : Bytes) {e : Ent} (h : e.key ≠ E.DROP_EGRESS.key) :
    (s.deskReply dst port bytes).get e = s.get e := by
  unfold State.deskReply
  dsimp only
  split
  next => exact s.get_inc_ne _ _ h
  next => exact State.get_congr (State.send_regs (show 2 < 3 by decide)) e

section

variable {s z : State} {t slot : Nat}

/-! ### What each command of the desk leaves (R147 to R156, R177, R178) -/

/-- CHECK_IN_REQUEST (R147): with room in the queue the request waits there. -/
theorem checkInRequest_queues {rx : Rx} (hz : z = s.at t) (hmine : z.deskMine rx 1 = true) (hlen : 32 ≤ rx.bytes.length)
    (hport : rx.dport = z.eff E.UDP_PORT_TELEMETRY) (hroom : z.desk.checkIns.length < 8192) :
    Answers (.checkInRequest t rx) s fun u =>
      u.regs = z.regs ∧ u.desk.checkIns = z.desk.checkIns ++ [{ rx := rx }] := by
  subst hz
  refine answers_of_when rfl hmine ?_
  generalize s.at t = z at *
  rw [if_neg (Nat.not_lt.2 hlen), if_neg (Decidable.not_not.2 (hport.trans (z.take_eff rx _).symm)),
    if_neg (show ¬ 8192 ≤ (z.take rx).desk.checkIns.length from Nat.not_le.2 hroom)]
  exact ⟨rfl, rfl⟩

/-- The state in which the oldest request has left the queue as the `n`th that the tick serves (R147). -/
def State.checkInTaken (s : State) (rest : List CheckIn) (n : Nat) : State :=
  { s with desk := { s.desk with checkIns := rest, served := n, servedTick := s.tick } }

/-- CHECK_IN_SERVE takes the oldest request while fewer than 2,048 have been served in the tick (R147). -/
theorem checkInServe_serves {c : CheckIn} {rest : List CheckIn} {P : State → Prop} (hz : z = s.at t)
    (hrun : z.fwRuns = true) (hrate : z.desk.servedTick ≠ z.tick ∨ z.desk.served < 2048)
    (hqueue : z.desk.checkIns = c :: rest) (h : ∀ n, P ((z.checkInTaken rest n).serveCheckIn c.rx)) :
    Answers (.checkInServe t) s P := by
  subst hz
  have below : (if (s.at t).desk.servedTick = (s.at t).tick then (s.at t).desk.served else 0) < 2048 := by
    split <;> omega
  refine answers_of_when rfl (by simpa [hrun] using below) ?_
  dsimp only
  rw [hqueue]
  exact h _

/-- CHECK_IN_SERVE (R148, R150): an admitted guest holds the lowest free slot. -/
theorem checkInServe_admits {c : CheckIn} {rest : List CheckIn} {p : Passport} (hz : z = s.at t) (hrun : z.fwRuns = true)
    (hrate : z.desk.servedTick ≠ z.tick ∨ z.desk.served < 2048) (hqueue : z.desk.checkIns = c :: rest)
    (hp : p = Passport.read c.rx.bytes) (hopen : z.get E.DESK_OPEN ≠ 0) (hversion : field c.rx.bytes 0 1 = 1)
    (hfault : z.passportFault c.rx.bytes = 0) (hclass : z.getU E.CLASS_STATE p.cls ≠ 0)
    (hbranch : z.getU E.BR_ENABLE p.branch ≠ 0) (hnew : z.byId p.id = none) (hfree : lowestFree z.guests 0 = some slot)
    (hlimit : z.get E.DESK_PRESENT + z.get E.DESK_RESERVED < z.get E.ADMIT_LIMIT) :
    Answers (.checkInServe t) s fun u => Holds u slot fun g =>
      g.present = true ∧ g.pp = p ∧ g.src = c.rx.src ∧ g.sport = c.rx.sport ∧ g.servedAt = z.now
        ∧ g.firstTick = z.tick + 2 ∧ g.joinTick = z.tick + 2 := by
  refine checkInServe_serves hz hrun hrate hqueue fun n => ?_
  rw [State.serveCheckIn_of_free (s := z.checkInTaken rest n) hp hopen hversion hfault hclass hbranch hnew hfree hlimit, hp]
  exact holds_takeIn _ _ _

/-- CHECK_IN_SERVE (R148): a closed desk refuses, and the register stands as it was. -/
theorem checkInServe_refuses {c : CheckIn} {rest : List CheckIn} (hz : z = s.at t) (hrun : z.fwRuns = true)
    (hrate : z.desk.servedTick ≠ z.tick ∨ z.desk.served < 2048) (hqueue : z.desk.checkIns = c :: rest)
    (hclosed : z.get E.DESK_OPEN = 0) :
    Answers (.checkInServe t) s fun u => u.guests = z.guests ∧ u.desk.checkIns = rest := by
  refine checkInServe_serves hz hrun hrate hqueue fun n => ?_
  rw [State.serveCheckIn_of_closed (s := z.checkInTaken rest n) hclosed]
  simp [State.checkInTaken]

/-- PASSPORT_TAKE_FORCE (R152): the new passport replaces the old one, and quarantine and pair episodes end. -/
theorem passportTakeForce_replaces {due : Nat} {g : Guest} {p : Passport} (hz : z = s.at t) (hg : z.guest slot = some g)
    (hnew : g.newPp = some (p, due)) (hdue : due ≤ z.tick) :
    Answers (.passportTakeForce t slot) s fun u => Holds u slot fun g =>
      g.present = true ∧ g.pp = p ∧ g.newPp = none ∧ g.quarantine = 0 ∧ g.pairs = [] := by
  subst hz
  refine ⟨_, rfl, ?_⟩
  generalize s.at t = z at *
  simp -zeta only [hg, hnew]
  rw [State.when_of (decide_eq_true hdue)]
  extract_lets moved ended taken restarted region placed old here
  have placedTaken : placed.pp = p ∧ placed.newPp = none ∧ placed.quarantine = 0 ∧ placed.pairs = [] := by
    unfold placed restarted
    split <;> split <;> exact ⟨rfl, rfl, rfl, rfl⟩
  refine holds_classChanged (holds_classChanged (holds_refreshDesk (holds_putGuest _ slot ?_)) _ fun g r h => h) _
    fun g r h => h
  unfold here
  split
  next present => exact ⟨present, placedTaken⟩
  next => exact ⟨rfl, placedTaken⟩

/-- REJOIN_CUT_RESEND (R177): what is to be sent again is sent once. -/
theorem rejoinCutResend_clears {due : Nat} {g : Guest} (hz : z = s.at t) (hg : z.presentGuest slot = some g)
    (hresend : g.rejoinResend = some due) (hdue : due ≤ z.tick) :
    Answers (.rejoinCutResend t slot) s fun u => Holds u slot fun g => g.rejoinResend = none := by
  subst hz
  refine ⟨_, rfl, ?_⟩
  generalize s.at t = z at *
  rw [State.withGuest_of_present hg, hresend]
  dsimp only
  rw [State.when_of (decide_eq_true hdue)]
  have cleared : Holds (z.putGuest slot { g with rejoinResend := none }) slot fun g => g.rejoinResend = none :=
    holds_putGuest z slot rfl
  exact cleared.when (holds_resend cleared slot g fun g k h => h) _

/-- CHECK_OUT_REQUEST (R155): the slot of the guest that leaves is freed at the next tick boundary. -/
theorem checkOutRequest_counts {rx : Rx} {g : Guest} (hz : z = s.at t) (hmine : z.deskMine rx 3 = true)
    (hlen : rx.bytes.length = 32) (hport : rx.dport = z.eff E.UDP_PORT_TELEMETRY) (hversion : field rx.bytes 0 1 = 1)
    (hslot : slot = field rx.bytes 8 4) (hg : z.guest slot = some g) (hid : g.pp.id = field rx.bytes 16 16) :
    Answers (.checkOutRequest t rx) s fun u =>
      u.get E.CHECKOUTS = (z.get E.CHECKOUTS + 1) % 2 ^ 64 ∧ Holds u slot fun g => g.freeDue = some (z.tick + 1) := by
  subst hz hslot
  refine answers_of_when rfl hmine ?_
  generalize s.at t = z at *
  rw [if_neg (Decidable.not_not.2 hlen), if_neg (Decidable.not_not.2 (hport.trans (z.take_eff rx _).symm)),
    if_neg (Decidable.not_not.2 hversion)]
  simp only [State.take_guest, hg, hid, beq_self_eq_true, if_true]
  refine ⟨?_, ?_⟩
  · exact (State.get_deskReply_ne _ _ _ _ (by decide)).trans (State.get_inc_same _ _)
  · refine holds_deskReply (Holds.inc ?_ _) _ _ _
    exact holds_mapGuest (s := z.take rx) hg rfl

/-- CHECK_OUT_FREE (R155). -/
theorem checkOutFree_frees {due : Nat} {g : Guest} (hz : z = s.at t) (hg : z.guest slot = some g)
    (hfree : g.freeDue = some due) (hdue : due ≤ z.tick) :
    Answers (.checkOutFree t slot) s fun u => u.guest slot = none := by
  subst hz
  refine ⟨_, rfl, ?_⟩
  generalize s.at t = z at *
  simp only [hg, hfree]
  rw [State.when_of (decide_eq_true hdue)]
  exact State.guest_freeSlot z slot

/-- CLASS_LIFT (R178): the lowest class that is due is lifted, and the turn of the lift is kept. -/
theorem classLift_lifts {c : Nat} {rest : List Nat} (hz : z = s.at t) (hceilings : z.get E.MODEL_CEILINGS = 1)
    (hidx : z.wheel.idx = 0) (hgap : z.desk.lifted = [] ∨ z.desk.lastLift + z.eff E.LIFT_GAP_TURNS ≤ z.turn)
    (hdue : ((List.range 256).filter fun c => (z.desk.lifted.get c).isNone && z.presents.any fun p =>
      p.2.pp.cls == c && decide (p.2.becamePresent ≤ z.tick - z.wheel.idx)) = c :: rest) :
    Answers (.classLift t) s fun u =>
      u.desk.lifted = z.desk.lifted.set c z.tick ∧ u.desk.lastLift = z.turn ∧ u.guests = z.guests := by
  subst hz
  refine ⟨_, rfl, ?_⟩
  generalize s.at t = z at *
  rw [State.when_of (by simpa [hceilings, hidx] using hgap)]
  dsimp only
  rw [hdue]
  exact ⟨rfl, rfl, rfl⟩

end

/-! ### What ends with a guest's presence (R156, R196, R198) -/

theorem State.get_latchOpen_ne (s : State) (e f : Ent) (b key : Nat) (h : f.key ∉ logKeys) (hk : f.key ≠ e.key) :
    (s.latchOpen e b key).get f = s.get f := State.getD_latchOpenU s e 0 b key h (by simpa using hk) _

theorem holds_endCut {s : State} {slot : Nat} {g : Guest} {P : Guest → Prop} (hg : s.guest slot = some g)
    (hP : P { g with cut := none }) : Holds (s.endCut slot) slot P :=
  holds_mapGuest (s := s.dropCut slot) hg hP

section

variable {s z : State} {t slot : Nat} {g : Guest}

/-! ### What each command leaves of a guest that turns stale, absent or lapses (R156, R195 to R199) -/

/-- GUEST_STALE (R195, R196): the guest turns stale, a STALE_CAP falls due and a RELEASE that waits is withdrawn. -/
theorem guestStale_turns (hz : z = s.at t) (hg : z.presentGuest slot = some g) (hfresh : g.stale = false)
    (hstale : z.isStale g z.ended = true) :
    Answers (.guestStale t slot) s fun u =>
      u.get E.STALE_ENTRIES = (z.get E.STALE_ENTRIES + 1) % 2 ^ 64 ∧ Holds u slot fun g' =>
        g'.stale = true ∧ g'.staleEpisodes = satBytes 4 (g.staleEpisodes + 1) ∧ g'.staleDue = g.lastCap.isSome
          ∧ g'.preStale = g.perGuest z.tick ∧ g'.releaseDue = none := by
  subst hz
  refine ⟨_, rfl, ?_⟩
  generalize s.at t = z at *
  rw [State.withGuest_of_present hg, State.when_of (by simp [hfresh, hstale])]
  refine ⟨?_, ?_⟩
  · exact (State.get_latchOpen_ne _ _ _ _ _ (by decide) (by decide)).trans (State.get_inc_same _ _)
  · refine Holds.latchOpen (Holds.inc ?_ _) _ _ _
    exact holds_putGuest z slot ⟨rfl, rfl, rfl, rfl, rfl⟩

/-- STALE_CAP_SEND (R196): the STALE_CAP enters class 2 at the lower of `ORPHAN_CAP` and the ceiling in force, also while
a guard cut is (notes/assumptions/35.md). -/
theorem staleCapSend_queues (hz : z = s.at t) (hg : z.presentGuest slot = some g) (hstale : g.stale = true)
    (hdue : g.staleDue = true) (hrest : z.inRest = false) (hlink : z.linkUp = true) (hsending : z.port.sending = true) :
    Answers (.staleCapSend t slot) s fun u =>
      (Holds u slot fun g' => g'.staleDue = false) ∧
        (∃ c, c ∈ u.desk.class2 ∧ c.slot = slot ∧ c.kind = 3 ∧ c.slew = 0
          ∧ c.ceiling = g.pp.bound (min g.pp.orphan (g.perGuest z.tick)) ∧ c.hold = z.eff E.CAP_HOLD_TICKS) := by
  subst hz
  refine ⟨_, rfl, ?_⟩
  generalize s.at t = z at *
  rw [State.withGuest_of_present hg, State.when_of (by simp [hstale, hdue, hrest, hlink, hsending])]
  refine ⟨?_, _, State.mem_queueCap ?_ _, rfl, rfl, rfl, rfl, rfl⟩
  · refine holds_queueCap (holds_dropCaps ?_ _ _) _
    exact holds_putGuest z slot rfl
  · exact hlink

/-- STALE_END (R198): the guest is stale no longer, whatever falls due in its place. -/
theorem staleEnd_ends (hz : z = s.at t) (hg : z.presentGuest slot = some g) (hstale : g.stale = true)
    (hfresh : z.isStale g z.ended = false) :
    Answers (.staleEnd t slot) s fun u => Holds u slot fun g' => g'.stale = false ∧ g'.staleDue = false := by
  subst hz
  refine ⟨_, rfl, ?_⟩
  generalize s.at t = z at *
  rw [State.withGuest_of_present hg, State.when_of (by simp [hstale, hfresh])]
  dsimp only
  generalize hy : State.latchEnd _ _ _ _ _ = y
  have ended : Holds y slot fun g' => g'.stale = false ∧ g'.staleDue = false := by
    subst hy
    refine Holds.latchEnd (holds_dropCaps ?_ _ _) _ _ _ _
    exact holds_putGuest z slot ⟨rfl, rfl⟩
  refine Holds.ite ended ?_
  split
  next => exact holds_queueCut ended g _ fun g k h => h
  next => exact Holds.ite ended (ended.mapGuest fun g h => h)

/-- ABSENCE_TIMEOUT (R199): the guest lapses at the next tick boundary, and no entry changes. -/
theorem absenceTimeout_waits (hz : z = s.at t) (hg : z.presentGuest slot = some g) (hlapse : g.lapseDue = none)
    (habsent : z.eff E.ABSENCE_TICKS ≤ g.presenceAge z.ended) :
    Answers (.absenceTimeout t slot) s fun u =>
      u.regs = z.regs ∧ Holds u slot fun g' => g' = { g with lapseDue := some (z.ended + 1) } := by
  subst hz
  refine ⟨_, rfl, ?_⟩
  generalize s.at t = z at *
  rw [State.withGuest_of_present hg, State.when_of (by simp [hlapse, habsent])]
  exact ⟨rfl, holds_putGuest z slot rfl⟩

/-- GUEST_LAPSE (R156): the slot is reserved for the guest from this tick on. -/
theorem guestLapse_reserves {due : Nat} (hz : z = s.at t) (hg : z.presentGuest slot = some g)
    (hlapse : g.lapseDue = some due) (hdue : due ≤ z.tick) :
    Answers (.guestLapse t slot) s fun u => Holds u slot fun g' =>
      g'.present = false ∧ g'.lapseDue = none ∧ g'.stale = false ∧ g'.disobedient = false ∧ g'.cut = none
        ∧ g'.reservedTurn = z.turn ∧ g'.reservedTick = z.tick := by
  subst hz
  refine ⟨_, rfl, ?_⟩
  generalize s.at t = z at *
  rw [State.withGuest_of_present hg, hlapse]
  dsimp only
  rw [State.when_of (decide_eq_true hdue)]
  generalize hx : (if g.stale = true then _ else z.endCut slot) = x
  have uncutX : Holds x slot fun g' => g'.cut = none := by
    subst hx
    have uncut : Holds (z.endCut slot) slot fun g' => g'.cut = none := holds_endCut (State.guest_of_present hg).1 rfl
    exact Holds.ite (uncut.latchEnd _ _ _ _) uncut
  have wheelX : x.wheel = z.wheel := by
    subst hx
    simp [State.endCut, State.dropCut, State.mapGuest]
  generalize hy : (if g.disobedient = true then _ else x) = y
  have uncutY : Holds y slot fun g' => g'.cut = none := by
    subst hy
    exact Holds.ite (uncutX.latchEnd _ _ _ _) uncutX
  have wheelY : y.wheel = z.wheel := by
    subst hy
    simp [wheelX]
  refine holds_classChanged (holds_refreshDesk (holds_notice (Holds.inc (holds_queueCap (holds_dropCaps ?_ _ _) _) _)
    _ _ _ _)) _ fun g' r h => h
  exact uncutY.mapGuest fun g' cut =>
    ⟨rfl, rfl, rfl, rfl, cut, congrArg Wheel.turn wheelY, congrArg Wheel.tick wheelY⟩

/-- RESERVE_EXPIRY (R156, R199): a reservation that has run out leaves the slot free. -/
theorem reserveExpiry_frees (hz : z = s.at t) (hg : z.guest slot = some g) (hpresent : g.present = false)
    (hnew : g.newPp = none) (hexpired : g.reservedTurn + z.eff E.RESERVE_TURNS ≤ z.turn)
    (hsent : (z.desk.class2.all fun c => c.slot != slot) = true) :
    Answers (.reserveExpiry t slot) s fun u => u.guest slot = none := by
  subst hz
  refine ⟨_, rfl, ?_⟩
  generalize s.at t = z at *
  have unsent : (z.desk.class2.any fun c => c.slot == slot) = false := by
    simpa using hsent
  simp only [hg]
  rw [State.when_of (by simp [hpresent, hnew, hexpired, unsent])]
  exact State.guest_freeSlot z slot

end

/-! ### The class 0 queue (R234, R238) -/

/-- Entering a cut touches the class 0 queue alone. -/
theorem Desk.enqueue_shape (d : Desk) (c : CutRec) : d.enqueue c = { d with class0 := (d.enqueue c).class0 } := by
  unfold Desk.enqueue
  split <;> rfl

theorem Desk.enqueue_class0_congr {d e : Desk} (h : d.class0 = e.class0) (c : CutRec) :
    (d.enqueue c).class0 = (e.enqueue c).class0 := by
  unfold Desk.enqueue
  rw [h]
  split <;> rfl

theorem Desk.foldl_enqueue_shape (cs : List CutRec) (d : Desk) :
    cs.foldl Desk.enqueue d = { d with class0 := (cs.foldl Desk.enqueue d).class0 } := by
  induction cs generalizing d with
  | nil => rfl
  | cons c cs ih =>
    rw [List.foldl_cons, ih, Desk.enqueue_shape]

theorem Desk.foldl_enqueue_class0_congr (cs : List CutRec) {d e : Desk} (h : d.class0 = e.class0) :
    (cs.foldl Desk.enqueue d).class0 = (cs.foldl Desk.enqueue e).class0 := by
  induction cs generalizing d e with
  | nil => exact h
  | cons c cs ih => exact ih (Desk.enqueue_class0_congr h c)

theorem State.mapGuest_desk (s : State) (slot : Nat) (f : Guest → Guest) : (s.mapGuest slot f).desk = s.desk := rfl

/-! ### Bundles that leave (R89, R158, R166, R683) -/

theorem State.nextSeq_shape (s : State) (ty addr port : Nat) :
    ∃ q, (s.nextSeq ty addr port).2 = { s with desk := { s.desk with seqs := q } } := by
  unfold State.nextSeq
  dsimp only
  split <;> exact ⟨_, rfl⟩

/-- A datagram of class 0 finds room while the link is up (R93). -/
theorem State.send_of_class0 {s : State} {d : Dgram} (hcls : d.cls = 0) (hlink : s.linkUp = true) :
    s.send d = { s with port := { s.port with egress := s.port.egress ++ [d] } } :=
  State.send_of_canSend (by simp [State.canSend, Port.room, hcls, hlink])

theorem State.sendBundle_of_class0 {s : State} (hlink : s.linkUp = true) (ty addr port count : Nat) (records : Bytes) :
    (s.sendBundle 0 ty addr port count records).desk.rowOut = s.desk.rowOut
      ∧ ∃ d, (s.sendBundle 0 ty addr port count records).port.egress = s.port.egress ++ [d] ∧ d.cls = 0 ∧ d.dst = addr
        ∧ d.tag = 4 := by
  obtain ⟨q, hq⟩ := s.nextSeq_shape ty addr port
  unfold State.sendBundle
  dsimp only
  rw [hq, State.send_of_class0 (s := { s with desk := { s.desk with seqs := q } }) rfl hlink]
  exact ⟨rfl, _, rfl, rfl, rfl, rfl⟩

/-- A bundle that leaves changes neither the register nor the records that wait. -/
theorem State.sendBundle_frame (s : State) (cls ty addr port count : Nat) (records : Bytes) :
    (s.sendBundle cls ty addr port count records).guests = s.guests
      ∧ (s.sendBundle cls ty addr port count records).desk.class2 = s.desk.class2 := by
  obtain ⟨q, hq⟩ := s.nextSeq_shape ty addr port
  simp [State.sendBundle, hq]

/-- A record that is not a RELEASE becomes the cap last sent, its hold running from the tick in progress (R171). -/
theorem holds_recordSent {s : State} {slot kind : Nat} {g : Guest} (hg : s.guest slot = some g) (hkind : kind ≠ 4)
    (ceiling slew hold : Nat) : Holds (s.recordSent slot kind ceiling slew hold) slot fun g' =>
      g'.lastCap = some { kind := kind, ceiling := ceiling, slew := slew, hold := hold, tick := s.tick
                          lapse := s.tick + hold } := by
  refine holds_mapGuest hg ?_
  simp only [hkind, if_false]
  split
  · rfl
  · split <;> rfl

section

variable {s z : State} {t slot : Nat} {g : Guest}

/-! ### What each command leaves of cuts, releases and caps (R165 to R171, R235 to R242, R683) -/

/-- DEFERRED_CUT_REQUEUE (R238): the oldest deferred cuts enter the queue, up to the tick's limit. -/
theorem deferredCutRequeue_requeues {n : Nat} (hz : z = s.at t) (hlink : z.linkUp = true)
    (hbelow : 4 * z.desk.class0.length < z.eff E.GUARD_ROWCUT_DEPTH)
    (hn : n = 1024 - (if z.desk.requeueTick = z.tick then z.desk.requeued else 0)) (hpos : 0 < n)
    (hdeferred : z.desk.deferred ≠ []) :
    Answers (.deferredCutRequeue t) s fun u =>
      u.desk.class0 = ((z.desk.deferred.take n).foldl Desk.enqueue z.desk).class0
        ∧ u.desk.deferred = z.desk.deferred.drop n ∧ u.desk.requeueTick = z.tick := by
  subst hz
  refine ⟨_, rfl, ?_⟩
  generalize s.at t = z at *
  rw [← hn, State.when_of (by simp [hlink, hbelow, hpos, hdeferred])]
  dsimp only
  rw [State.desk_foldl fun u x => State.mapGuest_desk u (CutRec.slot x) _, Desk.foldl_enqueue_shape]
  exact ⟨Desk.foldl_enqueue_class0_congr _ rfl, rfl, rfl⟩

/-- ROW_CUT_REFRESH (R239): in its last tick a class row cut is sent again for a guest of the class that exceeded
lately. -/
theorem rowCutRefresh_renews {scope k : Nat} {r : RowSent} (hz : z = s.at t) (hscope : scope < 256)
    (hrest : z.inRest = false) (hlink : z.linkUp = true) (hsending : z.port.sending = true)
    (hforce : z.rowInForce scope z.tick = some r) (hlast : z.tick = r.tick + r.hold - 1)
    (hunsent : (z.desk.rowOut.all fun x => x.scope != scope) = true) (hmem : (slot, g) ∈ z.guests)
    (hpresent : g.present = true) (hclass : g.pp.cls = scope) (hexceed : g.exceedTick = some k)
    (hlately : z.tick < k + z.eff E.GUARD_CLEAR_TICKS) :
    Answers (.rowCutRefresh t scope) s fun u =>
      u.desk.rowOut = z.desk.rowOut ++
        [{ scope := scope, ceiling := r.ceiling, slew := r.slew, hold := z.eff E.GUARD_ROWCUT_HOLD }] := by
  subst hz
  refine ⟨_, rfl, ?_⟩
  generalize s.at t = z at *
  have unsent : (z.desk.rowOut.any fun x => x.scope == scope) = false := by simpa using hunsent
  rw [State.when_of (by simp [hscope, hrest, hlink, hsending]), hforce]
  dsimp only
  rw [State.when_of ?due]
  case due =>
    have hot : (slot, g) ∈ z.presents := List.mem_filter.2 ⟨hmem, hpresent⟩
    refine Bool.and_eq_true_iff.2 ⟨by simp [← hlast, unsent], Bool.or_eq_true_iff.2 (.inl ?_)⟩
    refine List.any_eq_true.2 ⟨_, hot, ?_⟩
    simp [hclass, hexceed, hlately]

/-- GUARD_RELEASE (R241, R242): the cut ends and a RELEASE falls due; no entry changes. -/
theorem guardRelease_releases {k : Cut} (hz : z = s.at t) (hg : z.presentGuest slot = some g) (hcut : g.cut = some k)
    (hrest : z.inRest = false) (hfresh : g.stale = false) (hmay : z.mayRelease k = true) :
    Answers (.guardRelease t slot) s fun u =>
      u.regs = z.regs ∧ Holds u slot fun g' =>
        g' = { g with cut := none, rampFrom := some k.ceiling
                      releaseDue := some (g.releaseValue k.pre, z.eff E.GUARD_RELEASE_SLEW, true) } := by
  subst hz
  refine ⟨_, rfl, ?_⟩
  generalize s.at t = z at *
  rw [State.withGuest_of_present hg, hcut]
  dsimp only
  rw [State.when_of (by simp [hrest, hfresh, hmay])]
  refine ⟨rfl, Holds.mapGuest (P := (· = { g with cut := none })) ?_ ?_⟩
  · exact holds_endCut (State.guest_of_present hg).1 rfl
  · rintro _ rfl
    rfl

/-- RELEASE_SEND takes the RELEASE that is due off the guest (R242). -/
theorem releaseSend_takes {v slew : Nat} {guard : Bool} {P : State → Prop} (hz : z = s.at t)
    (hg : z.presentGuest slot = some g) (hdue : g.releaseDue = some (v, slew, guard)) (hrest : z.inRest = false)
    (hlink : z.linkUp = true) (hsending : z.port.sending = true)
    (h : P (let y := z.mapGuest slot fun g => { g with releaseDue := none }
      if g.cut.isSome || g.stale then y
      else (y.queueCap { slot := slot, kind := 4, ceiling := g.releaseValue v, slew := slew, hold := 0 }).when guard
        fun s => s.inc E.GUARD_RELEASES)) :
    Answers (.releaseSend t slot) s P := by
  subst hz
  refine ⟨_, rfl, ?_⟩
  generalize s.at t = z at *
  rw [State.withGuest_of_present hg, hdue]
  dsimp only
  rw [State.when_of (by simp [hrest, hlink, hsending])]
  exact h

/-- RELEASE_SEND (R198, R242): a cut or staleness that came meanwhile cancels the RELEASE. -/
theorem releaseSend_cancels {v slew : Nat} {guard : Bool} (hz : z = s.at t) (hg : z.presentGuest slot = some g)
    (hdue : g.releaseDue = some (v, slew, guard)) (hrest : z.inRest = false) (hlink : z.linkUp = true)
    (hsending : z.port.sending = true) (hheld : g.cut.isSome = true ∨ g.stale = true) :
    Answers (.releaseSend t slot) s fun u =>
      (Holds u slot fun g' => g' = { g with releaseDue := none }) ∧ u.desk = z.desk := by
  refine releaseSend_takes hz hg hdue hrest hlink hsending ?_
  dsimp only
  rw [if_pos (by simpa using hheld)]
  exact ⟨holds_mapGuest (State.guest_of_present hg).1 rfl, rfl⟩

/-- RELEASE_SEND (R242): the RELEASE enters class 2. -/
theorem releaseSend_queues {v slew : Nat} {guard : Bool} (hz : z = s.at t) (hg : z.presentGuest slot = some g)
    (hdue : g.releaseDue = some (v, slew, guard)) (hrest : z.inRest = false) (hlink : z.linkUp = true)
    (hsending : z.port.sending = true) (hcut : g.cut = none) (hfresh : g.stale = false) :
    Answers (.releaseSend t slot) s fun u =>
      (Holds u slot fun g' => g' = { g with releaseDue := none })
        ∧ ∃ c, c ∈ u.desk.class2 ∧ c.slot = slot ∧ c.kind = 4 ∧ c.ceiling = g.releaseValue v ∧ c.slew = slew := by
  refine releaseSend_takes hz hg hdue hrest hlink hsending ?_
  dsimp only
  rw [if_neg (by simp [hcut, hfresh]), State.when_eq_of_eq (p := State.desk) (by simp)]
  refine ⟨?_, _, State.mem_queueCap ?_ _, rfl, rfl, rfl, rfl⟩
  · refine Holds.congr (holds_queueCap ?_ _) (State.guests_when (by simp) _)
    exact holds_mapGuest (State.guest_of_present hg).1 rfl
  · exact hlink

/-- CAP_BUNDLE_BUILD of class 0 (R235, R683): the row cuts at the head leave to the row group in one bundle. -/
theorem capBundleBuild_sendsRowCuts {firstBit : Nat} (hz : z = s.at t) (hlink : z.linkUp = true)
    (hsending : z.port.sending = true) (hpower : z.elec.power = 1) (hfirst : z.higherWaits 0 = false)
    (hrow : z.desk.rowOut ≠ []) :
    Answers (.capBundleBuild t 0 firstBit) s fun u =>
      u.desk.rowOut = z.desk.rowOut.drop z.bundleMax
        ∧ ∃ d, u.port.egress = z.port.egress ++ [d] ∧ d.cls = 0 ∧ d.dst = z.eff E.ROW_GROUP ∧ d.tag = 4 := by
  subst hz
  refine ⟨_, rfl, ?_⟩
  generalize s.at t = z at *
  rw [State.when_of (by simp [hlink, hsending, hpower, hfirst]), if_pos rfl, if_pos (by simpa using hrow)]
  dsimp only
  refine State.sendBundle_of_class0 ?_ _ _ _ _ _
  exact hlink

/-- CAP_BUNDLE_BUILD of class 2 (R169, R683): the one record that waits leaves and becomes its guest's cap last sent. -/
theorem capBundleBuild_sendsRecord {firstBit : Nat} {c : CapDue} (hz : z = s.at t) (hlink : z.linkUp = true)
    (hsending : z.port.sending = true) (hpower : z.elec.power = 1) (hfirst : z.higherWaits 2 = false)
    (hqueue : z.desk.class2 = [c]) (hg : z.guest c.slot = some g) (hunsent : g.sentIn z.tick = false)
    (hmax : 0 < z.bundleMax) (hkind : c.kind ≠ 4) :
    Answers (.capBundleBuild t 2 firstBit) s fun u =>
      u.desk.class2 = [] ∧ Holds u c.slot fun g' =>
        g'.lastCap = some { kind := c.kind, ceiling := c.ceiling, slew := c.slew, hold := c.hold, tick := z.tick
                            lapse := z.tick + c.hold } := by
  subst hz
  refine ⟨_, rfl, ?_⟩
  generalize s.at t = z at *
  have whole : [c].take z.bundleMax = [c] := List.take_of_length_le hmax
  have sent := holds_recordSent (s := { z with desk := { z.desk with class2 := [] } }) hg hkind c.ceiling c.slew c.hold
  rw [State.when_of (by simp [hlink, hsending, hpower, hfirst]), if_neg (by decide)]
  refine ⟨?_, sent.congr ?_⟩
  · simp [hqueue, hg, hunsent, whole, State.sendBundle_frame, State.recordSent, State.mapGuest_desk]
  · simp [hqueue, hg, hunsent, whole, State.sendBundle_frame]

/-- CAP_REFRESH (R171): a STALE_CAP whose hold would lapse too soon is sent again at its ceiling. -/
theorem capRefresh_renews {r : CapRec} (hz : z = s.at t) (hg : z.presentGuest slot = some g)
    (hlast : g.lastCap = some r) (hkind : r.kind = 3) (hcut : g.cut = none) (hrest : z.inRest = false)
    (hlink : z.linkUp = true) (hsending : z.port.sending = true) (hunsent : r.tick ≠ z.tick)
    (hlapse : r.lapse < z.periodEnd + 2) :
    Answers (.capRefresh t slot) s fun u =>
      ∃ c, c ∈ u.desk.class2 ∧ c.slot = slot ∧ c.kind = 3 ∧ c.ceiling = r.ceiling ∧ c.hold = z.eff E.CAP_HOLD_TICKS := by
  subst hz
  refine ⟨_, rfl, ?_⟩
  generalize s.at t = z at *
  rw [State.withGuest_of_present hg, hlast]
  dsimp only
  rw [State.when_of (by simp [hrest, hlink, hsending, hkind, hunsent, hlapse])]
  simp only [State.resend, hlast, hcut, hkind]
  exact ⟨_, State.mem_queueCap hlink _, rfl, rfl, rfl, rfl⟩

end

/-! ### What the guard leaves of the parser lanes (R182, R221) -/

/-- What a lane is picked by, and what marks the records that enter it. -/
def State.laneView (s : State) : List Lane × Nat × Nat := (s.desk.lanes, s.get E.LANES_ACTIVE, s.tick)

theorem State.laneView_iff {s t : State} : t.laneView = s.laneView ↔
    t.desk.lanes = s.desk.lanes ∧ t.get E.LANES_ACTIVE = s.get E.LANES_ACTIVE ∧ t.tick = s.tick := by
  simp [State.laneView]

theorem State.laneView_ite {c : Prop} [Decidable c] {s t u : State} (ht : t.laneView = s.laneView)
    (hu : u.laneView = s.laneView) : (if c then t else u).laneView = s.laneView := by
  split
  · exact ht
  · exact hu

theorem State.add_laneView (s : State) {e : Ent} (n : Nat) (h : E.LANES_ACTIVE.key ≠ e.key) :
    (s.add e n).laneView = s.laneView := State.laneView_iff.2 ⟨rfl, s.get_add_ne e _ n h, rfl⟩

theorem State.latch_laneView (s : State) {e : Ent} (b key : Nat) (h : E.LANES_ACTIVE.key ≠ e.key) :
    (s.latch e b key).laneView = s.laneView :=
  State.laneView_iff.2 ⟨by simp, s.get_latch_ne e _ b key (by decide) h, congrArg Wheel.tick (s.latch_wheel e b key)⟩

/-- A class's misses lie apart from the count of lanes, whatever the class. -/
theorem State.addU_classMisses_laneView (s : State) (c n : Nat) : (s.addU E.CLASS_MISSES c n).laneView = s.laneView := by
  have apart : E.LANES_ACTIVE.key ≠ E.CLASS_MISSES.key + 256 * c := by
    change 0x301003 ≠ 0x440007 + 256 * c
    omega
  exact State.laneView_iff.2 ⟨rfl, State.get_setU_ne _ _ _ _ _ apart, rfl⟩

theorem State.mapGuest_laneView (s : State) (slot : Nat) (f : Guest → Guest) :
    (s.mapGuest slot f).laneView = s.laneView := rfl

theorem Desk.defer_lanes (d : Desk) (c : CutRec) : (d.defer c).lanes = d.lanes := by
  unfold Desk.defer
  split <;> rfl

theorem Desk.enqueue_lanes (d : Desk) (c : CutRec) : (d.enqueue c).lanes = d.lanes := by
  rw [Desk.enqueue_shape]

theorem Desk.foldl_defer_lanes (cs : List CutRec) (d : Desk) : (cs.foldl Desk.defer d).lanes = d.lanes :=
  List.foldlRecOn (motive := fun e => e.lanes = d.lanes) cs Desk.defer rfl fun e he c _ => (e.defer_lanes c).trans he

theorem State.buildRowCuts_laneView (s : State) : s.buildRowCuts.laneView = s.laneView := by
  unfold State.buildRowCuts
  dsimp only
  split
  next => rfl
  next =>
    refine foldl_eq_of_step (p := State.laneView) (fun u c => ?_) _ s
    refine (State.latch_laneView _ _ _ (by decide)).trans ?_
    refine (State.add_laneView _ _ (by decide)).trans ?_
    refine (State.add_laneView _ _ (by decide)).trans ?_
    refine (foldl_eq_of_step (p := State.laneView) (fun u x => State.mapGuest_laneView u (CutRec.slot x) _) _ _).trans ?_
    exact State.laneView_iff.2 ⟨Desk.foldl_defer_lanes _ _, rfl, rfl⟩

theorem State.queueCut_laneView (s : State) (g : Guest) (c : CutRec) : (s.queueCut g c).laneView = s.laneView := by
  unfold State.queueCut
  dsimp only
  split
  next => rfl
  next =>
    refine State.laneView_ite ?_ ?_
    · refine (State.add_laneView _ _ (by decide)).trans ?_
      exact State.laneView_iff.2 ⟨s.desk.defer_lanes c, rfl, rfl⟩
    · rw [State.buildRowCuts_laneView,
        State.when_eq_of_eq (p := State.laneView) (State.latch_laneView _ _ _ (by decide))]
      exact State.laneView_iff.2 ⟨s.desk.enqueue_lanes c, rfl, rfl⟩

theorem State.takeCut_laneView (s : State) (slot : Nat) (g : Guest) (ceiling what bundle : Nat) (first : Option Nat)
    (clean : Bool) : (s.takeCut slot g ceiling what bundle first clean).1.laneView = s.laneView := by
  unfold State.takeCut
  dsimp only
  split
  next => rfl
  next =>
    split
    next => exact State.queueCut_laneView _ _ _
    next => rfl

theorem State.guardAct_laneView (s : State) (slot : Nat) (g : Guest) (es : List Exceed) (tick bundle : Nat)
    (first : Option Nat) (clean : Bool) : (s.guardAct slot g es tick bundle first clean).1.laneView = s.laneView := by
  have atFloor (n key : Nat) : ((s.add E.GUARD_AT_FLOOR_EVENTS n).latch E.GUARD_LATCHES 5 key).laneView = s.laneView :=
    (State.latch_laneView _ _ _ (by decide)).trans (State.add_laneView _ _ (by decide))
  unfold State.guardAct
  cases g.cut with
  | none =>
    dsimp only
    split
    next => exact atFloor _ _
    next => exact State.takeCut_laneView _ _ _ _ _ _ _ _
  | some k =>
    dsimp only
    split
    next => exact atFloor _ _
    next =>
      rw [apply_ite Prod.fst, apply_ite State.laneView, State.takeCut_laneView]
      exact ite_self _

theorem State.guardRecord_laneView (s : State) (src sport tick count bundle : Nat) (clean : Bool) (r : TRec × Bool)
    (used : Bool) : (s.guardRecord src sport tick count bundle clean r used).1.laneView = s.laneView := by
  unfold State.guardRecord
  split
  next => rfl
  next =>
    extract_lets ok slot vals judged margin high es models misses c samples before classes counted judgedGuest put
    have samplesView : samples.laneView = s.laneView :=
      (State.add_laneView _ _ (by decide)).trans ((State.add_laneView _ _ (by decide)).trans
        (State.add_laneView _ _ (by decide)))
    have countedView : counted.laneView = s.laneView :=
      (State.add_laneView _ _ (by decide)).trans ((State.addU_classMisses_laneView _ _ _).trans samplesView)
    split
    next => rfl
    next =>
      split
      next => exact countedView
      next =>
        split
        next => exact countedView
        next => exact (State.guardAct_laneView _ _ _ _ _ _ _ _).trans countedView

theorem State.guardBundle_laneView (s : State) (src sport tick count : Nat) (rs : List (TRec × Bool)) :
    (s.guardBundle src sport tick count rs).laneView = s.laneView := by
  unfold State.guardBundle
  dsimp only
  refine List.foldlRecOn (motive := fun p : State × Bool => p.1.laneView = s.laneView) _ _ rfl fun p hp r _ => ?_
  exact (State.guardRecord_laneView _ _ _ _ _ _ _ _ _).trans hp

theorem Desk.pickLane_congr {d e : Desk} (h : d.lanes = e.lanes) (n : Nat) : d.pickLane n = e.pickLane n := by
  unfold Desk.pickLane
  rw [h]

/-! ### An accepted record (R191 to R193) -/

/-- What a guest keeps of the record last accepted. -/
def Guest.recordMarks (g : Guest) : Option Nat × Option Nat × Nat × Nat :=
  (g.lastRecTick, g.lastSeq, g.lastCount, g.lastPresence)

theorem State.echoCheck_recordMarks (s : State) (g : Guest) (power applied : Nat) :
    (s.echoCheck g power applied).recordMarks = g.recordMarks := by
  unfold State.echoCheck
  dsimp only
  split <;> rfl

theorem Guest.recordMarks_ite {c : Prop} [Decidable c] {g h : Guest} {m : Option Nat × Option Nat × Nat × Nat}
    (hg : g.recordMarks = m) (hh : h.recordMarks = m) : (if c then g else h).recordMarks = m := by
  split
  · exact hg
  · exact hh

/-- Opening episodes changes a guest in its pairs alone (R202). -/
theorem holds_openPair {s : State} {slot : Nat} {P : Guest → Prop} (h : Holds s slot P) (g : Guest) (samples : List Nat)
    (hP : ∀ g m, P g → P { g with pairs := m }) : Holds (s.openPair slot g samples) slot P := by
  unfold State.openPair
  refine h.foldl _ fun u j hu => ?_
  split
  next g' p hg' _ =>
    obtain ⟨x, hx, hPx⟩ := hu
    obtain rfl := Option.some.inj (hg'.symm.trans hx)
    exact Holds.ite (Holds.latchOpen (holds_putGuest u slot (hP _ _ hPx)) _ _ _) ⟨_, hx, hPx⟩
  next => exact hu

theorem holds_accept (s : State) (slot : Nat) (g : Guest) (l : LaneRec) (r : TRec) :
    Holds (s.accept slot g l r) slot fun g' => g'.lastRecTick = some l.tick ∧ g'.lastSeq = some r.seq
      ∧ g'.lastCount = l.count ∧ g'.lastPresence = max g.lastPresence l.count := by
  suffices marked : Holds (s.accept slot g l r) slot fun g' =>
      g'.recordMarks = (some l.tick, some r.seq, l.count, max g.lastPresence l.count) from
    marked.imp fun g' h => by simpa [Guest.recordMarks] using h
  unfold State.accept
  extract_lets onTime gap anyValid disp
  split
  next vals degraded _ =>
  extract_lets hot read sampled powered checked st stood entered looked accepted late counted
  have readMarks : read.recordMarks = (some l.tick, some r.seq, l.count, max g.lastPresence l.count) := rfl
  have sampledMarks : sampled.recordMarks = read.recordMarks := Guest.recordMarks_ite rfl rfl
  have poweredMarks : powered.recordMarks = sampled.recordMarks := Guest.recordMarks_ite rfl rfl
  have checkedMarks : checked.recordMarks = powered.recordMarks :=
    Guest.recordMarks_ite (State.echoCheck_recordMarks _ _ _ _) rfl
  have stoodMarks : stood.recordMarks = (some l.tick, some r.seq, l.count, max g.lastPresence l.count) :=
    checkedMarks.trans (poweredMarks.trans (sampledMarks.trans readMarks))
  have enteredMarks : Holds entered slot fun g' =>
      g'.recordMarks = (some l.tick, some r.seq, l.count, max g.lastPresence l.count) :=
    holds_openPair (holds_putGuest s slot stoodMarks) _ _ fun g' m h => h
  have acceptedMarks : Holds accepted slot fun g' =>
      g'.recordMarks = (some l.tick, some r.seq, l.count, max g.lastPresence l.count) := enteredMarks.congr rfl
  have countedMarks : Holds counted slot fun g' =>
      g'.recordMarks = (some l.tick, some r.seq, l.count, max g.lastPresence l.count) :=
    (Holds.ite acceptedMarks (acceptedMarks.inc E.RECORDS_LATE)).congr rfl
  exact Holds.ite (countedMarks.congr (by simp)) countedMarks

theorem State.recordFate_of_accepted {s : State} {l : LaneRec} {g : Guest} (hbad : l.bad = false)
    (hg : s.presentGuest (readRecord l.raw).slot = some g) (hsrc : g.src = l.src) (hsport : g.sport = l.sport)
    (hfirst : g.firstTick ≤ l.tick) (hearly : l.tick ≤ l.arrTick) (hlate : l.count ≤ l.tick + s.eff E.LATE_LIMIT)
    (hlast : g.lastRecTick = none) : s.recordFate l = s.accept (readRecord l.raw).slot g l (readRecord l.raw) := by
  simp [State.recordFate, hbad, hg, hsrc, hsport, Nat.not_lt.2 hfirst, Nat.not_lt.2 hearly, Nat.not_lt.2 hlate, hlast]

/-! ### A summary step's rows (R212) -/

theorem State.summaryGuest_summaryFrom (s : State) (k slot : Nat) (g : Guest) :
    (s.summaryGuest k slot g).desk.summaryFrom = s.desk.summaryFrom := by
  unfold State.summaryGuest
  dsimp only
  split
  next => split <;> simp [State.putGuest]
  next => rfl

/-- The state in which a lane has taken up the record at its front (R183). -/
def State.recordTaken (s : State) (lane : Nat) (rest : List LaneRec) : State :=
  { s with desk := { s.desk with
      lanes := modAt s.desk.lanes lane fun x => { x with queue := rest, freeAt := s.now + 8000 } } }

/-- A keep-alive refreshes the presence of every guest of its source (R163). -/
theorem holds_keepAlive {s : State} {slot : Nat} {g : Guest} {l : LaneRec} (hg : s.presentGuest slot = some g)
    (hsrc : g.src = l.src) (hsport : g.sport = l.sport) :
    Holds (s.keepAlive l) slot fun g' => g' = { g with lastPresence := max g.lastPresence l.count } := by
  obtain ⟨hguest, hpresent⟩ := State.guest_of_present hg
  unfold State.keepAlive
  refine Holds.mapVals (s := s) (P := (· = g)) (f := fun _ g =>
    if g.present && g.src == l.src && g.sport == l.sport then { g with lastPresence := max g.lastPresence l.count } else g)
    ⟨g, hguest, rfl⟩ rfl ?_
  rintro _ rfl
  simp [hpresent, hsrc, hsport]

section

variable {s z y : State} {t : Nat}

/-! ### What each command of ingest leaves (R163, R182 to R186, R191, R192, R212) -/

/-- TELEMETRY_BUNDLE (R182, R183): the lane with the fewest records takes the bundle's records behind its own. -/
theorem telemetryBundle_queues {i : Nat} {rx : Rx} {rs : List TRec} (hy : y = (s.at t).take rx) (hrun : y.fwRuns = true)
    (hdrop : y.deskDrop rx = none) (hversion : field rx.bytes 0 1 = 1) (hrs : bundleRecords rx.bytes = some rs)
    (hlane : y.desk.pickLane (min 16 (y.get E.LANES_ACTIVE)) = some i)
    (hroom : sumOf LaneRec.size (nth y.desk.lanes i {}).queue + sumOf LaneRec.size (laneRecords rx (field rx.bytes 8 8)
      y.tick (y.fracAt y.now) (y.countingTick y.now) (y.markRecords rs [])) ≤ 1048576) :
    Answers (.telemetryBundle t rx) s fun u =>
      u.desk.lanes = modAt y.desk.lanes i (fun l => { l with queue := l.queue ++ (laneRecords rx (field rx.bytes 8 8)
        y.tick (y.fracAt y.now) (y.countingTick y.now) (y.markRecords rs [])) }) := by
  subst hy
  refine answers_of_when rfl hrun ?_
  generalize (s.at t).take rx = y at *
  simp only [hdrop, hversion, hrs, ne_eq, not_true_eq_false, if_false]
  generalize hx : y.guardBundle _ _ _ _ _ = x
  obtain ⟨hlanes, hactive, htick⟩ := State.laneView_iff.1 (hx ▸ State.guardBundle_laneView y rx.src rx.sport _ _ _)
  simp only [hactive, htick, Desk.pickLane_congr hlanes, hlane, hlanes]
  rw [if_neg (Nat.not_lt.2 hroom)]

/-- RECORD_PARSE takes the record at the front of a lane that is free (R183). -/
theorem recordParse_parses {lane : Nat} {l : LaneRec} {rest : List LaneRec} {P : State → Prop} (hz : z = s.at t)
    (hrun : z.fwRuns = true) (hlane : lane < z.get E.LANES_ACTIVE) (hfree : (nth z.desk.lanes lane {}).freeAt ≤ z.now)
    (hqueue : (nth z.desk.lanes lane {}).queue = l :: rest)
    (h : P (if l.keepAlive then (z.recordTaken lane rest).keepAlive l else (z.recordTaken lane rest).recordFate l)) :
    Answers (.recordParse t lane) s P := by
  subst hz
  refine ⟨_, rfl, ?_⟩
  generalize s.at t = z at *
  rw [State.when_of (by simp [hrun, hlane, hfree]), hqueue]
  exact h

/-- A keep-alive is counted, and its source's guests are present again (R163). -/
theorem recordParse_keepsAlive {lane : Nat} {l : LaneRec} {rest : List LaneRec} (hz : z = s.at t) (hrun : z.fwRuns = true)
    (hlane : lane < z.get E.LANES_ACTIVE) (hfree : (nth z.desk.lanes lane {}).freeAt ≤ z.now)
    (hqueue : (nth z.desk.lanes lane {}).queue = l :: rest) (hkeep : l.keepAlive = true) :
    Answers (.recordParse t lane) s fun u =>
      u.get E.KEEPALIVES = (z.get E.KEEPALIVES + 1) % 2 ^ 64
        ∧ u.desk.lanes = modAt z.desk.lanes lane (fun x => { x with queue := rest, freeAt := z.now + 8000 })
        ∧ ∀ slot g, z.presentGuest slot = some g → g.src = l.src → g.sport = l.sport →
            Holds u slot fun g' => g' = { g with lastPresence := max g.lastPresence l.count } := by
  refine recordParse_parses hz hrun hlane hfree hqueue ?_
  rw [if_pos hkeep]
  refine ⟨State.get_inc_same _ _, rfl, fun slot g hg hsrc hsport => ?_⟩
  exact holds_keepAlive (s := z.recordTaken lane rest) hg hsrc hsport

/-- A malformed record is counted, and the register stands as it was (R191). -/
theorem recordParse_malformed {lane : Nat} {l : LaneRec} {rest : List LaneRec} (hz : z = s.at t) (hrun : z.fwRuns = true)
    (hlane : lane < z.get E.LANES_ACTIVE) (hfree : (nth z.desk.lanes lane {}).freeAt ≤ z.now)
    (hqueue : (nth z.desk.lanes lane {}).queue = l :: rest) (hkeep : l.keepAlive = false) (hbad : l.bad = true) :
    Answers (.recordParse t lane) s fun u =>
      u.get E.RECORDS_MALFORMED = (z.get E.RECORDS_MALFORMED + 1) % 2 ^ 64 ∧ u.guests = z.guests := by
  refine recordParse_parses hz hrun hlane hfree hqueue ?_
  rw [if_neg (by simp [hkeep]), State.recordFate, if_pos hbad]
  exact ⟨State.get_inc_same _ _, rfl⟩

/-- A guest's first record that is neither early nor too late is accepted (R191, R192). -/
theorem recordParse_accepts {lane : Nat} {l : LaneRec} {rest : List LaneRec} {g : Guest} (hz : z = s.at t)
    (hrun : z.fwRuns = true) (hlane : lane < z.get E.LANES_ACTIVE) (hfree : (nth z.desk.lanes lane {}).freeAt ≤ z.now)
    (hqueue : (nth z.desk.lanes lane {}).queue = l :: rest) (hkeep : l.keepAlive = false) (hbad : l.bad = false)
    (hg : z.presentGuest (readRecord l.raw).slot = some g) (hsrc : g.src = l.src) (hsport : g.sport = l.sport)
    (hfirst : g.firstTick ≤ l.tick) (hearly : l.tick ≤ l.arrTick) (hlate : l.count ≤ l.tick + z.eff E.LATE_LIMIT)
    (hlast : g.lastRecTick = none) :
    Answers (.recordParse t lane) s fun u => Holds u (readRecord l.raw).slot fun g' =>
      g'.lastRecTick = some l.tick ∧ g'.lastSeq = some (readRecord l.raw).seq ∧ g'.lastCount = l.count
        ∧ g'.lastPresence = max g.lastPresence l.count := by
  refine recordParse_parses hz hrun hlane hfree hqueue ?_
  rw [if_neg (by simp [hkeep]), State.recordFate_of_accepted (s := z.recordTaken lane rest) hbad hg hsrc hsport hfirst
    hearly hlate hlast]
  exact holds_accept _ _ g l _

/-- COUNTING_TICK_END (R186): the next counting tick begins. -/
theorem countingTickEnd_counts (hz : z = s.at t) (hrun : z.fwRuns = true) (hdue : z.desk.counted < z.tick) :
    Answers (.countingTickEnd t) s fun u => u.desk.counted = z.desk.counted + 1 := by
  subst hz
  refine answers_of_when rfl (by simpa [hrun] using hdue) ?_
  generalize s.at t = z at *
  refine (congrArg Desk.counted (State.desk_foldl (fun u v => (u.histValue_register _ _ _).2) _ _)).trans ?_
  exact congrArg Desk.counted (State.when_eq_of_eq (p := State.desk) (by simp) _)

/-- SUMMARY_STEP_END (R212): the next summary step begins. -/
theorem summaryStepEnd_steps (hz : z = s.at t) (hrun : z.fwRuns = true) (hticks : z.get E.SUMMARY_TICKS ≠ 0)
    (hended : (z.desk.summaryFrom + 1) * z.get E.SUMMARY_TICKS ≤ z.desk.counted) :
    Answers (.summaryStepEnd t) s fun u => u.desk.summaryFrom = z.desk.summaryFrom + 1 := by
  subst hz
  refine ⟨_, rfl, ?_⟩
  generalize s.at t = z at *
  rw [State.when_of (by simp [hrun, hticks, hended])]
  exact foldl_eq_of_step (p := fun u => u.desk.summaryFrom) (fun u p => u.summaryGuest_summaryFrom _ _ _) _ _

end

end Sys2Proof.Machine

namespace Sys2Proof.Proofs

open Sys2Proof Sys2Proof.Machine

/-- Settles O25, command by command. -/
theorem deskServes : Obligations.DeskServes := by
  unfold Obligations.DeskServes
  refine ⟨?queue, ?takeIn, ?refuse, ?passport, ?resend, ?checkOut, ?free, ?lift⟩
  case queue => exact fun s z t rx hz hmine hlen hport hroom => checkInRequest_queues hz hmine hlen hport hroom
  case takeIn =>
    exact fun s z t slot c rest p hz hrun hrate hqueue hp hopen hversion hfault hclass hbranch hnew hfree hlimit =>
      checkInServe_admits hz hrun hrate hqueue hp hopen hversion hfault hclass hbranch hnew hfree hlimit
  case refuse =>
    exact fun s z t c rest hz hrun hrate hqueue hclosed => checkInServe_refuses hz hrun hrate hqueue hclosed
  case passport => exact fun s z t slot due g p hz hg hnew hdue => passportTakeForce_replaces hz hg hnew hdue
  case resend => exact fun s z t slot due g hz hg hresend hdue => rejoinCutResend_clears hz hg hresend hdue
  case checkOut =>
    exact fun s z t slot rx g hz hmine hlen hport hversion hslot hg hid =>
      checkOutRequest_counts hz hmine hlen hport hversion hslot hg hid
  case free => exact fun s z t slot due g hz hg hfree hdue => checkOutFree_frees hz hg hfree hdue
  case lift => exact fun s z t c rest hz hceilings hidx hgap hdue => classLift_lifts hz hceilings hidx hgap hdue

/-- Settles O26, command by command. -/
theorem ingestMoves : Obligations.IngestMoves := by
  unfold Obligations.IngestMoves
  refine ⟨?bundle, ?parse, ?tickEnd, ?stepEnd⟩
  case bundle =>
    exact fun s y t i rx rs hy hrun hdrop hversion hrs hlane hroom =>
      telemetryBundle_queues hy hrun hdrop hversion hrs hlane hroom
  case parse =>
    intro s z t lane l rest hz hrun hlane hfree hqueue
    refine ⟨?keepAlive, ?malformed, ?accepted⟩
    case keepAlive => exact fun hkeep => recordParse_keepsAlive hz hrun hlane hfree hqueue hkeep
    case malformed => exact fun hkeep hbad => recordParse_malformed hz hrun hlane hfree hqueue hkeep hbad
    case accepted =>
      exact fun g hkeep hbad hg hsrc hsport hfirst hearly hlate hlast =>
        recordParse_accepts hz hrun hlane hfree hqueue hkeep hbad hg hsrc hsport hfirst hearly hlate hlast
  case tickEnd => exact fun s z t hz hrun hdue => countingTickEnd_counts hz hrun hdue
  case stepEnd => exact fun s z t hz hrun hticks hended => summaryStepEnd_steps hz hrun hticks hended

/-- Settles O27, command by command. -/
theorem guestsAge : Obligations.GuestsAge := by
  unfold Obligations.GuestsAge
  refine ⟨?stale, ?staleCap, ?staleEnd, ?absent, ?lapse, ?expire⟩
  case stale => exact fun s z t slot g hz hg hfresh hstale => guestStale_turns hz hg hfresh hstale
  case staleCap =>
    exact fun s z t slot g hz hg hstale hdue hrest hlink hsending =>
      staleCapSend_queues hz hg hstale hdue hrest hlink hsending
  case staleEnd => exact fun s z t slot g hz hg hstale hfresh => staleEnd_ends hz hg hstale hfresh
  case absent => exact fun s z t slot g hz hg hlapse habsent => absenceTimeout_waits hz hg hlapse habsent
  case lapse => exact fun s z t slot due g hz hg hlapse hdue => guestLapse_reserves hz hg hlapse hdue
  case expire =>
    exact fun s z t slot g hz hg hpresent hnew hexpired hsent =>
      reserveExpiry_frees hz hg hpresent hnew hexpired hsent

/-- Settles O29, command by command. -/
theorem cutsAndCapsMove : Obligations.CutsAndCapsMove := by
  unfold Obligations.CutsAndCapsMove
  refine ⟨?requeue, ?rowRefresh, ?release, ?releaseSend, ?rowBundle, ?capBundle, ?refresh⟩
  case requeue =>
    exact fun s z t n hz hlink hbelow hn hpos hdeferred => deferredCutRequeue_requeues hz hlink hbelow hn hpos hdeferred
  case rowRefresh =>
    intro s z t scope r hz hscope hrest hlink hsending hforce hlast hunsent hhot
    obtain ⟨slot, g, k, -, hmem, hpresent, hclass, hexceed, hlately⟩ := hhot
    exact rowCutRefresh_renews hz hscope hrest hlink hsending hforce hlast hunsent hmem hpresent hclass hexceed hlately
  case release =>
    exact fun s z t slot g k hz hg hcut hrest hfresh hmay => guardRelease_releases hz hg hcut hrest hfresh hmay
  case releaseSend =>
    exact fun s z t slot v slew g guard hz hg hdue hrest hlink hsending =>
      ⟨releaseSend_cancels hz hg hdue hrest hlink hsending, releaseSend_queues hz hg hdue hrest hlink hsending⟩
  case rowBundle =>
    exact fun s z t firstBit hz hlink hsending hpower hfirst hrow =>
      capBundleBuild_sendsRowCuts hz hlink hsending hpower hfirst hrow
  case capBundle =>
    exact fun s z t firstBit c g hz hlink hsending hpower hfirst hqueue hg hunsent hmax hkind =>
      capBundleBuild_sendsRecord hz hlink hsending hpower hfirst hqueue hg hunsent hmax hkind
  case refresh =>
    exact fun s z t slot g r hz hg hlast hkind hcut hrest hlink hsending hunsent hlapse =>
      capRefresh_renews hz hg hlast hkind hcut hrest hlink hsending hunsent hlapse

end Sys2Proof.Proofs
end

section
/-! PROOFS. The statements of spec/06_ingest.md: disobedient guests (R209), and the pairs whose members disagree (R203,
R204). -/

namespace Sys2Proof.Machine

open Sys2Proof

/-! ### A command about one present guest -/

/-- A command about the guest of a slot does, where the guest is present, what it does to that guest. -/
theorem answers_of_presentGuest {c : Instr} {s z : State} {t slot : Nat} {g : Guest} {f : State → Guest → State}
    {P : State → Prop} (hc : exec c s = .next ((s.at t).withGuest slot f)) (hz : z = s.at t)
    (hg : z.presentGuest slot = some g) (h : P (f z g)) : Answers c s P := by
  subst hz
  exact ⟨_, hc, (State.withGuest_of_present hg f).symm ▸ h⟩

/-! ### Staging a condition, and the end of a pair's episode (R203) -/

theorem holds_cond {s : State} {slot : Nat} {P : Guest → Prop} (h : Holds s slot P) (c : Cond) (isOpen : Bool) :
    Holds (s.cond c isOpen) slot P := h.congr (by simp)

theorem holds_closePair {s : State} {slot j : Nat} {g : Guest} {P : Guest → Prop} (hg : s.guest slot = some g)
    (hP : P { g with pairs := g.pairs.erase j }) : Holds (s.closePair slot j) slot P := by
  unfold State.closePair
  have closed : Holds (s.mapGuest slot fun g => { g with pairs := g.pairs.erase j }) slot P := holds_mapGuest hg hP
  exact Holds.ite closed (closed.latchEnd _ _ _ _)

/-- The end of an episode changes no entry but the counts of the recorder. -/
theorem State.get_closePair (s : State) (slot j : Nat) {e : Ent} (h : e.key ∉ logKeys) :
    (s.closePair slot j).get e = s.get e := by
  unfold State.closePair
  extract_lets erased still
  split
  next => rfl
  next => exact State.get_latchEnd erased _ _ _ _ _ h

/-! ### The comparison of a pair's sums (R204) -/

/-- The member whose sum exceeds the other's by at least the tolerance. -/
def PairDef.suspect (p : PairDef) (q : PairSt) : Option Nat :=
  if (Dy.mk p.tol (-6)).le (q.sumA.sub q.sumB) then some p.a
  else if (Dy.mk p.tol (-6)).le (q.sumB.sub q.sumA) then some p.b else none

theorem PairDef.suspect_first {p : PairDef} {q : PairSt} (h : (Dy.mk p.tol (-6)).le (q.sumA.sub q.sumB) = true) :
    p.suspect q = some p.a := by
  simp [PairDef.suspect, h]

theorem PairDef.suspect_second {p : PairDef} {q : PairSt} (ha : (Dy.mk p.tol (-6)).le (q.sumA.sub q.sumB) = false)
    (hb : (Dy.mk p.tol (-6)).le (q.sumB.sub q.sumA) = true) : p.suspect q = some p.b := by
  simp [PairDef.suspect, ha, hb]

theorem PairDef.suspect_neither {p : PairDef} {q : PairSt} (ha : (Dy.mk p.tol (-6)).le (q.sumA.sub q.sumB) = false)
    (hb : (Dy.mk p.tol (-6)).le (q.sumB.sub q.sumA) = false) : p.suspect q = none := by
  simp [PairDef.suspect, ha, hb]

/-- What the comparison leaves: a suspect is quarantined and the episode ends, or the undecided case is logged. -/
def State.judgePair (s : State) (slot pair : Nat) (g : Guest) (p : PairDef) (q : PairSt) : State :=
  match p.suspect q with
  | some k =>
    (((s.putGuest slot { g with quarantine := setBit g.quarantine k }).closePair slot pair).inc E.QUARANTINES).latch
      E.INGEST_LATCHES 4 (guestKey slot)
  | none =>
    (s.putGuest slot { g with pairs := g.pairs.set pair { q with compared := q.ticks } }).cond
      { index := 0x9002, bit := 1, key := guestKey slot } false

theorem State.judgePair_quarantines {s : State} {slot pair k : Nat} {g : Guest} {p : PairDef} {q : PairSt}
    (h : p.suspect q = some k) :
    (s.judgePair slot pair g p q).get E.QUARANTINES = (s.get E.QUARANTINES + 1) % 2 ^ 64
      ∧ Holds (s.judgePair slot pair g p q) slot fun g' =>
        g' = { g with quarantine := setBit g.quarantine k, pairs := g.pairs.erase pair } := by
  simp only [State.judgePair, h]
  refine ⟨?_, ?_⟩
  · rw [State.get_latch_ne _ _ _ _ _ (by decide) (by decide), State.get_inc_same, State.get_closePair _ _ _ (by decide)]
    rfl
  · refine Holds.latch (Holds.inc ?_ _) _ _ _
    exact holds_closePair (State.guest_putGuest_same _ _ _) rfl

theorem holds_judgePair_undecided {s : State} {slot pair : Nat} {g : Guest} {p : PairDef} {q : PairSt}
    (h : p.suspect q = none) : Holds (s.judgePair slot pair g p q) slot fun g' =>
      g' = { g with pairs := g.pairs.set pair { q with compared := q.ticks } } := by
  simp only [State.judgePair, h]
  refine holds_cond ?_ _ _
  exact holds_putGuest s slot rfl

section

variable {s z : State} {t slot : Nat} {g : Guest}

/-! ### What each command about a disobedient guest leaves (R209) -/

/-- DISOBEY_RESEND (R209): what is to be sent again is sent once. -/
theorem disobeyResend_clears {due : Nat} (hz : z = s.at t) (hg : z.presentGuest slot = some g)
    (hresend : g.disobeyResend = some due) (hdue : due ≤ z.tick) :
    Answers (.disobeyResend t slot) s fun u => Holds u slot fun g' => g'.disobeyResend = none := by
  refine answers_of_presentGuest rfl hz hg ?_
  rw [hresend]
  dsimp only
  rw [State.when_of (decide_eq_true hdue)]
  have cleared : Holds (z.putGuest slot { g with disobeyResend := none }) slot fun g' => g'.disobeyResend = none :=
    holds_putGuest z slot rfl
  exact cleared.when (holds_resend cleared slot g fun g' k h => h) _

/-- GUEST_DISOBEDIENT (R209): after `DISOBEY_TICKS` the guest is marked, and its episode is counted. -/
theorem guestDisobedient_marks (hz : z = s.at t) (hg : z.presentGuest slot = some g) (hobeys : g.disobedient = false)
    (hrun : z.eff E.DISOBEY_TICKS ≤ g.disobeyRun) :
    Answers (.guestDisobedient t slot) s fun u =>
      u.get E.DISOBEY_EVENTS = (z.get E.DISOBEY_EVENTS + 1) % 2 ^ 64 ∧ Holds u slot fun g' =>
        g'.disobedient = true ∧ g'.disobeyEpisodes = satBytes 4 (g.disobeyEpisodes + 1) := by
  refine answers_of_presentGuest rfl hz hg ?_
  rw [State.when_of (by simp [hobeys, hrun])]
  refine ⟨?_, Holds.latchOpen (Holds.inc (holds_putGuest z slot ⟨rfl, rfl⟩) _) _ _ _⟩
  exact (State.get_latchOpen_ne _ _ _ _ _ (by decide) (by decide)).trans (State.get_inc_same _ _)

/-- DISOBEY_CLEAR (R209): the mark clears after `DISOBEY_TICKS` records in bounds, and the guest is else the same. -/
theorem disobeyClear_clears (hz : z = s.at t) (hg : z.presentGuest slot = some g) (hdisobeys : g.disobedient = true)
    (hbounds : z.eff E.DISOBEY_TICKS ≤ g.inBounds) :
    Answers (.disobeyClear t slot) s fun u => Holds u slot fun g' => g' = { g with disobedient := false } := by
  refine answers_of_presentGuest rfl hz hg ?_
  rw [State.when_of (by simp [hdisobeys, hbounds])]
  refine Holds.latchEnd ?_ _ _ _ _
  exact holds_putGuest z slot rfl

/-! ### What each command about a pair leaves (R203, R204) -/

/-- PAIR_EPISODE_END (R203): after `PAIR_AGREE_TICKS` of agreement the guest has the pair's episode no longer. -/
theorem pairEpisodeEnd_closes {pair : Nat} (hz : z = s.at t) (hg : z.presentGuest slot = some g)
    (hopen : (g.pairs.getD pair {}).isOpen = true) (hagree : z.eff E.PAIR_AGREE_TICKS ≤ (g.pairs.getD pair {}).agree) :
    Answers (.pairEpisodeEnd t slot pair) s fun u =>
      Holds u slot fun g' => g' = { g with pairs := g.pairs.erase pair } := by
  refine answers_of_presentGuest rfl hz hg ?_
  dsimp only
  rw [State.when_of (by simp [hopen, hagree])]
  exact holds_closePair (State.guest_of_present hg).1 rfl

/-- PAIR_PERSIST_REACHED (R204): an episode of `PAIR_PERSIST` ticks is judged by its sums, once in each tick. -/
theorem pairPersistReached_judges {pair : Nat} {p : PairDef} {q : PairSt} {P : State → Prop} (hz : z = s.at t)
    (hg : z.presentGuest slot = some g) (hp : g.pp.pairs[pair]? = some p) (hq : q = g.pairs.getD pair {})
    (hopen : q.isOpen = true) (hpersist : z.eff E.PAIR_PERSIST ≠ 0) (hreached : z.eff E.PAIR_PERSIST ≤ q.ticks)
    (hdue : q.compared ≠ q.ticks) (h : P (z.judgePair slot pair g p q)) :
    Answers (.pairPersistReached t slot pair) s P := by
  subst hq
  refine answers_of_presentGuest rfl hz hg ?_
  simp only [hp]
  rw [State.when_of (by simp [hopen, hpersist, hreached, hdue])]
  exact h

end

end Sys2Proof.Machine

namespace Sys2Proof.Proofs

open Sys2Proof Sys2Proof.Machine

/-- Settles O28, command by command. -/
theorem echoAndPairsJudge : Obligations.EchoAndPairsJudge := by
  unfold Obligations.EchoAndPairsJudge
  refine ⟨?resend, ?marked, ?cleared, ?episodeEnd, ?persist⟩
  case resend => exact fun s z t slot due g hz hg hresend hdue => disobeyResend_clears hz hg hresend hdue
  case marked => exact fun s z t slot g hz hg hobeys hrun => guestDisobedient_marks hz hg hobeys hrun
  case cleared => exact fun s z t slot g hz hg hdisobeys hbounds => disobeyClear_clears hz hg hdisobeys hbounds
  case episodeEnd => exact fun s z t slot pair g hz hg hopen hagree => pairEpisodeEnd_closes hz hg hopen hagree
  case persist =>
    intro s z t slot pair g p q hz hg hp hq hopen hpersist hreached hdue
    have judged {P : State → Prop} (h : P (z.judgePair slot pair g p q)) :
        Answers (.pairPersistReached t slot pair) s P :=
      pairPersistReached_judges hz hg hp hq hopen hpersist hreached hdue h
    refine ⟨?first, ?second, ?undecided⟩
    case first => exact fun ha => judged (State.judgePair_quarantines (PairDef.suspect_first ha))
    case second => exact fun ha hb => judged (State.judgePair_quarantines (PairDef.suspect_second ha hb))
    case undecided => exact fun ha hb => judged (holds_judgePair_undecided (PairDef.suspect_neither ha hb))

end Sys2Proof.Proofs
end

section
/-! PROOFS. The statement of spec/09_arrays.md: parity errors and overruns (R293, R294), block errors and migration
(R295 to R300), rotation (R301 to R303), and the fences of regions (R304 to R306). -/

namespace Sys2Proof.Machine

open Sys2Proof

/-! ### The arrays -/

theorem State.arr_congr {s t : State} (h : t.fabric = s.fabric) (a : Nat) : t.arr a = s.arr a := by
  unfold State.arr
  rw [h]

theorem State.arr_putArr_same (s : State) (a : Nat) (x : Arr) : (s.putArr a x).arr a = x := by
  simp [State.arr, State.putArr, AMap.getD, AMap.get_set_same]

theorem State.arr_putArr_ne (s : State) {a b : Nat} (h : b ≠ a) (x : Arr) : (s.putArr a x).arr b = s.arr b := by
  simp [State.arr, State.putArr, AMap.getD, AMap.get_set_ne _ h]

theorem State.unit_putUnit_ne (s : State) {row other : Nat} (h : other ≠ row) (u : LedgerUnit) :
    (s.putUnit row u).unit other = s.unit other := by
  simp [State.unit, State.putUnit, AMap.getD, AMap.get_set_ne _ h]

/-! Reading an array, a unit or an entry past an operation that leaves it alone. -/

theorem State.inc_arr (s : State) (e : Ent) (a : Nat) : (s.inc e).arr a = s.arr a := rfl

theorem State.latch_arr (s : State) (e : Ent) (b key a : Nat) : (s.latch e b key).arr a = s.arr a :=
  State.arr_congr (by simp) a

theorem State.putUnit_arr (s : State) (row : Nat) (u : LedgerUnit) (a : Nat) : (s.putUnit row u).arr a = s.arr a := rfl

theorem State.setRole_arr (s : State) (row role serves a : Nat) : (s.setRole row role serves).arr a = s.arr a :=
  State.arr_congr (by simp) a

theorem State.promote_arr (s : State) (row serves a : Nat) : (s.promote row serves).arr a = s.arr a :=
  State.arr_congr (by simp) a

theorem State.fenceUnit_arr (s : State) (row a : Nat) : (s.fenceUnit row).arr a = s.arr a := State.arr_congr (by simp) a

theorem State.inc_unit (s : State) (e : Ent) (row : Nat) : (s.inc e).unit row = s.unit row := rfl

theorem State.putArr_unit (s : State) (a : Nat) (x : Arr) (row : Nat) : (s.putArr a x).unit row = s.unit row := rfl

theorem State.writeLife_unit (s : State) (row other : Nat) : (s.writeLife row).unit other = s.unit other := rfl

theorem State.putArr_get (s : State) (a : Nat) (x : Arr) (e : Ent) : (s.putArr a x).get e = s.get e := rfl

theorem State.putUnit_get (s : State) (row : Nat) (u : LedgerUnit) (e : Ent) : (s.putUnit row u).get e = s.get e := rfl

theorem State.writeLife_get (s : State) (row : Nat) (e : Ent) : (s.writeLife row).get e = s.get e := rfl

/-! ### The counters of an array -/

theorem State.getU_incU_same (s : State) (e : Ent) (u : Nat) : (s.incU e u).getU e u = (s.getU e u + 1) % 2 ^ 64 :=
  State.getU_setU_same _ _ _ _

theorem State.getU_incU_ne (s : State) (e f : Ent) (u w : Nat) (h : f.key + 256 * w ≠ e.key + 256 * u) :
    (s.incU e u).getU f w = s.getU f w := State.getU_setU_ne _ _ _ _ _ _ h

theorem State.get_incU_ne (s : State) (e f : Ent) (u : Nat) (h : f.key ≠ e.key + 256 * u) :
    (s.incU e u).get f = s.get f := State.get_setU_ne _ _ _ _ _ h

/-- An entry of an array lies below those of the recorder. -/
theorem notMem_logKeys_of_lt {k : Nat} (h : k < 0x900000) : k ∉ logKeys := by
  have recorder : ∀ l ∈ logKeys, 0x900000 ≤ l := by decide
  exact fun hk => absurd (recorder k hk) (by omega)

/-- Counting a rerun (R293) counts it for the array and for the fabric, and no parity error. -/
theorem State.rerun_counts (s : State) {array : Nat} (harray : array < 144) (key : Nat) :
    (((s.incU E.STEP_RERUNS array).inc E.STEP_RERUNS_ALL).latch E.FABRIC_LATCHES 0 key).getU E.STEP_RERUNS array
        = (s.getU E.STEP_RERUNS array + 1) % 2 ^ 64
      ∧ (((s.incU E.STEP_RERUNS array).inc E.STEP_RERUNS_ALL).latch E.FABRIC_LATCHES 0 key).get E.STEP_RERUNS_ALL
        = (s.get E.STEP_RERUNS_ALL + 1) % 2 ^ 64
      ∧ (((s.incU E.STEP_RERUNS array).inc E.STEP_RERUNS_ALL).latch E.FABRIC_LATCHES 0 key).getU E.CELL_PARITY_ERRORS
        array = s.getU E.CELL_PARITY_ERRORS array := by
  refine ⟨?_, ?_, ?_⟩
  · rw [State.getU_latch_ne _ _ _ _ _ _ (notMem_logKeys_of_lt ?_) ?_, State.getU_inc_ne _ _ _ _ ?_,
      State.getU_incU_same]
    all_goals simp only [E.STEP_RERUNS, E.STEP_RERUNS_ALL, E.FABRIC_LATCHES]; omega
  · rw [State.get_latch_ne _ _ _ _ _ (by decide) (by decide), State.get_inc_same, State.get_incU_ne _ _ _ _ ?_]
    simp only [E.STEP_RERUNS, E.STEP_RERUNS_ALL]; omega
  · rw [State.getU_latch_ne _ _ _ _ _ _ (notMem_logKeys_of_lt ?_) ?_, State.getU_inc_ne _ _ _ _ ?_,
      State.getU_incU_ne _ _ _ _ _ ?_]
    all_goals simp only [E.STEP_RERUNS, E.STEP_RERUNS_ALL, E.FABRIC_LATCHES, E.CELL_PARITY_ERRORS]; omega

/-! ### The step of an array without results (R294, R296) -/

/-- It lists the array, and leaves the rest of the fabric, the ledger, the wheel and the entries alone. -/
theorem State.noResults_frame (s : State) (a : Nat) : ∃ l, a ∈ l
    ∧ (s.noResults a).fabric = { s.fabric with noResult := l } ∧ (s.noResults a).wear = s.wear
    ∧ (s.noResults a).wheel = s.wheel ∧ (s.noResults a).regs = s.regs := by
  unfold State.noResults
  split
  next listed => exact ⟨s.fabric.noResult, by simpa using listed, rfl, rfl, rfl, rfl⟩
  next =>
    refine ⟨a :: s.fabric.noResult, List.mem_cons_self, ?_⟩
    extract_lets _ marked
    split
    next => exact ⟨rfl, rfl, rfl, rfl⟩
    next =>
      refine List.foldlRecOn (motive := fun u : State => u.fabric = { s.fabric with noResult := a :: s.fabric.noResult }
        ∧ u.wear = s.wear ∧ u.wheel = s.wheel ∧ u.regs = s.regs) marked.presents _ ⟨rfl, rfl, rfl, rfl⟩
        fun u hu p _ => ?_
      dsimp only
      split <;> exact hu

/-! ### The counts of the fabric, and what stands when the loss of an array is settled -/

/-- The counts of the fabric that a command of R295 to R306 moves, and the fenced regions (R310). -/
def fabricCounts : List Ent := [E.REGIONS_FENCED, E.ARRAY_FENCES, E.MIGRATIONS, E.ROTATIONS]

/-- The counts lie below the entries of program slots, hinge tables and kinds of spared unit. -/
theorem key_of_fabricCounts : ∀ e ∈ fabricCounts, e.key ∉ logKeys ∧ e.key < 0x420000 := by decide

/-- The fabric, the ledger, the wheel and the counts of the fabric stand as they were. -/
structure FabricStands (s t : State) : Prop where
  fabric : t.fabric = s.fabric
  wear : t.wear = s.wear
  wheel : t.wheel = s.wheel
  counts : ∀ e ∈ fabricCounts, t.get e = s.get e

theorem FabricStands.refl (s : State) : FabricStands s s := ⟨rfl, rfl, rfl, fun _ _ => rfl⟩

theorem FabricStands.trans {s t u : State} (h : FabricStands s t) (k : FabricStands t u) : FabricStands s u :=
  ⟨k.fabric.trans h.fabric, k.wear.trans h.wear, k.wheel.trans h.wheel,
    fun e he => (k.counts e he).trans (h.counts e he)⟩

/-- An update of other fields. -/
theorem FabricStands.update {s t u : State} (h : FabricStands s t) (hfabric : u.fabric = t.fabric)
    (hwear : u.wear = t.wear) (hwheel : u.wheel = t.wheel) (hregs : u.regs = t.regs) : FabricStands s u :=
  h.trans ⟨hfabric, hwear, hwheel, fun e _ => State.get_congr hregs e⟩

theorem FabricStands.when {s t : State} {f : State → State} (h : FabricStands s t) (hf : ∀ u, FabricStands u (f u))
    (b : Bool) : FabricStands s (t.when b f) := by
  cases b
  · exact h
  · exact h.trans (hf t)

theorem FabricStands.foldl {β : Type} {f : State → β → State} (h : ∀ s b, FabricStands s (f s b)) (l : List β)
    (s : State) : FabricStands s (l.foldl f s) :=
  List.foldlRecOn (motive := FabricStands s) l f (FabricStands.refl s) fun u hu b _ => hu.trans (h u b)

theorem FabricStands.arr {s t : State} (h : FabricStands s t) (a : Nat) : t.arr a = s.arr a :=
  State.arr_congr h.fabric a

theorem FabricStands.unit {s t : State} (h : FabricStands s t) (row : Nat) : t.unit row = s.unit row :=
  State.unit_congr h.wear row

theorem State.set_fabricStands (s : State) {f : Ent} (v : Nat) (h : ∀ e ∈ fabricCounts, e.key ≠ f.key) :
    FabricStands s (s.set f v) := ⟨rfl, rfl, rfl, fun e he => State.get_set_ne s f e v (h e he)⟩

theorem State.inc_fabricStands (s : State) {f : Ent} (h : ∀ e ∈ fabricCounts, e.key ≠ f.key) :
    FabricStands s (s.inc f) := s.set_fabricStands _ h

theorem State.setU_fabricStands (s : State) {f : Ent} (u v : Nat) (h : 0x420000 ≤ f.key) :
    FabricStands s (s.setU f u v) :=
  ⟨rfl, rfl, rfl, fun e he => State.get_setU_ne s f e u v (by have := (key_of_fabricCounts e he).2; omega)⟩

theorem State.incU_fabricStands (s : State) {f : Ent} (u : Nat) (h : 0x420000 ≤ f.key) : FabricStands s (s.incU f u) :=
  s.setU_fabricStands u _ h

theorem State.latch_fabricStands (s : State) {f : Ent} (b key : Nat) (h : ∀ e ∈ fabricCounts, e.key ≠ f.key) :
    FabricStands s (s.latch f b key) :=
  ⟨by simp, by simp, by simp, fun e he => State.get_latch_ne s f e b key (key_of_fabricCounts e he).1 (h e he)⟩

theorem State.refreshArrays_fabricStands (s : State) : FabricStands s s.refreshArrays := by
  unfold State.refreshArrays
  extract_lets count before counted counted'
  have row : FabricStands s counted := by
    refine .trans (.trans (.trans ?_ (State.set_fabricStands _ _ ?_)) (State.set_fabricStands _ _ ?_))
      (State.set_fabricStands _ _ ?_)
    · exact State.set_fabricStands s _ (by decide)
    all_goals decide
  have all : FabricStands s counted' := row.trans (State.set_fabricStands _ _ (by decide))
  split
  next => exact all
  next => exact all.update rfl rfl rfl rfl

theorem State.abandonAlloc_fabricStands (s : State) : FabricStands s s.abandonAlloc := by
  unfold State.abandonAlloc
  split
  next =>
    refine FabricStands.trans ?_ (State.inc_fabricStands _ (by decide))
    exact (FabricStands.refl s).update rfl rfl rfl rfl
  next => exact FabricStands.refl s

theorem State.loseStep_fabricStands (s : State) (p : Nat) : FabricStands s (s.loseStep p) := by
  unfold State.loseStep
  dsimp only
  split
  next =>
    split
    next => exact FabricStands.refl s
    next =>
      refine .trans (.trans ?_ (State.incU_fabricStands _ _ (by decide))) (State.inc_fabricStands _ (by decide))
      exact (FabricStands.refl s).update rfl rfl rfl rfl
  next => exact FabricStands.refl s

theorem restartHinges_fabricStands (base : Nat) (hs : AMap Hinge) (s : State) :
    FabricStands s (restartHinges base hs s) := by
  unfold restartHinges
  refine FabricStands.foldl (fun u h => ?_) hs s
  dsimp only
  split
  next => exact State.incU_fabricStands u _ (by decide)
  next =>
    split
    next => exact State.setU_fabricStands u _ _ (by decide)
    next => exact FabricStands.refl u
  next => exact FabricStands.refl u

/-- What a lost array costs rebuilds and operator steps (R372, R379) leaves the fabric alone. -/
theorem State.arraysTaken_fabricStands (s : State) (isRow : Bool) : FabricStands s (s.arraysTaken isRow) := by
  have drawn (u : State) : FabricStands u u.drawn := (FabricStands.refl u).update rfl rfl rfl rfl
  unfold State.arraysTaken
  split
  next => exact (drawn s).when (fun u => restartHinges_fabricStands 0 s.row.hinges u) _
  next =>
    refine FabricStands.foldl (fun u q => (drawn u).when (fun v => ?_) _) s.loadedProgs s
    exact (v.loseStep_fabricStands q.1).trans (restartHinges_fabricStands _ _ _)

theorem State.refreshKind_fabricStands (s : State) (k : Nat) : FabricStands s (s.refreshKind k) := by
  unfold State.refreshKind
  extract_lets units spare before active spares retired
  have counted : FabricStands s retired :=
    ((s.setU_fabricStands _ _ (by decide)).trans (State.setU_fabricStands _ _ _ (by decide))).trans
      (State.setU_fabricStands _ _ _ (by decide))
  split
  next => exact counted.trans (State.latch_fabricStands _ _ _ (by decide))
  next => exact counted

/-! ### A unit's role (R290 to R292, R655) -/

theorem State.unit_setRole_ne (s : State) {row other : Nat} (h : other ≠ row) (role serves : Nat) :
    (s.setRole row role serves).unit other = s.unit other := by
  unfold State.setRole
  rw [(State.refreshKind_fabricStands _ _).unit, State.unit_putUnit_ne s h]

theorem State.get_setRole (s : State) (row role serves : Nat) {e : Ent} (he : e ∈ fabricCounts) :
    (s.setRole row role serves).get e = s.get e :=
  (State.refreshKind_fabricStands _ _).counts e he

/-- A unit that is retired holds no role again (R655, R658). -/
theorem State.unit_retire_role (s : State) (row cause : Nat) : ((s.retire row cause).unit row).role = 4 := by
  unfold State.retire
  dsimp only
  rw [(State.latch_fabricStands _ _ _ (by decide)).unit, State.writeLife_unit,
    (State.refreshKind_fabricStands _ _).unit, State.unit_putUnit_same, State.unit_setRole_role]

theorem State.get_retire (s : State) (row cause : Nat) {e : Ent} (he : e ∈ fabricCounts) :
    (s.retire row cause).get e = s.get e := by
  unfold State.retire
  dsimp only
  rw [(State.latch_fabricStands _ _ _ (by decide)).counts e he, State.writeLife_get,
    (State.refreshKind_fabricStands _ _).counts e he, State.putUnit_get, State.get_setRole _ _ _ _ he]

/-- A block error leaves a unit fenced, or retired when it has had its share of errors (R646, R655). -/
theorem State.unit_fenceUnit_role (s : State) (row : Nat) :
    ((s.fenceUnit row).unit row).role = 2 ∨ ((s.fenceUnit row).unit row).role = 4 := by
  unfold State.fenceUnit
  dsimp only
  split
  next => exact .inr (State.unit_retire_role _ _ _)
  next => exact .inl (State.unit_setRole_role _ _ _ _)

theorem State.get_fenceUnit (s : State) (row : Nat) {e : Ent} (he : e ∈ fabricCounts) :
    (s.fenceUnit row).get e = s.get e := by
  unfold State.fenceUnit
  dsimp only
  split
  next => exact (State.get_retire _ _ _ he).trans (State.get_setRole _ _ _ _ he)
  next => exact State.get_setRole _ _ _ _ he

theorem State.get_promote (s : State) (row serves : Nat) {e : Ent} (he : e ∈ fabricCounts) :
    (s.promote row serves).get e = s.get e := by
  unfold State.promote
  dsimp only
  rw [(State.latch_fabricStands _ _ _ (by decide)).counts e he,
    (State.incU_fabricStands _ _ (by decide)).counts e he, State.get_setRole _ _ _ _ he]

/-! ### An array that takes an active role (R290) -/

theorem State.arr_giveRole_isRow (s : State) (a : Nat) (isRow borrowed : Bool) :
    ((s.giveRole a isRow borrowed).arr a).isRow = isRow := by
  unfold State.giveRole
  rw [State.arr_putArr_same]

theorem State.unit_giveRole_role (s : State) (a : Nat) (isRow borrowed : Bool) :
    ((s.giveRole a isRow borrowed).unit a).role = 0 := by
  unfold State.giveRole
  rw [State.putArr_unit, State.unit_setRole_role]

theorem State.get_giveRole (s : State) (a : Nat) (isRow borrowed : Bool) {e : Ent} (he : e ∈ fabricCounts) :
    (s.giveRole a isRow borrowed).get e = s.get e := by
  unfold State.giveRole
  rw [State.putArr_get, State.get_setRole _ _ _ _ he]

/-! ### A block error of an active array (R295 to R297) -/

/-- An array is fenced and its role is left to be handed over. -/
def State.leaveRole (s : State) (a role : Nat) : State :=
  s.putArr a { s.arr a with
    handOver := role, fenceTick := s.tick, overruns := 0, preloadFor := none, borrowed := false }

/-- A block error of an active array, step by step: its step writes no results and an allocation may be abandoned; its
role waits to be handed over, its unit is fenced and the fence is counted. What follows leaves the fabric alone. -/
theorem State.arrayError_of_active {s : State} {a : Nat} (hrole : s.arrRole a = 1 ∨ s.arrRole a = 2) :
    ∃ y, FabricStands (s.noResults a) y
      ∧ FabricStands ((((y.leaveRole a (s.arrRole a)).fenceUnit a).refreshArrays).inc E.ARRAY_FENCES)
        (s.arrayError a) := by
  have settled (x : State) (key : Nat) (isRow : Bool) :
      FabricStands x ((x.latch E.FABRIC_LATCHES 2 key).arraysTaken isRow) :=
    (x.latch_fabricStands _ _ (by decide)).trans (State.arraysTaken_fabricStands _ _)
  rcases hrole with h | h
  · refine ⟨(s.noResults a).abandonAlloc, State.abandonAlloc_fabricStands _, ?_⟩
    simpa [State.arrayError, State.leaveRole, h] using settled _ _ _
  · refine ⟨s.noResults a, FabricStands.refl _, ?_⟩
    simpa [State.arrayError, State.leaveRole, h] using settled _ _ _

/-- A block error fences an active array and leaves its role to be handed over (R295, R296). -/
theorem State.arrayError_fences {s : State} {a : Nat} (hrole : s.arrRole a = 1 ∨ s.arrRole a = 2) :
    (s.arrayError a).get E.ARRAY_FENCES = (s.get E.ARRAY_FENCES + 1) % 2 ^ 64
      ∧ (((s.arrayError a).unit a).role = 2 ∨ ((s.arrayError a).unit a).role = 4)
      ∧ ((s.arrayError a).arr a).handOver = s.arrRole a ∧ ((s.arrayError a).arr a).fenceTick = s.tick := by
  have mem : E.ARRAY_FENCES ∈ fabricCounts := by decide
  obtain ⟨l, -, -, -, hwheel, hregs⟩ := s.noResults_frame a
  obtain ⟨y, hy, herror⟩ := State.arrayError_of_active hrole
  have htick : y.tick = s.tick := congrArg Wheel.tick (hy.wheel.trans hwheel)
  have hfences : (y.leaveRole a (s.arrRole a)).get E.ARRAY_FENCES = s.get E.ARRAY_FENCES :=
    (hy.counts _ mem).trans (State.get_congr hregs _)
  have harr : (y.leaveRole a (s.arrRole a)).arr a = { y.arr a with
      handOver := s.arrRole a, fenceTick := s.tick, overruns := 0, preloadFor := none, borrowed := false } := by
    rw [State.leaveRole, State.arr_putArr_same, htick]
  generalize y.leaveRole a (s.arrRole a) = x at *
  have refreshed := (x.fenceUnit a).refreshArrays_fabricStands
  rw [herror.counts _ mem, herror.unit, herror.arr, State.get_inc_same, State.inc_unit, State.inc_arr,
    refreshed.counts _ mem, refreshed.unit, refreshed.arr, State.get_fenceUnit _ _ mem, hfences, State.fenceUnit_arr,
    harr]
  exact ⟨rfl, x.unit_fenceUnit_role a, rfl, rfl⟩

/-! ### What leaves the fabric alone when classes are placed again (R319, R373, R400) -/

@[simp] theorem State.fabric_ite (c : Prop) [Decidable c] (s t : State) :
    (if c then s else t).fabric = if c then s.fabric else t.fabric := apply_ite State.fabric c s t

@[simp] theorem State.fabric_foldl {β : Type} {f : State → β → State} (h : ∀ s b, (f s b).fabric = s.fabric)
    (l : List β) (s : State) : (l.foldl f s).fabric = s.fabric := foldl_eq_of_step (p := State.fabric) h l s

@[simp] theorem State.refreshHosted_fabric (s : State) : s.refreshHosted.fabric = s.fabric := by
  simp [State.refreshHosted]

@[simp] theorem State.refreshStore_fabric (s : State) : s.refreshStore.fabric = s.fabric := by
  simp [State.refreshStore]

@[simp] theorem State.unloadProg_fabric (s : State) (p result : Nat) : (s.unloadProg p result).fabric = s.fabric := by
  simp [State.unloadProg]

@[simp] theorem State.evict_fabric (s : State) (k n : Nat) : (s.evict k n).fabric = s.fabric := by
  induction n generalizing s with
  | zero => rfl
  | succ n ih =>
    unfold State.evict
    dsimp only
    split
    next => rfl
    next =>
      split
      next => rfl
      next => split <;> simp [ih]

@[simp] theorem State.carve_fabric (s : State) (back : Bool) : (s.carve back).fabric = s.fabric := by
  unfold State.carve
  dsimp only
  rw [State.refreshStore_fabric, State.fabric_foldl fun u k => by simp, State.refreshHosted_fabric]

@[simp] theorem State.placeClass_fabric (s : State) (c : Nat) : (s.placeClass c).fabric = s.fabric := by
  unfold State.placeClass
  dsimp only
  split
  next => rfl
  next => exact State.carve_fabric _ _

@[simp] theorem State.placeClasses_fabric (s : State) (cs : List Nat) : (s.placeClasses cs).fabric = s.fabric :=
  State.fabric_foldl State.placeClass_fabric _ s

/-! ### The fences of regions (R304 to R306) -/

/-- The fenced regions that wait for their reconfiguration, the wheel, and the regions that are fenced. -/
def State.fenceView (s : State) : List (Nat × Nat) × Wheel × Nat :=
  (s.fabric.fences, s.wheel, s.get E.REGIONS_FENCED)

theorem FabricStands.fenceView {s t : State} (h : FabricStands s t) : t.fenceView = s.fenceView := by
  unfold State.fenceView
  rw [h.fabric, h.wheel, h.counts _ (by decide)]

theorem State.putArr_fenceView (s : State) (a : Nat) (x : Arr) : (s.putArr a x).fenceView = s.fenceView := rfl

theorem State.putUnit_fenceView (s : State) (row : Nat) (u : LedgerUnit) : (s.putUnit row u).fenceView = s.fenceView :=
  rfl

theorem State.putDiary_fenceView (s : State) (d : Diary) : (s.putDiary d).fenceView = s.fenceView := rfl

theorem State.setRole_fenceView (s : State) (row role serves : Nat) :
    (s.setRole row role serves).fenceView = s.fenceView :=
  (State.refreshKind_fabricStands _ _).fenceView

theorem State.noResults_fenceView (s : State) (a : Nat) : (s.noResults a).fenceView = s.fenceView := by
  obtain ⟨l, -, hfabric, -, hwheel, hregs⟩ := s.noResults_frame a
  unfold State.fenceView
  rw [hfabric, hwheel, State.get_congr hregs]

theorem State.giveRole_fenceView (s : State) (a : Nat) (isRow borrowed : Bool) :
    (s.giveRole a isRow borrowed).fenceView = s.fenceView := by
  unfold State.giveRole
  rw [State.putArr_fenceView, State.setRole_fenceView]

theorem State.rowTo_fenceView (s : State) (r q : Nat) : (s.rowTo r q).fenceView = s.fenceView := by
  unfold State.rowTo
  dsimp only
  split
  next => exact foldl_eq_of_step (fun u a => u.giveRole_fenceView a true false) _ s.drawn
  next => exact foldl_eq_of_step (fun u a => u.giveRole_fenceView a false false) _ s.drawn

/-- Taking the row program's arrays again (R306) leaves the fences that wait. -/
theorem State.reserve_fences (s : State) (n : Nat) : (s.reserve n).fabric.fences = s.fabric.fences := by
  have quarters (s : State) : ((List.range 4).foldl (fun s r => s.rowTo r (n / 4)) s).fenceView = s.fenceView :=
    foldl_eq_of_step (fun u r => u.rowTo_fenceView r (n / 4)) _ s
  unfold State.reserve
  extract_lets _ noted taken made counted
  have htopped : made.fenceView = taken.fenceView := by
    refine foldl_eq_of_step (fun u r => ?_) _ taken
    extract_lets row mine
    split
    next => exact u.rowTo_fenceView _ _
    next => rfl
  have hmade : made.fenceView = s.fenceView :=
    calc made.fenceView = taken.fenceView := htopped
      _ = noted.fenceView := quarters noted
      _ = s.fenceView := rfl
  have hcounted : counted.fabric.fences = s.fabric.fences :=
    congrArg Prod.fst (made.refreshArrays_fabricStands.fenceView.trans hmade)
  split
  next => simpa using hcounted
  next => exact hcounted

/-- A region that is not yet fenced is fenced, and waits for its reconfiguration from this tick on (R304, R305). -/
theorem State.fenceRegion_fences {s : State} {r : Nat} (h : (s.get E.REGIONS_FENCED).testBit r = false) :
    (s.fenceRegion r).get E.REGIONS_FENCED = setBit (s.get E.REGIONS_FENCED) r
      ∧ (s.fenceRegion r).fabric.fences = s.fabric.fences ++ [(r, s.tick)] := by
  have mem : E.REGIONS_FENCED ∈ fabricCounts := by decide
  unfold State.fenceRegion
  rw [if_neg (by simp [h])]
  extract_lets fenced _ noted abandoned stopped counted taken _ waiting
  have hstopped : stopped.fenceView = abandoned.fenceView := by
    refine foldl_eq_of_step (fun u a => ?_) _ abandoned
    extract_lets role quiet _ reset
    have hreset : reset.fenceView = u.fenceView := by
      refine (quiet.putArr_fenceView _ _).trans ?_
      show (if u.arrRole a = 1 then u.noResults a else u).fenceView = u.fenceView
      split
      next => exact u.noResults_fenceView a
      next => rfl
    split
    next => exact hreset
    next => rw [State.putUnit_fenceView, State.setRole_fenceView, hreset]
  have habandoned : abandoned.fenceView = noted.fenceView := by
    show (if (noted.arraysIn 1 (regionArrays r)).isEmpty then noted else noted.abandonAlloc).fenceView = _
    split
    next => rfl
    next => exact noted.abandonAlloc_fabricStands.fenceView
  have hnoted : noted.fenceView = (s.fabric.fences, s.wheel, setBit (s.get E.REGIONS_FENCED) r) := by
    rw [State.putDiary_fenceView, State.fenceView, State.get_set_same]
    rfl
  have htaken : taken.fenceView = (s.fabric.fences, s.wheel, setBit (s.get E.REGIONS_FENCED) r) :=
    calc taken.fenceView = stopped.fenceView :=
        (stopped.refreshArrays_fabricStands.trans
          ((counted.arraysTaken_fabricStands true).trans (State.arraysTaken_fabricStands _ false))).fenceView
      _ = _ := hstopped.trans (habandoned.trans hnoted)
  simp only [State.fenceView, Prod.mk.injEq] at htaken
  obtain ⟨hfences, hwheel, hregions⟩ := htaken
  have latched := waiting.latch_fabricStands (f := E.FABRIC_LATCHES) 4 0 (by decide)
  rw [latched.counts _ mem, latched.fabric]
  refine ⟨hregions, ?_⟩
  show taken.fabric.fences ++ [(r, taken.wheel.tick)] = s.fabric.fences ++ [(r, s.wheel.tick)]
  rw [hfences, hwheel]

/-! ### What each command leaves -/

section

variable {s z : State} {t array region : Nat}

/-- PARITY_ERROR (R293): the first one in a step is counted, and the step runs again. -/
theorem parityError_reruns (hz : z = s.at t) (harray : array < 144) (hrole : z.arrRole array = 1 ∨ z.arrRole array = 2)
    (hfirst : (z.arr array).parityTick ≠ some z.tick) :
    Answers (.parityError t array) s fun u =>
      u.getU E.STEP_RERUNS array = (z.getU E.STEP_RERUNS array + 1) % 2 ^ 64
        ∧ u.get E.STEP_RERUNS_ALL = (z.get E.STEP_RERUNS_ALL + 1) % 2 ^ 64
        ∧ u.getU E.CELL_PARITY_ERRORS array = (z.getU E.CELL_PARITY_ERRORS array + 1) % 2 ^ 64
        ∧ u.arr array = { z.arr array with parityTick := some z.tick } ∧ u.wear = z.wear := by
  subst hz
  refine ⟨_, rfl, ?_⟩
  generalize s.at t = z at *
  have cells := z.getU_incU_same E.CELL_PARITY_ERRORS array
  have reruns : (z.incU E.CELL_PARITY_ERRORS array).getU E.STEP_RERUNS array = z.getU E.STEP_RERUNS array :=
    State.getU_incU_ne _ _ _ _ _ (by simp [E.STEP_RERUNS, E.CELL_PARITY_ERRORS])
  have all : (z.incU E.CELL_PARITY_ERRORS array).get E.STEP_RERUNS_ALL = z.get E.STEP_RERUNS_ALL :=
    State.get_incU_ne _ _ _ _ (by simp only [E.STEP_RERUNS_ALL, E.CELL_PARITY_ERRORS]; omega)
  obtain ⟨active, harr, htick, hwear⟩ : ((z.incU E.CELL_PARITY_ERRORS array).arrRole array = 1
        ∨ (z.incU E.CELL_PARITY_ERRORS array).arrRole array = 2)
      ∧ (z.incU E.CELL_PARITY_ERRORS array).arr array = z.arr array
      ∧ (z.incU E.CELL_PARITY_ERRORS array).tick = z.tick ∧ (z.incU E.CELL_PARITY_ERRORS array).wear = z.wear :=
    ⟨hrole, rfl, rfl, rfl⟩
  generalize z.incU E.CELL_PARITY_ERRORS array = c at *
  rw [harr, htick, if_neg (by rcases active with h | h <;> simp [h]), if_neg hfirst]
  dsimp only
  generalize hy : c.putArr array _ = y
  obtain ⟨hregs, hputWear, hput⟩ : y.regs = c.regs ∧ y.wear = c.wear
      ∧ y.arr array = { z.arr array with parityTick := some z.tick } :=
    hy ▸ ⟨rfl, rfl, State.arr_putArr_same _ _ _⟩
  obtain ⟨hreruns, hall, hcells⟩ := y.rerun_counts harray (arrKey array)
  rw [hreruns, hall, hcells, State.latch_arr, State.inc_arr, State.getU_congr hregs, State.get_congr hregs,
    State.getU_congr hregs, reruns, all, cells]
  exact ⟨rfl, rfl, rfl, hput, by simp [hputWear, hwear]⟩

/-- STEP_OVERRUN (R294): an overrun after a tick without one is counted as the first, and its step writes no results. -/
theorem stepOverrun_counts (hz : z = s.at t) (hrole : z.arrRole array = 1 ∨ z.arrRole array = 2)
    (hparity : (z.arr array).parityTick ≠ some z.tick) (hfirst : (z.arr array).overrunTick + 1 ≠ z.tick) :
    Answers (.stepOverrun t array) s fun u =>
      u.get E.STEP_OVERRUNS = (z.get E.STEP_OVERRUNS + 1) % 2 ^ 64
        ∧ u.arr array = { z.arr array with overruns := 1, overrunTick := z.tick }
        ∧ array ∈ u.fabric.noResult ∧ u.wear = z.wear := by
  subst hz
  refine ⟨_, rfl, ?_⟩
  generalize s.at t = z at *
  obtain ⟨l, hl, hfabric, hwear, hwheel, hregs⟩ := z.noResults_frame array
  rw [State.when_of (by simpa using hrole)]
  simp only [if_neg hparity, if_neg hfirst]
  rw [if_neg (by decide)]
  have harr : (z.noResults array).arr array = z.arr array := by rw [State.arr, hfabric, State.arr]
  have htick : (z.noResults array).tick = z.tick := congrArg Wheel.tick hwheel
  rw [harr, htick]
  generalize z.noResults array = y at *
  refine ⟨?_, ?_, ?_, ?_⟩
  · rw [State.get_latch_ne _ _ _ _ _ (by decide) (by decide), State.get_inc_same]
    exact congrArg (fun n => (n + 1) % 2 ^ 64) (State.get_congr hregs _)
  · rw [State.latch_arr, State.inc_arr, State.arr_putArr_same]
  · simpa [State.putArr, hfabric] using hl
  · simpa [State.putArr] using hwear

/-- ARRAY_BLOCK_ERROR (R295, R296): the array is fenced and its role waits for a migration. -/
theorem arrayBlockError_fences {sram : Bool} (hz : z = s.at t) (hrole : z.arrRole array = 1 ∨ z.arrRole array = 2) :
    Answers (.arrayBlockError t array sram) s fun u =>
      u.get E.ARRAY_FENCES = (z.get E.ARRAY_FENCES + 1) % 2 ^ 64
        ∧ ((u.unit array).role = 2 ∨ (u.unit array).role = 4)
        ∧ (u.arr array).handOver = z.arrRole array ∧ (u.arr array).fenceTick = z.tick := by
  subst hz
  refine ⟨_, rfl, ?_⟩
  generalize s.at t = z at *
  cases sram with
  | false => exact State.arrayError_fences hrole
  | true =>
    rw [State.when_true]
    obtain ⟨hcount, hfenced, hhand, htick⟩ := State.arrayError_fences (s := z.inc E.SRAM_UNCORRECTABLE) hrole
    rw [State.get_inc_ne _ _ _ (by decide)] at hcount
    exact ⟨hcount, hfenced, hhand, htick⟩

/-- REGION_FENCE (R304): the region is fenced and waits for its reconfiguration. -/
theorem regionFence_fences (hz : z = s.at t) (hregion : region < 4)
    (hruns : (z.get E.REGIONS_FENCED).testBit region = false) :
    Answers (.regionFence t region) s fun u =>
      u.get E.REGIONS_FENCED = setBit (z.get E.REGIONS_FENCED) region
        ∧ u.fabric.fences = z.fabric.fences ++ [(region, z.tick)] := by
  subst hz
  exact answers_of_when rfl (by simpa using hregion) (State.fenceRegion_fences hruns)

/-- REGION_RECONFIGURE (R305, R306): the fence no longer waits, and the operator programs are placed again. -/
theorem regionReconfigure_places {since : Nat} (hz : z = s.at t) (hfence : (region, since) ∈ z.fabric.fences)
    (hsince : since < z.tick) :
    Answers (.regionReconfigure t region) s fun u =>
      u.loader.replaceDue = true ∧ u.fabric.fences = z.fabric.fences.filter fun f => f.1 != region := by
  subst hz
  refine ⟨_, rfl, ?_⟩
  generalize s.at t = z at *
  rw [State.when_of (List.any_eq_true.2 ⟨_, hfence, by simpa using hsince⟩)]
  extract_lets _ lifted made classes unplaced guests restarted placed
  have hplaced : placed.fabric = restarted.fabric :=
    (State.carve_fabric _ _).trans (State.placeClasses_fabric _ _)
  clear_value placed
  have hunplaced : restarted.fabric = made.fabric :=
    State.fabric_foldl (f := fun u c => u.setU E.CLASS_REGION c 0xFF) (fun _ _ => rfl) classes made
  clear_value restarted
  have hmade : made.fabric.fences = lifted.fabric.fences := State.reserve_fences lifted _
  clear_value made
  exact ⟨rfl, (congrArg Fabric.fences (hplaced.trans hunplaced)).trans hmade⟩

/-- MIGRATION (R296, R298, R299): a tested spare of the region takes the fenced array's role. -/
theorem migration_migrates {a : Nat} (hz : z = s.at t) (hhand : (z.arr array).handOver ≠ 0)
    (hfence : (z.arr array).fenceTick < z.tick) (hspare : z.bestSpare (regionArrays (array / 36)) = some a)
    (hne : a ≠ array) :
    Answers (.migration t array) s fun u =>
      u.get E.MIGRATIONS = (z.get E.MIGRATIONS + 1) % 2 ^ 64 ∧ (u.unit a).role = 0
        ∧ (u.arr a).isRow = ((z.arr array).handOver == 1) ∧ (u.arr a).heldSpare = z.turn
        ∧ (u.arr array).handOver = 0 := by
  have mem : E.MIGRATIONS ∈ fabricCounts := by decide
  subst hz
  refine ⟨_, rfl, ?_⟩
  generalize s.at t = z at *
  rw [State.when_of (by simpa using ⟨hhand, hfence⟩)]
  dsimp only
  rw [hspare]
  dsimp only
  have refreshed (x : State) := x.refreshArrays_fabricStands
  rw [(refreshed _).counts _ mem, (refreshed _).unit, (refreshed _).arr, (refreshed _).arr, State.get_inc_same,
    State.inc_unit, State.inc_arr, State.inc_arr, State.putArr_unit, State.arr_putArr_same,
    State.arr_putArr_ne _ hne.symm]
  refine ⟨?_, State.unit_promote_role _ _ _, rfl, rfl, ?_⟩
  · rw [State.putArr_get, State.get_promote _ _ _ mem, State.putArr_get]
  · rw [State.promote_arr, State.arr_putArr_same]

/-- ROTATION_PRELOAD (R302): the incoming spare is loaded from the outgoing array. -/
theorem rotationPreload_loads {o i : Nat} (hz : z = s.at t) (hturn : z.rotationTurn region (z.turn + 1) = true)
    (hlast : z.wheel.idx + 1 = z.ticksPerTurn) (hpair : z.rotationPair region = (some o, some i)) :
    Answers (.rotationPreload t region) s fun u => u.arr i = { z.arr i with preloadFor := some o } := by
  subst hz
  refine ⟨_, rfl, ?_⟩
  generalize s.at t = z at *
  rw [State.when_of (by simpa using ⟨hturn, hlast⟩), hpair]
  exact State.arr_putArr_same _ _ _

/-- ROTATION (R301 to R303): the spare that was loaded takes the role, and the outgoing array is fenced for its planned
test. -/
theorem rotation_swaps {o i : Nat} (hz : z = s.at t) (hturn : z.rotationTurn region z.turn = true)
    (hidx : z.wheel.idx = 0) (hfirst : z.fabric.rotated.get region ≠ some z.turn)
    (hpair : z.rotationPair region = (some o, some i)) (hne : o ≠ i) (hload : (z.arr i).preloadFor = some o)
    (hstance : z.fabric.stanceTurn ≠ some z.turn) :
    Answers (.rotation t region) s fun u =>
      u.get E.ROTATIONS = (z.get E.ROTATIONS + 1) % 2 ^ 64 ∧ (u.unit i).role = 0 ∧ (u.unit o).role = 2
        ∧ (u.unit o).planned = true ∧ (u.arr i).isRow = (z.arr o).isRow := by
  have mem : E.ROTATIONS ∈ fabricCounts := by decide
  subst hz
  refine ⟨_, rfl, ?_⟩
  generalize s.at t = z at *
  rw [State.when_of (by simp [hturn, hidx, hfirst])]
  extract_lets _ marked defer
  have hmarked : marked.rotationPair region = (some o, some i) := hpair
  rw [hmarked]
  dsimp -zeta only
  rw [if_neg (by simpa using ⟨hload, hstance⟩)]
  extract_lets isRow given outgoing _ planned _ left
  have hcount : left.get E.ROTATIONS = z.get E.ROTATIONS :=
    calc left.get E.ROTATIONS = planned.get E.ROTATIONS := planned.putArr_get o _ _
      _ = outgoing.get E.ROTATIONS := outgoing.putUnit_get o _ _
      _ = given.get E.ROTATIONS := given.get_setRole o 2 0xFFFF mem
      _ = z.get E.ROTATIONS := marked.get_giveRole i isRow false mem
  have hin : left.unit i = given.unit i :=
    calc left.unit i = planned.unit i := planned.putArr_unit o _ i
      _ = outgoing.unit i := outgoing.unit_putUnit_ne hne.symm _
      _ = given.unit i := given.unit_setRole_ne hne.symm 2 0xFFFF
  have hout : left.unit o = { outgoing.unit o with planned := true } :=
    calc left.unit o = planned.unit o := planned.putArr_unit o _ o
      _ = { outgoing.unit o with planned := true } := outgoing.unit_putUnit_same o _
  have harr : left.arr i = given.arr i :=
    calc left.arr i = planned.arr i := planned.arr_putArr_ne hne.symm _
      _ = outgoing.arr i := outgoing.putUnit_arr o _ i
      _ = given.arr i := given.setRole_arr o 2 0xFFFF i
  have hrole : (outgoing.unit o).role = 2 := given.unit_setRole_role o 2 0xFFFF
  clear_value left planned outgoing
  have settled : FabricStands (left.inc E.ROTATIONS) ((left.inc E.ROTATIONS).refreshArrays.arraysTaken isRow) :=
    (State.refreshArrays_fabricStands _).trans (State.arraysTaken_fabricStands _ _)
  rw [settled.counts _ mem, settled.unit, settled.unit, settled.arr, State.get_inc_same, State.inc_unit,
    State.inc_unit, State.inc_arr, hcount, hin, hout, harr]
  exact ⟨rfl, marked.unit_giveRole_role i isRow false, hrole, rfl, marked.arr_giveRole_isRow i isRow false⟩

end

end Sys2Proof.Machine

namespace Sys2Proof.Proofs

open Sys2Proof Sys2Proof.Machine

/-- Settles O35, command by command. -/
theorem arraysFailAndTurn : Obligations.ArraysFailAndTurn := by
  unfold Obligations.ArraysFailAndTurn
  refine ⟨?parity, ?overrun, ?block, ?fence, ?reconfigure, ?migration, ?preload, ?rotation⟩
  case parity => exact fun s z t array hz harray hrole hfirst => parityError_reruns hz harray hrole hfirst
  case overrun => exact fun s z t array hz hrole hparity hfirst => stepOverrun_counts hz hrole hparity hfirst
  case block => exact fun s z t array sram hz _ hrole => arrayBlockError_fences hz hrole
  case fence => exact fun s z t region hz hregion hruns => regionFence_fences hz hregion hruns
  case reconfigure => exact fun s z t region since hz hfence hsince => regionReconfigure_places hz hfence hsince
  case migration => exact fun s z t array a hz hhand hfence hspare hne => migration_migrates hz hhand hfence hspare hne
  case preload => exact fun s z t region o i hz hturn hlast hpair => rotationPreload_loads hz hturn hlast hpair
  case rotation =>
    exact fun s z t region o i hz hturn hidx hfirst hpair hne hload hstance =>
      rotation_swaps hz hturn hidx hfirst hpair hne hload hstance

end Sys2Proof.Proofs
end

section
/-! PROOFS. The statements of spec/10_stacks.md: the memory stacks (R321 to R324, R327 to R331), and the self-tests and
the later steps of the start sequence (R338, R624, R636, R637, R643, R647). -/

namespace Sys2Proof.Machine

open Sys2Proof

/-! ### The stacks -/

theorem State.stack_congr {s t : State} (h : t.stackMap = s.stackMap) (k : Nat) : t.stack k = s.stack k := by
  unfold State.stack
  rw [h]

theorem State.stack_putStack_same (s : State) (k : Nat) (x : Stack) : (s.putStack k x).stack k = x := by
  simp [State.stack, State.putStack, AMap.getD, AMap.get_set_same]

/-- A stack that is replaced reads so past whatever leaves the stacks alone. -/
theorem State.stack_of_putStack {s t : State} {k : Nat} {x : Stack} (h : t.stackMap = (s.putStack k x).stackMap) :
    t.stack k = x := (State.stack_congr h k).trans (s.stack_putStack_same k x)

/-! What leaves the stacks alone. -/

@[simp] theorem State.stackMap_ite (c : Prop) [Decidable c] (s t : State) :
    (if c then s else t).stackMap = if c then s.stackMap else t.stackMap := apply_ite State.stackMap c s t

@[simp] theorem State.stackMap_when {s : State} {f : State → State} (h : ∀ u, (f u).stackMap = u.stackMap) (b : Bool) :
    (s.when b f).stackMap = s.stackMap := State.when_eq_of_eq (p := State.stackMap) (h s) b

@[simp] theorem State.stackMap_foldl {β : Type} {f : State → β → State} (h : ∀ s b, (f s b).stackMap = s.stackMap)
    (l : List β) (s : State) : (l.foldl f s).stackMap = s.stackMap := foldl_eq_of_step (p := State.stackMap) h l s

theorem State.set_stackMap (s : State) (e : Ent) (v : Nat) : (s.set e v).stackMap = s.stackMap := rfl

theorem State.latch_stackMap (s : State) (e : Ent) (b key : Nat) : (s.latch e b key).stackMap = s.stackMap := by simp

@[simp] theorem State.poison_stackMap (s : State) (k : Nat) (lost : Nat → Bool) :
    (s.poison k lost).stackMap = s.stackMap := rfl

@[simp] theorem State.eccCorrected_stackMap (s : State) (k c n : Nat) : (s.eccCorrected k c n).stackMap = s.stackMap := by
  simp [State.eccCorrected]

@[simp] theorem State.setSlotChan_stackMap (s : State) (k slot c : Nat) :
    (s.setSlotChan k slot c).stackMap = s.stackMap := rfl

@[simp] theorem State.loseLog_stackMap (s : State) : s.loseLog.stackMap = s.stackMap :=
  (State.latch_stackMap _ _ _ _).trans (State.latch_stackMap _ _ _ _)

@[simp] theorem State.refreshStore_stackMap (s : State) : s.refreshStore.stackMap = s.stackMap :=
  State.set_stackMap _ _ _

/-! What the fence of a region does to arrays, allocations and programs (R304) leaves the stacks alone. -/

@[simp] theorem State.putArr_stackMap (s : State) (a : Nat) (x : Arr) : (s.putArr a x).stackMap = s.stackMap := rfl

@[simp] theorem State.noResults_stackMap (s : State) (a : Nat) : (s.noResults a).stackMap = s.stackMap := by
  simp [State.noResults, State.putGuest]

@[simp] theorem State.abandonAlloc_stackMap (s : State) : s.abandonAlloc.stackMap = s.stackMap := by
  unfold State.abandonAlloc
  split <;> rfl

@[simp] theorem State.loseStep_stackMap (s : State) (p : Nat) : (s.loseStep p).stackMap = s.stackMap := by
  unfold State.loseStep
  dsimp only
  split
  next => simp [State.putProg]
  next => rfl

@[simp] theorem restartHinges_stackMap (base : Nat) (hs : AMap Hinge) (s : State) :
    (restartHinges base hs s).stackMap = s.stackMap := by
  unfold restartHinges
  refine State.stackMap_foldl (fun u h => ?_) hs s
  dsimp only
  split <;> simp

@[simp] theorem State.arraysTaken_stackMap (s : State) (isRow : Bool) : (s.arraysTaken isRow).stackMap = s.stackMap := by
  simp [State.arraysTaken]

@[simp] theorem State.refreshArrays_stackMap (s : State) : s.refreshArrays.stackMap = s.stackMap := by
  simp [State.refreshArrays]

@[simp] theorem State.fenceRegion_stackMap (s : State) (r : Nat) : (s.fenceRegion r).stackMap = s.stackMap := by
  unfold State.fenceRegion
  split
  next => rfl
  next =>
    dsimp only
    rw [State.latch_stackMap]
    simp

/-- The loss of a running stack leaves it without its content, its lost slots and its fills (R330). -/
theorem State.stack_loseStack {s : State} {k : Nat} (h : s.getU E.STACK_STATE k = 2) :
    (s.loseStack k).stack k = { s.stack k with poisoned := [], lostSlots := [], fills := [] } := by
  unfold State.loseStack
  rw [if_neg (not_not_intro h)]
  extract_lets lost _ emptied parted poisoned logged
  refine State.stack_of_putStack (s := lost) (?_ : _ = emptied.stackMap)
  clear_value emptied
  simp [logged, poisoned, parted]

/-! ### The entries of stacks and channels -/

theorem chanUnit_lt {k c : Nat} (hk : k < 4) (hc : c < 18) : chanUnit k c < 72 := by
  unfold chanUnit
  omega

theorem State.poison_getU (s : State) (k : Nat) (lost : Nat → Bool) (e : Ent) (u : Nat) :
    (s.poison k lost).getU e u = s.getU e u := rfl

theorem sortBy_singleton {α : Type} (key : α → Nat) (x : α) : sortBy key [x] = [x] := rfl

/-! ### What each command leaves -/

section

variable {s z : State} {t k : Nat}

/-- LINE_UNCORRECTABLE (R324): a line that is not yet poisoned turns so, and the error is counted. -/
theorem lineUncorrectable_poisons {line : Nat} (hz : z = s.at t) (hk : k < 4) (hruns : z.getU E.STACK_STATE k = 2)
    (hline : line ∉ (z.stack k).poisoned) :
    Answers (.lineUncorrectable t k line) s fun u =>
      u.stack k = { z.stack k with poisoned := line :: (z.stack k).poisoned }
        ∧ u.getU E.ECC_UNCORRECTABLE k = (z.getU E.ECC_UNCORRECTABLE k + 1) % 2 ^ 64 := by
  subst hz
  refine answers_of_when rfl (by simpa [hruns] using hline) ⟨State.stack_of_putStack (s := s.at t) (by simp), ?_⟩
  rw [State.getU_latch_ne _ _ _ _ _ _ (notMem_logKeys_of_lt ?_) ?_, State.poison_getU, State.getU_incU_ne _ _ _ _ _ ?_,
    State.getU_incU_same]
  · rfl
  all_goals simp only [E.ECC_UNCORRECTABLE, E.CHAN_UNCORRECTABLE, E.STACK_LATCHES]; omega

/-- ROW_SPARE (R322): the bank has used one more of its 32 spare rows. -/
theorem rowSpare_spares {bank row : Nat} (hz : z = s.at t) (hruns : z.getU E.STACK_STATE k = 2)
    (hfree : (z.stack k).sparedRows.getD bank 0 < 32) :
    Answers (.rowSpare t k bank row) s fun u =>
      u.getU E.ROWS_SPARED k = (z.getU E.ROWS_SPARED k + 1) % 2 ^ 64
        ∧ u.stack k = { z.stack k with
            sparedRows := (z.stack k).sparedRows.set bank ((z.stack k).sparedRows.getD bank 0 + 1) } := by
  subst hz
  exact answers_of_when rfl (by simp [hruns, hfree])
    ⟨State.getU_incU_same _ _ _, State.stack_of_putStack (s := s.at t) (by simp)⟩

/-- PAGE_RETIRE (R323): with a reserve page left, the page is remapped to it. -/
theorem pageRetire_remaps {page : Nat} (hz : z = s.at t) (hruns : z.getU E.STACK_STATE k = 2)
    (hfree : z.getU E.RESERVE_PAGES_FREE k ≠ 0) :
    Answers (.pageRetire t k page) s fun u =>
      u.getU E.RESERVE_PAGES_FREE k = z.getU E.RESERVE_PAGES_FREE k - 1
        ∧ u.getU E.PAGES_RETIRED k = (z.getU E.PAGES_RETIRED k + 1) % 2 ^ 64
        ∧ (u.stack k).pages = (z.stack k).pages.set page (3584 - z.getU E.RESERVE_PAGES_FREE k) := by
  subst hz
  refine answers_of_when rfl (by simp [hruns]) ?_
  rw [if_neg hfree]
  dsimp only
  refine ⟨?free, ?retired, congrArg Stack.pages (State.stack_of_putStack (s := s.at t) rfl)⟩
  case free =>
    rw [State.getU_incU_ne _ _ _ _ _ ?_, State.getU_setU_same]
    simp only [E.RESERVE_PAGES_FREE, E.PAGES_RETIRED]; omega
  case retired =>
    rw [State.getU_incU_same, State.getU_setU_ne _ _ _ _ _ _ ?_]
    · rfl
    · simp only [E.RESERVE_PAGES_FREE, E.PAGES_RETIRED]; omega

/-- PATROL_SCRUB_PASS (R321): the next pass is due a period after this turn. -/
theorem patrolScrubPass_marks {corrected : List (Nat × Nat)} (hz : z = s.at t) (hruns : z.getU E.STACK_STATE k = 2)
    (hdue : (z.stack k).scrubTurn + z.eff E.SCRUB_PERIOD_TURNS ≤ z.turn) :
    Answers (.patrolScrubPass t k corrected) s fun u => u.stack k = { z.stack k with scrubTurn := z.turn } := by
  subst hz
  exact answers_of_when rfl (by simp [hruns, hdue])
    (State.stack_of_putStack (State.stackMap_foldl (fun _ _ => State.eccCorrected_stackMap _ _ _ _) _ _))

/-- STACK_LOSS (R330). -/
theorem stackLoss_empties (hz : z = s.at t) (hruns : z.getU E.STACK_STATE k = 2) :
    Answers (.stackLoss t k) s fun u =>
      u.stack k = { z.stack k with poisoned := [], lostSlots := [], fills := [] } := by
  subst hz
  exact ⟨_, rfl, State.stack_loseStack hruns⟩

/-- CHANNEL_LOSS (R327): the slot that a channel served waits for a spare from this tick on. -/
theorem channelLoss_waits {c : Nat} (hz : z = s.at t) (hruns : z.getU E.STACK_STATE k = 2)
    (hlost : z.getU E.CHAN_STATE (chanUnit k c) ≠ 3) (hspare : z.getU E.CHAN_STATE (chanUnit k c) ≠ 0) :
    Answers (.channelLoss t k c) s fun u =>
      u.stack k = { z.stack k with
        lostSlots := (z.stack k).lostSlots ++ [(z.getU E.CHAN_SLOT (chanUnit k c), z.tick)]
        fills := (z.stack k).fills.filter fun x => x != c } := by
  subst hz
  refine answers_of_when rfl (by simp [hruns, hlost]) ?_
  generalize s.at t = z at *
  extract_lets parted fenced noted x left
  have hstack : x = z.stack k := State.stack_congr (by simp [noted, fenced, parted]) k
  have htick : noted.tick = z.tick := congrArg Wheel.tick (by simp [noted, fenced, parted])
  rw [if_neg hspare]
  rw [State.stack_of_putStack (s := noted) (left.poison_stackMap k _), hstack, htick]

/-- CHANNEL_SPARE (R328, R329): the first spare channel takes the one slot that waits, and its fill with zeros begins. -/
theorem channelSpare_promotes {slot since c : Nat} (hz : z = s.at t) (hk : k < 4) (hc : c < 18)
    (hruns : z.getU E.STACK_STATE k = 2) (hlost : (z.stack k).lostSlots = [(slot, since)]) (hsince : since < z.tick)
    (hspare : (z.spareChannels k)[0]? = some c) :
    Answers (.channelSpare t k slot) s fun u =>
      u.getU E.CHAN_STATE (chanUnit k c) = 2 ∧ u.getU E.CHAN_SLOT (chanUnit k c) = slot
        ∧ u.stack k = { z.stack k with lostSlots := [], fills := (z.stack k).fills ++ [c] }
        ∧ (u.unit (chanRow k c)).role = 0 := by
  subst hz
  have hunit := chanUnit_lt hk hc
  refine answers_of_when rfl (by simpa [hruns, hlost] using hsince) ?_
  generalize s.at t = z at *
  rw [hlost, List.map_singleton, sortBy_singleton, List.idxOf_cons_self, hspare]
  dsimp only
  refine ⟨?state, ?slot, ?stack, ?role⟩
  case state =>
    rw [State.getU_latch_ne _ _ _ _ _ _ (notMem_logKeys_of_lt ?_) ?_, State.getU_setU_ne _ _ _ _ _ _ ?_,
      State.getU_setU_same]
    all_goals simp only [E.CHAN_STATE, E.CHAN_SLOT, E.STACK_LATCHES]; omega
  case slot =>
    rw [State.getU_latch_ne _ _ _ _ _ _ (notMem_logKeys_of_lt ?_) ?_, State.getU_setU_same]
    all_goals simp only [E.CHAN_SLOT, E.STACK_LATCHES]; omega
  case stack =>
    exact State.stack_of_putStack (s := z) (by simp)
  case role =>
    generalize z.putStack k _ = y
    rw [State.unit_congr (s := y.promote (chanRow k c) slot) (by simp [State.setSlotChan]), State.unit_promote_role]

/-- ZERO_FILL_DONE (R328): the channel that was filled serves. -/
theorem zeroFillDone_serves {c : Nat} (hz : z = s.at t) (hfill : c ∈ (z.stack k).fills) :
    Answers (.zeroFillDone t k c) s fun u =>
      u.getU E.CHAN_STATE (chanUnit k c) = 1 ∧ (u.stack k).fills = (z.stack k).fills.filter fun x => x != c := by
  subst hz
  exact answers_of_when rfl (List.contains_iff_mem.2 hfill)
    ⟨State.getU_setU_same _ _ _ _, congrArg Stack.fills (State.stack_of_putStack (s := s.at t) rfl)⟩

/-- STACK_HOT (R330, R331): below 105 °C the die's temperature sets refresh and background traffic alone. -/
theorem stackHot_throttles {temp : Nat} (hz : z = s.at t) (hruns : z.getU E.STACK_STATE k = 2)
    (htemp : s16 temp < 105 * 64) :
    Answers (.stackHot t k temp) s fun u =>
      u.stack k = { z.stack k with
        fastRefresh := decide (85 * 64 ≤ s16 temp), background := !decide (95 * 64 ≤ s16 temp) } := by
  subst hz
  refine answers_of_when rfl (by simp [hruns]) ?_
  rw [if_neg (Int.not_le.2 htemp)]
  exact State.stack_of_putStack (s := (s.at t).setU E.STACK_TEMP k temp) (by simp)

end

/-! ### The end of a start step (R624) -/

theorem State.get_endStep_stage (s : State) {k : Nat} (h : k < 14) : (s.endStep k).get E.START_STAGE = k + 1 := by
  unfold State.endStep
  rw [if_pos h]
  exact State.get_set_same _ _ _

/-- A step before the last ends with the next in progress, and the stage shows it. -/
theorem State.endStep_moves (s : State) {k : Nat} (h : k < 14) :
    (s.endStep k).start.step = k + 1 ∧ (s.endStep k).get E.START_STAGE = k + 1 :=
  ⟨s.endStep_step h, s.get_endStep_stage h⟩

/-- After step 14 the start is complete (R641). -/
theorem State.endStep_completes (s : State) : (s.endStep 14).start.step = 15 := rfl

/-- The port step begins an attempt and leaves the start sequence where it is (R80, R81). -/
theorem State.portBegin_begins (s : State) :
    s.portBegin.start = s.start ∧ s.portBegin.port.step = 1 ∧ s.portBegin.get E.LINK_STATE = 1 :=
  ⟨rfl, rfl, (State.get_portAttempt _).1⟩

/-- The units that a start step tests are read from the ledger. -/
theorem State.testable_congr {s t : State} (h : t.wear = s.wear) (rows : List Nat) : t.testable rows = s.testable rows := by
  unfold State.testable
  exact List.filter_congr fun r _ => by rw [State.unit_congr h]

/-! ### What the reservation of a stance leaves alone (R32, R290, R291) -/

/-- The start, the row program and the IOC. -/
def State.startRowIoc (s : State) : Start × RowP × Ioc := (s.start, s.row, s.ioc)

theorem State.giveRole_startRowIoc (s : State) (a : Nat) (isRow borrowed : Bool) :
    (s.giveRole a isRow borrowed).startRowIoc = s.startRowIoc := by
  simp [State.giveRole, State.putArr, State.startRowIoc]

theorem State.rowTo_startRowIoc (s : State) (r q : Nat) : (s.rowTo r q).startRowIoc = s.startRowIoc := by
  unfold State.rowTo
  dsimp only
  split
  next => exact foldl_eq_of_step (fun u a => u.giveRole_startRowIoc a true false) _ s.drawn
  next => exact foldl_eq_of_step (fun u a => u.giveRole_startRowIoc a false false) _ s.drawn

theorem State.refreshArrays_startRowIoc (s : State) : s.refreshArrays.startRowIoc = s.startRowIoc := by
  unfold State.refreshArrays
  dsimp only
  split <;> simp [State.startRowIoc]

theorem State.enterRest_startRowIoc (s : State) (cause : Nat) : (s.enterRest cause).startRowIoc = s.startRowIoc := by
  simp [State.startRowIoc]

theorem State.reserve_startRowIoc (s : State) (n : Nat) : (s.reserve n).startRowIoc = s.startRowIoc := by
  unfold State.reserve
  extract_lets _ noted taken made counted
  have hmade : made.startRowIoc = taken.startRowIoc := by
    refine foldl_eq_of_step (fun u r => ?_) _ taken
    dsimp only
    split
    next => exact u.rowTo_startRowIoc _ _
    next => rfl
  have hcounted : counted.startRowIoc = s.startRowIoc :=
    calc counted.startRowIoc = made.startRowIoc := made.refreshArrays_startRowIoc
      _ = taken.startRowIoc := hmade
      _ = noted.startRowIoc := foldl_eq_of_step (fun u r => u.rowTo_startRowIoc r (n / 4)) _ noted
      _ = s.startRowIoc := rfl
  split
  next => exact (counted.enterRest_startRowIoc 1).trans hcounted
  next => exact hcounted

/-- Declaring the leaks again (R575) touches the plant alone. -/
theorem State.redeclareLeaks_startRowIoc (s : State) : s.redeclareLeaks.startRowIoc = s.startRowIoc := by
  unfold State.redeclareLeaks
  extract_lets wet declared
  have hdeclared : declared.startRowIoc = s.startRowIoc := by
    refine foldl_eq_of_step (fun u b => ?_) wet s
    rfl
  exact hdeclared

/-! ### What each step that is passed leaves -/

section

variable {s : State} {t : Nat}

/-- HUB_AND_KEEPERS_BIST (R624, R636): with the hub units and 16 keepers step 4 has passed. -/
theorem hubAndKeepersBist_passes {keepersPass : List Nat} (hin : (s.at t).inStep 4 = true)
    (hpass : 16 ≤ ((((s.at t).leaveOut 15 4).testable (kindRows 15)).filter fun r =>
      keepersPass.contains (r - kindRow 15)).length) :
    Answers (.hubAndKeepersBist t true keepersPass) s fun u => u.start.step = 5 ∧ u.get E.START_STAGE = 5 := by
  refine answers_of_when rfl hin ?_
  dsimp only
  rw [if_pos (by simpa using hpass)]
  exact State.endStep_moves _ (by decide)

/-- ARRAYS_BIST (R624, R636, R637): with 64 arrays that passed, step 5 has passed. What step 5 notes of the arrays that it
leaves out is not in the ledger. -/
theorem arraysBist_passes {pass : List Nat} (hin : (s.at t).inStep 5 = true) (hgroups : s.start.groups = 18)
    (hpass : 64 ≤ ((((s.at t).skippedArrays.foldl (fun s a => s.startUnit a 2 0xFFFF true) (s.at t)).testable
      (List.range 144)).filter pass.contains).length) :
    Answers (.arraysBist t pass) s fun u => u.start.step = 6 ∧ u.get E.START_STAGE = 6 := by
  refine answers_of_when rfl (by simp [hin, hgroups]) ?_
  generalize s.at t = z at *
  extract_lets out left noted fenced marked tried good
  have hwear : marked.wear = left.wear :=
    calc marked.wear = noted.wear := rfl
      _ = left.wear := (apply_ite State.wear _ _ _).trans (ite_self _)
  have htried : tried = left.testable (List.range 144) := State.testable_congr hwear _
  have hgood : 64 ≤ good.length := by
    show 64 ≤ (tried.filter pass.contains).length
    rwa [htried]
  rw [if_neg (Nat.not_lt.2 hgood)]
  exact State.endStep_moves _ (by decide)

/-- IOC_LINK_START (R27, R624, R636): with 12 lanes step 6 has passed, and the port begins its first attempt (R80). -/
theorem iocLinkStart_passes {lanesFail : List Nat} (hin : (s.at t).inStep 6 = true)
    (hpass : 12 ≤ (let tried := ((s.at t).leaveOut 16 6).testable (kindRows 16)
      tried.filter fun r => !(tried.filter fun r => lanesFail.contains (r - kindRow 16)).contains r).length) :
    Answers (.iocLinkStart t lanesFail) s fun u => u.start.step = 7 ∧ u.port.step = 1 ∧ u.get E.LINK_STATE = 1 := by
  refine answers_of_when rfl hin ?_
  dsimp only at hpass ⊢
  rw [if_neg (Nat.not_lt.2 hpass)]
  obtain ⟨hstart, hport, hlink⟩ := State.portBegin_begins (State.endStep _ 6)
  exact ⟨(congrArg Start.step hstart).trans (State.endStep_step _ (by decide)), hport, hlink⟩

/-- STACKS_START (R338, R636): step 10 passes with whatever stacks it finds. -/
theorem stacksStart_passes {found : List StackStart} (hin : (s.at t).inStep 10 = true) :
    Answers (.stacksStart t found) s fun u => u.start.step = 11 ∧ u.get E.START_STAGE = 11 :=
  answers_of_when rfl hin (State.endStep_moves _ (by decide))

/-- IOC_UNITS_BIST (R540, R548, R624): step 13 passes with whatever ports and channels it finds. -/
theorem iocUnitsBist_passes {portsFail ainFail : List Nat} (hin : (s.at t).inStep 13 = true) :
    Answers (.iocUnitsBist t portsFail ainFail) s fun u => u.start.step = 14 ∧ u.get E.START_STAGE = 14 :=
  answers_of_when rfl hin (State.endStep_moves _ (by decide))

/-- ARM (R32, R641): the start is complete, the rest stance ends, and the row program takes the period of its stance. -/
theorem arm_completes (hin : (s.at t).inStep 14 = true) (hdue : s.wheel.tickStart ≤ (s.at t).now) :
    Answers (.arm t) s fun u =>
      u.start.step = 15 ∧ u.ioc.restFans = false ∧ u.row.period = if s.get E.STANCE = 0 then 5 else 10 := by
  refine answers_of_when rfl (by simpa [hin] using hdue) ?_
  extract_lets stance opened armed _ noted _ _ running complete
  have hleft : ((complete.reserve (reservation stance)).redeclareLeaks).startRowIoc = complete.startRowIoc :=
    (State.redeclareLeaks_startRowIoc _).trans (State.reserve_startRowIoc _ _)
  simp only [State.startRowIoc, Prod.mk.injEq] at hleft
  obtain ⟨hstart, hrow, hioc⟩ := hleft
  rw [hstart, hrow, hioc]
  refine ⟨running.endStep_completes, ?_, ?_⟩
  · simp [complete, running]
  · simp [complete, running]
    rfl

end

end Sys2Proof.Machine

namespace Sys2Proof.Proofs

open Sys2Proof Sys2Proof.Machine

/-- Settles O15, command by command. -/
theorem startTestsPass : Obligations.StartTestsPass := by
  unfold Obligations.StartTestsPass
  refine ⟨?keepers, ?arrays, ?lanes, ?stack, ?units, ?arm⟩
  case keepers => exact fun s t keepersPass hin hpass => hubAndKeepersBist_passes hin hpass
  case arrays => exact fun s t pass hin hgroups hpass => arraysBist_passes hin hgroups hpass
  case lanes => exact fun s t lanesFail hin hpass => iocLinkStart_passes hin hpass
  case stack => exact fun s t found hin => stacksStart_passes hin
  case units => exact fun s t portsFail ainFail hin => iocUnitsBist_passes hin
  case arm => exact fun s t hin hdue => arm_completes hin hdue

/-- Settles O36, command by command. -/
theorem stacksFailAndSpare : Obligations.StacksFailAndSpare := by
  unfold Obligations.StacksFailAndSpare
  refine ⟨?line, ?row, ?page, ?scrub, ?loss, ?channel, ?spare, ?fill, ?hot⟩
  case line => exact fun s z t k line hz hk hruns hline => lineUncorrectable_poisons hz hk hruns hline
  case row => exact fun s z t k bank row hz hruns hfree => rowSpare_spares hz hruns hfree
  case page => exact fun s z t k page hz hruns hfree => pageRetire_remaps hz hruns hfree
  case scrub => exact fun s z t k corrected hz hruns hdue => patrolScrubPass_marks hz hruns hdue
  case loss => exact fun s z t k hz hruns => stackLoss_empties hz hruns
  case channel =>
    intro s z t k c u hz hu hruns hlost hspare
    subst hu
    exact channelLoss_waits hz hruns hlost hspare
  case spare =>
    exact fun s z t k slot since c hz hk hc hruns hlost hsince hspare =>
      channelSpare_promotes hz hk hc hruns hlost hsince hspare
  case fill => exact fun s z t k c hz hfill => zeroFillDone_serves hz hfill
  case hot => exact fun s z t k temp hz hruns htemp => stackHot_throttles hz hruns htemp

end Sys2Proof.Proofs
end

section
/-! PROOFS. The statements of spec/11_programs.md: hinge tables (R375, R376, R378, R409, R410, R412, R413), uploads and
the loader (R358 to R361, R363, R369, R373), and the feeds, steps and publication of operator programs (R355, R364 to R367,
R374, R382). -/

namespace Sys2Proof.Machine

open Sys2Proof

/-! ### Program slots -/

theorem State.prog_congr {s t : State} (h : t.progs = s.progs) (p : Nat) : t.prog p = s.prog p := by
  unfold State.prog
  rw [h]

@[simp] theorem State.prog_putProg_same (s : State) (p : Nat) (g : Prog) : (s.putProg p g).prog p = g := by
  simp [State.prog, State.putProg, AMap.getD, AMap.get_set_same]

theorem State.prog_putProg_ne (s : State) {p q : Nat} (h : q ≠ p) (g : Prog) : (s.putProg p g).prog q = s.prog q := by
  simp [State.prog, State.putProg, AMap.getD, AMap.get_set_ne _ h]

/-- A slot that is replaced reads so past whatever leaves the slots alone. -/
theorem State.prog_of_putProg {s t : State} {p : Nat} {g : Prog} (h : t.progs = (s.putProg p g).progs) :
    t.prog p = g := (State.prog_congr h p).trans (s.prog_putProg_same p g)

/-! What leaves the slots alone. -/

@[simp] theorem State.progs_ite (c : Prop) [Decidable c] (s t : State) :
    (if c then s else t).progs = if c then s.progs else t.progs := apply_ite State.progs c s t

@[simp] theorem State.progs_when {s : State} {f : State → State} (h : (f s).progs = s.progs) (b : Bool) :
    (s.when b f).progs = s.progs := State.when_eq_of_eq (p := State.progs) h b

@[simp] theorem State.progs_foldl {β : Type} {f : State → β → State} (h : ∀ s b, (f s b).progs = s.progs) (l : List β)
    (s : State) : (l.foldl f s).progs = s.progs := foldl_eq_of_step (p := State.progs) h l s

@[simp] theorem State.refreshStore_progs (s : State) : s.refreshStore.progs = s.progs := by
  simp [State.refreshStore]

@[simp] theorem State.refreshProg_progs (s : State) (p : Nat) : (s.refreshProg p).progs = s.progs := by
  simp [State.refreshProg]

@[simp] theorem State.countBr_wheel (s : State) (k : BrCnt) : (s.countBr k).wheel = s.wheel := by
  simp [State.countBr]

@[simp] theorem State.resetHingeEntries_progs (s : State) (base : Nat) (hs : AMap Hinge) :
    (s.resetHingeEntries base hs).progs = s.progs := by
  unfold State.resetHingeEntries
  refine State.progs_foldl (fun u k => ?_) _ s
  dsimp only
  split <;> simp

@[simp] theorem restartHinges_progs (base : Nat) (hs : AMap Hinge) (s : State) :
    (restartHinges base hs s).progs = s.progs := by
  unfold restartHinges
  refine State.progs_foldl (fun u h => ?_) hs s
  dsimp only
  split <;> simp

@[simp] theorem State.refreshStore_prog (s : State) (p : Nat) : s.refreshStore.prog p = s.prog p :=
  State.prog_congr s.refreshStore_progs p

@[simp] theorem State.refreshProg_prog (s : State) (q p : Nat) : (s.refreshProg q).prog p = s.prog p :=
  State.prog_congr (s.refreshProg_progs q) p

@[simp] theorem State.answer_prog (s : State) (q : Req) (ans : Ans) (p : Nat) : (s.answer q ans).prog p = s.prog p :=
  State.prog_congr (by simp) p

/-! ### Commands about one unit of an entry -/

/-- A served command entry leaves of its unit what its row leaves, but for the reply (R112, R113). -/
theorem answers_of_cmd {c : Instr} {s a : State} {t i : Nat} {rx : Rx} {live : Bool} {P : State → Prop} {e : Ent}
    {units : Nat} {isK : Bool} {len : Option Nat} {arg : Bytes → Bool} {keyFree : State → Bool}
    {codes : Nat → Bytes → State → List Nat} {run : Nat → Bytes → State → Bytes × State}
    (hc : exec c s = .next ((s.at t).serve rx (cmdService e units isK len arg keyFree codes run)))
    (hs : (s.at t).screen rx (cmdService e units isK len arg keyFree codes run) = .run live a)
    (hi : i = (Req.parse rx).index - e.key / 256)
    (h : ∀ ans, P ((run i (Req.parse rx).value a).2.answer (Req.parse rx) ans)) : Answers c s P :=
  answers_of_run hc hs (cmdService_run ..) (hi ▸ h)

/-! ### The entries of slots and hinge tables -/

/-- Refreshing a slot writes the entries of the slot and `OPER_DEMAND` alone (R381 to R383). -/
theorem State.get_refreshProg_ne (s : State) (p : Nat) {e : Ent} (hslot : e.key < 0x420000)
    (hdemand : e.key ≠ E.OPER_DEMAND.key) : (s.refreshProg p).get e = s.get e := by
  unfold State.refreshProg
  extract_lets g st flags marked loaded
  have hmarked : marked.get e = s.get e := State.get_setU_ne _ _ _ _ _ (by simp only [E.PROG_STATE]; omega)
  rw [State.get_set_ne _ _ _ _ hdemand, ← hmarked]
  unfold loaded
  split
  next =>
    rw [State.get_setU_ne _ _ _ _ _ ?_, State.get_setU_ne _ _ _ _ _ ?_]
    all_goals simp only [E.PROG_FACTOR, E.PROG_FLAGS]; omega
  next => rfl

/-- Openings of bracket results count in entries below those of the slots (R277). -/
theorem State.getU_countBr (s : State) (k : BrCnt) (e : Ent) (u : Nat) (h : 0x420000 ≤ e.key) :
    (s.countBr k).getU e u = s.getU e u := by
  unfold State.countBr
  extract_lets n
  split
  next => rfl
  next =>
    simp only [State.add]
    rw [State.getU_set_ne _ _ _ _ _ ?_, State.getU_set_ne _ _ _ _ _ ?_, State.getU_set_ne _ _ _ _ _ ?_,
      State.getU_set_ne _ _ _ _ _ ?_, State.getU_set_ne _ _ _ _ _ ?_]
    all_goals
      simp only [E.BRK_OPENED, E.BRK_OPEN_INPUT, E.BRK_OPEN_DOMAIN, E.BRK_OPEN_MID_OVF, E.BRK_OPEN_RAD_OVF]; omega

/-! ### Hinge tables -/

/-- A hinge table stands with the tables of slot 0 and with the program slots. -/
theorem State.hinge_congr {s t : State} (hrow : t.row.hinges = s.row.hinges) (hprogs : t.progs = s.progs) (p k : Nat) :
    t.hinge p k = s.hinge p k := by
  unfold State.hinge
  rw [hrow, State.prog_congr hprogs]

theorem State.hinge_putHinge_same (s : State) (p k : Nat) (h : Hinge) : (s.putHinge p k h).hinge p k = some h := by
  unfold State.hinge State.putHinge
  split
  next => exact AMap.get_set_same _ _ _
  next => rw [State.prog_putProg_same]; exact AMap.get_set_same _ _ _

/-- A hinge table that is replaced reads so past whatever leaves the tables alone. -/
theorem State.hinge_of_putHinge {s t : State} {p k : Nat} {h : Hinge}
    (hrow : t.row.hinges = (s.putHinge p k h).row.hinges) (hprogs : t.progs = (s.putHinge p k h).progs) :
    t.hinge p k = some h := (State.hinge_congr hrow hprogs p k).trans (s.hinge_putHinge_same p k h)

theorem State.putHinge_regs (s : State) (p k : Nat) (h : Hinge) : (s.putHinge p k h).regs = s.regs := by
  unfold State.putHinge
  split <;> rfl

theorem State.putHinge_getU (s : State) (p k : Nat) (h : Hinge) (e : Ent) (u : Nat) :
    (s.putHinge p k h).getU e u = s.getU e u := State.getU_congr (s.putHinge_regs p k h) e u

theorem State.putHinge_get (s : State) (p k : Nat) (h : Hinge) (e : Ent) :
    (s.putHinge p k h).get e = s.get e := State.get_congr (s.putHinge_regs p k h) e

/-! ### What each command leaves of a hinge table (R375, R376, R378, R409, R410, R412, R413) -/

section

variable {s z : State} {t slot k i : Nat} {h : Hinge}

/-- HINGE_REBUILD_START (R375). -/
theorem hingeRebuildStart_starts (hz : z = s.at t) (hi : i = 8 * slot + k) (hh : z.hinge slot k = some h)
    (hrun : z.fwRuns = true) (hidle : z.getU E.HINGE_STATE i = 1) (hdue : h.requested = true ∨ h.nextStart ≤ z.tick)
    (hfree : ∀ x, (z.prog slot).step = some x → x.doneTick.isSome = true ∨ h.liveTick ≤ x.start) :
    Answers (.hingeRebuildStart t slot k) s fun u =>
      u.getU E.HINGE_STATE i = 2
        ∧ u.hinge slot k = some { h with requested := false, nextStart := z.tick + h.period } := by
  subst hz hi
  refine ⟨_, rfl, ?_⟩
  generalize s.at t = z at *
  simp only [hh]
  rw [State.when_of ?_]
  · exact ⟨State.getU_setU_same _ _ _ _, State.hinge_of_putHinge (s := z) rfl rfl⟩
  · cases hstep : (z.prog slot).step with
    | none => simp [hrun, hidle, hdue]
    | some x =>
      rcases hfree x hstep with hdone | hlive
      · obtain ⟨d, hd⟩ := Option.isSome_iff_exists.1 hdone
        simp [hrun, hidle, hdue, hd]
      · simp [hrun, hidle, hdue, Nat.not_lt.2 hlive]

/-- HINGE_REBUILD (R375): the request is held. -/
theorem hingeRebuild_requests {a : State} {rx : Rx} {live : Bool}
    (hs : (s.at t).screen rx hingeRebuildService = .run live a)
    (hi : i = (Req.parse rx).index - E.HINGE_REBUILD.key / 256) (hh : a.hinge (i / 8) (i % 8) = some h) :
    Answers (.hingeRebuild t rx) s fun u => u.hinge (i / 8) (i % 8) = some { h with requested := true } := by
  refine answers_of_cmd rfl hs hi fun ans => ?_
  simp only [hh]
  exact State.hinge_of_putHinge (s := a) (by simp) (by simp)

/-- HINGE_PRELOAD_DONE (R376): the table awaits its swap. -/
theorem hingePreloadDone_awaitsSwap (hz : z = s.at t) (hi : i = 8 * slot + k) (hh : z.hinge slot k = some h)
    (hpreload : z.getU E.HINGE_STATE i = 3) :
    Answers (.hingePreloadDone t slot k) s fun u =>
      u.getU E.HINGE_STATE i = 4 ∧ u.hinge slot k = some { h with swapFrom := z.tick } := by
  subst hz hi
  refine ⟨_, rfl, ?_⟩
  generalize s.at t = z at *
  simp only [hh]
  rw [State.when_of (by simp [hpreload])]
  exact ⟨State.getU_setU_same _ _ _ _, State.hinge_of_putHinge (s := z) rfl rfl⟩

/-- HINGE_STALE (R378): the episode is marked. -/
theorem hingeStale_marks (hz : z = s.at t) (hh : z.hinge slot k = some h)
    (hlive : z.getU E.HINGE_STATE (8 * slot + k) ≠ 0) (hfresh : h.staleSeen = false)
    (hage : h.staleLimit < z.tick - h.liveTick) :
    Answers (.hingeStale t slot k) s fun u => u.hinge slot k = some { h with staleSeen := true } := by
  subst hz
  refine ⟨_, rfl, ?_⟩
  generalize s.at t = z at *
  simp only [hh]
  rw [State.when_of (by simp [hlive, hfresh, hage])]
  exact State.hinge_of_putHinge (s := z) (by simp) (by simp)

/-- A passed rebuild of a `RESIDENT` table is preloaded, and the tick of the pass is kept for its swap (R376). -/
theorem State.hingePass_preloads (s : State) (slot k : Nat) {h : Hinge} (hres : h.resident = true) :
    (s.hingePass slot k h).getU E.HINGE_STATE (8 * slot + k) = 3
      ∧ (s.hingePass slot k h).hinge slot k = some { h with swapFrom := s.tick } := by
  unfold State.hingePass
  rw [if_pos hres]
  exact ⟨State.getU_setU_same _ _ _ _, State.hinge_of_putHinge (s := s) rfl rfl⟩

/-- A failed rebuild is counted, and the table stands as it was (R376). -/
theorem State.hingeFail_counts (s : State) (slot : Nat) {k : Nat} (hu : 8 * slot + k < 256) :
    (s.hingeFail slot k).getU E.HINGE_STATE (8 * slot + k) = 1
      ∧ (s.hingeFail slot k).get E.HINGE_FAILS_ALL = (s.get E.HINGE_FAILS_ALL + 1) % 2 ^ 64
      ∧ (s.hingeFail slot k).hinge slot k = s.hinge slot k := by
  unfold State.hingeFail
  extract_lets u
  refine ⟨?state, ?count, State.hinge_congr (by simp) (by simp) slot k⟩
  case state =>
    rw [State.getU_latch_ne _ _ _ _ _ _ (notMem_logKeys_of_lt ?_) ?_, State.getU_inc_ne _ _ _ _ ?_,
      State.getU_incU_ne _ _ _ _ _ ?_, State.getU_setU_same]
    all_goals simp only [E.HINGE_STATE, E.LOADER_LATCHES, E.HINGE_FAILS_ALL, E.HINGE_FAILS]; omega
  case count =>
    rw [State.get_latch_ne _ _ _ _ _ (by decide) (by decide), State.get_inc_same, State.get_incU_ne _ _ _ _ ?_,
      State.get_setU_ne _ _ _ _ _ ?_]
    all_goals simp only [E.HINGE_FAILS_ALL, E.HINGE_FAILS, E.HINGE_STATE]; omega

/-- The state in which a rebuild of slot 0 has ended: its refit has its number, and the replay has been drawn (R412). -/
def State.refitted (s : State) : State := { s.drawn with row := { s.row with refits := s.row.refits + 1 } }

/-- The refit is sound and its replay gives no more misses (R412). -/
def State.refitPasses (s : State) (k : Nat) : Bool :=
  (s.refitClasses k).all (fun c => s.refitSound (s.row.refits + 1) c) && s.freeVal % 2 == 1

theorem State.validateRow_of_pass {s : State} {k : Nat} (hpass : s.refitPasses k = true) (h : Hinge) :
    ∃ v0 v1, s.validateRow k h = s.refitted.hingePass 0 k { h with ver0 := v0, ver1 := v1 } := by
  unfold State.validateRow
  extract_lets v cs live old new replay _ _ noted
  rw [if_pos (show (cs.all (noted.refitSound v) && replay) = true from hpass)]
  split
  next => exact ⟨h.ver0, new, rfl⟩
  next => exact ⟨new, h.ver1, rfl⟩

theorem State.validateRow_of_fail {s : State} {k : Nat} (hfail : s.refitPasses k = false) (h : Hinge) :
    s.validateRow k h = s.refitted.hingeFail 0 k := by
  unfold State.validateRow
  extract_lets v cs live old new replay _ _ noted
  rw [if_neg (show ¬ (cs.all (noted.refitSound v) && replay) = true from Bool.not_eq_true _ ▸ hfail)]
  rfl

/-- HINGE_VALIDATE of a table of slot 0 (R376, R412). -/
theorem hingeValidate_judges (hz : z = s.at t) (hk : k < 8) (hh : z.hinge 0 k = some h)
    (hstate : z.getU E.HINGE_STATE k = 2) :
    Answers (.hingeValidate t 0 k) s fun u =>
      (z.refitPasses k = true → h.resident = true →
        u.getU E.HINGE_STATE k = 3 ∧ u.row.refits = z.row.refits + 1
          ∧ Option.map Hinge.swapFrom (u.hinge 0 k) = some z.tick) ∧
      (z.refitPasses k = false →
        u.getU E.HINGE_STATE k = 1 ∧ u.get E.HINGE_FAILS_ALL = (z.get E.HINGE_FAILS_ALL + 1) % 2 ^ 64
          ∧ u.hinge 0 k = some h) := by
  subst hz
  refine ⟨_, rfl, ?_⟩
  generalize s.at t = z at *
  simp only [hh, if_true]
  rw [State.when_of (by simp [hstate])]
  refine ⟨fun hpass hres => ?passes, fun hfail => ?fails⟩
  case passes =>
    obtain ⟨v0, v1, hrow⟩ := State.validateRow_of_pass hpass h
    obtain ⟨hpreload, htable⟩ :=
      z.refitted.hingePass_preloads 0 k (h := { h with ver0 := v0, ver1 := v1 }) hres
    rw [hrow, htable]
    refine ⟨by simpa using hpreload, rfl, rfl⟩
  case fails =>
    rw [State.validateRow_of_fail hfail h]
    obtain ⟨hone, hcount, htable⟩ := z.refitted.hingeFail_counts 0 (k := k) (by omega)
    exact ⟨by simpa using hone, hcount, htable.trans hh⟩

/-- HINGE_SWAP of an operator program's table (R376). -/
theorem hingeSwap_swaps (hz : z = s.at t) (hslot : slot ≠ 0) (hi : i = 8 * slot + k) (hh : z.hinge slot k = some h)
    (hstate : z.getU E.HINGE_STATE i = 4) (hfrom : h.swapFrom < z.tick) :
    Answers (.hingeSwap t slot k) s fun u =>
      u.getU E.HINGE_STATE i = 1 ∧ u.getU E.HINGE_LIVE_LEAF i = 1 - z.getU E.HINGE_LIVE_LEAF i
        ∧ u.get E.HINGE_SWAPS_ALL = (z.get E.HINGE_SWAPS_ALL + 1) % 2 ^ 64
        ∧ u.hinge slot k = some { h with liveTick := z.tick, staleSeen := false } := by
  subst hz hi
  refine ⟨_, rfl, ?_⟩
  generalize s.at t = z at *
  simp only [hh]
  rw [State.when_of (by simp [hstate, hfrom]), if_neg hslot]
  refine ⟨?state, ?leaf, ?count, State.hinge_of_putHinge (s := z) rfl rfl⟩
  case state =>
    rw [State.getU_inc_ne _ _ _ _ ?_, State.getU_incU_ne _ _ _ _ _ ?_, State.getU_setU_same]
    all_goals simp only [E.HINGE_STATE, E.HINGE_SWAPS_ALL, E.HINGE_SWAPS]; omega
  case leaf =>
    rw [State.getU_inc_ne _ _ _ _ ?_, State.getU_incU_ne _ _ _ _ _ ?_, State.getU_setU_ne _ _ _ _ _ _ ?_,
      State.getU_setU_same, State.putHinge_getU]
    all_goals simp only [E.HINGE_STATE, E.HINGE_SWAPS_ALL, E.HINGE_SWAPS, E.HINGE_LIVE_LEAF]; omega
  case count =>
    rw [State.get_inc_same, State.get_incU_ne _ _ _ _ ?_, State.get_setU_ne _ _ _ _ _ ?_,
      State.get_setU_ne _ _ _ _ _ ?_, State.putHinge_get]
    all_goals simp only [E.HINGE_STATE, E.HINGE_SWAPS_ALL, E.HINGE_SWAPS, E.HINGE_LIVE_LEAF]; omega

end

/-! ### What stands of the slots while the loader places programs again (R369, R372) -/

/-- In a store in order an entry is what its key reads. -/
theorem AMap.get_of_mem {α : Type} {m : AMap α} (h : AMap.wf m = true) {k : Nat} {v : α} (hm : (k, v) ∈ m) :
    AMap.get m k = some v := by
  rw [AMap.wf_iff] at h
  induction m with
  | nil => cases hm
  | cons p m ih =>
    obtain ⟨j, w⟩ := p
    obtain ⟨first, rising⟩ := List.pairwise_cons.1 h
    rcases List.mem_cons.1 hm with here | there
    · cases here
      exact if_pos rfl
    · exact (if_neg (Nat.ne_of_lt (first _ there))).trans (ih rising there)

/-- The choice with the largest key is one of the list. -/
theorem mem_of_maxBy {α : Type} {key : α → Nat} {l : List α} {x : α} (h : maxBy key l = some x) : x ∈ l := by
  induction l with
  | nil => cases h
  | cons y l ih =>
    unfold maxBy at h
    split at h
    next => exact Option.some.inj h ▸ List.mem_cons_self
    next z hz =>
      split at h
      next => exact Option.some.inj h ▸ List.mem_cons_self
      next => exact List.mem_cons_of_mem _ (ih (hz.trans h))

/-- With the slots in order a loaded program is the one its slot holds. -/
theorem State.prog_of_mem_loadedProgs {s : State} (h : AMap.wf s.progs = true) {q : Nat × Prog}
    (hq : q ∈ s.loadedProgs) : s.prog q.1 = q.2 := by
  rw [State.prog, AMap.getD, AMap.get_of_mem h (List.mem_filter.1 hq).1]
  rfl

/-- What a slot is loaded with, what waits to be installed in it, and whether it is to stop. -/
def Prog.load (g : Prog) : Bytes × Bool × Nat × Option Install × Option Nat :=
  (g.form, g.loaded, g.loadFactor, g.install, g.stopFrom)

/-- The slots are in order, and each is loaded as it was. -/
structure LoadsStand (s t : State) : Prop where
  wf : AMap.wf t.progs = true
  load : ∀ p, (t.prog p).load = (s.prog p).load

theorem LoadsStand.refl {s : State} (h : AMap.wf s.progs = true) : LoadsStand s s := ⟨h, fun _ => rfl⟩

theorem LoadsStand.congr {s t u : State} (h : LoadsStand s t) (hu : u.progs = t.progs) : LoadsStand s u :=
  ⟨hu ▸ h.wf, fun p => (congrArg Prog.load (State.prog_congr hu p)).trans (h.load p)⟩

theorem LoadsStand.putProg {s t : State} (h : LoadsStand s t) {p : Nat} {g : Prog} (hg : g.load = (s.prog p).load) :
    LoadsStand s (t.putProg p g) := by
  refine ⟨AMap.wf_set h.wf p g, fun q => ?_⟩
  by_cases hq : q = p
  · subst hq
    rw [State.prog_putProg_same, hg]
  · rw [State.prog_putProg_ne t hq, h.load]

theorem LoadsStand.when {s t : State} {f : State → State} (h : LoadsStand s t) (hf : LoadsStand s (f t)) (b : Bool) :
    LoadsStand s (t.when b f) := by
  cases b
  · exact h
  · exact hf

theorem LoadsStand.foldl {β : Type} {s t : State} {f : State → β → State} (h : LoadsStand s t) (l : List β)
    (hf : ∀ u, LoadsStand s u → ∀ b ∈ l, LoadsStand s (f u b)) : LoadsStand s (l.foldl f t) :=
  List.foldlRecOn (motive := LoadsStand s) l f h hf

/-- A loaded program is loaded as its slot was. -/
theorem LoadsStand.loaded {s t : State} (h : LoadsStand s t) {q : Nat × Prog} (hq : q ∈ t.loadedProgs) :
    q.2.load = (s.prog q.1).load := by
  rw [← State.prog_of_mem_loadedProgs h.wf hq, h.load]

/-- Raising factors and suspending programs (R369). -/
theorem LoadsStand.fitLoop {s t : State} (h : LoadsStand s t) (n : Nat) : LoadsStand s (t.fitLoop n) := by
  induction n generalizing t with
  | zero => exact h
  | succ n ih =>
    unfold State.fitLoop
    dsimp only
    split
    next => exact h
    next =>
      split
      next p g hmax =>
        exact ih (h.putProg (h.loaded (List.mem_filter.1 (List.mem_filter.1 (mem_of_maxBy hmax)).1).1))
      next =>
        split
        next p g hmax => exact ih (h.putProg (h.loaded (List.mem_filter.1 (mem_of_maxBy hmax)).1))
        next => exact h

theorem LoadsStand.loseStep {s t : State} (h : LoadsStand s t) (p : Nat) : LoadsStand s (t.loseStep p) := by
  unfold State.loseStep
  dsimp only
  split
  next =>
    split
    next => exact h
    next => exact (h.putProg (g := { t.prog p with step := none }) (h.load p)).congr rfl
  next => exact h

/-- The loader places programs again: none is loaded, replaced or stopped by it (R369, R372, R379). -/
theorem LoadsStand.replace {s t : State} (h : LoadsStand s t) : LoadsStand s t.replace := by
  unfold State.replace
  extract_lets before counted factored fitted raised placed
  have hcounted : LoadsStand s counted := h.congr rfl
  have hfactored : LoadsStand s factored :=
    hcounted.foldl _ fun u hu q hq => hu.putProg (hcounted.loaded hq)
  have hplaced : LoadsStand s placed := by
    refine (hfactored.fitLoop 160).foldl _ fun u hu q _ => ?_
    refine LoadsStand.congr ?_ (State.refreshProg_progs _ _)
    have hlatched : LoadsStand s (State.when u.drawn (q.2.suspendFit && !(AMap.getD before q.1 {}).suspendFit)
        fun s => s.latch E.LOADER_LATCHES 3 (progKey q.1)) := hu.congr (by simp)
    exact hlatched.when ((hlatched.loseStep q.1).congr (restartHinges_progs _ _ _)) _
  exact hplaced.when (hplaced.congr (by simp)) _

/-- A slot that was replaced is loaded so after the loader has placed the programs again. -/
theorem State.load_replace_of_putProg {s t : State} {p : Nat} {g : Prog} (hwf : AMap.wf s.progs = true)
    (h : t.progs = (s.putProg p g).progs) : (t.replace.prog p).load = g.load := by
  have ordered : AMap.wf t.progs = true := by
    rw [h]
    exact AMap.wf_set hwf p g
  rw [(LoadsStand.refl ordered).replace.load, State.prog_of_putProg h]

/-- A program that leaves its slot leaves it unloaded, with nothing to stop (R361). -/
theorem State.unloadProg_progs (s : State) (p result : Nat) :
    ∃ g, (s.unloadProg p result).progs = (s.putProg p g).progs ∧ g.loaded = false ∧ g.stopFrom = none := by
  unfold State.unloadProg
  extract_lets g back g' _ shown cleared reset marked st
  refine ⟨g', ?_, rfl, rfl⟩
  simp [marked, reset, cleared, shown, State.putProg]

/-! ### Program uploads and the loader: what each command leaves (R358 to R361, R363, R369, R373) -/

section

variable {s a z : State} {t slot i : Nat} {rx : Rx} {live : Bool}

/-- A program upload leaves of its slot what its `UP_OP` leaves, but for the reply (R358). -/
theorem answers_of_progUpload {c : Instr} {P : State → Prop} {arg : Bytes → Bool}
    {codes : Nat → Bytes → State → List Nat} {run : Nat → Bytes → State → State}
    (hc : exec c s = .next ((s.at t).serve rx (progUpload arg codes run)))
    (hs : (s.at t).screen rx (progUpload arg codes run) = .run live a)
    (hi : i = (Req.parse rx).index - E.PROG_UPLOAD.key / 256)
    (h : ∀ ans, P ((run i (Req.parse rx).value a).answer (Req.parse rx) ans)) : Answers c s P :=
  answers_of_cmd hc hs hi h

/-- PROG_UPLOAD BEGIN (R358): staging begins empty, for the length given. -/
theorem progUploadBegin_stages (hs : (s.at t).screen rx progUploadBeginService = .run live a)
    (hi : i = (Req.parse rx).index - E.PROG_UPLOAD.key / 256) :
    Answers (.progUploadBegin t rx) s fun u =>
      (u.prog i).staging = some { length := upOffset (Req.parse rx).value, bytes := [] } :=
  answers_of_progUpload rfl hs hi fun ans => by simp

/-- PROG_UPLOAD CHUNK (R358): the bytes are staged behind those before. -/
theorem progUploadChunk_appends (hs : (s.at t).screen rx progUploadChunkService = .run live a)
    (hi : i = (Req.parse rx).index - E.PROG_UPLOAD.key / 256) :
    Answers (.progUploadChunk t rx) s fun u =>
      u.prog i = { a.prog i with staging := (a.prog i).staging.map fun x =>
        { x with bytes := x.bytes ++ (Req.parse rx).value.drop 8 } } :=
  answers_of_progUpload rfl hs hi fun ans => by simp

/-- PROG_UPLOAD COMMIT (R359): the loader starts on the staged form. -/
theorem progUploadCommit_fits {x : Staging} (hs : (s.at t).screen rx progUploadCommitService = .run live a)
    (hi : i = (Req.parse rx).index - E.PROG_UPLOAD.key / 256) (hx : (a.prog i).staging = some x) :
    Answers (.progUploadCommit t rx) s fun u =>
      u.prog i = { a.prog i with
        staging := none, fitting := some (if x.bytes.length = x.length then x.bytes else []) } := by
  refine answers_of_progUpload rfl hs hi fun ans => ?_
  simp [hx]

/-- PROG_UPLOAD UNLOAD (R361): the program is to stop. -/
theorem progUploadUnload_stops (hs : (s.at t).screen rx progUploadUnloadService = .run live a)
    (hi : i = (Req.parse rx).index - E.PROG_UPLOAD.key / 256) :
    Answers (.progUploadUnload t rx) s fun u => u.prog i = { a.prog i with stopFrom := some a.tick } :=
  answers_of_progUpload rfl hs hi fun ans => by simp

/-- The loader refuses a form (R359): the slot stays as it was, and the refusal is counted. -/
theorem progFitComplete_refuses {v lf : Nat} {f : Bytes} (hz : z = s.at t) (hf : (z.prog slot).fitting = some f)
    (hfit : z.fitForm slot f = (v, lf)) (hv : v ≠ 0) :
    Answers (.progFitComplete t slot) s fun u =>
      u.prog slot = { z.prog slot with fitting := none }
        ∧ u.get E.PROG_REFUSALS = (z.get E.PROG_REFUSALS + 1) % 2 ^ 64 := by
  subst hz
  refine ⟨_, rfl, ?_⟩
  generalize s.at t = z at *
  simp only [hf, hfit]
  rw [if_pos hv]
  refine ⟨State.prog_of_putProg (s := z) ?slot, ?count⟩
  case slot => simp [State.putProg]
  case count =>
    rw [State.get_refreshProg_ne _ _ (by decide) (by decide), State.refreshStore,
      State.get_set_ne _ _ _ _ (by decide), State.get_latch_ne _ _ _ _ _ (by decide) (by decide), State.get_inc_same]
    refine congrArg (fun n => (n + 1) % 2 ^ 64) (State.get_setU_ne z _ _ _ _ ?_)
    simp only [E.PROG_REFUSALS, E.PROG_RESULT]; omega

/-- The loader accepts a form (R360, R363): it waits for its placement and preload. -/
theorem progFitComplete_accepts {lf : Nat} {f : Bytes} (hz : z = s.at t) (hf : (z.prog slot).fitting = some f)
    (hfit : z.fitForm slot f = (0, lf)) :
    Answers (.progFitComplete t slot) s fun u =>
      u.prog slot = { z.prog slot with
        fitting := none
        install := some { form := f, factor := lf, demand := formDemand f z.ticksPerTurn, store := formStorage f
                          from_ := z.tick } } := by
  subst hz
  refine ⟨_, rfl, ?_⟩
  generalize s.at t = z at *
  have hticks : (z.setU E.PROG_RESULT slot 0).ticksPerTurn = z.ticksPerTurn :=
    State.get_setU_ne z _ _ _ _ (by simp only [E.WHEEL_TICKS_ACTIVE, E.PROG_RESULT]; omega)
  simp only [hf, hfit]
  rw [if_neg (not_not_intro rfl), hticks]
  exact State.prog_of_putProg (s := z) (by simp [State.putProg, State.tick])

/-- PROG_INSTALL (R360): the form that waits replaces what the slot held. -/
theorem progInstall_installs {x : Install} (hz : z = s.at t) (hwf : AMap.wf z.progs = true)
    (hx : (z.prog slot).install = some x) (hfrom : x.from_ < z.tick) :
    Answers (.progInstall t slot) s fun u =>
      (u.prog slot).form = x.form ∧ (u.prog slot).loaded = true ∧ (u.prog slot).install = none
        ∧ (u.prog slot).loadFactor = x.factor := by
  subst hz
  refine ⟨_, rfl, ?_⟩
  generalize s.at t = z at *
  simp -zeta only [hx]
  rw [State.when_of (by simpa using hfrom)]
  extract_lets f period outs room g' phase put shown demanded counted cleared reset
  have hprogs : ((reset.inc E.PROG_LOADS).refreshStore.refreshProg slot).progs = (z.putProg slot g').progs := by
    simp [reset, cleared, counted, demanded, shown, put, State.putProg]
  have hload := State.load_replace_of_putProg hwf hprogs
  simp only [Prog.load, Prod.mk.injEq] at hload
  obtain ⟨hform, hloaded, hfactor, hinstall, -⟩ := hload
  exact ⟨hform, hloaded, hinstall, hfactor⟩

/-- PROG_STOP (R361): the slot holds no loaded program, and none is to stop. -/
theorem progStop_stops {x : Nat} (hz : z = s.at t) (hwf : AMap.wf z.progs = true)
    (hx : (z.prog slot).stopFrom = some x) (hdue : x < z.tick) :
    Answers (.progStop t slot) s fun u => (u.prog slot).loaded = false ∧ (u.prog slot).stopFrom = none := by
  subst hz
  refine ⟨_, rfl, ?_⟩
  generalize s.at t = z at *
  simp -zeta only [hx]
  rw [State.when_of (by simpa using hdue)]
  split
  next =>
    extract_lets left
    obtain ⟨g, hleft, hloaded, hstop⟩ := z.unloadProg_progs slot (z.getU E.PROG_RESULT slot)
    have hprogs : ((left.refreshProg slot).set E.OPER_DEMAND (left.operDemand 16)).progs
        = (z.putProg slot g).progs := by
      simpa using hleft
    have hload := State.load_replace_of_putProg hwf hprogs
    simp only [Prog.load, Prod.mk.injEq] at hload
    obtain ⟨-, hloaded', -, -, hstop'⟩ := hload
    exact ⟨hloaded'.trans hloaded, hstop'.trans hstop⟩
  next hunloaded =>
    rw [State.prog_putProg_same]
    exact ⟨Bool.eq_false_iff.2 hunloaded, rfl⟩

/-- PROG_STORAGE_MOVE_DONE (R373): the move has ended. -/
theorem progStorageMoveDone_ends (hz : z = s.at t) (hmoving : (z.prog slot).moving = true) :
    Answers (.progStorageMoveDone t slot) s fun u => u.prog slot = { z.prog slot with moving := false } := by
  subst hz
  exact answers_of_when rfl hmoving (State.prog_of_putProg (s := s.at t) (State.refreshProg_progs _ _))

end

/-! ### Feeds, steps and publication: what each command leaves (R355, R364 to R367, R374, R382) -/

/-- A step that is published ends, and the tick of the publication is shown (R366, R382). -/
theorem State.publish_ends (s : State) (p : Nat) (x : Step) :
    ((s.publish p x).prog p).step = none ∧ (s.publish p x).getU E.PROG_LAST_PUBLISH p = s.tick := by
  unfold State.publish
  extract_lets g ts total
  split
  next outs probe k _ =>
  extract_lets put shown
  have hput : put.tick = s.tick := congrArg Wheel.tick (s.countBr_wheel k)
  have hshown : shown.getU E.PROG_LAST_PUBLISH p = s.tick := (State.getU_setU_same _ _ _ _).trans hput
  split
  next v =>
    refine ⟨congrArg Prog.step (State.prog_of_putProg (s := s.countBr k) rfl), ?_⟩
    rw [State.getU_setU_ne _ _ _ _ _ _ ?_, hshown]
    simp only [E.PROG_LAST_PUBLISH, E.PROG_PROBE]; omega
  next => exact ⟨congrArg Prog.step (State.prog_of_putProg (s := s.countBr k) rfl), hshown⟩

/-- A step that completes is counted (R366, R382). -/
theorem State.prog_stepDone (s : State) (k : BrCnt) (p : Nat) (g : Prog) :
    (((s.countBr k).drawn.putProg p g).incU E.PROG_STEPS p).prog p = g
      ∧ (((s.countBr k).drawn.putProg p g).incU E.PROG_STEPS p).getU E.PROG_STEPS p
        = (s.getU E.PROG_STEPS p + 1) % 2 ^ 64 := by
  refine ⟨State.prog_of_putProg (s := (s.countBr k).drawn) rfl, (State.getU_incU_same _ _ _).trans ?_⟩
  exact congrArg (fun n => (n + 1) % 2 ^ 64) (s.getU_countBr k E.PROG_STEPS p (by decide))

/-- What a step that read poison counts beside (R285) leaves the slots and the count of steps alone. -/
theorem State.when_stepPoisoned (s : State) (b : Bool) {p : Nat} (hp : p < 16) :
    (s.when b fun s => ((s.add E.BRK_OPENED 0).incU E.PROG_POISON_STEPS p).latch E.LOADER_LATCHES 7 (progKey p)).prog p
        = s.prog p
      ∧ (s.when b fun s => ((s.add E.BRK_OPENED 0).incU E.PROG_POISON_STEPS p).latch E.LOADER_LATCHES 7
        (progKey p)).getU E.PROG_STEPS p = s.getU E.PROG_STEPS p := by
  refine ⟨State.prog_congr (State.progs_when (by simp) b) p,
    State.when_eq_of_eq (p := fun u => u.getU E.PROG_STEPS p) ?_ b⟩
  rw [State.getU_latch_ne _ _ _ _ _ _ (notMem_logKeys_of_lt ?_) ?_, State.getU_incU_ne _ _ _ _ _ ?_, State.add,
    State.getU_set_ne _ _ _ _ _ ?_]
  all_goals simp only [E.PROG_STEPS, E.LOADER_LATCHES, E.PROG_POISON_STEPS, E.BRK_OPENED]; omega

section

variable {s a z : State} {t slot i : Nat} {rx : Rx} {live : Bool}

/-- PROG_FEED (R365): the feed waits for the next tick. -/
theorem progFeed_queues {b : Bytes} (hs : (s.at t).screen rx progFeedService = .run live a)
    (hi : i = (Req.parse rx).index - E.PROG_FEED.key / 256) (hb : b = (Req.parse rx).value) :
    Answers (.progFeed t rx) s fun u =>
      u.prog i = { a.prog i with
        feeds := (a.prog i).feeds ++ [(a.tick + 1, field b 4 4, readElems b 8 4 (field b 0 2))] } := by
  subst hb
  exact answers_of_cmd rfl hs hi fun ans => by simp

/-- PROG_FEED_APPLY (R365) of one feed at position 0. -/
theorem progFeedApply_enters {first : Nat} {vals : List Nat} (hz : z = s.at t)
    (hfeeds : (z.prog slot).feeds = [(first, 0, vals)]) (hdue : first ≤ z.tick) :
    Answers (.progFeedApply t slot) s fun u =>
      u.prog slot = { z.prog slot with
        feed := (vals.mapIdx fun i v => (i, v)).foldl (fun m p => AMap.put m p.1 p.2 0) (z.prog slot).feed
        feeds := [] } := by
  subst hz
  refine answers_of_when rfl (by simp [hfeeds, hdue]) (State.prog_of_putProg (s := s.at t) ?_)
  simp [hfeeds, hdue]

/-- PROG_PUBLISH (R366): a step that completed in an earlier tick is published. -/
theorem progPublish_publishes {d : Nat} {x : Step} (hz : z = s.at t) (hx : (z.prog slot).step = some x)
    (hdone : x.doneTick = some d) (hearlier : d < z.tick) :
    Answers (.progPublish t slot) s fun u =>
      (u.prog slot).step = none ∧ u.getU E.PROG_LAST_PUBLISH slot = z.tick := by
  subst hz
  refine ⟨_, rfl, ?_⟩
  generalize s.at t = z at *
  simp only [hx, hdone]
  rw [State.when_of (by simpa using hearlier)]
  exact z.publish_ends slot x

/-- PROG_STEP_START (R355, R367): a due start takes the inputs and leaves of its tick. -/
theorem progStepStart_starts {cycle : Nat} (hz : z = s.at t) (hloaded : (z.prog slot).loaded = true)
    (hruns : (z.prog slot).suspended = false) (hfree : (z.prog slot).step = none)
    (hnew : (z.prog slot).lastStart ≠ some z.tick)
    (hcycle : cycle = max 1 (formPeriod (z.prog slot).form * z.totalFactor (z.prog slot)))
    (hdue : (z.tick + cycle * 65536 - z.getU E.PROG_PHASE slot) % cycle = 0) :
    Answers (.progStepStart t slot) s fun u =>
      ∃ e, u.prog slot = { z.prog slot with lastStart := some z.tick, step := some { start := z.tick, tensors := e } } := by
  subst hz hcycle
  refine ⟨_, rfl, ?_⟩
  generalize s.at t = z at *
  simp only [hfree]
  rw [State.when_of (by simp [hloaded, hruns, hnew, hdue])]
  exact ⟨_, State.prog_putProg_same _ _ _⟩

/-- PROG_STEP_COMPLETE (R366, R374). -/
theorem progStepComplete_completes {x : Step} {poison : List (Nat × Nat)} (hz : z = s.at t) (hslot : slot < 16)
    (hx : (z.prog slot).step = some x) (hruns : x.doneTick = none) (hclamp : z.fabric.clampTick ≠ some z.tick) :
    Answers (.progStepComplete t slot poison) s fun u =>
      ∃ y, (u.prog slot).step = some y ∧ y.doneTick = some z.tick ∧ y.start = x.start ∧ (y.poisoned = !poison.isEmpty)
        ∧ u.getU E.PROG_STEPS slot = (z.getU E.PROG_STEPS slot + 1) % 2 ^ 64 := by
  subst hz
  refine ⟨_, rfl, ?_⟩
  generalize s.at t = z at *
  simp -zeta only [hx]
  rw [State.when_of (by simp [hruns, hclamp])]
  extract_lets ts width zap g states results poisoned y done
  have hdone : done.prog slot = { g with states := states, step := some y }
      ∧ done.getU E.PROG_STEPS slot = (z.getU E.PROG_STEPS slot + 1) % 2 ^ 64 := z.prog_stepDone _ slot _
  obtain ⟨hprog, hcount⟩ := hdone
  obtain ⟨hprog', hcount'⟩ := State.when_stepPoisoned done poisoned hslot
  exact ⟨y, by rw [hprog', hprog], rfl, rfl, rfl, hcount'.trans hcount⟩

end

end Sys2Proof.Machine

namespace Sys2Proof.Proofs

open Sys2Proof Sys2Proof.Machine

/-- Settles O32, command by command. -/
theorem hingesTurn : Obligations.HingesTurn := by
  unfold Obligations.HingesTurn
  refine ⟨?start, ?request, ?preload, ?stale, ?validate, ?swap⟩
  case start =>
    exact fun s z t slot k i h hz hi hh hrun hidle hdue hfree =>
      hingeRebuildStart_starts hz hi hh hrun hidle hdue hfree
  case request => exact fun s a t i rx live h hs hi hh => hingeRebuild_requests hs hi hh
  case preload => exact fun s z t slot k i h hz hi hh hstate => hingePreloadDone_awaitsSwap hz hi hh hstate
  case stale => exact fun s z t slot k h hz hh hlive hfresh hage => hingeStale_marks hz hh hlive hfresh hage
  case validate =>
    intro s z t k h cs hz hk hh hstate hcs
    subst hcs
    obtain ⟨u, hu, passes, fails⟩ := hingeValidate_judges hz hk hh hstate
    refine ⟨u, hu, fun hsound hreplay => passes ?_, fun hbad => fails ?_⟩
    · simp [State.refitPasses, hsound, hreplay]
    · rcases hbad with hunsound | hreplay
      · simp [State.refitPasses, hunsound]
      · simp [State.refitPasses, hreplay]
  case swap =>
    exact fun s z t slot k i h hz hslot hi hh hstate hfrom => hingeSwap_swaps hz hslot hi hh hstate hfrom

/-- Settles O33, command by command. -/
theorem loaderServes : Obligations.LoaderServes := by
  unfold Obligations.LoaderServes
  refine ⟨?begin, ?chunk, ?commit, ?unload, ?fit, ?install, ?stop, ?move⟩
  case begin => exact fun s a t i rx live hs hi => progUploadBegin_stages hs hi
  case chunk => exact fun s a t i rx live hs hi => progUploadChunk_appends hs hi
  case commit => exact fun s a t i rx live x hs hi hx => progUploadCommit_fits hs hi hx
  case unload => exact fun s a t i rx live hs hi => progUploadUnload_stops hs hi
  case fit =>
    intro s z t slot v lf f hz hf hfit
    by_cases hv : v = 0
    · subst hv
      obtain ⟨u, hu, accepted⟩ := progFitComplete_accepts hz hf hfit
      exact ⟨u, hu, fun h => absurd rfl h, fun _ => accepted⟩
    · obtain ⟨u, hu, refused⟩ := progFitComplete_refuses hz hf hfit hv
      exact ⟨u, hu, fun _ => refused, fun h => absurd h hv⟩
  case install => exact fun s z t slot x hz hwf hx hfrom => progInstall_installs hz hwf hx hfrom
  case stop => exact fun s z t slot x hz hwf hx hdue => progStop_stops hz hwf hx hdue
  case move => exact fun s z t slot hz hmoving => progStorageMoveDone_ends hz hmoving

/-- Settles O34, command by command. -/
theorem programsRun : Obligations.ProgramsRun := by
  unfold Obligations.ProgramsRun
  refine ⟨?feed, ?apply, ?publish, ?start, ?complete⟩
  case feed => exact fun s a t i rx live b hs hi hb => progFeed_queues hs hi hb
  case apply => exact fun s z t slot first vals hz hfeeds hdue => progFeedApply_enters hz hfeeds hdue
  case publish => exact fun s z t slot d x hz _ hx hdone hearlier => progPublish_publishes hz hx hdone hearlier
  case start =>
    exact fun s z t slot cycle hz hloaded hruns hfree hnew hcycle hdue =>
      progStepStart_starts hz hloaded hruns hfree hnew hcycle hdue
  case complete =>
    exact fun s z t slot x poison hz hslot hx hruns hclamp => progStepComplete_completes hz hslot hx hruns hclamp

end Sys2Proof.Proofs
end

section
/-! PROOFS. The statement of spec/12_row_program.md: classes (R398, R399), period detectors (R414) and leak suspects
(R415). -/

namespace Sys2Proof.Machine

open Sys2Proof

/-! ### One position of a list -/

theorem nth_of_getElem? {α : Type} {l : List α} {i : Nat} {x : α} (h : l[i]? = some x) (d : α) : nth l i d = x := by
  rw [nth, List.getD_eq_getElem?_getD, h, Option.getD_some]

/-- The position that is replaced reads what `f` makes of it. -/
theorem getElem?_modAt_same {α : Type} {l : List α} {i : Nat} {x : α} (h : l[i]? = some x) (f : α → α) :
    (modAt l i f)[i]? = some (f x) := by
  rw [modAt, List.getElem?_mapIdx, h, Option.map_some, if_pos rfl]

section

variable {s z : State} {t : Nat}

/-! ### Classes (R398, R399) -/

/-- CLASS_FALLBACK (R398): the class runs on the image's model, and guests and row program stand. -/
theorem classFallback_toImage {cls : Nat} (hz : z = s.at t) (hcls : cls < 256)
    (hlive : z.getU E.CLASS_STATE cls = 1 ∨ z.getU E.CLASS_STATE cls = 2) :
    Answers (.classFallback t cls) s fun u =>
      u.getU E.CLASS_STATE cls = 3 ∧ u.guests = z.guests ∧ u.row = z.row := by
  subst hz
  refine answers_of_when rfl (by simpa using hlive) ⟨?state, by simp, by simp⟩
  rw [State.getU_latch_ne _ _ _ _ _ _ (notMem_logKeys_of_lt ?_) ?_, State.getU_setU_same]
  all_goals simp only [E.CLASS_STATE, E.RP_LATCHES]; omega

/-- CLASS_WIDEN_LOWER (R399): the widening falls by a step, and the clear turns count afresh. -/
theorem classWidenLower_lowers {cls : Nat} (hz : z = s.at t)
    (hclear : z.eff E.MISS_CLEAR_TURNS ≤ z.row.clearTurns.getD cls 0) :
    Answers (.classWidenLower t cls) s fun u =>
      u.getU E.CLASS_WIDEN cls = z.getU E.CLASS_WIDEN cls - z.eff E.MISS_WIDEN_STEP
        ∧ u.row.clearTurns = z.row.clearTurns.erase cls := by
  subst hz
  exact answers_of_when rfl (decide_eq_true hclear) ⟨State.getU_setU_same _ _ _ _, rfl⟩

/-! ### Leak suspects (R415) -/

/-- LEAK_SUSPECT (R415): the branch joins the suspects, and the first branch shown is the one published. -/
theorem leakSuspect_publishes {branch transient : Nat} (hz : z = s.at t) (hbranch : branch < 40)
    (hrun : z.eff E.LEAK_PERSIST ≤ z.row.leakRun.getD branch 0)
    (hnew : (z.get E.LEAK_SUSPECTS).testBit branch = false) :
    Answers (.leakSuspect t branch transient) s fun u =>
      u.get E.LEAK_SUSPECTS = setBit (z.get E.LEAK_SUSPECTS) branch
        ∧ u.row.leakTick = z.row.leakTick.set branch z.tick ∧ u.row.transient = z.row.transient.set branch transient
        ∧ u.row.published = z.row.published ++ [u.get E.LEAK_FIRST_BRANCH] := by
  subst hz
  refine answers_of_when rfl (by simpa [hbranch, hnew] using hrun) ?_
  generalize s.at t = z
  extract_lets suspected _ _ _ _ first published
  have hrow : suspected.row = z.row := by simp [suspected]
  have htick : suspected.tick = z.tick := by simp [suspected, State.tick]
  have hsuspects : suspected.get E.LEAK_SUSPECTS = setBit (z.get E.LEAK_SUSPECTS) branch :=
    (State.get_latch_ne _ _ _ _ _ (by decide) (by decide)).trans (State.get_set_same _ _ _)
  refine ⟨(State.get_set_ne _ _ _ _ (by decide)).trans hsuspects, ?leakTick, ?transient, ?published⟩
  case leakTick => rw [← hrow, ← htick]; rfl
  case transient => rw [← hrow]; rfl
  case published =>
    rw [State.get_set_same, ← hrow]
    rfl

/-! ### Period detectors (R414) -/

/-- PERIOD_PUBLISH (R414): the detector publishes its estimate. -/
theorem periodPublish_publishes {n : Nat} {d : PeriodDet} (hz : z = s.at t) (hd : z.row.dets[n]? = some d)
    (hstrong : 8 ≤ d.strong) (hsilent : d.publishing = false) :
    Answers (.periodPublish t n) s fun u =>
      u.getU E.PD_PERIOD n = d.estimate ∧ u.row.dets[n]? = some { d with publishing := true } := by
  subst hz
  have hnth : nth s.row.dets n {} = d := nth_of_getElem? hd {}
  exact answers_of_when rfl (by simp [hnth, hstrong, hsilent])
    ⟨(State.getU_setU_same _ _ _ _).trans (congrArg PeriodDet.estimate hnth), getElem?_modAt_same hd _⟩

/-- PERIOD_WITHDRAW (R414): the detector holds no period. -/
theorem periodWithdraw_withdraws {n : Nat} {d : PeriodDet} (hz : z = s.at t) (hd : z.row.dets[n]? = some d)
    (hweak : 8 ≤ d.weak) (hpublishing : d.publishing = true) :
    Answers (.periodWithdraw t n) s fun u =>
      u.getU E.PD_PERIOD n = 0 ∧ u.row.dets[n]? = some { d with publishing := false } := by
  subst hz
  have hnth : nth s.row.dets n {} = d := nth_of_getElem? hd {}
  exact answers_of_when rfl (by simp [hnth, hweak, hpublishing])
    ⟨State.getU_setU_same _ _ _ _, getElem?_modAt_same hd _⟩

end

end Sys2Proof.Machine

namespace Sys2Proof.Proofs

open Sys2Proof Sys2Proof.Machine

/-- Settles O31, command by command. -/
theorem classesLeaksPeriods : Obligations.ClassesLeaksPeriods := by
  unfold Obligations.ClassesLeaksPeriods
  refine ⟨?fallback, ?lower, ?suspect, ?publish, ?withdraw⟩
  case fallback => exact fun s z t cls hz hcls hlive => classFallback_toImage hz hcls hlive
  case lower => exact fun s z t cls hz _ hclear => classWidenLower_lowers hz hclear
  case suspect =>
    exact fun s z t branch transient hz hbranch hrun hnew => leakSuspect_publishes hz hbranch hrun hnew
  case publish => exact fun s z t n d hz hd hstrong hsilent => periodPublish_publishes hz hd hstrong hsilent
  case withdraw => exact fun s z t n d hz hd hweak hpublishing => periodWithdraw_withdraws hz hd hweak hpublishing

end Sys2Proof.Proofs
end

section
/-! PROOFS. Rules for the state that the statements of spec/13_loop_engines.md to spec/19_start.md share: entries told
apart by their subindex, the entries below those of the recorder, and the parts of the IOC and of the plant. -/

namespace Sys2Proof.Machine

open Sys2Proof

/-! ### Entries of different subindices (R137)

The subindex of a key is its remainder by 256, and a unit's number moves the index alone. So a write of one entry, for
whatever unit, leaves every entry of another subindex, for whatever unit. -/

theorem key_ne_of_sub {j k : Nat} (h : j % 256 ≠ k % 256) (u w : Nat) : j + 256 * u ≠ k + 256 * w := by omega

theorem State.getD_setU_of_sub (s : State) {f : Ent} {k : Nat} (h : k % 256 ≠ f.key % 256) (u v w d : Nat) :
    (s.setU f u v).regs.getD (k + 256 * w) d = s.regs.getD (k + 256 * w) d :=
  State.getD_setU_ne s f u v (key_ne_of_sub h w u) d

theorem State.getU_setU_of_sub (s : State) {e f : Ent} (u v w : Nat) (h : e.key % 256 ≠ f.key % 256) :
    (s.setU f u v).getU e w = s.getU e w := State.getD_setU_of_sub s h u v w e.dflt

theorem State.getU_set_of_sub (s : State) {e f : Ent} (v w : Nat) (h : e.key % 256 ≠ f.key % 256) :
    (s.set f v).getU e w = s.getU e w := State.getU_set_ne s f e w v (by simpa using key_ne_of_sub h w 0)

theorem State.get_setU_of_sub (s : State) {e f : Ent} (u v : Nat) (h : e.key % 256 ≠ f.key % 256) :
    (s.setU f u v).get e = s.get e := State.get_setU_ne s f e u v (by simpa using key_ne_of_sub h 0 u)

theorem State.getU_incU_of_sub (s : State) {e f : Ent} (u w : Nat) (h : e.key % 256 ≠ f.key % 256) :
    (s.incU f u).getU e w = s.getU e w := State.getU_setU_of_sub s u _ w h

theorem State.getU_inc_of_sub (s : State) {e f : Ent} (w : Nat) (h : e.key % 256 ≠ f.key % 256) :
    (s.inc f).getU e w = s.getU e w := State.getU_set_of_sub s _ w h

theorem State.getU_ite (c : Prop) [Decidable c] (s t : State) (e : Ent) (w : Nat) :
    (if c then s else t).getU e w = if c then s.getU e w else t.getU e w := by split <;> rfl

/-- What no step of a fold changes, for the elements of its list, the fold does not change. -/
theorem foldl_eq_of_mem {α β : Type} {f : State → β → State} {p : State → α} {l : List β}
    (h : ∀ s, ∀ b ∈ l, p (f s b) = p s) (s : State) : p (l.foldl f s) = p s := by
  induction l generalizing s with
  | nil => rfl
  | cons b l ih =>
    exact (ih (fun s c hc => h s c (List.mem_cons_of_mem _ hc)) (f s b)).trans (h s b List.mem_cons_self)

/-! ### Entries below the recorder's

The recorder's entries begin at 0x900000. A unit below 256 of an entry below 0x8F0000 is none of them. -/

/-- Unit `w` of an entry of the module's units lies below the recorder's entries. -/
theorem notMem_logKeys_unit {k w : Nat} (hw : w < 256) (hk : k < 0x8F0000) : k + 256 * w ∉ logKeys :=
  notMem_logKeys_of_lt (by omega)

theorem State.getU_latchU_of_sub (s : State) {e f : Ent} {w : Nat} (u b key : Nat) (hw : w < 256)
    (hk : e.key < 0x8F0000) (h : e.key % 256 ≠ f.key % 256) : (s.latchU f u b key).getU e w = s.getU e w :=
  State.getD_latchU s f u b key (notMem_logKeys_unit hw hk) (key_ne_of_sub h w u) _

theorem State.getU_latch_of_sub (s : State) {e f : Ent} {w : Nat} (b key : Nat) (hw : w < 256) (hk : e.key < 0x8F0000)
    (h : e.key % 256 ≠ f.key % 256) : (s.latch f b key).getU e w = s.getU e w :=
  State.getU_latchU_of_sub s 0 b key hw hk h

/-- A key whose subindex no key of a list has is, for whatever unit, not in the list. -/
theorem notMem_of_sub {l : List Nat} {k : Nat} (h : ∀ j ∈ l, k % 256 ≠ j % 256) (w : Nat) : k + 256 * w ∉ l :=
  fun hmem => h _ hmem (by omega)

theorem State.getU_latchU_of_subs (s : State) {e f : Ent} (u b key w : Nat)
    (hlog : ∀ j ∈ logKeys, e.key % 256 ≠ j % 256) (h : e.key % 256 ≠ f.key % 256) :
    (s.latchU f u b key).getU e w = s.getU e w :=
  State.getD_latchU s f u b key (notMem_of_sub hlog w) (key_ne_of_sub h w u) _

theorem State.getU_latch_of_subs (s : State) {e f : Ent} (b key w : Nat) (hlog : ∀ j ∈ logKeys, e.key % 256 ≠ j % 256)
    (h : e.key % 256 ≠ f.key % 256) : (s.latch f b key).getU e w = s.getU e w :=
  State.getU_latchU_of_subs s 0 b key w hlog h

/-! ### What fencing and latching leave (R646 to R661) -/

theorem State.fenceUnit_ioc (s : State) (row : Nat) : (s.fenceUnit row).ioc = s.ioc := by simp

theorem State.unit_latchU (s : State) (e : Ent) (u b key row : Nat) : (s.latchU e u b key).unit row = s.unit row :=
  State.unit_congr (by simp) row

/-! ### The parts of the IOC and of the plant (R423 to R574) -/

theorem AMap.getD_set_same {α : Type} (m : AMap α) (k : Nat) (v d : α) : AMap.getD (AMap.set m k v) k d = v := by
  simp [AMap.getD, AMap.get_set_same]

theorem AMap.getD_set_ne {α : Type} (m : AMap α) {k l : Nat} (h : l ≠ k) (v d : α) :
    AMap.getD (AMap.set m k v) l d = AMap.getD m l d := by
  simp [AMap.getD, AMap.get_set_ne m h]

@[simp] theorem State.valve_putValve_same (s : State) (c : Nat) (x : Valve) : (s.putValve c x).valve c = x :=
  AMap.getD_set_same _ _ _ _

@[simp] theorem State.bank_putBank_same (s : State) (b : Nat) (x : Bank) : (s.putBank b x).bank b = x :=
  AMap.getD_set_same _ _ _ _

@[simp] theorem State.fan_putFan_same (s : State) (c : Nat) (x : Fan) : (s.putFan c x).fan c = x :=
  AMap.getD_set_same _ _ _ _

@[simp] theorem State.fbPort_putPort_same (s : State) (p : Nat) (x : FbPort) : (s.putPort p x).fbPort p = x :=
  AMap.getD_set_same _ _ _ _

@[simp] theorem State.ain_putAin_same (s : State) (n : Nat) (x : Ain) : (s.putAin n x).ain n = x :=
  AMap.getD_set_same _ _ _ _

@[simp] theorem State.branch_putBranch_same (s : State) (b : Nat) (x : Branch) : (s.putBranch b x).branch b = x :=
  AMap.getD_set_same _ _ _ _

@[simp] theorem State.getU_putEng (s : State) (n : Nat) (x : Eng) (e : Ent) (u : Nat) :
    (s.putEng n x).getU e u = s.getU e u := rfl
@[simp] theorem State.getU_putValve (s : State) (c : Nat) (x : Valve) (e : Ent) (u : Nat) :
    (s.putValve c x).getU e u = s.getU e u := rfl
@[simp] theorem State.getU_putRx (s : State) (k : Nat) (x : RxObj) (e : Ent) (u : Nat) :
    (s.putRx k x).getU e u = s.getU e u := rfl
@[simp] theorem State.getU_putTx (s : State) (k : Nat) (x : TxObj) (e : Ent) (u : Nat) :
    (s.putTx k x).getU e u = s.getU e u := rfl
@[simp] theorem State.getU_putPort (s : State) (p : Nat) (x : FbPort) (e : Ent) (u : Nat) :
    (s.putPort p x).getU e u = s.getU e u := rfl
@[simp] theorem State.getU_putBranch (s : State) (b : Nat) (x : Branch) (e : Ent) (u : Nat) :
    (s.putBranch b x).getU e u = s.getU e u := rfl

end Sys2Proof.Machine
end

section
/-! PROOFS. The statements of spec/13_loop_engines.md: a run in MANUAL, the faults of a loop, its missed slots, and the
spare that takes it. -/

namespace Sys2Proof.Machine

open Sys2Proof

/-! ### A run of a mode and its output (R428, R433) -/

theorem State.uMin_congr {s t : State} {n : Nat} (hc : t.getU E.LOOP_CONFIG n = s.getU E.LOOP_CONFIG n)
    (hm : t.getU E.UMIN n = s.getU E.UMIN n) : t.uMin n = s.uMin n := by
  rw [State.uMin, State.uMin, State.onOff, State.onOff, hc, hm]

theorem State.uMax_congr {s t : State} {n : Nat} (hc : t.getU E.LOOP_CONFIG n = s.getU E.LOOP_CONFIG n)
    (hm : t.getU E.UMAX n = s.getU E.UMAX n) : t.uMax n = s.uMax n := by
  rw [State.uMax, State.uMax, State.onOff, State.onOff, hc, hm]

theorem State.getU_putOutput_same (s : State) (n : Nat) (x : Eng) (out : Nat) :
    (s.putOutput n x out).getU E.LOOP_OUTPUT n = out := State.getU_setU_same s _ _ _

theorem State.getU_putOutput_of_sub (s : State) (n : Nat) (x : Eng) (out : Nat) {e : Ent} (w : Nat)
    (h : e.key % 256 ≠ E.LOOP_OUTPUT.key % 256) : (s.putOutput n x out).getU e w = s.getU e w :=
  State.getU_setU_of_sub s n out w h

theorem State.eng_putOutput (s : State) (n : Nat) (x : Eng) (out : Nat) :
    (s.putOutput n x out).eng n = { x with send := true, outs := (out :: x.outs).take 1000 } :=
  State.eng_putEng_same _ _ _

/-- Beside the output a run writes the internal setpoint alone. -/
theorem State.getU_trackMeas (s : State) (n : Nat) (m : Option Nat) {e : Ent} (w : Nat)
    (h : e.key % 256 ≠ E.LOOP_SP_INTERNAL.key % 256) : (s.trackMeas n m).getU e w = s.getU e w := by
  cases m with
  | none => rfl
  | some v => exact State.getU_setU_of_sub s n v w h

theorem State.eng_trackMeas (s : State) (n : Nat) (m : Option Nat) :
    ((s.trackMeas n m).eng n).lastRun = (s.eng n).lastRun ∧ ((s.trackMeas n m).eng n).send = (s.eng n).send := by
  cases m with
  | none => exact ⟨by simp [State.trackMeas], by simp [State.trackMeas]⟩
  | some v =>
    have kept : (s.setU E.LOOP_SP_INTERNAL n v).eng n = s.eng n := rfl
    exact ⟨by simp [State.trackMeas, kept], by simp [State.trackMeas, kept]⟩

theorem State.getU_plainRun_of_sub (s : State) (n u : Nat) (x : Eng) (m : Option Nat) {e : Ent} (w : Nat)
    (hout : e.key % 256 ≠ E.LOOP_OUTPUT.key % 256) (hsp : e.key % 256 ≠ E.LOOP_SP_INTERNAL.key % 256) :
    (s.plainRun n u x m).getU e w = s.getU e w := by
  rw [State.plainRun, State.getU_trackMeas _ _ _ _ hsp, State.getU_putOutput_of_sub _ _ _ _ _ hout]

/-- A run of MANUAL or FOLLOW puts out the mode's output and the offset, within the limits. -/
theorem State.plainRun_output (s : State) (n u : Nat) (x : Eng) (m : Option Nat) :
    (s.plainRun n u x m).getU E.LOOP_OUTPUT n = f32Clamp (f32Add u x.offset) (s.uMin n) (s.uMax n) := by
  rw [State.plainRun, State.getU_trackMeas _ _ _ _ (by decide), State.getU_putOutput_same]

theorem State.plainRun_eng (s : State) (n u : Nat) (x : Eng) (m : Option Nat) :
    ((s.plainRun n u x m).eng n).lastRun = x.lastRun ∧ ((s.plainRun n u x m).eng n).send = true := by
  obtain ⟨hrun, hsend⟩ := State.eng_trackMeas
    (s.putOutput n { x with holdFrom := none } (f32Clamp (f32Add u x.offset) (s.uMin n) (s.uMax n))) n m
  rw [State.eng_putOutput] at hrun hsend
  exact ⟨hrun, hsend⟩

/-- A run of MANUAL with the value it already holds, no offset left, goes on with that value (R439). -/
theorem State.runManual_of_same {s : State} {n : Nat} (m : Option Nat) (hv : s.getU E.MANUAL_VALUE n = (s.eng n).manual)
    (hoff : (s.eng n).offset = 0) :
    s.runManual n m = s.plainRun n (s.eng n).manual { s.eng n with offset := 0 } m := by
  have fallen : s.fallOffset n (s.eng n) = 0 := by
    have : f32Abs 0 = 0 := by decide
    simp [State.fallOffset, hoff, this]
  simp [State.runManual, hv, fallen]

/-- What every run notes before its mode is run: the measurement, no miss, one run more (R422, R446). -/
def State.noteRun (s : State) (n : Nat) (m : Option Nat) : State :=
  ((match m with | some v => s.setU E.LOOP_MEAS n v | none => s).setU E.LOOP_MISSES n 0).incU E.LOOP_RUNS n

theorem State.noteRun_eng (s : State) (n : Nat) (m : Option Nat) : (s.noteRun n m).eng n = s.eng n := by
  cases m <;> rfl

theorem State.getU_noteRun_of_sub (s : State) (n : Nat) (m : Option Nat) {e : Ent} (w : Nat)
    (hmeas : e.key % 256 ≠ E.LOOP_MEAS.key % 256) (hmiss : e.key % 256 ≠ E.LOOP_MISSES.key % 256)
    (hruns : e.key % 256 ≠ E.LOOP_RUNS.key % 256) : (s.noteRun n m).getU e w = s.getU e w := by
  unfold State.noteRun
  rw [State.getU_incU_of_sub _ _ _ hruns, State.getU_setU_of_sub _ _ _ _ hmiss]
  cases m with
  | none => rfl
  | some v => exact State.getU_setU_of_sub _ _ _ _ hmeas

theorem State.noteRun_misses (s : State) (n : Nat) (m : Option Nat) : (s.noteRun n m).getU E.LOOP_MISSES n = 0 := by
  unfold State.noteRun
  rw [State.getU_incU_of_sub _ _ _ (by decide), State.getU_setU_same]

theorem State.noteRun_runs (s : State) (n : Nat) (m : Option Nat) :
    (s.noteRun n m).getU E.LOOP_RUNS n = (s.getU E.LOOP_RUNS n + 1) % 2 ^ 64 := by
  unfold State.noteRun
  rw [State.getU_incU_same, State.getU_setU_of_sub _ _ _ _ (by decide)]
  cases m with
  | none => rfl
  | some v => rw [State.getU_setU_of_sub _ _ _ _ (by decide)]

/-! ### REST and the faults of a loop (R437, R442 to R444) -/

/-- In REST the mode in force is 3 and the output is the rest value. -/
theorem State.toRest_output (s : State) (n : Nat) (m : Option Nat) :
    (s.toRest n m).getU E.LOOP_MODE_ACTIVE n = 3 ∧ (s.toRest n m).getU E.LOOP_OUTPUT n = s.getU E.REST_VALUE n := by
  unfold State.toRest
  dsimp only
  rw [State.getU_trackMeas _ _ _ _ (by decide), State.getU_trackMeas _ _ _ _ (by decide), State.getU_putOutput_same,
    State.getU_putOutput_of_sub _ _ _ _ _ (by decide), State.getU_setU_same]
  exact ⟨rfl, rfl⟩

theorem State.getU_toRest_of_sub (s : State) (n : Nat) (m : Option Nat) {e : Ent} (w : Nat)
    (hmode : e.key % 256 ≠ E.LOOP_MODE_ACTIVE.key % 256) (hout : e.key % 256 ≠ E.LOOP_OUTPUT.key % 256)
    (hsp : e.key % 256 ≠ E.LOOP_SP_INTERNAL.key % 256) : (s.toRest n m).getU e w = s.getU e w := by
  unfold State.toRest
  dsimp only
  rw [State.getU_trackMeas _ _ _ _ hsp, State.getU_putOutput_of_sub _ _ _ _ _ hout,
    State.getU_setU_of_sub _ _ _ _ hmode]

/-- What a loop in fault shows: the mode asked for and in force, the cause, the output and the count. -/
structure LoopFaulted (s u : State) (n cause : Nat) : Prop where
  mode : u.getU E.LOOP_MODE n = 3
  cause : u.getU E.LOOP_FAULT_CAUSE n = cause
  active : u.getU E.LOOP_MODE_ACTIVE n = 3
  output : u.getU E.LOOP_OUTPUT n = s.getU E.REST_VALUE n
  faults : u.getU E.LOOP_FAULTS n = (s.getU E.LOOP_FAULTS n + 1) % 2 ^ 64

/-- A further latch of the loop leaves what the fault shows. -/
theorem LoopFaulted.latch {s u : State} {n cause : Nat} (h : LoopFaulted s u n cause) (hn : n < 256) (b key : Nat) :
    LoopFaulted s (u.latchU E.LOOP_LATCHES n b key) n cause := by
  constructor <;> simp (disch := decide) only [State.getU_latchU_of_sub _ _ _ _ hn]
  · exact h.mode
  · exact h.cause
  · exact h.active
  · exact h.output
  · exact h.faults

/-- LOOP_FAULT (R443). -/
theorem State.loopFault_faulted (s : State) {n : Nat} (hn : n < 256) (cause : Nat) :
    LoopFaulted s (s.loopFault n cause) n cause := by
  refine LoopFaulted.latch ?_ hn _ _
  obtain ⟨hactive, hout⟩ := State.toRest_output
    (((s.setU E.LOOP_MODE n 3).setU E.LOOP_FAULT_CAUSE n cause).incU E.LOOP_FAULTS n) n
    ((((s.setU E.LOOP_MODE n 3).setU E.LOOP_FAULT_CAUSE n cause).incU E.LOOP_FAULTS n).loopMeas n)
  exact {
    mode := by
      simp (disch := decide) only [State.getU_toRest_of_sub, State.getU_incU_of_sub, State.getU_setU_of_sub,
        State.getU_setU_same]
    cause := by
      simp (disch := decide) only [State.getU_toRest_of_sub, State.getU_incU_of_sub, State.getU_setU_same]
    active := hactive
    output := hout.trans (by simp (disch := decide) only [State.getU_incU_of_sub, State.getU_setU_of_sub])
    faults := by
      simp (disch := decide) only [State.getU_toRest_of_sub, State.getU_incU_same, State.getU_setU_of_sub] }

/-- A block error fences an active engine (R447). -/
theorem State.engError_of_active {s : State} {n : Nat} (h : (s.unit (kindRow 3 + n)).role = 0) :
    s.engError n = ((s.putEng n { s.eng n with fenceTick := some s.tick, send := false }).fenceUnit
      (kindRow 3 + n)).latchU E.LOOP_LATCHES n 8 (engKey n) := by
  simp only [State.engError, h]

/-! ### A spare takes a loop (R448) -/

@[simp] theorem State.wear_ite (c : Prop) [Decidable c] (s t : State) :
    (if c then s else t).wear = if c then s.wear else t.wear := by split <;> rfl

@[simp] theorem State.wear_foldl {β : Type} {f : State → β → State} (h : ∀ s b, (f s b).wear = s.wear)
    (l : List β) (s : State) : (l.foldl f s).wear = s.wear := foldl_eq_of_step (p := State.wear) h l s

@[simp] theorem State.copyKey_wear (s : State) (src dst : Nat) : (s.copyKey src dst).wear = s.wear := rfl

theorem State.copyKeys_wear (l : List Nat) (src dst : Nat) (s : State) :
    (l.foldl (fun s i => s.copyKey (src + i) (dst + i)) s).wear = s.wear :=
  State.wear_foldl (fun s _ => State.copyKey_wear s _ _) l s

@[simp] theorem State.putEng_wear (s : State) (n : Nat) (x : Eng) : (s.putEng n x).wear = s.wear := rfl

@[simp] theorem State.rebindEngine_wear (s : State) (e : Ent) (n a : Nat) : (s.rebindEngine e n a).wear = s.wear := by
  simp [State.rebindEngine]

theorem State.moveLoop_wear (s : State) (n a : Nat) : (s.moveLoop n a true).wear = s.wear := by
  simp only [State.moveLoop, if_true, State.setU_frame, State.wear_ite, State.set_frame, State.rebindEngine_wear,
    State.putEng_wear, State.copyKeys_wear, ite_self]

/-- The engine that gives its loop up names the spare that took it. -/
theorem State.moveLoop_movedTo (s : State) (n a : Nat) : (s.moveLoop n a true).getU E.LOOP_MOVED_TO n = a :=
  State.getU_setU_same _ _ _ _

/-! ### What each command of a loop engine leaves -/

section

variable {s z : State} {t n : Nat}

/-- LOOP_RUN (R422, R433, R439) in MANUAL: a due run puts out the value it holds. -/
theorem loopRun_manual {x : Eng} (hz : z = s.at t) (hn : n < 256) (hx : x = z.eng n) (hrun : z.fwRuns = true)
    (hrole : z.isActive (kindRow 3 + n) = true) (hup : x.down = false) (hdue : z.engDue n = true)
    (hslotA : z.slotB n = false) (hslot : z.inSlot 10 25 = true) (hfirst : x.lastRun ≠ some z.tick)
    (hrest : z.inRest = false) (hmode : z.getU E.LOOP_MODE n = 0) (hactive : z.getU E.LOOP_MODE_ACTIVE n = 0)
    (hvalue : z.getU E.MANUAL_VALUE n = x.manual) (hwait : x.wait = 0) (hoff : x.offset = 0)
    (htable : x.clearTable = false) :
    Answers (.loopRun t n) s fun u =>
      u.getU E.LOOP_OUTPUT n = f32Clamp (f32Add x.manual 0) (z.uMin n) (z.uMax n)
        ∧ u.getU E.LOOP_RUNS n = (z.getU E.LOOP_RUNS n + 1) % 2 ^ 64 ∧ u.getU E.LOOP_MISSES n = 0
        ∧ (u.eng n).lastRun = some z.tick ∧ (u.eng n).send = true := by
  subst hz hx
  refine ⟨_, rfl, ?_⟩
  generalize s.at t = z at *
  rw [State.when_of (by simp [hrun, hn, hrole, hup, hdue, hslotA, hslot, hfirst])]
  simp only [htable, hrest, hmode, hwait, bne_self_eq_false, Bool.false_and, Bool.false_eq_true, if_false]
  generalize z.loopMeas n = m
  generalize hw : State.putEng z n _ = w
  have weng : w.eng n = { z.eng n with lastRun := some z.tick } := by
    rw [← hw, State.eng_putEng_same]
    simp [hwait, htable]
  have wregs : w.regs = z.regs := by rw [← hw, State.putEng_regs]
  generalize hy : State.incU _ E.LOOP_RUNS n = y
  obtain rfl : y = w.noteRun n m := by
    rw [← hy]
    cases m <;> rfl
  have kept {e : Ent} (hmeas : e.key % 256 ≠ E.LOOP_MEAS.key % 256) (hmiss : e.key % 256 ≠ E.LOOP_MISSES.key % 256)
      (hruns : e.key % 256 ≠ E.LOOP_RUNS.key % 256) : (w.noteRun n m).getU e n = z.getU e n :=
    (State.getU_noteRun_of_sub w n m n hmeas hmiss hruns).trans (State.getU_congr wregs e n)
  have active := (kept (e := E.LOOP_MODE_ACTIVE) (by decide) (by decide) (by decide)).trans hactive
  rw [if_pos active.symm]
  simp only [State.runActive, active]
  have held : (w.noteRun n m).getU E.MANUAL_VALUE n = ((w.noteRun n m).eng n).manual := by
    rw [kept (by decide) (by decide) (by decide), State.noteRun_eng, weng]
    exact hvalue
  rw [State.runManual_of_same m held (by rw [State.noteRun_eng, weng]; exact hoff), State.noteRun_eng, weng]
  obtain ⟨last, send⟩ := State.plainRun_eng (w.noteRun n m) n (z.eng n).manual
    { z.eng n with lastRun := some z.tick, offset := 0 } m
  refine ⟨?_, ?_, ?_, last, send⟩
  · rw [State.plainRun_output, State.uMin_congr (s := z) (kept (by decide) (by decide) (by decide))
      (kept (by decide) (by decide) (by decide)), State.uMax_congr (s := z) (kept (by decide) (by decide) (by decide))
      (kept (by decide) (by decide) (by decide))]
  · rw [State.getU_plainRun_of_sub _ _ _ _ _ _ (by decide) (by decide), State.noteRun_runs, State.getU_congr wregs]
  · rw [State.getU_plainRun_of_sub _ _ _ _ _ _ (by decide) (by decide), State.noteRun_misses]

/-- FEEDBACK_HOLD_TIMEOUT (R442): a hold that lasts `FREEZE_HOLD` ticks is a fault of the loop. -/
theorem feedbackHoldTimeout_faults {from_ : Nat} (hz : z = s.at t) (hn : n < 256)
    (hhold : (z.eng n).holdFrom = some from_) (hrun : (z.eng n).lastRun = some z.tick)
    (hdue : from_ + z.getU E.FREEZE_HOLD n ≤ z.tick) :
    Answers (.feedbackHoldTimeout t n) s fun u => LoopFaulted z u n (z.eng n).holdCause := by
  subst hz
  refine ⟨_, rfl, ?_⟩
  generalize s.at t = z at *
  simp only [hhold]
  rw [State.when_of (by simp [hrun, hdue])]
  exact z.loopFault_faulted hn _

/-- FOLLOWING_ERROR_FAULT (R444). -/
theorem followingErrorFault_faults (hz : z = s.at t) (hn : n < 256) (hrun : (z.eng n).lastRun = some z.tick)
    (hlate : z.getU E.FOLLOW_ERR_TIME n < (z.eng n).timer) (hloop : z.getU E.LOOP_MODE_ACTIVE n = 1) :
    Answers (.followingErrorFault t n) s fun u => LoopFaulted z u n 1 := by
  subst hz
  exact answers_of_when rfl (by simp [hrun, hlate, hloop]) ((State.loopFault_faulted _ hn 1).latch hn _ _)

/-- LOOP_SLOT_MISSED (R446) below `MISS_LIMIT`: the miss is counted, and the engine is left as it is. -/
theorem loopSlotMissed_counts {k : Nat} (hz : z = s.at t) (hn : n < 256) (hrun : z.fwRuns = true)
    (hrole : z.isActive (kindRow 3 + n) = true) (hup : (z.eng n).down = false) (hdue : z.engDue n = true)
    (hslotA : z.slotB n = false) (hpast : z.pastSlot 25 = true) (hlast : (z.eng n).lastRun ≠ some z.tick)
    (hmiss : (z.eng n).missTick ≠ some z.tick) (hk : k = satBytes 1 (z.getU E.LOOP_MISSES n + 1))
    (hlimit : k < z.getU E.MISS_LIMIT n) :
    Answers (.loopSlotMissed t n) s fun u =>
      u.getU E.LOOP_MISSES n = k ∧ u.getU E.LOOP_MISSES_TOTAL n = (z.getU E.LOOP_MISSES_TOTAL n + 1) % 2 ^ 64
        ∧ u.eng n = { z.eng n with missTick := some z.tick } := by
  subst hz hk
  refine ⟨_, rfl, ?_⟩
  generalize s.at t = z at *
  rw [State.when_of (by simp [hrun, hn, hrole, hup, hdue, hslotA, hpast, hlast, hmiss])]
  dsimp only
  rw [if_neg]
  · refine ⟨?_, ?_, ?_⟩
    · simp (disch := decide) only [State.getU_latchU_of_sub _ _ _ _ hn, State.getU_incU_of_sub, State.getU_setU_same]
    · simp (disch := decide) only [State.getU_latchU_of_sub _ _ _ _ hn, State.getU_incU_same, State.getU_setU_of_sub,
        State.getU_putEng]
    · rw [State.eng_congr (s := z.putEng n { z.eng n with missTick := some z.tick }) (by simp), State.eng_putEng_same]
  · simp (disch := decide) only [State.getU_latchU_of_sub _ _ _ _ hn, State.getU_incU_of_sub, State.getU_setU_of_sub,
      State.getU_putEng]
    omega

/-- ENGINE_BLOCK_ERROR (R447): an active engine is fenced and sends no more. -/
theorem engineBlockError_fences (hz : z = s.at t) (hn : n < 256) (hrole : (z.unit (kindRow 3 + n)).role = 0) :
    Answers (.engineBlockError t n) s fun u =>
      ((u.unit (kindRow 3 + n)).role = 2 ∨ (u.unit (kindRow 3 + n)).role = 4)
        ∧ u.eng n = { z.eng n with fenceTick := some z.tick, send := false } := by
  subst hz
  refine answers_of_when rfl (by simpa using hn) ?_
  generalize s.at t = z at *
  rw [State.engError_of_active hrole]
  refine ⟨?_, (State.eng_congr (s := z.putEng n _) (by simp) n).trans (State.eng_putEng_same _ _ _)⟩
  rw [State.unit_latchU]
  exact State.unit_fenceUnit_role _ _

/-- ENGINE_TAKEOVER (R448, R654): at the next tick the best tested spare takes the loop. -/
theorem engineTakeover_moves {f row : Nat} (hz : z = s.at t) (hfence : (z.eng n).fenceTick = some f) (hf : f < z.tick)
    (hspare : z.bestSpare (kindRows 3) = some row) :
    Answers (.engineTakeover t n true) s fun u =>
      u.getU E.LOOP_MOVED_TO n = row - kindRow 3 ∧ (u.unit row).role = 0 := by
  subst hz
  refine ⟨_, rfl, ?_⟩
  generalize s.at t = z at *
  simp only [hfence]
  rw [State.when_of (by simpa using hf)]
  simp only [hspare]
  refine ⟨State.moveLoop_movedTo _ _ _, ?_⟩
  rw [State.unit_congr (State.moveLoop_wear _ _ _)]
  exact State.unit_promote_role _ _ _

end

end Sys2Proof.Machine

namespace Sys2Proof.Proofs

open Sys2Proof Sys2Proof.Machine

/-- Settles O38, command by command. -/
theorem enginesRun : Obligations.EnginesRun := by
  unfold Obligations.EnginesRun
  refine ⟨?run, ?hold, ?following, ?missed, ?error, ?takeover⟩
  case run =>
    exact fun s z t n x hz hn hx hrun hrole hup hdue hslotA hslot hfirst hrest hmode hactive hvalue hwait hoff htable =>
      loopRun_manual hz hn hx hrun hrole hup hdue hslotA hslot hfirst hrest hmode hactive hvalue hwait hoff htable
  case hold =>
    intro s z t n from_ hz hn hhold hrun hdue
    obtain ⟨u, hu, h⟩ := feedbackHoldTimeout_faults hz hn hhold hrun hdue
    exact ⟨u, hu, h.mode, h.cause, h.active, h.output, h.faults⟩
  case following =>
    intro s z t n hz hn hrun hlate hloop
    obtain ⟨u, hu, h⟩ := followingErrorFault_faults hz hn hrun hlate hloop
    exact ⟨u, hu, h.mode, h.cause, h.active, h.output, h.faults⟩
  case missed =>
    exact fun s z t n k hz hn hrun hrole hup hdue hslotA hpast hlast hmiss hk hlimit =>
      loopSlotMissed_counts hz hn hrun hrole hup hdue hslotA hpast hlast hmiss hk hlimit
  case error => exact fun s z t n hz hn hrole => engineBlockError_fences hz hn hrole
  case takeover => exact fun s z t n f row hz hfence hf hspare => engineTakeover_moves hz hfence hf hspare

end Sys2Proof.Proofs
end

section
/-! PROOFS. The statements of spec/17_plant_and_leaks.md on pump sets: starts, returns, leads and rotations. -/

namespace Sys2Proof.Machine

open Sys2Proof

/-! ### Pumps, sets and branches of the plant (R558 to R574) -/

theorem State.pump_congr {s t : State} (h : t.plant = s.plant) (i : Nat) : t.pump i = s.pump i := by
  unfold State.pump
  rw [h]

theorem State.pumpSet_congr {s t : State} (h : t.plant = s.plant) (k : Nat) : t.pumpSet k = s.pumpSet k := by
  unfold State.pumpSet
  rw [h]

theorem State.branch_congr {s t : State} (h : t.plant = s.plant) (b : Nat) : t.branch b = s.branch b := by
  unfold State.branch
  rw [h]

@[simp] theorem State.pump_putPump_same (s : State) (i : Nat) (x : Pump) : (s.putPump i x).pump i = x :=
  AMap.getD_set_same _ _ _ _

theorem State.pump_putPump_ne (s : State) {i j : Nat} (h : j ≠ i) (x : Pump) : (s.putPump i x).pump j = s.pump j :=
  AMap.getD_set_ne _ h _ _

@[simp] theorem State.pumpSet_putSet_same (s : State) (k : Nat) (x : PumpSet) : (s.putSet k x).pumpSet k = x :=
  AMap.getD_set_same _ _ _ _

@[simp] theorem State.getU_putSet (s : State) (k : Nat) (x : PumpSet) (e : Ent) (u : Nat) :
    (s.putSet k x).getU e u = s.getU e u := rfl

/-- Commanding the run bit writes the pump's mark beside the object (R558). -/
theorem State.commandRun_plant (s : State) (i : Nat) (v : Bool) :
    (s.commandRun i v).plant = (s.putPump i { s.pump i with runCmd := v }).plant := rfl

/-- Writing the start commands the run bit; the speed goes to the object alone (R561). -/
theorem State.writeStart_plant (s : State) (i : Nat) : (s.writeStart i).plant = (s.commandRun i true).plant := by
  unfold State.writeStart
  dsimp only
  split <;> rfl

/-! ### Starts and stops of a pump (R561, R562) -/

/-- A pump that starts is commanded to run from this instant. -/
theorem State.startPump_pump (s : State) (i : Nat) :
    ((s.startPump i).pump i).starting = some s.tick ∧ ((s.startPump i).pump i).startedAt = s.now
      ∧ ((s.startPump i).pump i).runCmd = true := by
  have shown : (s.startPump i).pump i
      = { s.pump i with starting := some s.tick, startedAt := s.now, clearRun := 0, runCmd := true } := by
    rw [State.startPump, State.pump_congr (State.writeStart_plant _ _), State.pump_congr (State.commandRun_plant _ _ _),
      State.pump_putPump_same, State.pump_putPump_same]
  rw [shown]
  exact ⟨rfl, rfl, rfl⟩

theorem State.startPump_pump_ne (s : State) {i j : Nat} (h : j ≠ i) : (s.startPump i).pump j = s.pump j := by
  rw [State.startPump, State.pump_congr (State.writeStart_plant _ _), State.pump_congr (State.commandRun_plant _ _ _),
    State.pump_putPump_ne _ h, State.pump_putPump_ne _ h]

theorem State.startPump_pumpSet (s : State) (i k : Nat) : (s.startPump i).pumpSet k = s.pumpSet k := by
  rw [State.startPump, State.pumpSet_congr (State.writeStart_plant _ _),
    State.pumpSet_congr (State.commandRun_plant _ _ _)]
  rfl

/-- A pump that stops neither starts nor runs, and its run bit is clear. -/
theorem State.stopPump_pump (s : State) (i role : Nat) :
    ((s.stopPump i role).pump i).starting = none ∧ ((s.stopPump i role).pump i).running = false
      ∧ ((s.stopPump i role).pump i).runCmd = false := by
  have shown : (s.stopPump i role).pump i = { s.pump i with
      running := false, starting := none, clearRun := 0, faultClearFrom := none, lastRan := s.turn,
      runCmd := false } := by
    have stopped : (s.commandRun i false).pump i = { s.pump i with runCmd := false } := State.pump_putPump_same _ _ _
    exact (State.pump_putPump_same _ _ _).trans (by rw [stopped]; rfl)
  rw [shown]
  exact ⟨rfl, rfl, rfl⟩

theorem State.stopPump_role (s : State) (i role : Nat) : (s.stopPump i role).getU E.PUMP_ROLE i = role :=
  State.getU_setU_same _ _ _ _

/-- Stopping a pump leaves the branches. -/
theorem State.stopPump_branch (s : State) (i role b : Nat) : (s.stopPump i role).branch b = s.branch b := rfl

/-- The standby start of a flow stop leaves a tripped pump alone (R566). -/
theorem State.startStandby_pump_of_tripped {s : State} {i : Nat} (h : s.getU E.PUMP_ROLE i = 3) (k : Nat) :
    (s.startStandby k).pump i = s.pump i := by
  unfold State.startStandby
  split
  · rfl
  · split
    next j rest hstandby =>
      have hj : j ∈ s.standbys k := hstandby ▸ List.mem_cons_self
      have role : s.getU E.PUMP_ROLE j = 2 := by
        have := (List.mem_filter.1 hj).2
        simp only [Bool.and_eq_true, beq_iff_eq] at this
        exact this.1
      exact State.startPump_pump_ne s (by rintro rfl; omega)
    · exact State.pump_congr (by simp) i

/-! ### What each command of a pump set leaves -/

section

variable {s z : State} {t k j i f : Nat}

/-- PUMP_START_TIMEOUT (R561): the pump is stopped and tripped. -/
theorem pumpStartTimeout_trips (hz : z = s.at t) (hi : i = 3 * k + j) (hon : z.plantOn = true) (hk : k < 8) (hj : j < 3)
    (hstarting : (z.pump i).starting ≠ none) (hdue : (z.pump i).startedAt + z.getU E.PS_START_MS k * ms ≤ z.now) :
    Answers (.pumpStartTimeout t k j) s fun u =>
      (u.pump i).starting = none ∧ (u.pump i).running = false ∧ (u.pump i).runCmd = false
        ∧ ((∀ b, b < 40 → (z.branch b).stop ≠ 1) → u.getU E.PUMP_ROLE i = 3) := by
  subst hz hi
  refine ⟨_, rfl, ?_⟩
  generalize s.at t = z at *
  rw [State.when_of (by simp [hon, hk, hj, hdue, Option.isSome_iff_ne_none.2 hstarting])]
  generalize hi : 3 * k + j = i at *
  dsimp only
  generalize hy : (State.latch _ E.PLANT_LATCHES 3 (pumpKey i)) = y
  have role : y.getU E.PUMP_ROLE i = 3 := by
    rw [← hy, State.getU_latch_of_sub _ _ _ (by omega) (by decide) (by decide), State.stopPump_role]
  have pump : y.pump i = (z.stopPump i 3).pump i := by
    rw [← hy]
    exact State.pump_congr (by simp) i
  have branch (b : Nat) : y.branch b = z.branch b := by
    rw [← hy, State.branch_congr (s := z.stopPump i 3) (by simp), State.stopPump_branch]
  generalize hw : (if (y.pumpSet k).rotating = some i then
    y.putSet k { y.pumpSet k with rotating := none, lastRotation := y.turn } else y) = w
  have wrole : w.getU E.PUMP_ROLE i = 3 := by
    rw [← hw, ← role]
    split <;> rfl
  have wpump : w.pump i = y.pump i := by
    rw [← hw]
    split <;> rfl
  have wbranch (b : Nat) : w.branch b = z.branch b := by
    rw [← branch, ← hw]
    split <;> rfl
  obtain ⟨starting, running, runCmd⟩ := State.stopPump_pump z i 3
  rw [← pump, ← wpump] at starting running runCmd
  split
  next hstop =>
    rw [State.startStandby_pump_of_tripped wrole]
    refine ⟨starting, running, runCmd, fun hnone => ?_⟩
    obtain ⟨b, hb, hb1⟩ := List.any_eq_true.1 hstop
    rw [wbranch] at hb1
    exact absurd (by simpa using hb1) (hnone b (List.mem_range.1 (List.mem_filter.1 hb).1))
  next => exact ⟨starting, running, runCmd, fun _ => wrole⟩

/-- PUMP_STANDBY_RETURN (R586). -/
theorem pumpStandbyReturn_returns (hz : z = s.at t) (hi : i = 3 * k + j) (hclear : (z.pump i).faultClearFrom = some f)
    (hon : z.plantOn = true) (hrole : z.getU E.PUMP_ROLE i = 3) (hdue : f + z.ticksPerTurn ≤ z.tick) :
    Answers (.pumpStandbyReturn t k j) s fun u =>
      u.getU E.PUMP_ROLE i = 2 ∧ u.pump i = { z.pump i with faultClearFrom := none } := by
  subst hz hi
  refine ⟨_, rfl, ?_⟩
  generalize s.at t = z at *
  simp only [hclear]
  rw [State.when_of (by simp [hon, hrole, hdue])]
  exact ⟨State.getU_setU_same _ _ _ _, State.pump_putPump_same _ _ _⟩

/-- LEAD_REBIND (R559): the binding of the set's engine names the lead's object. -/
theorem leadRebind_rebinds (hz : z = s.at t) (hrebind : (z.pumpSet k).rebind = some f) (hon : z.plantOn = true)
    (hf : f < z.tick) :
    Answers (.leadRebind t k) s fun u =>
      u.pumpSet k = { z.pumpSet k with rebind := none }
        ∧ ∀ n i b, n = z.getU E.PS_ENGINE k → i = 3 * k + z.getU E.PS_LEAD k → b = z.getU E.OUT_BIND n → n ≠ 0xFFFF →
          z.getU E.PS_LEAD k ≠ 0xFF → bKind b = 3 →
          u.getU E.OUT_BIND n
            = bWithSel (b - bPort b * 2 ^ 24 + z.getU E.PUMP_PORT i * 2 ^ 24) (z.getU E.PUMP_TX i) := by
  subst hz
  refine ⟨_, rfl, ?_⟩
  generalize s.at t = z at *
  simp only [hrebind]
  rw [State.when_of (by simp [hon, hf])]
  generalize hw : z.putSet k { z.pumpSet k with rebind := none } = w
  have reads (e : Ent) (u : Nat) : z.getU e u = w.getU e u := by rw [← hw, State.getU_putSet]
  have marked : w.pumpSet k = { z.pumpSet k with rebind := none } := by rw [← hw, State.pumpSet_putSet_same]
  constructor
  · split
    · exact marked
    · exact (State.pumpSet_congr (s := w) (by simp) k).trans marked
  · rintro n i b rfl rfl rfl hengine hlead hkind
    simp only [reads] at hengine hlead hkind ⊢
    rw [if_neg (by simp [hengine, hlead, hkind]), State.getU_setU_same]

/-- PUMP_ROTATION (R563): the standby that has stood longest starts. -/
theorem pumpRotation_starts (hz : z = s.at t) (hon : z.plantOn = true) (hk : k < 8) (hset : (z.pumpSet k).isOn = true)
    (hdue : (z.pumpSet k).ordered = true ∨ (z.getU E.PS_ROTATE_TURNS k ≠ 0
      ∧ (z.pumpSet k).lastRotation + z.getU E.PS_ROTATE_TURNS k ≤ z.turn))
    (hbranches : ∀ b ∈ z.branchesOf k, (z.branch b).trend = false ∧ (z.branch b).stop ≠ 1 ∧ (z.branch b).leak = 0)
    (hpumps : ∀ j ∈ z.pumpsOf k, z.getU E.PUMP_ROLE j ≠ 3 ∧ (z.pump j).starting = none)
    (hidle : (z.pumpSet k).rotating = none)
    (hstandby : maxBy (fun j => z.turn - (z.pump j).lastRan) (z.standbys k) = some i) :
    Answers (.pumpRotation t k) s fun u =>
      u.pumpSet k = { z.pumpSet k with ordered := false, lastRotation := z.turn, rotating := some i }
        ∧ (u.pump i).starting = some z.tick ∧ (u.pump i).startedAt = z.now ∧ (u.pump i).runCmd = true := by
  subst hz
  refine ⟨_, rfl, ?_⟩
  generalize s.at t = z at *
  have flows : ((z.branchesOf k).any fun b => let y := z.branch b; y.trend || y.stop == 1 || y.leak != 0) = false :=
    List.any_eq_false.2 fun b hb => by
      obtain ⟨htrend, hstop, hleak⟩ := hbranches b hb
      simp [htrend, hstop, hleak]
  have stands : ((z.pumpsOf k).any fun i => z.getU E.PUMP_ROLE i == 3 || (z.pump i).starting.isSome) = false :=
    List.any_eq_false.2 fun j hj => by
      obtain ⟨hrole, hstart⟩ := hpumps j hj
      simp [hrole, hstart]
  rw [State.when_of (by simp [hon, hk, hset, flows, stands, hidle, hdue])]
  dsimp only
  generalize hw : z.putSet k { z.pumpSet k with ordered := false, lastRotation := z.turn } = w
  have chosen : maxBy (fun j => w.turn - (w.pump j).lastRan) (w.standbys k) = some i := by
    rw [← hw]
    exact hstandby
  have marked : w.pumpSet k = { z.pumpSet k with ordered := false, lastRotation := z.turn } := by
    rw [← hw, State.pumpSet_putSet_same]
  simp only [chosen]
  obtain ⟨starting, startedAt, runCmd⟩ :=
    State.startPump_pump (w.putSet k { w.pumpSet k with rotating := some i }) i
  refine ⟨?_, ?_, ?_, runCmd⟩
  · rw [State.startPump_pumpSet, State.pumpSet_putSet_same, marked]
  · rw [starting, ← hw]
    rfl
  · rw [startedAt, ← hw]
    rfl

/-- PS_CMD (R563): a rotation is ordered. -/
theorem psCmd_orders {a : State} {rx : Rx} {live : Bool} (hs : (s.at t).screen rx psCmdService = .run live a)
    (hi : i = (Req.parse rx).index - E.PS_CMD.key / 256) :
    Answers (.psCmd t rx) s fun u => u.pumpSet i = { a.pumpSet i with ordered := true } :=
  answers_of_cmd rfl hs hi fun _ =>
    (State.pumpSet_congr (s := a.putSet i { a.pumpSet i with ordered := true }) (by simp) i).trans
      (State.pumpSet_putSet_same _ _ _)

end

end Sys2Proof.Machine

namespace Sys2Proof.Proofs

open Sys2Proof Sys2Proof.Machine

/-- Settles O48, command by command. -/
theorem pumpsTurn : Obligations.PumpsTurn := by
  unfold Obligations.PumpsTurn
  refine ⟨?timeout, ?standby, ?rebind, ?rotation, ?order⟩
  case timeout =>
    exact fun s z t k j i hz hi hon hk hj hstarting hdue => pumpStartTimeout_trips hz hi hon hk hj hstarting hdue
  case standby =>
    exact fun s z t k j i f hz hi hclear hon hrole hdue => pumpStandbyReturn_returns hz hi hclear hon hrole hdue
  case rebind => exact fun s z t k f hz hrebind hon hf => leadRebind_rebinds hz hrebind hon hf
  case rotation =>
    exact fun s z t k i hz hon hk hset hdue hbranches hpumps hidle hstandby =>
      pumpRotation_starts hz hon hk hset hdue hbranches hpumps hidle hstandby
  case order => exact fun s a t i rx live hs hi => psCmd_orders hs hi

end Sys2Proof.Proofs
end

section
/-! PROOFS. The statements of spec/14_valve_drivers.md: the profile of a channel, its seating windows and demands, its
faults, and the spare that takes its output. -/

namespace Sys2Proof.Machine

open Sys2Proof

/-! ### Channels and banks (R457) -/

theorem State.valve_congr {s t : State} (h : t.ioc = s.ioc) (c : Nat) : t.valve c = s.valve c := by
  unfold State.valve
  rw [h]

theorem State.bank_congr {s t : State} (h : t.ioc = s.ioc) (b : Nat) : t.bank b = s.bank b := by
  unfold State.bank
  rw [h]

@[simp] theorem State.valve_setU (s : State) (e : Ent) (u v c : Nat) : (s.setU e u v).valve c = s.valve c := rfl

@[simp] theorem State.bank_putValve (s : State) (c : Nat) (x : Valve) (b : Nat) :
    (s.putValve c x).bank b = s.bank b := rfl

@[simp] theorem State.phase_putValve (s : State) (c : Nat) (x : Valve) (d : Nat) :
    (s.putValve c x).phase d = s.phase d := rfl

/-- A latch leaves the phase of every channel. -/
theorem State.phase_latch (s : State) {f : Ent} (b key c : Nat) (h : E.VALVE_PHASE.key % 256 ≠ f.key % 256) :
    (s.latch f b key).phase c = s.phase c := State.getU_latch_of_subs s b key c (by decide) h

theorem State.valve_latch (s : State) (f : Ent) (b key c : Nat) : (s.latch f b key).valve c = s.valve c :=
  State.valve_congr (by simp) c

theorem State.bank_latch (s : State) (f : Ent) (b key k : Nat) : (s.latch f b key).bank k = s.bank k :=
  State.bank_congr (by simp) k

/-! ### Entering a phase (R462, R487) -/

theorem State.phase_setPhase_same (s : State) (c ph : Nat) : (s.setPhase c ph).phase c = ph := by
  unfold State.setPhase
  dsimp only
  rw [State.phase, State.getU_setU_of_sub _ _ _ _ (by decide)]
  exact State.getU_setU_same _ _ _ _

theorem State.phase_setPhase_ne (s : State) {c d : Nat} (h : d ≠ c) (ph : Nat) :
    (s.setPhase c ph).phase d = s.phase d := by
  unfold State.setPhase
  dsimp only
  rw [State.phase, State.getU_setU_of_sub _ _ _ _ (by decide)]
  exact State.getU_setU_ne _ _ _ _ _ _ (by omega)

theorem State.getU_setPhase_of_sub (s : State) (c ph : Nat) {e : Ent} (w : Nat)
    (hphase : e.key % 256 ≠ E.VALVE_PHASE.key % 256) (hrail : e.key % 256 ≠ E.BANK_RAIL.key % 256) :
    (s.setPhase c ph).getU e w = s.getU e w := by
  unfold State.setPhase
  dsimp only
  rw [State.getU_setU_of_sub _ _ _ _ hrail, State.getU_putValve, State.getU_setU_of_sub _ _ _ _ hphase]

theorem State.valve_setPhase_same (s : State) (c ph : Nat) :
    (s.setPhase c ph).valve c = { s.valve c with phaseFrom := s.now } := State.valve_putValve_same _ _ _

theorem State.bank_setPhase (s : State) (c ph b : Nat) : (s.setPhase c ph).bank b = s.bank b := rfl

/-! ### Queues and windows (R465, R472 to R475) -/

theorem State.leaveQueue_regs (s : State) (c : Nat) : (s.leaveQueue c).regs = s.regs := by
  unfold State.leaveQueue
  dsimp only
  split <;> rfl

theorem State.getU_leaveQueue (s : State) (c : Nat) (e : Ent) (w : Nat) : (s.leaveQueue c).getU e w = s.getU e w :=
  State.getU_congr (s.leaveQueue_regs c) e w

theorem State.valve_leaveQueue (s : State) (c d : Nat) : (s.leaveQueue c).valve d = s.valve d := by
  unfold State.leaveQueue
  dsimp only
  split <;> rfl

theorem State.leaveQueue_now (s : State) (c : Nat) : (s.leaveQueue c).now = s.now := by
  unfold State.leaveQueue
  dsimp only
  split <;> rfl

theorem State.leaveQueue_wheel (s : State) (c : Nat) : (s.leaveQueue c).wheel = s.wheel := by
  unfold State.leaveQueue
  dsimp only
  split <;> rfl

/-- A channel that leaves its queue leaves the banks' faults as they are. -/
theorem State.bank_leaveQueue_fault (s : State) (c b : Nat) : ((s.leaveQueue c).bank b).fault = (s.bank b).fault := by
  unfold State.leaveQueue
  dsimp only
  split
  · by_cases h : b = c / 4
    · subst h
      rw [State.bank_putBank_same]
    · exact congrArg Bank.fault (AMap.getD_set_ne _ h _ _)
  · rfl

theorem State.endSeat_regs (s : State) (c result tick delay : Nat) : (s.endSeat c result tick delay).regs = s.regs := by
  unfold State.endSeat
  dsimp only
  split <;> rfl

theorem State.getU_abandonSeat (s : State) (c : Nat) (e : Ent) (w : Nat) : (s.abandonSeat c).getU e w = s.getU e w :=
  State.getU_congr (s.endSeat_regs c 3 s.tick 0) e w

/-- An open window that ends leaves its result to be shown. -/
theorem State.endSeat_of_open {s : State} {c event start : Nat} (h : (s.valve c).seat = some (event, start))
    (result tick delay : Nat) :
    ((s.endSeat c result tick delay).valve c).seat = none
      ∧ ((s.endSeat c result tick delay).valve c).seatEnd = some ⟨result, event, tick, delay, s.tick, start⟩ := by
  have ended : s.endSeat c result tick delay = s.putValve c { s.valve c with
      seat := none, seatEnd := some ⟨result, event, tick, delay, s.tick, start⟩ } := by
    simp only [State.endSeat, h]
  rw [ended, State.valve_putValve_same]
  exact ⟨rfl, rfl⟩

/-! ### The steps of the profile (R462, R469, R470) -/

/-- Boost starts with its phase and one more start counted. -/
theorem State.startBoost_phase (s : State) (c : Nat) : (s.startBoost c).phase c = 2 := by
  rw [State.startBoost, State.phase, State.getU_incU_of_sub _ _ _ (by decide)]
  exact State.phase_setPhase_same _ _ _

theorem State.startBoost_count (s : State) (c : Nat) :
    (s.startBoost c).getU E.ENERGISE_COUNT c = (s.getU E.ENERGISE_COUNT c + 1) % 2 ^ 64 := by
  rw [State.startBoost, State.getU_incU_same, State.getU_setPhase_of_sub _ _ _ _ (by decide) (by decide),
    State.getU_abandonSeat, State.getU_leaveQueue]

/-- A channel that is off boosts at once when its bank admits it and no other channel waits (R469). -/
theorem State.energise_of_admitted {s : State} {c : Nat} (hphase : s.phase c ≠ 1)
    (hqueue : (s.bank (c / 4)).queue = []) (hadmit : s.admits c = true) : s.energise c = s.startBoost c := by
  simp [State.energise, hphase, hqueue, hadmit]

/-- What a channel shows in peak: the phase, from which instant, and whether its boost was cut short. -/
theorem State.toPeak_of_short_queue {s : State} {c : Nat} (h : (s.bank (c / 4)).long = false) (short : Bool) :
    (s.toPeak c short).phase c = 3 ∧ ((s.toPeak c short).valve c).peakShort = short
      ∧ ((s.toPeak c short).valve c).phaseFrom = s.now := by
  have peak : s.toPeak c short
      = (s.setPhase c 3).putValve c { (s.setPhase c 3).valve c with peakShort := short } := by
    unfold State.toPeak
    dsimp only
    rw [State.bank_putValve, State.bank_setPhase, h, if_neg (by decide)]
  rw [peak, State.phase_putValve, State.phase_setPhase_same, State.valve_putValve_same, State.valve_setPhase_same]
  exact ⟨rfl, rfl, rfl⟩

/-- A channel that was not cut enters descent, where its window opens. -/
theorem State.toDescent_of_uncut (s : State) (c : Nat) :
    (s.toDescent c false).phase c = 4 ∧ ((s.toDescent c false).valve c).seat = some (0, s.now) := by
  unfold State.toDescent
  dsimp only
  rw [if_neg Bool.false_ne_true, State.valve_putValve_same, State.phase_putValve, State.openSeat, State.phase_putValve,
    State.phase_setPhase_same, State.valve_putValve_same]
  exact ⟨rfl, rfl⟩

theorem State.toDescent_bank (s : State) (c : Nat) (cut : Bool) (b : Nat) : (s.toDescent c cut).bank b = s.bank b := by
  unfold State.toDescent
  dsimp only
  split
  · rw [State.bank_latch, State.bank_putValve, State.openSeat, State.bank_putValve, State.bank_setPhase]
  · rw [State.bank_putValve, State.openSeat, State.bank_putValve, State.bank_setPhase]

/-- Cutting peaks short leaves the banks' queues as they are. -/
theorem State.cutPeaks_bank (s : State) (b k : Nat) : (s.cutPeaks b).bank k = s.bank k := by
  unfold State.cutPeaks
  split
  · rfl
  · refine foldl_eq_of_step (p := fun s => s.bank k) (fun u c => ?_) _ s
    split
    · rfl
    · exact u.toDescent_bank c true k

/-! ### What each event of the profile leaves -/

section

variable {s z : State} {t ch : Nat}

/-- BOOST_ADMIT (R469). -/
theorem boostAdmit_starts {bank c : Nat} {rest : List Nat} (hz : z = s.at t) (hbank : bank < 14)
    (hqueue : (z.bank bank).queue = c :: rest) (hadmit : z.admits c = true) :
    Answers (.boostAdmit t bank) s fun u =>
      u.phase c = 2 ∧ u.getU E.ENERGISE_COUNT c = (z.getU E.ENERGISE_COUNT c + 1) % 2 ^ 64 := by
  subst hz
  refine ⟨_, rfl, ?_⟩
  generalize s.at t = z at *
  simp only [hqueue]
  rw [State.when_of (by simp [hbank, hadmit])]
  exact ⟨State.startBoost_phase _ _, State.startBoost_count _ _⟩

/-- BOOST_END (R462). -/
theorem boostEnd_peaks {current : Nat} (hz : z = s.at t) (hphase : z.phase ch = 2)
    (hpeak : z.getU E.PEAK_A ch ≤ current) (hlong : (z.bank (ch / 4)).long = false) :
    Answers (.boostEnd t ch current) s fun u =>
      u.phase ch = 3 ∧ (u.valve ch).peakShort = false ∧ (u.valve ch).phaseFrom = z.now := by
  subst hz
  exact answers_of_when rfl (by simp [hphase, hpeak]) (State.toPeak_of_short_queue hlong false)

/-- BOOST_TIMEOUT (R464). -/
theorem boostTimeout_peaks (hz : z = s.at t) (hphase : z.phase ch = 2)
    (hdue : (z.valve ch).phaseFrom + z.getU E.BOOST_MAX_US ch * us ≤ z.now)
    (hlong : (z.bank (ch / 4)).long = false) :
    Answers (.boostTimeout t ch) s fun u =>
      u.phase ch = 3 ∧ (u.valve ch).peakShort = true ∧ (u.valve ch).phaseFrom = z.now := by
  subst hz
  refine answers_of_when rfl (by simp [hphase, hdue]) ?_
  rw [State.phase_latch _ _ _ _ (by decide), State.valve_latch]
  exact State.toPeak_of_short_queue hlong true

/-- PEAK_END (R462, R472). -/
theorem peakEnd_descends (hz : z = s.at t) (hphase : z.phase ch = 3)
    (hdue : (z.valve ch).phaseFrom + z.getU E.PEAK_US ch * us ≤ z.now) :
    Answers (.peakEnd t ch) s fun u => u.phase ch = 4 ∧ (u.valve ch).seat = some (0, z.now) := by
  subst hz
  exact answers_of_when rfl (by simp [hphase, hdue]) (State.toDescent_of_uncut _ _)

/-- BOOST_WAIT_LONG (R470): the bank's wait is marked. -/
theorem boostWaitLong_marks {bank c : Nat} {rest : List Nat} (hz : z = s.at t) (hbank : bank < 14)
    (hqueue : (z.bank bank).queue = c :: rest) (hlong : (z.bank bank).long = false)
    (hdue : (z.valve c).queuedAt + 2 * ms ≤ z.now) :
    Answers (.boostWaitLong t bank) s fun u => u.bank bank = { z.bank bank with long := true } := by
  subst hz
  refine ⟨_, rfl, ?_⟩
  generalize s.at t = z at *
  simp only [hqueue]
  rw [State.when_of (by simp [hbank, hlong, hdue]), State.cutPeaks_bank, State.bank_latch, State.bank_putBank_same]

/-- DESCENT_END (R462). -/
theorem descentEnd_holds {current : Nat} (hz : z = s.at t) (hlow : current ≤ z.getU E.HOLD_A ch)
    (hphase : z.phase ch = 4) : Answers (.descentEnd t ch current) s fun u => u.phase ch = 5 := by
  subst hz
  refine answers_of_when rfl (by simp [hlow, State.lowSide, hphase]) ?_
  rw [if_neg (by omega)]
  exact State.phase_setPhase_same _ _ _

/-- RELEASE_END (R462). -/
theorem releaseEnd_isOff {current : Nat} (hz : z = s.at t) (hlow : current < 50) (hphase : z.phase ch = 6) :
    Answers (.releaseEnd t ch current) s fun u => u.phase ch = 0 := by
  subst hz
  refine answers_of_when rfl (by simp [hlow, State.lowSide, hphase]) ?_
  rw [if_neg (by omega)]
  exact State.phase_setPhase_same _ _ _

end

end Sys2Proof.Machine

namespace Sys2Proof.Proofs

open Sys2Proof Sys2Proof.Machine

/-- Settles O40, event by event. -/
theorem profilesMove : Obligations.ProfilesMove := by
  unfold Obligations.ProfilesMove
  refine ⟨?start, ?boost, ?timeout, ?peak, ?wait, ?descent, ?release⟩
  case start => exact fun s z t bank c rest hz hbank hqueue hadmit => boostAdmit_starts hz hbank hqueue hadmit
  case boost => exact fun s z t ch current hz hphase hpeak hlong => boostEnd_peaks hz hphase hpeak hlong
  case timeout => exact fun s z t ch hz _ hphase hdue hlong => boostTimeout_peaks hz hphase hdue hlong
  case peak => exact fun s z t ch hz hphase hdue => peakEnd_descends hz hphase hdue
  case wait =>
    exact fun s z t bank c rest hz hbank hqueue hlong hdue => boostWaitLong_marks hz hbank hqueue hlong hdue
  case descent => exact fun s z t ch current hz hlow hphase => descentEnd_holds hz hlow hphase
  case release => exact fun s z t ch current hz hlow hphase => releaseEnd_isOff hz hlow hphase

end Sys2Proof.Proofs
end

section
/-! PROOFS. The statements of spec/14_valve_drivers.md on seating results and the commands of a channel. -/

namespace Sys2Proof.Machine

open Sys2Proof

/-! ### What a seating result does to a branch's isolation (R571, R572) -/

theorem State.getU_plantValve (s : State) (c d : Nat) (e : Ent) (w : Nat) : (s.plantValve c d).getU e w = s.getU e w :=
  rfl

/-- Confirming an isolation writes branches, demands and the plant's latches alone. -/
theorem State.getU_isolationConfirm (s : State) (c : Nat) (r : SeatEnd) {e : Ent} {w : Nat} (hw : w < 256)
    (hk : e.key < 0x7F0000) : (s.isolationConfirm c r).getU e w = s.getU e w := by
  have latched (u : State) (b key : Nat) : (u.latch E.PLANT_LATCHES b key).getU e w = u.getU e w :=
    State.getU_latch_ne _ _ _ _ _ _ (notMem_logKeys_of_lt (by omega)) (by simp only [E.PLANT_LATCHES]; omega)
  unfold State.isolationConfirm
  refine foldl_eq_of_step (p := fun u => u.getU e w) (fun u p => ?_) _ s
  simp only [State.getU_ite, latched, State.getU_putBranch, State.getU_plantValve, ite_self]

/-! ### Faults and their clearing (R476, R477, R485) -/

/-- A channel's clearing ends the faults whose cause has ended: what is left are a hot switch and a failed driver. -/
theorem valveCmdClear_leaves {s a : State} {t i : Nat} {rx : Rx} {live : Bool}
    (hs : (s.at t).screen rx valveCmdClearService = .run live a)
    (hi : i = (Req.parse rx).index - E.VALVE_CMD.key / 256) (hbeyond : a.valveFaultBit i 3 = false) :
    Answers (.valveCmdClear t rx) s fun u =>
      u.getU E.VALVE_FAULT i = (if a.valveFaultBit i 4 = true ∧ 125 ≤ (a.valve i).temp then 16 else 0)
        + (if a.valveFaultBit i 5 = true ∧ a.isActive (valveRow i) = false then 32 else 0) := by
  have serves : exec (.valveCmdClear t rx) s = .next ((s.at t).serve rx valveCmdClearService) := rfl
  unfold valveCmdClearService valveCmd at serves hs
  refine answers_of_cmd serves hs hi fun ans => ?_
  simp only [hbeyond, Bool.false_eq_true, if_false]
  rw [State.getU_answer _ _ _ _ _ (notMem_of_sub (by decide) i), State.getU_setU_same]
  have bits (x : Valve) (b : Nat) : (a.putValve i x).valveFaultBit i b = a.valveFaultBit i b := rfl
  have role (x : Valve) : (a.putValve i x).isActive (valveRow i) = a.isActive (valveRow i) := rfl
  cases hshort : a.valveFaultBit i 2
  · simp
  · simp [bits, role]

section

variable {s z a : State} {t ch i : Nat} {rx : Rx} {live : Bool}

/-! ### What each event of a window leaves -/

/-- SEAT_KINK (R473): a kink in time ends the window. -/
theorem seatKink_seats {kink event start : Nat} (hz : z = s.at t) (hseat : (z.valve ch).seat = some (event, start))
    (hkink : z.getU E.SEAT_KINK ch < kink) (htime : z.now ≤ start + z.getU E.SEAT_WINDOW_MS ch * ms) :
    Answers (.seatKink t ch kink) s fun u =>
      (u.valve ch).seat = none ∧ (u.valve ch).seatEnd = some
        ⟨1, event, z.tick, (z.now - (z.valve ch).latchedAt) / 250000, z.tick, start⟩ := by
  subst hz
  refine ⟨_, rfl, ?_⟩
  generalize s.at t = z at *
  simp only [hseat]
  rw [State.when_of (by simp [hkink, htime])]
  exact State.endSeat_of_open hseat _ _ _

/-- SEAT_WINDOW_END (R473): no kink came in time. -/
theorem seatWindowEnd_ends {event start : Nat} (hz : z = s.at t) (hseat : (z.valve ch).seat = some (event, start))
    (hdue : start + z.getU E.SEAT_WINDOW_MS ch * ms ≤ z.now) :
    Answers (.seatWindowEnd t ch) s fun u =>
      (u.valve ch).seat = none ∧ (u.valve ch).seatEnd = some ⟨2, event, z.tick, 0, z.tick, start⟩ := by
  subst hz
  refine ⟨_, rfl, ?_⟩
  generalize s.at t = z at *
  simp only [hseat]
  rw [State.when_of (by simp [hdue])]
  exact State.endSeat_of_open hseat _ _ _

/-- SEAT_RESULT_PUBLISH (R474, R475): the entries show the result. -/
theorem seatResultPublish_shows {r : SeatEnd} (hz : z = s.at t) (hch : ch < 56) (hend : (z.valve ch).seatEnd = some r)
    (hdue : r.ended < z.tick) :
    Answers (.seatResultPublish t ch) s fun u =>
      u.getU E.SEAT_RESULT ch = r.result ∧ u.getU E.SEAT_EVENT ch = r.event ∧ u.getU E.SEAT_TICK ch = r.tick
        ∧ u.getU E.SEAT_DELAY ch = r.delay := by
  subst hz
  refine ⟨_, rfl, ?_⟩
  generalize s.at t = z at *
  simp only [hend]
  rw [State.when_of (by simp [hdue])]
  have hw : ch < 256 := by omega
  have kept (u : State) (c : Bool) {e : Ent} (hk : e.key < 0x8F0000) (h : e.key % 256 ≠ E.VALVE_LATCHES.key % 256) :
      (if c then u.latch E.VALVE_LATCHES 4 (valveKey ch) else u).getU e ch = u.getU e ch := by
    split
    · exact State.getU_latch_of_sub _ _ _ hw hk h
    · rfl
  refine ⟨?_, ?_, ?_, ?_⟩ <;>
    simp (disch := decide) only [State.getU_isolationConfirm _ _ _ hw, kept, State.getU_setU_of_sub,
      State.getU_setU_same]

/-! ### What each command of a channel leaves -/

theorem State.valve_answer (s : State) (q : Req) (ans : Ans) (c : Nat) : (s.answer q ans).valve c = s.valve c :=
  State.valve_congr (by simp) c

/-- The host's demand of a channel is noted as new (R460). -/
theorem State.valve_hostValve (s : State) (c d : Nat) :
    (s.hostValve c d).valve c = { s.valve c with host := d, fresh := 3 :: (s.valve c).fresh } :=
  State.valve_putValve_same _ _ _

/-- VALVE_CMD 0 (R460). -/
theorem valveCmdDeenergise_demands (hs : (s.at t).screen rx valveCmdDeenergiseService = .run live a)
    (hi : i = (Req.parse rx).index - E.VALVE_CMD.key / 256) :
    Answers (.valveCmdDeenergise t rx) s fun u =>
      u.valve i = { a.valve i with host := 0, fresh := 3 :: (a.valve i).fresh } := by
  have serves : exec (.valveCmdDeenergise t rx) s = .next ((s.at t).serve rx valveCmdDeenergiseService) := rfl
  unfold valveCmdDeenergiseService valveCmd at serves hs
  exact answers_of_cmd serves hs hi fun _ => (State.valve_answer _ _ _ _).trans (a.valve_hostValve i 0)

/-- VALVE_CMD 1 (R460). -/
theorem valveCmdEnergise_demands (hs : (s.at t).screen rx valveCmdEnergiseService = .run live a)
    (hi : i = (Req.parse rx).index - E.VALVE_CMD.key / 256) :
    Answers (.valveCmdEnergise t rx) s fun u =>
      u.valve i = { a.valve i with host := 1, fresh := 3 :: (a.valve i).fresh } := by
  have serves : exec (.valveCmdEnergise t rx) s = .next ((s.at t).serve rx valveCmdEnergiseService) := rfl
  unfold valveCmdEnergiseService valveCmd at serves hs
  exact answers_of_cmd serves hs hi fun _ => (State.valve_answer _ _ _ _).trans (a.valve_hostValve i 1)

end

end Sys2Proof.Machine

namespace Sys2Proof.Proofs

open Sys2Proof Sys2Proof.Machine

/-- Settles O41, command by command. -/
theorem seatsAndDemands : Obligations.SeatsAndDemands := by
  unfold Obligations.SeatsAndDemands
  refine ⟨?kink, ?windowEnd, ?publish, ?deenergise, ?energise, ?clear⟩
  case kink => exact fun s z t ch kink event start hz hseat hkink htime => seatKink_seats hz hseat hkink htime
  case windowEnd => exact fun s z t ch event start hz hseat hdue => seatWindowEnd_ends hz hseat hdue
  case publish => exact fun s z t ch r hz hch hend hdue => seatResultPublish_shows hz hch hend hdue
  case deenergise => exact fun s a t i rx live hs hi => valveCmdDeenergise_demands hs hi
  case energise => exact fun s a t i rx live hs hi => valveCmdEnergise_demands hs hi
  case clear => exact fun s a t i rx live hs hi _ hbeyond => valveCmdClear_leaves hs hi hbeyond

end Sys2Proof.Proofs
end

section
/-! PROOFS. The statements of spec/14_valve_drivers.md on the faults of a channel and its take-over. -/

namespace Sys2Proof.Machine

open Sys2Proof

/-! ### Faults of a channel (R476) -/

/-- A fault sets its bit. -/
theorem State.valveFault_bit (s : State) (c b : Nat) :
    (s.valveFault c b).getU E.VALVE_FAULT c = setBit (s.getU E.VALVE_FAULT c) b := by
  rw [State.valveFault, State.getU_latch_of_subs _ _ _ _ (by decide) (by decide), State.getU_inc_of_sub _ _ (by decide),
    State.getU_setU_same]

theorem State.valveFault_ioc (s : State) (c b : Nat) : (s.valveFault c b).ioc = s.ioc := by simp [State.valveFault]

theorem State.valveFault_phase (s : State) (c b d : Nat) : (s.valveFault c b).phase d = s.phase d := by
  rw [State.valveFault, State.phase_latch _ _ _ _ (by decide), State.phase, State.getU_inc_of_sub _ _ (by decide)]
  exact State.getU_setU_of_sub _ _ _ _ (by decide)

theorem State.faultOff_phase (s : State) (c : Nat) : (s.faultOff c).phase c = 7 := State.phase_setPhase_same _ _ _

theorem State.faultOff_phase_ne (s : State) {c d : Nat} (h : d ≠ c) : (s.faultOff c).phase d = s.phase d := by
  rw [State.faultOff, State.phase_setPhase_ne _ h]
  exact State.getU_leaveQueue _ _ _ _

/-- Fault-off leaves the fault bits. -/
theorem State.faultOff_fault (s : State) (c d : Nat) :
    (s.faultOff c).getU E.VALVE_FAULT d = s.getU E.VALVE_FAULT d := by
  rw [State.faultOff, State.getU_setPhase_of_sub _ _ _ _ (by decide) (by decide), State.getU_leaveQueue]

theorem State.faultOff_valve (s : State) (c : Nat) :
    (s.faultOff c).valve c = { s.valve c with phaseFrom := s.now } := by
  rw [State.faultOff, State.valve_setPhase_same, State.valve_leaveQueue, State.leaveQueue_now]

theorem State.faultOff_now (s : State) (c : Nat) : (s.faultOff c).now = s.now := s.leaveQueue_now c

theorem State.faultOff_tick (s : State) (c : Nat) : (s.faultOff c).tick = s.tick := by
  simp [State.faultOff, State.setPhase, State.putValve, State.tick, State.leaveQueue_wheel]

theorem State.faultOff_bank_fault (s : State) (c b : Nat) : ((s.faultOff c).bank b).fault = (s.bank b).fault := by
  rw [State.faultOff, State.bank_setPhase, State.bank_leaveQueue_fault]

/-- Channels that fault together are all off, whatever bit their fault sets. -/
theorem State.foldl_fault_phase (b c : Nat) (l : List Nat) (s : State) (h : c ∈ l ∨ s.phase c = 7) :
    (l.foldl (fun s c => (s.valveFault c b).faultOff c) s).phase c = 7 := by
  induction l generalizing s with
  | nil => exact h.resolve_left (List.not_mem_nil)
  | cons d l ih =>
    refine ih _ ?_
    by_cases hc : c = d
    · subst hc
      exact .inr (State.faultOff_phase _ _)
    · rw [State.faultOff_phase_ne _ hc, State.valveFault_phase]
      exact h.imp_left fun hmem => (List.mem_cons.1 hmem).resolve_left hc

theorem State.foldl_fault_bank (b k : Nat) (l : List Nat) (s : State) :
    ((l.foldl (fun s c => (s.valveFault c b).faultOff c) s).bank k).fault = (s.bank k).fault :=
  foldl_eq_of_step (p := fun s => (s.bank k).fault) (fun u c => by
    rw [State.faultOff_bank_fault, State.bank_congr (u.valveFault_ioc c b)]) l s

/-! ### A spare takes a channel (R478, R479) -/

@[simp] theorem State.putValve_wear (s : State) (c : Nat) (x : Valve) : (s.putValve c x).wear = s.wear := rfl

theorem State.rebindSink_wear (s : State) (kind n a : Nat) : (s.rebindSink kind n a).wear = s.wear := by
  simp [State.rebindSink]

/-- Rebinding a sink writes the engines' output bindings alone. -/
theorem State.getU_rebindSink_of_sub (s : State) (kind n a : Nat) {e : Ent} (w : Nat)
    (h : e.key % 256 ≠ E.OUT_BIND.key % 256) : (s.rebindSink kind n a).getU e w = s.getU e w := by
  refine foldl_eq_of_step (p := fun u => u.getU e w) (fun u k => ?_) _ s
  dsimp only
  split
  · exact State.getU_setU_of_sub _ _ _ _ h
  · rfl

/-- The channel that gives its output up has none, and names the spare. -/
theorem State.moveValve_output (s : State) (c a : Nat) :
    (s.moveValve c a).getU E.VALVE_OUTPUT c = 0xFF ∧ (s.moveValve c a).getU E.VALVE_MOVED_TO c = a := by
  unfold State.moveValve
  constructor <;>
    simp (disch := decide) only [State.getU_latch_of_subs, State.getU_inc_of_sub, State.getU_rebindSink_of_sub,
      State.getU_setU_of_sub, State.getU_setU_same]

theorem State.moveValve_wear (s : State) (c a : Nat) : (s.moveValve c a).wear = s.wear := by
  simp only [State.moveValve, State.latch_frame, State.inc_frame, State.rebindSink_wear, State.setU_frame,
    State.putValve_wear, State.copyKeys_wear]

/-! ### What each event of a channel's faults leaves -/

section

variable {s z : State} {t ch : Nat}

/-- VALVE_OPEN_ON (R476). -/
theorem valveOpenOn_faults {current : Nat} (hz : z = s.at t) (hphase : z.phase ch = 2) (hcurrent : current < 100)
    (htime : (z.valve ch).phaseFrom + 500 * us ≤ z.now) :
    Answers (.valveOpenOn t ch current) s fun u =>
      u.phase ch = 7 ∧ u.getU E.VALVE_FAULT ch = setBit (z.getU E.VALVE_FAULT ch) 0 := by
  subst hz
  refine answers_of_when rfl (by simp [hphase, hcurrent, htime]) ⟨State.faultOff_phase _ _, ?_⟩
  rw [State.faultOff_fault, State.valveFault_bit]

/-- VALVE_SHORT (R476): the first short of a demand has a retry 10 ms later, and a further one has none. -/
theorem valveShort_faults (hz : z = s.at t) (hphase : z.phase ch = 2 ∨ z.phase ch = 3 ∨ z.phase ch = 5) :
    Answers (.valveShort t ch) s fun u =>
      u.phase ch = 7 ∧ u.getU E.VALVE_FAULT ch = setBit (z.getU E.VALVE_FAULT ch) 2
        ∧ (u.valve ch).shorts = (z.valve ch).shorts + 1
        ∧ (u.valve ch).retryAt = if (z.valve ch).shorts = 0 then some (z.now + 10 * ms) else none := by
  subst hz
  generalize hz : s.at t = z at hphase
  have low : z.lowSide ch = z.phase ch := if_neg (by omega)
  refine ⟨_, rfl, ?_⟩
  rw [hz, State.when_of (by simpa [low, or_assoc] using hphase)]
  dsimp only
  generalize hy : (z.valveFault ch 2).faultOff ch = y
  have off : y.phase ch = 7 := hy ▸ State.faultOff_phase _ _
  have bit : y.getU E.VALVE_FAULT ch = setBit (z.getU E.VALVE_FAULT ch) 2 := by
    rw [← hy, State.faultOff_fault, State.valveFault_bit]
  have shorts : (y.valve ch).shorts = (z.valve ch).shorts := by
    rw [← hy, State.faultOff_valve, State.valve_congr (z.valveFault_ioc ch 2)]
  have now : y.now = z.now := by simp [← hy, State.faultOff_now, State.valveFault]
  rw [State.phase_putValve, State.valve_putValve_same, State.getU_putValve, shorts, now]
  exact ⟨off, bit, rfl, rfl⟩

/-- VALVE_SHORT_RETRY (R476): with room in the bank the channel boosts again. -/
theorem valveShortRetry_starts {due : Nat} (hz : z = s.at t) (hretry : (z.valve ch).retryAt = some due)
    (hdue : due ≤ z.now) (hdemand : z.getU E.VALVE_DEMAND ch = 1) (hrole : z.isActive (valveRow ch) = true)
    (hfeed : z.ioc.valvesLow = false) (hbeyond : z.valveFaultBit ch 3 = false) (hphase : z.phase ch = 7)
    (hqueue : (z.bank (ch / 4)).queue = []) (hadmit : z.admits ch = true) :
    Answers (.valveShortRetry t ch) s fun u =>
      u.phase ch = 2 ∧ u.getU E.ENERGISE_COUNT ch = (z.getU E.ENERGISE_COUNT ch + 1) % 2 ^ 64 := by
  subst hz
  refine ⟨_, rfl, ?_⟩
  generalize s.at t = z at *
  simp only [hretry]
  rw [State.when_of (by simp [hdue])]
  generalize hy : z.putValve ch { z.valve ch with retryAt := none } = y
  have demand : y.getU E.VALVE_DEMAND ch = 1 := by rw [← hy, State.getU_putValve, hdemand]
  have role : y.isActive (valveRow ch) = true := by rw [← hy]; exact hrole
  have feed : y.ioc.valvesLow = false := by rw [← hy]; exact hfeed
  have beyond : y.valveFaultBit ch 3 = false := by rw [← hy]; exact hbeyond
  have phase : y.phase ch ≠ 1 := by rw [← hy, State.phase_putValve, hphase]; decide
  have queue : (y.bank (ch / 4)).queue = [] := by rw [← hy, State.bank_putValve, hqueue]
  have room : y.admits ch = true := by rw [← hy]; exact hadmit
  rw [if_pos (by simp [demand, role, feed, beyond]), State.energise_of_admitted phase queue room]
  refine ⟨State.startBoost_phase _ _, ?_⟩
  rw [State.startBoost_count, ← hy, State.getU_putValve]

/-- BANK_OVERCURRENT (R476): the bank's channels are all off. -/
theorem bankOvercurrent_faults {bank current : Nat} (hbank : bank < 14) (hcurrent : 40000 < current) :
    Answers (.bankOvercurrent t bank current) s fun u =>
      (u.bank bank).fault = true ∧ ∀ c ∈ bankChans bank, u.phase c = 7 := by
  refine answers_of_when rfl (by simp [hbank, hcurrent]) ⟨?_, fun c hc => State.foldl_fault_phase 3 c _ _ (.inl hc)⟩
  rw [State.foldl_fault_bank, State.bank_putBank_same]

/-- VALVE_HOT (R476): at 150 °C the channel is off. -/
theorem valveHot_faults {temp : Nat} (hz : z = s.at t) (hch : ch < 56) (htemp : 150 ≤ temp)
    (hfirst : z.valveFaultBit ch 4 = false) :
    Answers (.valveHot t ch temp) s fun u =>
      u.phase ch = 7 ∧ (u.valve ch).temp = temp ∧ u.getU E.VALVE_FAULT ch = setBit (z.getU E.VALVE_FAULT ch) 4 := by
  subst hz
  refine answers_of_when rfl (by simpa using hch) ?_
  generalize s.at t = z at *
  have fresh : (z.putValve ch { z.valve ch with temp := temp }).valveFaultBit ch 4 = false := hfirst
  rw [if_pos (by simp [htemp, fresh])]
  refine ⟨State.faultOff_phase _ _, ?_, ?_⟩
  · rw [State.faultOff_valve, State.valve_congr (State.valveFault_ioc _ _ _), State.valve_putValve_same]
  · rw [State.faultOff_fault, State.valveFault_bit, State.getU_putValve]

/-- VALVE_DRIVER_FAULT (R476, R478): an active channel is fenced, its window gone. -/
theorem valveDriverFault_fences (hz : z = s.at t) (hch : ch < 56) (hpaired : z.paired ch = false)
    (hfollower : z.follower ch = false) (hrole : (z.unit (valveRow ch)).role = 0) :
    Answers (.valveDriverFault t ch false) s fun u =>
      ((u.unit (valveRow ch)).role = 2 ∨ (u.unit (valveRow ch)).role = 4)
        ∧ (u.valve ch).fenceTick = some z.tick ∧ (u.valve ch).seat = none := by
  subst hz
  refine answers_of_when rfl (by simpa using hch) ?_
  generalize s.at t = z at *
  simp only [hpaired, hfollower, Bool.false_eq_true, if_false, List.foldl_cons, List.foldl_nil, State.fenceValve, hrole]
  refine ⟨State.unit_fenceUnit_role _ _, ?_⟩
  rw [State.valve_congr (State.fenceUnit_ioc _ _), State.valve_putValve_same]
  exact ⟨by simp [State.faultOff_tick, State.valveFault, State.tick], rfl⟩

/-- VALVE_TAKEOVER (R478): at the next tick the best tested spare takes the output. -/
theorem valveTakeover_moves {f row : Nat} (hz : z = s.at t) (hfence : (z.valve ch).fenceTick = some f) (hf : f < z.tick)
    (hfollower : z.follower ch = false) (hpaired : z.paired ch = false) (hout : z.getU E.VALVE_OUTPUT ch ≠ 0xFF)
    (hspare : z.bestSpare (kindRows 4) = some row) :
    Answers (.valveTakeover t ch) s fun u =>
      u.getU E.VALVE_OUTPUT ch = 0xFF ∧ u.getU E.VALVE_MOVED_TO ch = row - kindRow 4 ∧ (u.unit row).role = 0 := by
  subst hz
  refine ⟨_, rfl, ?_⟩
  generalize s.at t = z at *
  simp only [hfence]
  rw [State.when_of (by simpa using hf), if_neg (by simp [hfollower, hout]), if_neg (by simp [hpaired])]
  simp only [hspare]
  obtain ⟨output, moved⟩ := (z.promote row (z.getU E.VALVE_OUTPUT ch)).moveValve_output ch (row - kindRow 4)
  refine ⟨output, moved, ?_⟩
  rw [State.unit_congr (State.moveValve_wear _ _ _)]
  exact State.unit_promote_role _ _ _

/-- VALVE_SWITCH_DONE (R478): the spare is connected. -/
theorem valveSwitchDone_connects {out from_ : Nat} (hz : z = s.at t)
    (hmove : (z.valve ch).switching = some (out, from_)) (hdemand : z.getU E.VALVE_DEMAND ch ≠ 1) :
    Answers (.valveSwitchDone t ch) s fun u =>
      u.getU E.VALVE_OUTPUT ch = out ∧ (u.valve ch).switching = none ∧ (u.valve ch).latchedAt = z.now := by
  subst hz
  refine ⟨_, rfl, ?_⟩
  generalize s.at t = z at *
  simp only [hmove]
  rw [if_neg (by rw [State.getU_setU_of_sub _ _ _ _ (by decide), State.getU_putValve]; exact hdemand)]
  refine ⟨State.getU_setU_same _ _ _ _, ?_⟩
  rw [State.valve_setU, State.valve_putValve_same]
  exact ⟨rfl, rfl⟩

end

end Sys2Proof.Machine

namespace Sys2Proof.Proofs

open Sys2Proof Sys2Proof.Machine

/-- Settles O42, event by event. -/
theorem valvesFaultAndMove : Obligations.ValvesFaultAndMove := by
  unfold Obligations.ValvesFaultAndMove
  refine ⟨?openOn, ?short, ?retry, ?overcurrent, ?hot, ?driver, ?takeover, ?switchDone⟩
  case openOn => exact fun s z t ch current hz _ hphase hcurrent htime => valveOpenOn_faults hz hphase hcurrent htime
  case short => exact fun s z t ch hz _ hphase => valveShort_faults hz hphase
  case retry =>
    exact fun s z t ch due hz hretry hdue hdemand hrole hfeed hbeyond hphase hqueue hadmit =>
      valveShortRetry_starts hz hretry hdue hdemand hrole hfeed hbeyond hphase hqueue hadmit
  case overcurrent => exact fun s z t bank current _ hbank hcurrent => bankOvercurrent_faults hbank hcurrent
  case hot => exact fun s z t ch temp hz hch htemp hfirst => valveHot_faults hz hch htemp hfirst
  case driver =>
    exact fun s z t ch hz hch hpaired hfollower hrole => valveDriverFault_fences hz hch hpaired hfollower hrole
  case takeover =>
    exact fun s z t ch f row hz _ hfence hf hfollower hpaired hout hspare =>
      valveTakeover_moves hz hfence hf hfollower hpaired hout hspare
  case switchDone => exact fun s z t ch out from_ hz hmove hdemand => valveSwitchDone_connects hz hmove hdemand

end Sys2Proof.Proofs
end

section
/-! PROOFS. The statements of spec/14_valve_drivers.md, spec/15_fans.md and spec/21 on the feeds and the fuse. -/

namespace Sys2Proof.Machine

open Sys2Proof

/-! ### The feeds of the actuators (R471, R503, R672)

Switching channels off and on again moves their phases, states and voltages. The feed as last reported, the marks that
tell which channels have lost it, the power side and the fuse's entry stand outside that. -/

/-- What the module knows of the feeds: the feed reported, the marks of valves and fans, the power side, the fuse. -/
def State.feedView (s : State) : Nat × Bool × Bool × Elec × Nat :=
  (s.ioc.feed, s.ioc.valvesLow, s.ioc.fansLow, s.elec, s.get E.ACT_FUSE_STATE)

theorem State.feedView_iff {s : State} {feed fuse : Nat} {valves fans : Bool} {elec : Elec} :
    s.feedView = (feed, valves, fans, elec, fuse) ↔ s.ioc.feed = feed ∧ s.ioc.valvesLow = valves
      ∧ s.ioc.fansLow = fans ∧ s.elec = elec ∧ s.get E.ACT_FUSE_STATE = fuse := by
  simp [State.feedView]

theorem State.feedView_foldl {β : Type} {f : State → β → State} (h : ∀ s b, (f s b).feedView = s.feedView) (l : List β)
    (s : State) : (l.foldl f s).feedView = s.feedView := foldl_eq_of_step h l s

theorem State.feedView_setU (s : State) {e : Ent} (u v : Nat) (h : E.ACT_FUSE_STATE.key % 256 ≠ e.key % 256) :
    (s.setU e u v).feedView = s.feedView := by
  simp only [State.feedView, State.setU_frame, State.get_setU_of_sub _ _ _ h]

theorem State.feedView_latch (s : State) {e : Ent} (b key : Nat) (h : E.ACT_FUSE_STATE.key ≠ e.key) :
    (s.latch e b key).feedView = s.feedView := by
  simp only [State.feedView, State.latch_frame, State.get_latch_ne s e E.ACT_FUSE_STATE b key (by decide) h]

theorem State.feedView_putFan (s : State) (c : Nat) (x : Fan) : (s.putFan c x).feedView = s.feedView := rfl

theorem State.feedView_putValve (s : State) (c : Nat) (x : Valve) : (s.putValve c x).feedView = s.feedView := rfl

theorem State.feedView_leaveQueue (s : State) (c : Nat) : (s.leaveQueue c).feedView = s.feedView := by
  unfold State.leaveQueue
  dsimp only
  split <;> rfl

theorem State.feedView_setPhase (s : State) (c ph : Nat) : (s.setPhase c ph).feedView = s.feedView := by
  unfold State.setPhase
  dsimp only
  rw [State.feedView_setU _ _ _ (by decide), State.feedView_putValve, State.feedView_setU _ _ _ (by decide)]

theorem State.feedView_setVolts (s : State) (c v : Nat) : (s.setVolts c v).feedView = s.feedView := by
  unfold State.setVolts
  dsimp only
  split
  · rw [State.feedView_setU _ _ _ (by decide), State.feedView_putFan]
  · rfl

theorem State.feedView_setFanState (s : State) (c v : Nat) : (s.setFanState c v).feedView = s.feedView := by
  unfold State.setFanState State.fanSet
  split
  · exact State.feedView_setU _ _ _ (by decide)
  · exact State.feedView_setU _ _ _ (by decide)

theorem State.feedView_valvesOff (s : State) : s.valvesOff.feedView = s.feedView :=
  State.feedView_foldl (fun u c => by
    split
    · rfl
    · rw [State.feedView_setPhase, State.feedView_leaveQueue]) _ _

/-- The valve channels lose their feed, and nothing else of the feeds changes. -/
theorem State.feedView_valvesLose (s : State) :
    s.valvesLose.feedView = (s.ioc.feed, true, s.ioc.fansLow, s.elec, s.get E.ACT_FUSE_STATE) := by
  unfold State.valvesLose
  split
  next hlow => simp [State.feedView, hlow]
  next =>
    dsimp only
    rw [State.feedView_latch _ _ _ (by decide), State.feedView_valvesOff]
    rfl

/-- The fan channels lose their feed, and nothing else of the feeds changes. -/
theorem State.feedView_fansLose (s : State) :
    s.fansLose.feedView = (s.ioc.feed, s.ioc.valvesLow, true, s.elec, s.get E.ACT_FUSE_STATE) := by
  unfold State.fansLose
  split
  next hlow => simp [State.feedView, hlow]
  next =>
    dsimp only
    rw [State.feedView_latch _ _ _ (by decide), State.feedView_foldl fun u c => ?_]
    · rfl
    · split <;> split <;> simp only [State.feedView_setFanState, State.feedView_setVolts]

theorem State.feedView_valvesRegain (s : State) :
    s.valvesRegain.feedView = (s.ioc.feed, false, s.ioc.fansLow, s.elec, s.get E.ACT_FUSE_STATE) := by
  unfold State.valvesRegain
  split
  next hlow => simp_all [State.feedView]
  next =>
    dsimp only
    rw [State.feedView_foldl fun u c => ?_]
    · rfl
    · split <;> rfl

theorem State.feedView_fansRegain (s : State) :
    s.fansRegain.feedView = (s.ioc.feed, s.ioc.valvesLow, false, s.elec, s.get E.ACT_FUSE_STATE) := by
  have stopped (u : State) (l : List Nat) : (l.foldl (fun s c => s.setFanState c 0) u).feedView = u.feedView :=
    State.feedView_foldl (fun u c => u.feedView_setFanState c 0) l u
  unfold State.fansRegain
  split
  next hlow => simp_all [State.feedView]
  next =>
    dsimp only
    split
    · rfl
    · split
      next => exact stopped _ _
      next c _ _ => exact ((State.feedView_setFanState _ c 0).trans (stopped _ _) :)

/-! ### What each event of the feeds leaves -/

section

variable {s z : State} {t volts feed : Nat}

/-- VALVE_FEED_LOW (R471). -/
theorem valveFeedLow_loses (hvolts : volts < 22000) :
    Answers (.valveFeedLow t volts) s fun u => u.ioc.valvesLow = true ∧ u.ioc.feed = volts := by
  refine answers_of_when rfl (by simpa using hvolts) ?_
  obtain ⟨hfeed, hlow, -⟩ := State.feedView_iff.1 (State.feedView_valvesLose _)
  exact ⟨hlow, hfeed⟩

/-- VALVE_FEED_RESTORE (R471, R672). -/
theorem valveFeedRestore_regains (hz : z = s.at t) (hvolts : 23000 < volts) (hfuse : z.get E.ACT_FUSE_STATE = 0) :
    Answers (.valveFeedRestore t volts) s fun u => u.ioc.valvesLow = false ∧ u.ioc.feed = volts := by
  subst hz
  refine answers_of_when rfl (by simpa using hvolts) ?_
  dsimp only
  split
  next =>
    obtain ⟨hfeed, hlow, -⟩ := State.feedView_iff.1 (State.feedView_valvesRegain _)
    exact ⟨hlow, hfeed⟩
  next hopen => exact absurd hfuse hopen

/-- BOOST_V_APPLY (R481): with no channel in boost, peak or descent the held value is released. -/
theorem boostVApply_releases {old kind due : Nat} (hz : z = s.at t)
    (hheld : z.dict.held.get E.BOOST_V.key = some (old, kind, due)) (hdue : due ≤ z.tick)
    (hfree : ∀ c, c < 56 → z.lowSide c < 2 ∨ 4 < z.lowSide c) :
    Answers (.boostVApply t) s fun u => u.dict.held.get E.BOOST_V.key = none := by
  subst hz
  refine ⟨_, rfl, ?_⟩
  generalize s.at t = z at *
  simp only [hheld]
  rw [State.when_of (by simpa [hdue, Nat.lt_succ_iff] using hfree)]
  exact AMap.get_erase_same _ _

/-- FAN_FEED_LOW (R503). -/
theorem fanFeedLow_loses (hvolts : volts < 20000) :
    Answers (.fanFeedLow t volts) s fun u => u.ioc.fansLow = true ∧ u.ioc.feed = volts := by
  refine answers_of_when rfl (by simpa using hvolts) ?_
  obtain ⟨hfeed, -, hlow, -⟩ := State.feedView_iff.1 (State.feedView_fansLose _)
  exact ⟨hlow, hfeed⟩

/-- FAN_FEED_RESTORE (R503, R672). -/
theorem fanFeedRestore_regains (hz : z = s.at t) (hvolts : 21000 < volts) (hfuse : z.get E.ACT_FUSE_STATE = 0) :
    Answers (.fanFeedRestore t volts) s fun u => u.ioc.fansLow = false ∧ u.ioc.feed = volts := by
  subst hz
  refine answers_of_when rfl (by simpa using hvolts) ?_
  dsimp only
  split
  next =>
    obtain ⟨hfeed, -, hlow, -⟩ := State.feedView_iff.1 (State.feedView_fansRegain _)
    exact ⟨hlow, hfeed⟩
  next hopen => exact absurd hfuse hopen

/-- FEED_LOST (R669). -/
theorem feedLost_latches (hz : z = s.at t) (hpower : z.elec.power = 1) (hfeed : feed < 2) :
    Answers (.feedLost t feed) s fun u => u.get E.ELEC_LATCHES = setBit (z.get E.ELEC_LATCHES) feed := by
  subst hz
  refine ⟨_, rfl, ?_⟩
  generalize s.at t = z at *
  rw [State.when_of (by simp [hpower, hfeed])]
  exact State.get_latch_same _ _ _ _ (by decide)

/-- FEED_RANGE (R669). -/
theorem feedRange_latches (hz : z = s.at t) (hpower : z.elec.power = 1) (hfeed : feed < 2) :
    Answers (.feedRange t feed) s fun u => u.get E.ELEC_LATCHES = setBit (z.get E.ELEC_LATCHES) 2 := by
  subst hz
  refine ⟨_, rfl, ?_⟩
  generalize s.at t = z at *
  rw [State.when_of (by simp [hpower, hfeed])]
  exact State.get_latch_same _ _ _ _ (by decide)

/-- ACT_FUSE_OPEN (R672): the third opening within 60 s leaves the fuse open for good. -/
theorem actFuseOpen_opens {opens : List Nat} (hz : z = s.at t) (hpower : z.elec.power = 1)
    (hfuse : z.get E.ACT_FUSE_STATE = 0)
    (hopens : opens = z.now :: z.elec.openings.filter (fun x => decide (z.now ≤ x + 60 * sec))) :
    Answers (.actFuseOpen t) s fun u =>
      u.get E.ACT_FUSE_STATE = (if 3 ≤ opens.length then 2 else 1) ∧ u.elec.openAt = z.now
        ∧ u.elec.openings = opens := by
  subst hz hopens
  refine ⟨_, rfl, ?_⟩
  generalize s.at t = z at *
  rw [State.when_of (by simp [hpower, hfuse])]
  dsimp only
  generalize hw : State.set _ E.ACT_FUSE_STATE _ = w
  obtain ⟨-, -, -, helec, hstate⟩ := State.feedView_iff.1 (State.feedView_fansLose w.valvesLose)
  obtain ⟨-, -, -, helec', hstate'⟩ := State.feedView_iff.1 (State.feedView_valvesLose w)
  rw [State.get_latch_ne _ _ _ _ _ (by decide) (by decide), (State.latch_frame _ _ _ _).2.2.2.2.2.2.2.2.2.2.1, helec,
    hstate, helec', hstate', ← hw]
  exact ⟨State.get_set_same _ _ _, rfl, rfl⟩

/-- ACT_FUSE_RECLOSE (R672). -/
theorem actFuseReclose_closes (hz : z = s.at t) (hpower : z.elec.power = 1) (hfuse : z.get E.ACT_FUSE_STATE = 1)
    (hdue : z.elec.openAt + sec ≤ z.now) :
    Answers (.actFuseReclose t) s fun u => u.get E.ACT_FUSE_STATE = 0 := by
  subst hz
  refine ⟨_, rfl, ?_⟩
  generalize s.at t = z at *
  rw [State.when_of (by simp [hpower, hfuse, hdue])]
  exact State.get_closeFuse _

/-- ACT_OVERLOAD (R673). -/
theorem actOverload_latches (hz : z = s.at t) (hpower : z.elec.power = 1) (hfuse : z.get E.ACT_FUSE_STATE = 0) :
    Answers (.actOverload t) s fun u => u.get E.ELEC_LATCHES = setBit (z.get E.ELEC_LATCHES) 4 := by
  subst hz
  refine ⟨_, rfl, ?_⟩
  generalize s.at t = z at *
  rw [State.when_of (by simp [hpower, hfuse])]
  exact State.get_latch_same _ _ _ _ (by decide)

end

end Sys2Proof.Machine

namespace Sys2Proof.Proofs

open Sys2Proof Sys2Proof.Machine

/-- Settles O43, event by event. -/
theorem feedsMove : Obligations.FeedsMove := by
  unfold Obligations.FeedsMove
  refine ⟨?valveLow, ?valveRestore, ?boostV, ?fanLow, ?fanRestore, ?lost, ?range, ?fuseOpen, ?reclose, ?overload⟩
  case valveLow => exact fun s z t volts _ hvolts _ => valveFeedLow_loses hvolts
  case valveRestore => exact fun s z t volts hz hvolts hfuse _ => valveFeedRestore_regains hz hvolts hfuse
  case boostV => exact fun s z t old kind due hz hheld hdue hfree => boostVApply_releases hz hheld hdue hfree
  case fanLow => exact fun s z t volts _ hvolts _ => fanFeedLow_loses hvolts
  case fanRestore => exact fun s z t volts hz hvolts hfuse _ => fanFeedRestore_regains hz hvolts hfuse
  case lost => exact fun s z t feed hz hpower hfeed => feedLost_latches hz hpower hfeed
  case range => exact fun s z t feed hz hpower hfeed => feedRange_latches hz hpower hfeed
  case fuseOpen => exact fun s z t opens hz hpower hfuse hopens => actFuseOpen_opens hz hpower hfuse hopens
  case reclose => exact fun s z t hz hpower hfuse hdue => actFuseReclose_closes hz hpower hfuse hdue
  case overload => exact fun s z t hz hpower hfuse => actOverload_latches hz hpower hfuse

end Sys2Proof.Proofs
end

section
/-! PROOFS. The statements of spec/15_fans.md on the watchdog, the staggered order and the start of a fan. -/

namespace Sys2Proof.Machine

open Sys2Proof

/-! ### Fans and what they show (R488, R505, R507)

A value of a fan is shown in an entry of a customer channel or in one of an internal fan. -/

theorem State.fan_congr {s t : State} (h : t.ioc = s.ioc) (c : Nat) : t.fan c = s.fan c := by
  unfold State.fan
  rw [h]

theorem State.fan_putFan_ne (s : State) {c d : Nat} (h : d ≠ c) (x : Fan) : (s.putFan c x).fan d = s.fan d :=
  AMap.getD_set_ne _ h _ _

@[simp] theorem State.fan_setU (s : State) (e : Ent) (u v c : Nat) : (s.setU e u v).fan c = s.fan c := rfl

@[simp] theorem State.fanGet_putFan (s : State) (d : Nat) (x : Fan) (c : Nat) (e i : Ent) :
    (s.putFan d x).fanGet c e i = s.fanGet c e i := rfl

theorem State.fanGet_fanSet_same (s : State) (c : Nat) (e i : Ent) (v : Nat) : (s.fanSet c e i v).fanGet c e i = v := by
  unfold State.fanSet State.fanGet
  split <;> exact State.getU_setU_same _ _ _ _

theorem State.fanGet_setU_of_sub (s : State) {f : Ent} (u v c : Nat) {e i : Ent} (he : e.key % 256 ≠ f.key % 256)
    (hi : i.key % 256 ≠ f.key % 256) : (s.setU f u v).fanGet c e i = s.fanGet c e i := by
  unfold State.fanGet
  rw [State.getU_setU_of_sub _ _ _ _ he, State.getU_setU_of_sub _ _ _ _ hi]

/-- Setting one of a fan's values leaves its values of other subindices. -/
theorem State.fanGet_fanSet_of_sub (s : State) (c v : Nat) {e i f j : Ent} (hef : e.key % 256 ≠ f.key % 256)
    (hij : i.key % 256 ≠ j.key % 256) : (s.fanSet c f j v).fanGet c e i = s.fanGet c e i := by
  unfold State.fanSet State.fanGet
  split
  · exact State.getU_setU_of_sub _ _ _ _ hef
  · exact State.getU_setU_of_sub _ _ _ _ hij

theorem State.getU_fanSet_of_sub (s : State) (c v : Nat) {e f j : Ent} (w : Nat) (hf : e.key % 256 ≠ f.key % 256)
    (hj : e.key % 256 ≠ j.key % 256) : (s.fanSet c f j v).getU e w = s.getU e w := by
  unfold State.fanSet
  split
  · exact State.getU_setU_of_sub _ _ _ _ hf
  · exact State.getU_setU_of_sub _ _ _ _ hj

theorem State.fan_fanSet (s : State) (c : Nat) (e i : Ent) (v d : Nat) : (s.fanSet c e i v).fan d = s.fan d := by
  unfold State.fanSet
  split <;> rfl

theorem State.fanState_setFanState_same (s : State) (c v : Nat) : (s.setFanState c v).fanState c = v :=
  State.fanGet_fanSet_same _ _ _ _ _

theorem State.fan_setFanState (s : State) (c v d : Nat) : (s.setFanState c v).fan d = s.fan d :=
  State.fan_fanSet _ _ _ _ _ _

theorem State.setFanState_ioc (s : State) (c v : Nat) : (s.setFanState c v).ioc = s.ioc := by
  unfold State.setFanState State.fanSet
  split <;> rfl

/-! ### The supply and a kick (R488, R498) -/

theorem State.fan_setVolts_same (s : State) (c v : Nat) : (s.setVolts c v).fan c = { s.fan c with v := v } := by
  unfold State.setVolts
  dsimp only
  split
  · rw [State.fan_setU, State.fan_putFan_same]
  · exact State.fan_putFan_same _ _ _

/-- What a fan shows in a kick: its state, the kicks so far, from which instant, and its supply. -/
theorem State.kickFan_kicks (s : State) (c : Nat) :
    (s.kickFan c).fanState c = 2 ∧ ((s.kickFan c).fan c).kicks = (s.fan c).kicks + 1
      ∧ ((s.kickFan c).fan c).phaseFrom = s.runInstant
      ∧ ((s.kickFan c).fan c).v = f32Int (s.fanParam c E.FAN_KICK_V) := by
  unfold State.kickFan
  dsimp only
  generalize hy : s.putFan c { s.fan c with phaseFrom := s.runInstant, kicks := (s.fan c).kicks + 1 } = y
  have kicked : y.fan c = { s.fan c with phaseFrom := s.runInstant, kicks := (s.fan c).kicks + 1 } := by
    rw [← hy, State.fan_putFan_same]
  have param : y.fanParam c E.FAN_KICK_V = s.fanParam c E.FAN_KICK_V := by rw [← hy]; rfl
  generalize hw : (y.setVolts c (f32Int (y.fanParam c E.FAN_KICK_V))).setFanState c 2 = w
  have state : w.fanState c = 2 := by rw [← hw, State.fanState_setFanState_same]
  have shown : w.fan c = { y.fan c with v := f32Int (s.fanParam c E.FAN_KICK_V) } := by
    rw [← hw, State.fan_setFanState, State.fan_setVolts_same, param]
  rw [kicked] at shown
  have counted : (if c < 28 then w.incU E.FAN_KICKS_TOTAL c else w).fanState c = w.fanState c := by
    split
    · exact State.fanGet_setU_of_sub _ _ _ _ (by decide) (by decide)
    · rfl
  have kept : (if c < 28 then w.incU E.FAN_KICKS_TOTAL c else w).fan c = w.fan c := by split <;> rfl
  rw [counted, kept, state, shown]
  exact ⟨rfl, rfl, rfl, rfl⟩

/-! ### The staggered order (R496) -/

theorem State.beginStagger_watchdog (s : State) (l : List Nat) :
    (s.beginStagger l).ioc.watchdog = s.ioc.watchdog := by
  have begun : (l.foldl (fun s c => s.putFan c { s.fan c with started := false }) s).ioc.watchdog = s.ioc.watchdog := by
    refine foldl_eq_of_step (p := fun u => u.ioc.watchdog) (fun u c => ?_) l s
    rfl
  cases l with
  | nil => rfl
  | cons c rest => exact begun

/-! ### What each event of a start leaves -/

section

variable {s z : State} {t ch : Nat}

/-- FAN_WATCHDOG (R496): the watchdog has the fans from now on. -/
theorem fanWatchdog_takes (hz : z = s.at t) (hrun : z.fwRuns = true) (hidle : z.ioc.watchdog = none)
    (hsilent : z.dict.hostHeard + z.get E.FAN_WATCHDOG_S * sec ≤ z.now) :
    Answers (.fanWatchdog t) s fun u => u.ioc.watchdog = some z.now := by
  subst hz
  refine ⟨_, rfl, ?_⟩
  generalize s.at t = z at *
  rw [State.when_of (by simp [hrun, hidle, hsilent])]
  dsimp only
  rw [(State.latch_frame _ _ _ _).2.2.2.2.2.2.2.2.2.2.2.2.2.2.2.2.2.2.2.2.1]
  split
  · rfl
  · exact State.beginStagger_watchdog _ _

/-- FAN_STAGGER_START (R496, R503): the next fan of the order starts. -/
theorem fanStaggerStart_starts {c : Nat} {rest : List Nat} (hz : z = s.at t) (horder : z.ioc.stagger = c :: rest)
    (hrun : z.fwRuns = true) (hlink : z.ioc.linkLost = false)
    (hdue : z.ioc.staggerAt + z.get E.FAN_STAGGER_MS * ms ≤ z.now) :
    Answers (.fanStaggerStart t) s fun u =>
      u.ioc.stagger = rest ∧ u.ioc.staggerAt = z.now ∧ u.fan c = { z.fan c with started := true } := by
  subst hz
  refine ⟨_, rfl, ?_⟩
  generalize s.at t = z at *
  simp only [horder]
  rw [State.when_of (by simp [hrun, hlink, hdue])]
  generalize hy : State.putFan _ c _ = y
  have order : y.ioc.stagger = rest := by rw [← hy]; rfl
  have instant : y.ioc.staggerAt = z.now := by rw [← hy]; rfl
  have started : y.fan c = { z.fan c with started := true } := by
    rw [← hy, State.fan_putFan_same]
    simp only [State.fan]
  split
  · rw [State.setFanState_ioc, State.fan_setFanState]
    exact ⟨order, instant, started⟩
  · exact ⟨order, instant, started⟩

/-- FAN_START_END (R498): a fan that does not turn is kicked. -/
theorem fanStartEnd_kicks (hz : z = s.at t) (hstate : z.fanState ch = 1) (hrun : (z.fan ch).lastRun = some z.tick)
    (hstill : z.turning ch = false) (hpassed : z.phasePassed ch (z.fanParam ch E.FAN_START_MS) = true)
    (hkicks : z.fanParam ch E.FAN_KICKS ≠ 0) :
    Answers (.fanStartEnd t ch) s fun u =>
      u.fanState ch = 2 ∧ (u.fan ch).kicks = (z.fan ch).kicks + 1 ∧ (u.fan ch).phaseFrom = z.runInstant
        ∧ (u.fan ch).v = f32Int (z.fanParam ch E.FAN_KICK_V) := by
  subst hz
  refine ⟨_, rfl, ?_⟩
  generalize s.at t = z at *
  rw [State.when_of (by simp [hstate, hrun]), if_neg (by simp [hstill]), if_pos hpassed, if_neg hkicks]
  exact State.kickFan_kicks _ _

/-- FAN_KICK_END (R498): before the last kick a pause follows, without supply. -/
theorem fanKickEnd_pauses (hz : z = s.at t) (hstate : z.fanState ch = 2) (hrun : (z.fan ch).lastRun = some z.tick)
    (hpassed : z.phasePassed ch (z.fanParam ch E.FAN_KICK_MS) = true) (hstill : z.turning ch = false)
    (hkicks : (z.fan ch).kicks < z.fanParam ch E.FAN_KICKS) :
    Answers (.fanKickEnd t ch) s fun u =>
      u.fanState ch = 3 ∧ (u.fan ch).v = 0 ∧ (u.fan ch).phaseFrom = z.runInstant := by
  subst hz
  refine ⟨_, rfl, ?_⟩
  generalize s.at t = z at *
  rw [State.when_of (by simp [hstate, hrun, hpassed]), if_neg (by simp [hstill]), if_neg (by omega)]
  dsimp only
  rw [State.fanState_setFanState_same, State.fan_setFanState, State.fan_setVolts_same, State.fan_putFan_same]
  exact ⟨rfl, rfl, rfl⟩

/-- FAN_PAUSE_END (R498). -/
theorem fanPauseEnd_kicks (hz : z = s.at t) (hstate : z.fanState ch = 3) (hrun : (z.fan ch).lastRun = some z.tick)
    (hpassed : z.phasePassed ch (z.fanParam ch E.FAN_KICK_MS) = true) :
    Answers (.fanPauseEnd t ch) s fun u =>
      u.fanState ch = 2 ∧ (u.fan ch).kicks = (z.fan ch).kicks + 1 ∧ (u.fan ch).phaseFrom = z.runInstant
        ∧ (u.fan ch).v = f32Int (z.fanParam ch E.FAN_KICK_V) := by
  subst hz
  refine ⟨_, rfl, ?_⟩
  generalize s.at t = z at *
  rw [State.when_of (by simp [hstate, hrun, hpassed])]
  exact State.kickFan_kicks _ _

/-- FAN_STALL_RETRY (R499, R502): the channel may start again. -/
theorem fanStallRetry_restarts {n : Nat} (hz : z = s.at t) (hn : n = z.fanParam ch E.FAN_STALL_RETRY)
    (hstate : z.fanState ch = 7) (hstall : z.fanFault ch &&& 0xD ≠ 0) (hhot : z.fanFault ch &&& 0x30 = 0)
    (hretry : n ≠ 0) (hdue : (z.fan ch).faultAt + n * sec ≤ z.now) (hactive : z.fanActive ch = true) :
    Answers (.fanStallRetry t ch) s fun u => u.fanState ch = 0 := by
  subst hz hn
  refine ⟨_, rfl, ?_⟩
  generalize s.at t = z at *
  rw [State.when_of (by simp [hstate, hstall, hhot, hretry, hdue, hactive])]
  exact State.fanState_setFanState_same _ _ _

end

end Sys2Proof.Machine

namespace Sys2Proof.Proofs

open Sys2Proof Sys2Proof.Machine

/-- Settles O44, event by event. -/
theorem fansStart : Obligations.FansStart := by
  unfold Obligations.FansStart
  refine ⟨?watchdog, ?stagger, ?startEnd, ?kickEnd, ?pauseEnd, ?retry⟩
  case watchdog => exact fun s z t hz hrun hidle hsilent => fanWatchdog_takes hz hrun hidle hsilent
  case stagger =>
    exact fun s z t c rest hz horder hrun hlink hdue => fanStaggerStart_starts hz horder hrun hlink hdue
  case startEnd =>
    exact fun s z t ch hz hstate hrun hstill hpassed hkicks => fanStartEnd_kicks hz hstate hrun hstill hpassed hkicks
  case kickEnd =>
    exact fun s z t ch hz hstate hrun hpassed hstill hkicks => fanKickEnd_pauses hz hstate hrun hpassed hstill hkicks
  case pauseEnd => exact fun s z t ch hz hstate hrun hpassed => fanPauseEnd_kicks hz hstate hrun hpassed
  case retry =>
    exact fun s z t ch n hz hn hstate hstall hhot hretry hdue hactive =>
      fanStallRetry_restarts hz hn hstate hstall hhot hretry hdue hactive

end Sys2Proof.Proofs
end

section
/-! PROOFS. The statements of spec/15_fans.md on the speed loop, the faults of a fan and its take-over. -/

namespace Sys2Proof.Machine

open Sys2Proof

/-! ### What faults and raises of a group leave (R499, R502) -/

theorem State.raiseGroup_regs (s : State) (c : Nat) : (s.raiseGroup c).regs = s.regs := by
  unfold State.raiseGroup
  dsimp only
  split
  · rfl
  · refine foldl_eq_of_step (p := State.regs) (fun u d => ?_) _ s
    rfl

/-- The raise of a group is of its other channels. -/
theorem State.raiseGroup_fan (s : State) (c : Nat) : (s.raiseGroup c).fan c = s.fan c := by
  unfold State.raiseGroup
  dsimp only
  split
  · rfl
  · refine foldl_eq_of_mem (p := fun u => u.fan c) (fun u d hd => ?_) s
    have hne : d ≠ c := by
      have := (List.mem_filter.1 hd).2
      simp only [Bool.and_eq_true, bne_iff_ne] at this
      exact this.1.1
    exact State.fan_putFan_ne _ (Ne.symm hne) _

theorem State.endRaise_regs (s : State) (c : Nat) : (s.endRaise c).regs = s.regs := by
  unfold State.endRaise
  dsimp only
  split
  · rfl
  · split
    · rfl
    · refine foldl_eq_of_step (p := State.regs) (fun u d => ?_) _ s
      split <;> rfl

theorem State.fanGet_congr {s t : State} (h : t.regs = s.regs) (c : Nat) (e i : Ent) :
    t.fanGet c e i = s.fanGet c e i := by
  unfold State.fanGet
  rw [State.getU_congr h, State.getU_congr h]

theorem State.fanGet_latch (s : State) {f : Ent} (b key : Nat) {c : Nat} {e i : Ent} (hc : c < 34)
    (hek : e.key < 0x8F0000) (hik : i.key < 0x8F0000) (he : e.key % 256 ≠ f.key % 256)
    (hi : i.key % 256 ≠ f.key % 256) : (s.latch f b key).fanGet c e i = s.fanGet c e i := by
  unfold State.fanGet
  rw [State.getU_latch_of_sub _ _ _ (by omega) hek he, State.getU_latch_of_sub _ _ _ (by omega) hik hi]

/-- The count of all fans' faults is no fan's own entry. -/
theorem State.fanFault_inc_faults (s : State) (c : Nat) : (s.inc E.FAN_FAULTS).fanFault c = s.fanFault c := by
  unfold State.fanFault State.fanGet
  rw [State.getU_inc_of_sub _ _ (by decide),
    State.getU_inc_ne _ _ _ _ (by simp only [E.IFAN_FAULT, E.FAN_FAULTS]; omega)]

theorem State.fanState_inc_faults (s : State) (c : Nat) : (s.inc E.FAN_FAULTS).fanState c = s.fanState c := by
  unfold State.fanState State.fanGet
  rw [State.getU_inc_of_sub _ _ (by decide), State.getU_inc_of_sub _ _ (by decide)]

theorem State.fanGet_setVolts (s : State) (c v d : Nat) {e i : Ent} (he : e.key % 256 ≠ E.FAN_VOLTAGE.key % 256)
    (hi : i.key % 256 ≠ E.FAN_VOLTAGE.key % 256) : (s.setVolts c v).fanGet d e i = s.fanGet d e i := by
  unfold State.setVolts
  dsimp only
  split
  · rw [State.fanGet_setU_of_sub _ _ _ _ he hi, State.fanGet_putFan]
  · rfl

theorem State.fan_inc (s : State) (e : Ent) (c : Nat) : (s.inc e).fan c = s.fan c := rfl

theorem State.fan_latch (s : State) (e : Ent) (b key c : Nat) : (s.latch e b key).fan c = s.fan c :=
  State.fan_congr (by simp) c

/-- A fault takes the supply away from this instant on, and the fan's other marks stay. -/
theorem State.fanFaultOff_fan (s : State) (c bit : Nat) :
    (s.fanFaultOff c bit).fan c = { s.fan c with faultAt := s.now, limFrom := none, v := 0 } := by
  unfold State.fanFaultOff
  dsimp only
  rw [State.raiseGroup_fan]
  have now (u : State) (e i : Ent) (v : Nat) : (u.fanSet c e i v).now = u.now := by
    unfold State.fanSet
    split <;> rfl
  split <;>
    simp only [State.fan_latch, State.fan_inc, State.fan_setVolts_same, State.fan_putFan_same, State.setFanState,
      State.setFanFault, State.fan_fanSet, now]

/-- A fault shows in the fan's state and in its bit. -/
theorem State.fanFaultOff_shown (s : State) {c : Nat} (hc : c < 34) (bit : Nat) :
    (s.fanFaultOff c bit).fanState c = 7 ∧ (s.fanFaultOff c bit).fanFault c = setBit (s.fanFault c) bit := by
  unfold State.fanFaultOff
  dsimp only
  generalize hy : State.latch _ E.FAN_LATCHES 3 (fanKey c) = y
  have state : y.fanState c = 7 := by
    rw [← hy, State.fanState, State.fanGet_latch _ _ _ hc (by decide) (by decide) (by decide) (by decide)]
    refine (State.fanState_inc_faults _ _).trans ?_
    rw [State.fanState, State.fanGet_setVolts _ _ _ _ (by decide) (by decide), State.fanGet_putFan]
    exact State.fanGet_fanSet_same _ _ _ _ _
  have fault : y.fanFault c = setBit (s.fanFault c) bit := by
    rw [← hy, State.fanFault, State.fanGet_latch _ _ _ hc (by decide) (by decide) (by decide) (by decide)]
    refine (State.fanFault_inc_faults _ _).trans ?_
    rw [State.fanFault, State.fanGet_setVolts _ _ _ _ (by decide) (by decide), State.fanGet_putFan, State.setFanState,
      State.fanGet_fanSet_of_sub _ _ _ (by decide) (by decide)]
    exact State.fanGet_fanSet_same _ _ _ _ _
  rw [State.fanState, State.fanFault, State.fanGet_congr (State.raiseGroup_regs _ _),
    State.fanGet_congr (State.raiseGroup_regs _ _)]
  split
  · rw [State.fanGet_latch _ _ _ hc (by decide) (by decide) (by decide) (by decide),
      State.fanGet_latch _ _ _ hc (by decide) (by decide) (by decide) (by decide)]
    exact ⟨state, fault⟩
  · exact ⟨state, fault⟩

/-- A fan that runs again is in its speed loop or at full speed (R494, R501). -/
theorem State.enterRunning_state (s : State) (c : Nat) :
    (s.enterRunning c).fanState c = 4 ∨ (s.enterRunning c).fanState c = 6 := by
  have cleared (u : State) (v : Nat) : ((u.setFanFault c v).endRaise c).fanState c = u.fanState c := by
    rw [State.fanState, State.fanGet_congr (State.endRaise_regs _ _)]
    exact State.fanGet_fanSet_of_sub _ _ _ (by decide) (by decide)
  have waited (u : State) : (if (28 ≤ c && decide (u.ioc.ifanWait = some (c - 28))) = true
      then ({ u with ioc := { u.ioc with ifanWait := none } } : State) else u).fanState c = u.fanState c := by
    split <;> rfl
  unfold State.enterRunning
  extract_lets x tInt y w left
  have running : w.fanState c = 4 ∨ w.fanState c = 6 := by
    rw [State.fanState_setFanState_same]
    split
    · exact .inr rfl
    · exact .inl rfl
  rw [waited]
  simp only [left]
  split
  · exact running
  · rwa [cleared]

/-! ### A run of the speed loop (R492 to R495, R577) -/

/-- What a run of the speed loop leaves to be told: the tick in which fan `c` last ran, and the cooling law's target. -/
def State.runView (s : State) (c : Nat) : Option Nat × Nat := ((s.fan c).lastRun, s.get E.IFAN_LAW_TARGET)

theorem State.of_runView {s : State} {c v : Nat} {n : Option Nat} (h : s.runView c = (n, v)) :
    (s.fan c).lastRun = n ∧ s.get E.IFAN_LAW_TARGET = v := Prod.ext_iff.1 h

theorem State.runView_putFan (s : State) {d : Nat} {x : Fan} (h : x.lastRun = (s.fan d).lastRun) (c : Nat) :
    (s.putFan d x).runView c = s.runView c := by
  have law : (s.putFan d x).get E.IFAN_LAW_TARGET = s.get E.IFAN_LAW_TARGET := rfl
  by_cases hc : c = d
  · subst hc
    rw [State.runView, State.runView, State.fan_putFan_same, h, law]
  · rw [State.runView, State.runView, State.fan_putFan_ne _ hc, law]

/-- The entries of fans lie below the cooling law's. -/
theorem State.runView_setU (s : State) {e : Ent} {u : Nat} (v c : Nat) (hu : u < 256) (he : e.key < 0xC00000) :
    (s.setU e u v).runView c = s.runView c := by
  rw [State.runView, State.runView, State.fan_setU,
    State.get_setU_ne _ _ _ _ _ (by simp only [E.IFAN_LAW_TARGET]; omega)]

theorem State.runView_fanSet (s : State) {d : Nat} {e i : Ent} (v c : Nat) (hd : d < 34) (he : e.key < 0xC00000)
    (hi : i.key < 0xC00000) : (s.fanSet d e i v).runView c = s.runView c := by
  unfold State.fanSet
  split
  · exact State.runView_setU _ _ _ (by omega) he
  · exact State.runView_setU _ _ _ (by omega) hi

theorem State.runView_setVolts (s : State) {d : Nat} (v c : Nat) (hd : d < 34) :
    (s.setVolts d v).runView c = s.runView c := by
  unfold State.setVolts
  dsimp only
  split
  · rw [State.runView_setU _ _ _ (by omega) (by decide)]
    exact State.runView_putFan s (by rfl) c
  · exact State.runView_putFan s (by rfl) c

theorem State.runView_setFanState (s : State) {d : Nat} (v c : Nat) (hd : d < 34) :
    (s.setFanState d v).runView c = s.runView c := State.runView_fanSet _ _ _ hd (by decide) (by decide)

theorem State.runView_endRaise (s : State) (d c : Nat) : (s.endRaise d).runView c = s.runView c := by
  unfold State.endRaise
  dsimp only
  split
  · rfl
  · split
    · rfl
    · refine foldl_eq_of_step (p := fun u => u.runView c) (fun u d => ?_) _ s
      split
      · exact State.runView_putFan u (by rfl) c
      · rfl

theorem State.runView_enterRunning (s : State) {d : Nat} (c : Nat) (hd : d < 34) :
    (s.enterRunning d).runView c = s.runView c := by
  have entered (x : Fan) (v : Nat) (hx : x.lastRun = (s.fan d).lastRun) :
      ((s.putFan d x).setFanState d v).runView c = s.runView c := by
    rw [State.runView_setFanState _ _ _ hd]
    exact State.runView_putFan s hx c
  have cleared (u : State) (v : Nat) : ((u.setFanFault d v).endRaise d).runView c = u.runView c := by
    rw [State.runView_endRaise]
    exact State.runView_fanSet _ _ _ hd (by decide) (by decide)
  have waited (u : State) : (if (28 ≤ d && decide (u.ioc.ifanWait = some (d - 28))) = true
      then ({ u with ioc := { u.ioc with ifanWait := none } } : State) else u).runView c = u.runView c := by
    split <;> rfl
  unfold State.enterRunning
  extract_lets x tInt y w left
  have running : w.runView c = s.runView c := entered _ _ rfl
  rw [waited]
  simp only [left]
  split
  · exact running
  · rwa [cleared]

theorem State.runView_startFan (s : State) {d : Nat} (c : Nat) (hd : d < 34) :
    (s.startFan d).runView c = s.runView c := by
  have begun (volts : Nat) : (((s.putFan d { s.fan d with phaseFrom := s.runInstant, kicks := 0 }).setVolts d
      volts).setFanState d 1).runView c = s.runView c := by
    rw [State.runView_setFanState _ _ _ hd, State.runView_setVolts _ _ _ hd]
    exact State.runView_putFan s (by rfl) c
  unfold State.startFan
  dsimp only
  split
  · exact (State.runView_setU _ _ _ (by omega) (by decide)).trans (begun _)
  · exact begun _

theorem State.runView_fanLaw (s : State) {d : Nat} (target c : Nat) (hd : d < 34) :
    (s.fanLaw d target).runView c = s.runView c := by
  unfold State.fanLaw
  dsimp only
  rw [State.runView_setVolts _ _ _ hd]
  exact State.runView_putFan s (by rfl) c

/-- What a run does in the state in force leaves what the run noted. -/
theorem State.runView_fanStep (s : State) {d : Nat} (c : Nat) (hd : d < 34) :
    (s.fanStep d).runView c = s.runView c := by
  unfold State.fanStep
  dsimp only
  repeat' split
  all_goals simp only [State.fanRise, State.fanFall, State.runView_startFan _ _ hd, State.runView_fanLaw _ _ _ hd,
    State.runView_setVolts _ _ _ hd, State.runView_setFanState _ _ _ hd, State.runView_enterRunning _ _ hd]

theorem State.measureFan_runView (s : State) {c : Nat} (i : FanIn) (hc : c < 34) :
    (s.measureFan c i).runView c = (some s.tick, s.get E.IFAN_LAW_TARGET) := by
  unfold State.measureFan
  dsimp only
  rw [State.runView_fanSet _ _ _ hc (by decide) (by decide), State.runView_fanSet _ _ _ hc (by decide) (by decide),
    State.runView, State.fan_putFan_same]
  rfl

theorem State.beginStagger_keeps (s : State) (l : List Nat) :
    (s.beginStagger l).regs = s.regs ∧ (s.beginStagger l).wheel = s.wheel := by
  have begun (s : State) :
      (l.foldl (fun s c => s.putFan c { s.fan c with started := false }) s).regs = s.regs
        ∧ (l.foldl (fun s c => s.putFan c { s.fan c with started := false }) s).wheel = s.wheel := by
    constructor
    · refine foldl_eq_of_step (p := State.regs) (fun u c => ?_) l s
      rfl
    · refine foldl_eq_of_step (p := State.wheel) (fun u c => ?_) l s
      rfl
  cases l with
  | nil => exact ⟨rfl, rfl⟩
  | cons c rest => exact begun s

theorem State.fanOwners_keeps (s : State) : s.fanOwners.regs = s.regs ∧ s.fanOwners.wheel = s.wheel := by
  have rested (y : State) : (if (y.inRest && !y.ioc.restFans) = true
        then ({ y with ioc := { y.ioc with restFans := true } } : State).beginStagger y.allFans else y).regs = y.regs
      ∧ (if (y.inRest && !y.ioc.restFans) = true
        then ({ y with ioc := { y.ioc with restFans := true } } : State).beginStagger y.allFans else y).wheel
          = y.wheel := by
    split
    · exact State.beginStagger_keeps _ _
    · exact ⟨rfl, rfl⟩
  unfold State.fanOwners
  cases s.ioc.watchdog with
  | none => exact rested s
  | some began =>
    by_cases heard : began < s.dict.hostHeard
    · simp only [if_pos heard]
      exact rested _
    · simp only [if_neg heard]
      exact rested s

/-- The cooling law reads the entries alone (R577). -/
theorem State.coolingLaw_congr {s t : State} (h : t.regs = s.regs) :
    t.coolingLaw.get E.IFAN_LAW_TARGET = s.coolingLaw.get E.IFAN_LAW_TARGET := by
  unfold State.coolingLaw State.get State.getU State.set
  rw [h]

/-- What SPEED_LOOP_RUN does when its run is due. -/
def State.speedLoop (s : State) (ch : Nat) (x : FanIn) : State :=
  let s := s.fanOwners.coolingLaw
  let s := (s.measureFan ch x).fanStep ch
  let s := if s.tachAbsent ch then s else s.putFan ch { s.fan ch with held := (s.fan ch).v }
  let s := if ch < 28 then s.setU E.FAN_OWNER ch (s.fanOwner ch) else s
  s.fanSet ch E.FAN_TARGET_ACTIVE E.IFAN_TARGET_ACTIVE (targetShown (s.fanTarget ch))

theorem State.runView_hold (s : State) (d c : Nat) :
    (if s.tachAbsent d then s else s.putFan d { s.fan d with held := (s.fan d).v }).runView c = s.runView c := by
  split
  · rfl
  · exact State.runView_putFan s (by rfl) c

theorem State.runView_own (s : State) {d : Nat} (hd : d < 34) (c : Nat) :
    (if d < 28 then s.setU E.FAN_OWNER d (s.fanOwner d) else s).runView c = s.runView c := by
  split
  · exact s.runView_setU _ _ (by omega) (by decide)
  · rfl

/-- A run notes its tick and the target of the cooling law, and nothing after the law takes them back. -/
theorem State.speedLoop_runView (z : State) {ch : Nat} (x : FanIn) (hch : ch < 34) :
    (z.speedLoop ch x).runView ch = (some z.tick, z.coolingLaw.get E.IFAN_LAW_TARGET) := by
  obtain ⟨regs, wheel⟩ := z.fanOwners_keeps
  unfold State.speedLoop
  extract_lets cooled stepped mine held owned
  have noted : stepped.runView ch = (some z.tick, z.coolingLaw.get E.IFAN_LAW_TARGET) := by
    simp only [stepped, cooled]
    rw [State.runView_fanStep _ _ hch, State.measureFan_runView _ _ hch, State.coolingLaw_congr regs]
    simp [State.tick, State.coolingLaw, wheel]
  have kept : held.runView ch = stepped.runView ch := stepped.runView_hold ch ch
  have named : owned.runView ch = held.runView ch := held.runView_own hch ch
  clear_value owned
  exact (State.runView_fanSet owned _ ch hch (by decide) (by decide)).trans (named.trans (kept.trans noted))

/-! ### A spare takes a fan (R504, R506) -/

@[simp] theorem State.putFan_wear (s : State) (c : Nat) (x : Fan) : (s.putFan c x).wear = s.wear := rfl

theorem State.setFanState_wear (s : State) (c v : Nat) : (s.setFanState c v).wear = s.wear := by
  unfold State.setFanState State.fanSet
  split <;> rfl

theorem State.moveFan_wear (s : State) (c a : Nat) : (s.moveFan c a).wear = s.wear := by
  have named (l : List Nat) (u : State) : (l.foldl (fun s h => if (s.getU E.HX_FANS h).testBit c then
      s.setU E.HX_FANS h (setBit (clrBit (s.getU E.HX_FANS h) c) a) else s) u).wear = u.wear :=
    State.wear_foldl (fun u h => by split <;> rfl) l u
  simp only [State.moveFan, State.latch_frame, State.inc_frame, named, State.rebindSink_wear, State.setU_frame,
    State.putFan_wear, State.copyKeys_wear]

/-- The channel that gives its output up has none, and names the spare. -/
theorem State.moveFan_output (s : State) (c a : Nat) :
    (s.moveFan c a).getU E.FAN_OUTPUT c = 0xFF ∧ (s.moveFan c a).getU E.FAN_MOVED_TO c = a := by
  have named {e : Ent} (w : Nat) (he : e.key % 256 ≠ E.HX_FANS.key % 256) (l : List Nat) (u : State) :
      (l.foldl (fun s h => if (s.getU E.HX_FANS h).testBit c then
        s.setU E.HX_FANS h (setBit (clrBit (s.getU E.HX_FANS h) c) a) else s) u).getU e w = u.getU e w := by
    refine foldl_eq_of_step (p := fun u => u.getU e w) (fun u h => ?_) l u
    split
    · exact State.getU_setU_of_sub _ _ _ _ he
    · rfl
  have held (u : State) (l : List Nat) (e : Ent) (w : Nat) :
      ({ u with plant := { u.plant with fanHeld := l } } : State).getU e w = u.getU e w := rfl
  unfold State.moveFan
  constructor <;>
    simp (disch := decide) only [State.getU_latch_of_subs, State.getU_inc_of_sub, held, named,
      State.getU_rebindSink_of_sub, State.getU_setU_of_sub, State.getU_setU_same]

/-! ### What each command of a fan leaves -/

section

variable {s z a : State} {t ch i : Nat} {rx : Rx} {live : Bool}

/-- SPEED_LOOP_RUN (R493, R577): the run is noted, and the cooling law's target stands. -/
theorem speedLoopRun_notes {x : FanIn} (hz : z = s.at t) (hrun : z.fwRuns = true) (hlink : z.ioc.linkLost = false)
    (hch : ch < 34) (heighth : z.wheel.idx % max 1 (z.ticksPerTurn / 8) = 0) (hslot : z.pastSlot 50 = true)
    (hfirst : (z.fan ch).lastRun ≠ some z.tick) (hactive : z.fanActive ch = true)
    (hswitch : (z.fan ch).switching = none) :
    Answers (.speedLoopRun t ch x) s fun u =>
      (u.fan ch).lastRun = some z.tick ∧ u.get E.IFAN_LAW_TARGET = z.coolingLaw.get E.IFAN_LAW_TARGET := by
  subst hz
  refine ⟨_, rfl, ?_⟩
  generalize s.at t = z at *
  rw [State.when_of (by simp [hrun, hlink, hch, heighth, hslot, hfirst, hactive, hswitch])]
  change ((z.speedLoop ch x).fan ch).lastRun = _ ∧ (z.speedLoop ch x).get E.IFAN_LAW_TARGET = _
  exact State.of_runView (z.speedLoop_runView x hch)

/-- TACH_ABSENT (R500): in open loop a stall current is a stall. -/
theorem tachAbsent_stalls (hz : z = s.at t) (hch : ch < 34) (hrun : (z.fan ch).lastRun = some z.tick)
    (habsent : z.tachAbsent ch = true) (hstate : z.fanState ch = 5)
    (hcurrent : z.fanParam ch E.FAN_STALL_I ≤ z.fanGet ch E.FAN_CURRENT E.IFAN_CURRENT) :
    Answers (.tachAbsent t ch) s fun u =>
      u.fanState ch = 7 ∧ u.fanFault ch = setBit (z.fanFault ch) 0 ∧ (u.fan ch).v = 0
        ∧ (u.fan ch).faultAt = z.now := by
  subst hz
  refine ⟨_, rfl, ?_⟩
  generalize s.at t = z at *
  rw [State.when_of (by simp [hrun, habsent, hstate, hcurrent]), if_pos hcurrent, State.fanFaultOff_fan]
  obtain ⟨state, fault⟩ := z.fanFaultOff_shown hch 0
  exact ⟨state, fault, rfl, rfl⟩

/-- TACH_RESTORED (R501). -/
theorem tachRestored_runs (hz : z = s.at t) (hstate : z.fanState ch = 5) (hedges : 8 ≤ (z.fan ch).edgeRuns) :
    Answers (.tachRestored t ch) s fun u => u.fanState ch = 4 ∨ u.fanState ch = 6 := by
  subst hz
  refine ⟨_, rfl, ?_⟩
  generalize s.at t = z at *
  rw [State.when_of (by simp [hstate, hedges])]
  exact State.enterRunning_state _ _

/-- FAN_OVERLOAD (R502). -/
theorem fanOverload_faults {from_ : Nat} (hz : z = s.at t) (hch : ch < 34) (hlimit : (z.fan ch).limFrom = some from_)
    (hdue : from_ + 2 * sec ≤ z.now) (hstate : z.fanState ch ≠ 7) :
    Answers (.fanOverload t ch) s fun u =>
      u.fanState ch = 7 ∧ u.fanFault ch = setBit (z.fanFault ch) 3 ∧ (u.fan ch).v = 0
        ∧ (u.fan ch).faultAt = z.now := by
  subst hz
  refine ⟨_, rfl, ?_⟩
  generalize s.at t = z at *
  simp only [hlimit]
  rw [State.when_of (by simp [hdue, hstate]), State.fanFaultOff_fan]
  obtain ⟨state, fault⟩ := z.fanFaultOff_shown hch 3
  exact ⟨state, fault, rfl, rfl⟩

/-- FAN_HOT (R502). -/
theorem fanHot_faults {temp : Nat} (hz : z = s.at t) (hch : ch < 34) (htemp : 150 ≤ temp)
    (hfirst : (z.fanFault ch).testBit 4 = false) :
    Answers (.fanHot t ch temp) s fun u =>
      u.fanState ch = 7 ∧ u.fanFault ch = setBit (z.fanFault ch) 4 ∧ (u.fan ch).v = 0 ∧ (u.fan ch).temp = temp := by
  subst hz
  refine ⟨_, rfl, ?_⟩
  generalize s.at t = z at *
  rw [State.when_of (by simpa using hch), if_pos (by simp [htemp, hfirst]), State.fanFaultOff_fan,
    State.fan_putFan_same]
  obtain ⟨state, fault⟩ := (z.putFan ch { z.fan ch with temp := temp }).fanFaultOff_shown hch 4
  exact ⟨state, fault, rfl, rfl⟩

/-- FAN_CMD (R502): what is left are a hot converter and a tach still absent. -/
theorem fanCmd_clears (hs : (s.at t).screen rx fanCmdService = .run live a)
    (hi : i = (Req.parse rx).index - E.FAN_CMD.key / 256) :
    Answers (.fanCmd t rx) s fun u =>
      u.fanFault i = (if (a.fanFault i).testBit 4 = true ∧ 125 ≤ (a.fan i).temp then 16 else 0)
        + (if (a.fanFault i).testBit 1 = true ∧ a.tachAbsent i = true then 2 else 0) := by
  refine answers_of_cmd rfl hs hi fun ans => ?_
  dsimp only
  generalize hleft : ((if ((a.fanFault i).testBit 4 && decide (125 ≤ (a.fan i).temp)) = true then 16 else 0)
    + (if ((a.fanFault i).testBit 1 && a.tachAbsent i) = true then 2 else 0) : Nat) = left
  have cleared : ((a.setFanFault i left).endRaise i).fanFault i = left :=
    (State.fanGet_congr (State.endRaise_regs _ _) _ _ _).trans (State.fanGet_fanSet_same _ _ _ _ _)
  rw [State.fanFault, State.fanGet, State.getU_answer _ _ _ _ _ (notMem_of_sub (by decide) _),
    State.getU_answer _ _ _ _ _ (notMem_of_sub (by decide) _), ← State.fanGet, ← State.fanFault]
  refine Eq.trans (b := left) ?_ ?_
  · split
    · exact (State.fanGet_fanSet_of_sub _ _ _ (by decide) (by decide)).trans cleared
    · exact cleared
  · simp [← hleft]

/-- FAN_DRIVER_FAULT (R502, R504): an active fan is fenced, its supply off. -/
theorem fanDriverFault_fences (hz : z = s.at t) (hch : ch < 34) (hrole : (z.unit (fanRow ch)).role = 0) :
    Answers (.fanDriverFault t ch) s fun u =>
      ((u.unit (fanRow ch)).role = 2 ∨ (u.unit (fanRow ch)).role = 4)
        ∧ (u.fan ch).fenceTick = some z.tick ∧ (u.fan ch).v = 0 := by
  subst hz
  refine ⟨_, rfl, ?_⟩
  generalize s.at t = z at *
  rw [State.when_of (by simpa using hch)]
  simp only [hrole]
  refine ⟨State.unit_fenceUnit_role _ _, ?_⟩
  rw [State.fan_congr (State.fenceUnit_ioc _ _), State.fan_latch, State.fan_inc, State.fan_setVolts_same,
    State.fan_putFan_same]
  have tick (u : State) (e i : Ent) (v : Nat) : (u.fanSet ch e i v).tick = u.tick := by
    unfold State.fanSet
    split <;> rfl
  exact ⟨by rw [State.setFanState, State.setFanFault, tick, tick], rfl⟩

/-- FAN_TAKEOVER (R504): at the next tick the best tested spare takes the output. -/
theorem fanTakeover_moves {f row : Nat} (hz : z = s.at t) (hch : ch < 28) (hfence : (z.fan ch).fenceTick = some f)
    (hf : f < z.tick) (hspare : z.bestSpare (kindRows 5) = some row) :
    Answers (.fanTakeover t ch) s fun u =>
      u.getU E.FAN_OUTPUT ch = 0xFF ∧ u.getU E.FAN_MOVED_TO ch = row - kindRow 5 ∧ (u.unit row).role = 0 := by
  subst hz
  refine ⟨_, rfl, ?_⟩
  generalize s.at t = z at *
  simp only [hfence]
  rw [State.when_of (by simp [hf, hch])]
  simp only [hspare]
  obtain ⟨output, moved⟩ := (z.promote row (z.getU E.FAN_OUTPUT ch)).moveFan_output ch (row - kindRow 5)
  refine ⟨output, moved, ?_⟩
  rw [State.unit_congr (State.moveFan_wear _ _ _)]
  exact State.unit_promote_role _ _ _

/-- FAN_SWITCH_DONE (R503, R504): with the feed low the spare waits for it. -/
theorem fanSwitchDone_waits {out from_ : Nat} (hz : z = s.at t) (hmove : (z.fan ch).switching = some (out, from_))
    (hlow : z.ioc.fansLow = true) :
    Answers (.fanSwitchDone t ch) s fun u =>
      u.getU E.FAN_OUTPUT ch = out ∧ (u.fan ch).switching = none ∧ u.fanState ch = 8 := by
  subst hz
  refine ⟨_, rfl, ?_⟩
  generalize s.at t = z at *
  simp only [hmove]
  generalize hw : (z.putFan ch _).setU E.FAN_OUTPUT ch out = w
  have low : w.ioc.fansLow = true := by rw [← hw]; exact hlow
  rw [if_pos low, ← hw, State.setFanState, State.getU_fanSet_of_sub _ _ _ _ (by decide) (by decide),
    State.getU_setU_same, State.fan_fanSet, State.fan_setU, State.fan_putFan_same]
  exact ⟨rfl, rfl, State.fanState_setFanState_same _ _ _⟩

/-- IFAN_TAKEOVER (R506): the best tested spare is to run in the failed fan's place. -/
theorem ifanTakeover_promotes {n f r : Nat} (hz : z = s.at t) (hn : n < 6) (hbad : z.fanFault (28 + n) &&& 0x25 ≠ 0)
    (hfence : (z.fan (28 + n)).fenceTick = some f) (hrole : (z.unit (fanRow (28 + n))).role ≠ 0)
    (hspare : z.bestSpare (kindRows 6) = some r) :
    Answers (.ifanTakeover t n) s fun u => u.ioc.ifanWait = some (r - kindRow 6) ∧ (u.unit r).role = 0 := by
  subst hz
  refine ⟨_, rfl, ?_⟩
  generalize s.at t = z at *
  rw [State.when_of (by simp [hn, hbad, hfence])]
  generalize hy : z.putFan (28 + n) { z.fan (28 + n) with fenceTick := none } = y
  have role : (y.unit (fanRow (28 + n))).role ≠ 0 := by rw [← hy]; exact hrole
  have spare : y.bestSpare (kindRows 6) = some r := by rw [← hy]; exact hspare
  have hw := y.unit_promote_role r 0xFFFF
  dsimp only
  rw [if_neg role]
  simp only [spare]
  generalize y.promote r 0xFFFF = w at hw ⊢
  constructor
  · rw [(State.latch_frame _ _ _ _).2.2.2.2.2.2.2.2.2.2.2.2.2.2.2.2.2.2.2.2.1, State.setFanState_ioc]
    rfl
  · rw [State.unit_congr (s := w) (by simp [State.setFanState_wear])]
    exact hw

end

end Sys2Proof.Machine

namespace Sys2Proof.Proofs

open Sys2Proof Sys2Proof.Machine

/-- Settles O45, command by command. -/
theorem fansRunFaultAndMove : Obligations.FansRunFaultAndMove := by
  unfold Obligations.FansRunFaultAndMove
  refine ⟨?run, ?absent, ?restored, ?overload, ?hot, ?clear, ?driver, ?takeover, ?switchDone, ?internal⟩
  case run =>
    exact fun s z t ch x hz hrun hlink hch heighth hslot hfirst hactive hswitch =>
      speedLoopRun_notes hz hrun hlink hch heighth hslot hfirst hactive hswitch
  case absent =>
    exact fun s z t ch hz hch hrun habsent hstate hcurrent => tachAbsent_stalls hz hch hrun habsent hstate hcurrent
  case restored => exact fun s z t ch hz hstate hedges => tachRestored_runs hz hstate hedges
  case overload => exact fun s z t ch from_ hz hch hlimit hdue hstate => fanOverload_faults hz hch hlimit hdue hstate
  case hot => exact fun s z t ch temp hz hch htemp hfirst => fanHot_faults hz hch htemp hfirst
  case clear => exact fun s a t i rx live hs hi _ => fanCmd_clears hs hi
  case driver => exact fun s z t ch hz hch hrole => fanDriverFault_fences hz hch hrole
  case takeover => exact fun s z t ch f row hz hch hfence hf hspare => fanTakeover_moves hz hch hfence hf hspare
  case switchDone => exact fun s z t ch out from_ hz _ hmove hlow => fanSwitchDone_waits hz hmove hlow
  case internal =>
    exact fun s z t n f r hz hn hbad hfence hrole hspare => ifanTakeover_promotes hz hn hbad hfence hrole hspare

end Sys2Proof.Proofs
end

section
/-! PROOFS. The statements of spec/16_field_bus.md on ports and objects. -/

namespace Sys2Proof.Machine

open Sys2Proof

/-! ### Ports of the field bus (R528 to R541) -/

theorem State.fbPort_congr {s t : State} (h : t.ioc = s.ioc) (p : Nat) : t.fbPort p = s.fbPort p := by
  unfold State.fbPort
  rw [h]

@[simp] theorem State.fbPort_setU (s : State) (e : Ent) (u v p : Nat) : (s.setU e u v).fbPort p = s.fbPort p := rfl

theorem State.fbPort_latchU (s : State) (e : Ent) (u b key p : Nat) : (s.latchU e u b key).fbPort p = s.fbPort p :=
  State.fbPort_congr (by simp) p

theorem State.fbPort_answer (s : State) (q : Req) (ans : Ans) (p : Nat) : (s.answer q ans).fbPort p = s.fbPort p :=
  State.fbPort_congr (by simp) p

/-- Arbitration changes no entry. -/
theorem State.getU_offer (s : State) (p : Nat) (e : Ent) (u : Nat) : (s.offer p).getU e u = s.getU e u := by
  unfold State.offer
  dsimp only
  split
  · rfl
  · split <;> rfl

theorem State.fbState_offer (s : State) (p q : Nat) : (s.offer p).fbState q = s.fbState q :=
  State.getU_offer s p E.FB_STATE q

section

variable {e : Ent} {w : Nat} (hw : w < 256) (hk : e.key < 0x8F0000)
include hw hk

/-- The state follows the counters: nothing moves but the state and its latch. -/
theorem State.getU_fbRefresh_of_sub (s : State) (p : Nat) (hstate : e.key % 256 ≠ E.FB_STATE.key % 256)
    (hlatch : e.key % 256 ≠ E.FB_LATCHES.key % 256) : (s.fbRefresh p).getU e w = s.getU e w := by
  unfold State.fbRefresh
  dsimp only
  split
  · rfl
  · split
    · rw [State.getU_latchU_of_sub _ _ _ _ hw hk hlatch, State.getU_setU_of_sub _ _ _ _ hstate]
    · exact State.getU_setU_of_sub _ _ _ _ hstate

/-- A received frame moves the receive error counter, the state and its latch alone. -/
theorem State.getU_rxSuccess_of_sub (s : State) (p : Nat) (hrec : e.key % 256 ≠ E.FB_REC.key % 256)
    (hstate : e.key % 256 ≠ E.FB_STATE.key % 256) (hlatch : e.key % 256 ≠ E.FB_LATCHES.key % 256) :
    (s.rxSuccess p).getU e w = s.getU e w := by
  unfold State.rxSuccess
  dsimp only
  split
  · rfl
  · split
    · rw [State.getU_fbRefresh_of_sub hw hk _ _ hstate hlatch, State.getU_setU_of_sub _ _ _ _ hrec]
    · rw [State.getU_fbRefresh_of_sub hw hk _ _ hstate hlatch, State.getU_setU_of_sub _ _ _ _ hrec]
      rfl

/-- Storing a frame moves the object's own entries, the count of overwrites and its latch: none of them is an entry of
the ports below the objects' but those two. -/
theorem State.getU_storeFrame_of_sub (s : State) (k : Nat) (f : CanFrame) (hobj : e.key + 256 * w < E.RX_STATUS.key)
    (hover : e.key % 256 ≠ E.FB_RX_OVERWRITES.key % 256) (hlatch : e.key % 256 ≠ E.FB_LATCHES.key % 256) :
    (s.storeFrame k f).getU e w = s.getU e w := by
  have stored (u : State) (v st : Nat) (x : RxObj) :
      (((u.setObj E.RX_RECORD k v).setObj E.RX_STATUS k st).putRx k x).getU e w = u.getU e w := by
    rw [State.getU_putRx, State.setObj, State.getU_setU_ne _ _ _ _ _ _ (by simp only [Ent.up]; omega), State.setObj,
      State.getU_setU_ne _ _ _ _ _ _ (by simp only [Ent.up, E.RX_RECORD, E.RX_STATUS] at *; omega)]
  unfold State.storeFrame
  dsimp only
  split
  · rw [State.getU_latchU_of_sub _ _ _ _ hw hk hlatch, State.getU_incU_of_sub _ _ _ hover, stored]
  · exact stored _ _ _ _

theorem State.getU_busOff_of_sub (s : State) (p : Nat) (hstate : e.key % 256 ≠ E.FB_STATE.key % 256)
    (hoffs : e.key % 256 ≠ E.FB_BUS_OFFS.key % 256) (hlatch : e.key % 256 ≠ E.FB_LATCHES.key % 256) :
    (s.busOff p).getU e w = s.getU e w := by
  unfold State.busOff
  rw [State.getU_latchU_of_sub _ _ _ _ hw hk hlatch, State.getU_incU_of_sub _ _ _ hoffs,
    State.getU_setU_of_sub _ _ _ _ hstate, State.getU_putPort]

end

/-- An error moves the counters of errors alone. -/
theorem State.getU_countError_of_sub (s : State) {e : Ent} (p : Nat) (x : CanErr) (w : Nat)
    (htec : e.key % 256 ≠ E.FB_TEC.key % 256) (hrec : e.key % 256 ≠ E.FB_REC.key % 256) :
    (s.countError p x).getU e w = s.getU e w := by
  unfold State.countError
  refine State.getU_setU_of_sub _ _ _ _ ?_
  split
  · exact htec
  · exact hrec

theorem State.getU_leaveAlone_of_sub (s : State) (p : Nat) {e : Ent} (w : Nat)
    (hstate : e.key % 256 ≠ E.FB_STATE.key % 256) : (s.leaveAlone p).getU e w = s.getU e w := by
  unfold State.leaveAlone
  split
  · exact State.getU_setU_of_sub _ _ _ _ hstate
  · rfl

/-- The counter of a kind of error (R532). -/
def errorCount (kind : Nat) : Ent :=
  match kind with
  | 0 => E.FB_ERR_BIT | 1 => E.FB_ERR_STUFF | 2 => E.FB_ERR_FORM | 3 => E.FB_ERR_CRC | _ => E.FB_ERR_ACK

/-- The counts of errors stand together, at subindices 0x13 to 0x17. -/
theorem errorCount_key (kind : Nat) : 0x720013 ≤ (errorCount kind).key ∧ (errorCount kind).key ≤ 0x720017 := by
  unfold errorCount
  split <;> decide

/-! ### What each command of the field bus leaves -/

section

variable {s z a : State} {t port i : Nat} {rx : Rx} {live : Bool}

/-- CAN_FRAME_RECEIVE (R513): the frame is counted. -/
theorem canFrameReceive_counts {f : CanFrame} (hz : z = s.at t) (hport : port < 8) (hon : z.fbOn port = true) :
    Answers (.canFrameReceive t port f) s fun u =>
      u.getU E.FB_RX_FRAMES port = (z.getU E.FB_RX_FRAMES port + 1) % 2 ^ 64 := by
  subst hz
  refine answers_of_when rfl (by simp [hport, hon]) ?_
  generalize s.at t = z
  dsimp only
  generalize hy : State.rxSuccess _ port = y
  have counted : y.getU E.FB_RX_FRAMES port = (z.getU E.FB_RX_FRAMES port + 1) % 2 ^ 64 := by
    rw [← hy, State.getU_rxSuccess_of_sub (by omega) (by decide) _ _ (by decide) (by decide) (by decide),
      State.getU_incU_same, State.getU_putPort]
  rw [State.getU_offer, ← counted]
  split
  · exact State.getU_storeFrame_of_sub (by omega) (by decide) _ _ _ (by simp only [E.FB_RX_FRAMES, E.RX_STATUS]; omega)
      (by decide) (by decide)
  · exact State.getU_incU_of_sub _ _ _ (by decide)

/-- CAN_TX_DONE (R529, R534): the frame is counted, an acknowledgement stands, and the transmit error counter falls. -/
theorem canTxDone_counts {time k : Nat} {data : Bytes} (hz : z = s.at t) (hport : port < 8) (hon : z.fbOn port = true)
    (hbus : (z.fbPort port).bus = some (k, data)) :
    Answers (.canTxDone t port time) s fun u =>
      u.getU E.FB_TX_FRAMES port = (z.getU E.FB_TX_FRAMES port + 1) % 2 ^ 64 ∧ u.getU E.FB_UNACKED port = 0
        ∧ u.getU E.FB_TEC port = z.getU E.FB_TEC port - 1 := by
  subst hz
  refine ⟨_, rfl, ?_⟩
  generalize s.at t = z at *
  simp only [hbus]
  rw [State.when_of (by simp [hport, hon])]
  have shown (u : State) {e : Ent} (hk : e.key < 0x8F0000) (hstate : e.key % 256 ≠ E.FB_STATE.key % 256)
      (hlatch : e.key % 256 ≠ E.FB_LATCHES.key % 256) :
      (((u.fbRefresh port).leaveAlone port).offer port).getU e port = u.getU e port := by
    rw [State.getU_offer, State.getU_leaveAlone_of_sub _ _ _ hstate,
      State.getU_fbRefresh_of_sub (by omega) hk _ _ hstate hlatch]
  rw [shown _ (by decide) (by decide) (by decide), shown _ (by decide) (by decide) (by decide),
    shown _ (by decide) (by decide) (by decide)]
  simp (disch := decide) only [State.getU_setU_of_sub, State.getU_incU_of_sub, State.getU_setU_same,
    State.getU_incU_same, State.getU_putTx, State.getU_putPort, and_self]

/-- CAN_ERROR (R532): the error is counted by its kind. -/
theorem canError_counts {x : CanErr} (hz : z = s.at t) (hport : port < 8) (hon : z.fbOn port = true) :
    Answers (.canError t port x) s fun u =>
      u.getU (errorCount x.kind) port = (z.getU (errorCount x.kind) port + 1) % 2 ^ 64 := by
  subst hz
  refine answers_of_when rfl (by simp [hport, hon]) ?_
  generalize s.at t = z
  obtain ⟨lo, hi⟩ := errorCount_key x.kind
  extract_lets kind counted erred unheard mine freed
  have shown : counted.getU (errorCount x.kind) port = (z.getU (errorCount x.kind) port + 1) % 2 ^ 64 :=
    z.getU_incU_same kind port
  generalize errorCount x.kind = c at *
  have hk : c.key < 0x8F0000 := by omega
  have apart {f : Ent} (hf : f.key % 256 < 0x13 ∨ 0x17 < f.key % 256) : c.key % 256 ≠ f.key % 256 := by omega
  have held : freed.getU c port = counted.getU c port := by
    have erring : erred.getU c port = counted.getU c port :=
      State.getU_countError_of_sub _ _ _ _ (apart (by decide)) (apart (by decide))
    rw [← erring]
    simp only [freed, unheard, State.getU_putPort]
    split
    · exact State.getU_setU_of_sub _ _ _ _ (apart (by decide))
    · rfl
  rw [← shown]
  clear_value freed
  split
  · rfl
  rw [← held]
  split
  · exact State.getU_busOff_of_sub (by omega) hk _ _ (apart (by decide)) (apart (by decide)) (apart (by decide))
  · rw [State.getU_offer]
    exact State.getU_fbRefresh_of_sub (by omega) hk _ _ (apart (by decide)) (apart (by decide))

/-- FB_CMD 1 (R533): the port rejoins at the next tick. -/
theorem fbCmdRejoin_orders (hs : (s.at t).screen rx fbCmdRejoinService = .run live a)
    (hi : i = (Req.parse rx).index - E.FB_CMD.key / 256) :
    Answers (.fbCmdRejoin t rx) s fun u => u.fbPort i = { a.fbPort i with rejoin := some (a.tick + 1) } := by
  have serves : exec (.fbCmdRejoin t rx) s = .next ((s.at t).serve rx fbCmdRejoinService) := rfl
  unfold fbCmdRejoinService fbCmd at serves hs
  refine answers_of_cmd serves hs hi fun ans => ?_
  rw [State.fbPort_answer]
  exact State.fbPort_putPort_same _ _ _

/-- FB_CMD 2 (R535): the next probe comes at once. -/
theorem fbCmdProbe_orders (hs : (s.at t).screen rx fbCmdProbeService = .run live a)
    (hi : i = (Req.parse rx).index - E.FB_CMD.key / 256) (halone : a.fbState i = 4) :
    Answers (.fbCmdProbe t rx) s fun u => u.fbPort i = { a.fbPort i with probeNow := true } := by
  have serves : exec (.fbCmdProbe t rx) s = .next ((s.at t).serve rx fbCmdProbeService) := rfl
  unfold fbCmdProbeService fbCmd at serves hs
  refine answers_of_cmd serves hs hi fun ans => ?_
  dsimp only
  rw [State.fbPort_answer, if_pos halone]
  exact State.fbPort_putPort_same _ _ _

/-- BUS_OFF_RECOVERY_DONE (R533): the port is error active, its counters cleared. -/
theorem busOffRecoveryDone_activates (hz : z = s.at t) (hstate : z.fbState port = 6)
    (hdue : (z.fbPort port).since + 1408 * z.fbBit port ≤ z.now) :
    Answers (.busOffRecoveryDone t port) s fun u =>
      u.fbState port = 2 ∧ u.getU E.FB_TEC port = 0 ∧ u.getU E.FB_REC port = 0 := by
  subst hz
  refine ⟨_, rfl, ?_⟩
  generalize s.at t = z at *
  rw [State.when_of (by simp [hstate, hdue]), State.fbState, State.getU_offer, State.getU_offer, State.getU_offer]
  simp (disch := decide) only [State.getU_setU_of_sub, State.getU_setU_same, and_self]

/-- ALONE_ENTER (R534): the port is alone, and nothing of it is on the bus. -/
theorem aloneEnter_enters (hz : z = s.at t) (hport : port < 8) (hstate : z.fbState port = 2 ∨ z.fbState port = 3)
    (hunacked : 16 ≤ z.getU E.FB_UNACKED port) :
    Answers (.aloneEnter t port) s fun u =>
      u.fbState port = 4 ∧ u.getU E.FB_ALONE_EVENTS port = (z.getU E.FB_ALONE_EVENTS port + 1) % 2 ^ 64
        ∧ (u.fbPort port).bus = none := by
  subst hz
  refine ⟨_, rfl, ?_⟩
  generalize s.at t = z at *
  rw [State.when_of (by simp [hstate, hunacked])]
  extract_lets x y
  have events : y.getU E.FB_ALONE_EVENTS port = z.getU E.FB_ALONE_EVENTS port := by
    simp only [y]
    split <;> rfl
  rw [State.fbState, State.fbPort_latchU, State.getU_latchU_of_sub _ _ _ _ (by omega) (by decide) (by decide),
    State.getU_latchU_of_sub _ _ _ _ (by omega) (by decide) (by decide), State.getU_incU_of_sub _ _ _ (by decide),
    State.getU_setU_same, State.getU_incU_same, State.getU_setU_of_sub _ _ _ _ (by decide), State.getU_putPort, events]
  refine ⟨rfl, rfl, ?_⟩
  change (State.fbPort (State.putPort _ _ _) _).bus = none
  rw [State.fbPort_putPort_same]

/-- ALONE_PROBE (R535): the frame that wins arbitration is sent once more. -/
theorem aloneProbe_sends {k : Nat} (hz : z = s.at t) (hstate : z.fbState port = 4)
    (hbus : (z.fbPort port).bus = none) (hprobed : (z.fbPort port).probed < z.tick)
    (hnow : (z.fbPort port).probeNow = true) (hslot : z.pastSlot 50 = true)
    (hwin : minBy (fun k => arbKey (z.effObj E.TX_CONFIG k)) ((z.objects E.TX_CONFIG port).filter fun k =>
      txEnabled (z.effObj E.TX_CONFIG k) && ((z.txObj k).pending.isSome || (z.txObj k).last.isSome)) = some k) :
    Answers (.aloneProbe t port) s fun u =>
      (u.fbPort port).bus = some (k, match (z.txObj k).pending with | some d => d | none => (z.txObj k).last.getD [])
        ∧ (u.fbPort port).probed = z.tick ∧ (u.fbPort port).probeNow = false := by
  subst hz
  refine ⟨_, rfl, ?_⟩
  generalize s.at t = z at *
  rw [State.when_of (by simp [hstate, hbus, hprobed, hnow, hslot])]
  dsimp only
  simp only [hwin]
  rw [State.fbPort_putPort_same]
  exact ⟨rfl, rfl, rfl⟩

/-- RX_OBJECT_STALE (R521). -/
theorem rxObjectStale_marks {obj : Nat} (hz : z = s.at t) (hobj : obj < 2048)
    (hused : (z.effObj E.RX_CONFIG obj).testBit 63 = true) (htimeout : bits (z.effObj E.RX_CONFIG obj) 47 32 ≠ 0)
    (hfirst : (z.getObj E.RX_STATUS obj).testBit 2 = false)
    (hdue : (z.rxObj obj).lastAt + bits (z.effObj E.RX_CONFIG obj) 47 32 * ms ≤ z.now) :
    Answers (.rxObjectStale t obj) s fun u => u.getObj E.RX_STATUS obj = setBit (z.getObj E.RX_STATUS obj) 2 := by
  subst hz
  refine ⟨_, rfl, ?_⟩
  generalize s.at t = z at *
  rw [State.when_of (by simp [hobj, hused, htimeout, hfirst, hdue]), State.getObj, State.getU, State.getD_latchU]
  · exact State.getU_setU_same _ _ _ _
  · exact notMem_logKeys_of_lt (by simp only [Ent.up, E.RX_STATUS]; omega)
  · simp only [Ent.up, E.RX_STATUS, E.FB_LATCHES]
    omega

/-- SUPPRESSION_END (R538). -/
theorem suppressionEnd_ends (hz : z = s.at t) (hsuppressed : (z.fbPort port).suppressed = true)
    (hclear : z.getU E.FB_SUPPRESS_HOLD port ≤ (z.fbPort port).clearRun) :
    Answers (.suppressionEnd t port) s fun u =>
      (u.fbPort port).suppressed = false ∧ (u.fbPort port).clearRun = 0 := by
  subst hz
  refine ⟨_, rfl, ?_⟩
  generalize s.at t = z at *
  rw [State.when_of (by simp [hsuppressed, hclear])]
  have kept (u : State) : (u.latchEnd E.FB_LATCHES port 4 (fbKey port)).fbPort port = u.fbPort port :=
    State.fbPort_congr (by simp) port
  rw [kept, State.fbPort_putPort_same]
  exact ⟨rfl, rfl⟩

/-- FB_INTEGRATE_DONE (R541): the counters give the state. -/
theorem fbIntegrateDone_joins (hz : z = s.at t) (hstate : z.fbState port = 1)
    (hdue : (z.fbPort port).since + 11 * z.fbBit port ≤ z.now) :
    Answers (.fbIntegrateDone t port) s fun u => u.fbState port = z.fbByCounters port := by
  subst hz
  refine ⟨_, rfl, ?_⟩
  generalize s.at t = z at *
  rw [State.when_of (by simp [hstate, hdue]), State.fbState_offer]
  exact State.getU_setU_same _ _ _ _

/-- FB_PORT_FENCE (R540). -/
theorem fbPortFence_fences (hz : z = s.at t) (hport : port < 8) (hstate : z.fbState port ≠ 7) :
    Answers (.fbPortFence t port) s fun u => u.fbState port = 7 ∧ (u.fbPort port).bus = none := by
  subst hz
  refine ⟨_, rfl, ?_⟩
  generalize s.at t = z at *
  rw [State.when_of (by simpa using hport), State.fencePort, if_neg hstate]
  dsimp only
  rw [State.fbState, State.getU_latchU_of_sub _ _ _ _ (by omega) (by decide) (by decide), State.getU_setU_same,
    State.fbPort_latchU, State.fbPort_setU, State.fbPort_putPort_same]
  exact ⟨rfl, rfl⟩

end

end Sys2Proof.Machine

namespace Sys2Proof.Proofs

open Sys2Proof Sys2Proof.Machine

/-- Settles O46, command by command. -/
theorem fieldBusRuns : Obligations.FieldBusRuns := by
  unfold Obligations.FieldBusRuns
  refine ⟨?receive, ?sent, ?error, ?rejoin, ?probe, ?recovered, ?alone, ?probed, ?stale, ?suppression, ?joined, ?fence⟩
  case receive => exact fun s z t port f hz hport hon => canFrameReceive_counts hz hport hon
  case sent => exact fun s z t port time k data hz hport hon hbus => canTxDone_counts hz hport hon hbus
  case error => exact fun s z t port e c hz hport hon hc => hc ▸ canError_counts hz hport hon
  case rejoin => exact fun s a t i rx live hs hi => fbCmdRejoin_orders hs hi
  case probe => exact fun s a t i rx live hs hi halone => fbCmdProbe_orders hs hi halone
  case recovered => exact fun s z t port hz hstate hdue => busOffRecoveryDone_activates hz hstate hdue
  case alone => exact fun s z t port hz hport hstate hunacked => aloneEnter_enters hz hport hstate hunacked
  case probed =>
    exact fun s z t port k hz hstate hbus hprobed hnow hslot hwin =>
      aloneProbe_sends hz hstate hbus hprobed hnow hslot hwin
  case stale =>
    exact fun s z t obj hz hobj hused htimeout hfirst hdue => rxObjectStale_marks hz hobj hused htimeout hfirst hdue
  case suppression => exact fun s z t port hz hsuppressed hclear => suppressionEnd_ends hz hsuppressed hclear
  case joined => exact fun s z t port hz hstate hdue => fbIntegrateDone_joins hz hstate hdue
  case fence => exact fun s z t port hz hport hstate => fbPortFence_fences hz hport hstate

end Sys2Proof.Proofs
end

section
/-! PROOFS. The statements of spec/17_plant_and_leaks.md on the supervisor, the branches and leaks. -/

namespace Sys2Proof.Machine

open Sys2Proof

/-! ### The tick of the supervisor's last run (R544) -/

/-- The tick of the supervisor's last run, which its run alone notes. -/
def State.plantRan (s : State) : Option Nat := s.plant.ran

theorem State.plantRan_congr {s t : State} (h : t.plant = s.plant) : t.plantRan = s.plantRan := by
  unfold State.plantRan
  rw [h]

@[simp] theorem State.plantRan_ite (c : Prop) [Decidable c] (s t : State) :
    (if c then s else t).plantRan = if c then s.plantRan else t.plantRan := by split <;> rfl

theorem State.plantRan_foldl {β : Type} {f : State → β → State} (h : ∀ s b, (f s b).plantRan = s.plantRan)
    (l : List β) (s : State) : (l.foldl f s).plantRan = s.plantRan := foldl_eq_of_step (p := State.plantRan) h l s

@[simp] theorem State.plantRan_setU (s : State) (e : Ent) (u v : Nat) : (s.setU e u v).plantRan = s.plantRan := rfl
@[simp] theorem State.plantRan_set (s : State) (e : Ent) (v : Nat) : (s.set e v).plantRan = s.plantRan := rfl
@[simp] theorem State.plantRan_incU (s : State) (e : Ent) (u : Nat) : (s.incU e u).plantRan = s.plantRan := rfl
@[simp] theorem State.plantRan_putPump (s : State) (i : Nat) (x : Pump) : (s.putPump i x).plantRan = s.plantRan := rfl

@[simp] theorem State.plantRan_putBranch (s : State) (b : Nat) (x : Branch) :
    (s.putBranch b x).plantRan = s.plantRan := rfl

@[simp] theorem State.plantRan_putQuantity (s : State) (n : Nat) (v : Br) (tick : Option Nat) :
    (s.putQuantity n v tick).plantRan = s.plantRan := rfl

@[simp] theorem State.plantRan_latch (s : State) (e : Ent) (b key : Nat) : (s.latch e b key).plantRan = s.plantRan :=
  State.plantRan_congr (by simp)

@[simp] theorem State.plantRan_latchOpen (s : State) (e : Ent) (b key : Nat) :
    (s.latchOpen e b key).plantRan = s.plantRan := State.plantRan_congr (by simp)

@[simp] theorem State.plantRan_latchEnd (s : State) (e : Ent) (u b key : Nat) :
    (s.latchEnd e u b key).plantRan = s.plantRan := State.plantRan_congr (by simp)

@[simp] theorem State.plantRan_readSources (s : State) : s.readSources.plantRan = s.plantRan := by
  have branch (u : State) (b : Nat) (l : List (Nat × Nat)) : (l.foldl (fun s p =>
      s.putQuantity (4 * b + p.2) (s.plantSource p.1).1 (s.plantSource p.1).2) u).plantRan = u.plantRan :=
    State.plantRan_foldl (fun w p => w.plantRan_putQuantity _ _ _) l u
  unfold State.readSources
  exact (State.plantRan_foldl (fun u h => u.plantRan_putQuantity _ _ _) _ _).trans
    (State.plantRan_foldl (fun u b => branch u b _) _ s)

/-! The pumps. -/

@[simp] theorem State.plantRan_commandRun (s : State) (i : Nat) (v : Bool) :
    (s.commandRun i v).plantRan = s.plantRan := rfl

@[simp] theorem State.plantRan_writeStart (s : State) (i : Nat) : (s.writeStart i).plantRan = s.plantRan :=
  (State.plantRan_congr (s.writeStart_plant i)).trans (s.plantRan_commandRun i true)

@[simp] theorem State.plantRan_startPump (s : State) (i : Nat) : (s.startPump i).plantRan = s.plantRan := by
  simp [State.startPump]

@[simp] theorem State.plantRan_stopPump (s : State) (i role : Nat) : (s.stopPump i role).plantRan = s.plantRan := rfl

@[simp] theorem State.plantRan_loseLead (s : State) (i : Nat) : (s.loseLead i).plantRan = s.plantRan := by
  unfold State.loseLead
  dsimp only
  split
  · rfl
  · split <;> rfl

@[simp] theorem State.plantRan_pumpStarted (s : State) (i : Nat) : (s.pumpStarted i).plantRan = s.plantRan := by
  unfold State.pumpStarted
  extract_lets k x y z held
  have begun : z.plantRan = s.plantRan := by
    simp only [z]
    split <;> rfl
  rw [← begun]
  clear_value z
  split
  · rfl
  · dsimp only
    split
    · rfl
    · split <;> rfl

@[simp] theorem State.plantRan_tripPump (s : State) (i : Nat) : (s.tripPump i).plantRan = s.plantRan := by
  unfold State.tripPump
  dsimp only
  split <;> simp

@[simp] theorem State.plantRan_pumpRun (s : State) (i : Nat) : (s.pumpRun i).plantRan = s.plantRan := by
  unfold State.pumpRun
  dsimp only
  split
  · simp
  · split
    · split <;> simp
    · simp

@[simp] theorem State.plantRan_setEdge (s : State) (k : Nat) : (s.setEdge k).plantRan = s.plantRan := by
  have stopped (l : List Nat) (u : State) : (l.foldl (fun s i =>
      if ((s.pump i).running || (s.pump i).starting.isSome) = true then s.stopPump i 2 else s) u).plantRan
        = u.plantRan := State.plantRan_foldl (fun u i => by split <;> rfl) l u
  unfold State.setEdge
  dsimp only
  split
  · rfl
  · split
    · rfl
    · exact stopped _ s

@[simp] theorem State.plantRan_chainStarts (s : State) : s.chainStarts.plantRan = s.plantRan := by
  have started (u : State) (i : Nat) : ({ u.startPump i with plant := { (u.startPump i).plant with
      startGapFrom := some (u.startPump i).now } } : State).plantRan = u.plantRan := u.plantRan_startPump i
  unfold State.chainStarts
  split
  · rfl
  · extract_lets x due i y z
    split
    · rfl
    · split
      · exact started y i
      · rfl

@[simp] theorem State.plantRan_pumpsRun (s : State) : s.pumpsRun.plantRan = s.plantRan := by
  have ran (u : State) (k : Nat) : (if (u.pumpSet k).isOn = true
      then (u.pumpsOf k).foldl State.pumpRun u else u).plantRan = u.plantRan := by
    split
    · exact State.plantRan_foldl (fun u i => u.plantRan_pumpRun i) _ u
    · rfl
  unfold State.pumpsRun
  extract_lets edged turned running counted
  rw [State.plantRan_chainStarts]
  calc counted.plantRan
    _ = turned.plantRan := State.plantRan_foldl (fun u k =>
      (State.plantRan_putQuantity _ _ _ _).trans (u.plantRan_putQuantity _ _ _)) _ _
    _ = edged.plantRan := State.plantRan_foldl ran _ _
    _ = s.plantRan := State.plantRan_foldl (fun u k => u.plantRan_setEdge k) _ s

@[simp] theorem State.plantRan_startStandby (s : State) (k : Nat) : (s.startStandby k).plantRan = s.plantRan := by
  unfold State.startStandby
  split
  · rfl
  · split <;> simp

/-! The branches. -/

@[simp] theorem State.plantRan_branchEdge (s : State) (b : Nat) : (s.branchEdge b).plantRan = s.plantRan := by
  simp [State.branchEdge]

@[simp] theorem State.plantRan_enterStop (s : State) (b : Nat) : (s.enterStop b).plantRan = s.plantRan := by
  simp [State.enterStop]

@[simp] theorem State.plantRan_trendRun (s : State) (b : Nat) : (s.trendRun b).plantRan = s.plantRan := by
  simp [State.trendRun]

@[simp] theorem State.plantRan_branchRun (s : State) (b : Nat) : (s.branchRun b).plantRan = s.plantRan := by
  simp [State.branchRun]

@[simp] theorem State.plantRan_declareLeak (s : State) (b : Nat) : (s.declareLeak b).plantRan = s.plantRan := by
  simp [State.declareLeak]

@[simp] theorem State.plantRan_takeLeaks (s : State) : s.takeLeaks.plantRan = s.plantRan :=
  State.plantRan_foldl (fun u b => u.plantRan_declareLeak b) _ _

theorem State.plantRan_refreshFanHolds (s : State) : s.refreshFanHolds.plantRan = s.plantRan := rfl

@[simp] theorem State.plantRan_fanHolds (s : State) : s.fanHolds.plantRan = s.plantRan := by
  unfold State.fanHolds
  extract_lets held
  rw [State.plantRan_refreshFanHolds]
  refine State.plantRan_foldl (fun u h => ?_) _ s
  split
  · rfl
  · split <;> rfl

@[simp] theorem State.plantRan_capacityRun (s : State) : s.capacityRun.plantRan = s.plantRan := by
  unfold State.capacityRun
  extract_lets shares cf left cap fall shared plant dropped told
  have share : shared.plantRan = s.plantRan := by
    refine State.plantRan_foldl (fun w p => ?_) shares s
    split
    · rfl
    · exact State.plantRan_putBranch _ _ _
  have drop : dropped.plantRan = shared.plantRan := by
    clear_value fall shared
    rfl
  have tell : told.plantRan = dropped.plantRan :=
    (State.plantRan_putQuantity _ _ _ _).trans (dropped.plantRan_set _ _)
  clear_value told
  rw [State.plantRan_foldl (fun u h => u.plantRan_setU E.HX_STATE h (u.hxState h)), tell, drop, share]

@[simp] theorem State.plantRan_showBranches (s : State) : s.showBranches.plantRan = s.plantRan := by
  unfold State.showBranches
  dsimp only
  rw [State.plantRan_putQuantity]
  refine State.plantRan_foldl (fun u b => ?_) _ s
  split
  · rfl
  · split <;> rfl

/-! ### The state of a heat exchanger (R555, R585) -/

/-- What the state of heat exchanger `h` is, and what it rests on. -/
def State.hxView (s : State) (h : Nat) : Nat × Nat × Nat × Br :=
  (s.getU E.HX_STATE h, s.getU E.HX_ENABLE h, s.getU E.HX_PRIMARY_MAX h, s.quantity (0x100 + h))

/-- Whether heat exchanger `h` shows the state it is in. -/
def HxShown (s : State) (h : Nat) : Prop := s.getU E.HX_STATE h = s.hxState h

theorem State.hxState_congr {s t : State} {h : Nat} (henable : t.getU E.HX_ENABLE h = s.getU E.HX_ENABLE h)
    (hmax : t.getU E.HX_PRIMARY_MAX h = s.getU E.HX_PRIMARY_MAX h)
    (hquant : t.quantity (0x100 + h) = s.quantity (0x100 + h)) : t.hxState h = s.hxState h := by
  unfold State.hxState State.edges
  rw [henable, hmax, hquant]

theorem HxShown.congr {s t : State} {h : Nat} (shown : HxShown s h) (hview : t.hxView h = s.hxView h) :
    HxShown t h := by
  simp only [State.hxView, Prod.mk.injEq] at hview
  obtain ⟨state, enable, primary, quant⟩ := hview
  exact state.trans (shown.trans (State.hxState_congr enable primary quant).symm)

theorem State.hxView_setU_of_sub (s : State) {e : Ent} (u v h : Nat)
    (he : e.key % 256 ≠ 1 ∧ e.key % 256 ≠ 4 ∧ e.key % 256 ≠ 5) : (s.setU e u v).hxView h = s.hxView h := by
  obtain ⟨henable, hmax, hstate⟩ := he
  rw [State.hxView, State.getU_setU_of_sub _ _ _ _ (Ne.symm hstate), State.getU_setU_of_sub _ _ _ _ (Ne.symm henable),
    State.getU_setU_of_sub _ _ _ _ (Ne.symm hmax)]
  rfl

theorem State.hxView_putQuantity (s : State) {n h : Nat} (hn : 0x100 + h ≠ n) (v : Br) (tick : Option Nat) :
    (s.putQuantity n v tick).hxView h = s.hxView h := by
  have quant : (s.putQuantity n v tick).quantity (0x100 + h) = s.quantity (0x100 + h) :=
    congrArg Br.of32 (AMap.getD_set_ne _ hn _ _)
  rw [State.hxView, quant]
  rfl

/-- A run writes every exchanger's state as it is in. -/
theorem hxShown_foldl (h : Nat) (l : List Nat) (s : State) (hmem : h ∈ l ∨ HxShown s h) :
    HxShown (l.foldl (fun s k => s.setU E.HX_STATE k (s.hxState k)) s) h := by
  induction l generalizing s with
  | nil => exact hmem.resolve_left List.not_mem_nil
  | cons k l ih =>
    have state (v : Nat) : (s.setU E.HX_STATE k v).hxState h = s.hxState h :=
      State.hxState_congr (State.getU_setU_of_sub _ _ _ _ (by decide)) (State.getU_setU_of_sub _ _ _ _ (by decide)) rfl
    refine ih _ ?_
    by_cases hk : h = k
    · subst hk
      exact .inr ((State.getU_setU_same _ _ _ _).trans (state _).symm)
    · refine hmem.imp (fun hin => (List.mem_cons.1 hin).resolve_left hk) fun shown => ?_
      unfold HxShown
      rw [state, State.getU_setU_ne _ _ _ _ _ _ (by omega)]
      exact shown

theorem hxShown_capacityRun (s : State) {h : Nat} (hh : h < 16) : HxShown s.capacityRun h := by
  unfold State.capacityRun
  extract_lets shares cf left cap fall shared plant dropped told
  exact hxShown_foldl h (List.range 16) told (.inl (List.mem_range.2 hh))

theorem State.hxView_showBranches (s : State) {h : Nat} (hh : h < 16) : s.showBranches.hxView h = s.hxView h := by
  unfold State.showBranches
  dsimp only
  rw [State.hxView_putQuantity _ (by omega)]
  refine foldl_eq_of_step (p := fun u => u.hxView h) (fun u b => ?_) _ s
  split
  · rw [State.hxView_setU_of_sub _ _ _ _ (by decide), State.hxView_setU_of_sub _ _ _ _ (by decide)]
  · split
    · rw [State.hxView_setU_of_sub _ _ _ _ (by decide), State.hxView_setU_of_sub _ _ _ _ (by decide)]
    · rw [State.hxView_setU_of_sub _ _ _ _ (by decide)]
      exact State.hxView_setU_of_sub _ _ _ _ (by decide)

theorem State.hxView_tallied (s : State) (stack n size : Nat) (m : AMap Nat) (h : Nat) :
    (s.tallied stack n size m).hxView h = s.hxView h := by
  have added (u : State) (c : Prop) [Decidable c] {e : Ent} (v : Nat)
      (he : e.key % 256 ≠ 1 ∧ e.key % 256 ≠ 4 ∧ e.key % 256 ≠ 5) :
      (if c then u else u.addU e stack v).hxView h = u.hxView h := by
    split
    · rfl
    · exact State.hxView_setU_of_sub _ _ _ _ he
  unfold State.tallied
  rw [added _ _ _ (by decide), added _ _ _ (by decide), added _ _ _ (by decide)]

theorem State.plantRan_tallied (s : State) (stack n size : Nat) (m : AMap Nat) :
    (s.tallied stack n size m).plantRan = s.plantRan := by simp [State.tallied, State.addU]

theorem State.plantView_recorder (s : State) (r : Recorder) (h : Nat) :
    ({ s with recorder := r } : State).hxView h = s.hxView h
      ∧ ({ s with recorder := r } : State).plantRan = s.plantRan := ⟨rfl, rfl⟩

/-- A value that reaches the histograms counts in the tally units alone. -/
theorem State.histValue_keeps (s : State) (src sel v h : Nat) :
    (s.histValue src sel v).hxView h = s.hxView h ∧ (s.histValue src sel v).plantRan = s.plantRan := by
  unfold State.histValue
  split
  · exact ⟨rfl, rfl⟩
  · extract_lets takes taken counted clean
    have view : counted.hxView h = s.hxView h :=
      foldl_eq_of_step (p := fun u => u.hxView h) (fun w p => w.hxView_tallied _ _ _ _ h) _ _
    have ran : counted.plantRan = s.plantRan := State.plantRan_foldl (fun w p => w.plantRan_tallied _ _ _ _) _ _
    clear_value counted
    rw [← view, ← ran]
    exact counted.plantView_recorder _ h

theorem State.histValues_keeps (s : State) (src : Nat) (l : List (Nat × Nat)) (h : Nat) :
    (s.histValues src l).hxView h = s.hxView h ∧ (s.histValues src l).plantRan = s.plantRan := by
  unfold State.histValues
  constructor
  · refine foldl_eq_of_step (p := fun u => u.hxView h) (fun u p => ?_) l s
    exact (u.histValue_keeps src p.1 p.2 h).1
  · refine State.plantRan_foldl (fun u p => ?_) l s
    exact (u.histValue_keeps src p.1 p.2 h).2

/-- Sending the row cuts fills the desk's queue alone. -/
theorem State.sendPlantCuts_keeps (s : State) (bs : List Nat) :
    (s.sendPlantCuts bs).regs = s.regs ∧ (s.sendPlantCuts bs).plant = s.plant := by
  unfold State.sendPlantCuts
  split <;> exact ⟨rfl, rfl⟩

theorem State.hxView_congr {s t : State} (hregs : t.regs = s.regs) (hplant : t.plant = s.plant) (h : Nat) :
    t.hxView h = s.hxView h := by
  unfold State.hxView State.quantity
  rw [State.getU_congr hregs, State.getU_congr hregs, State.getU_congr hregs, hplant]

/-! ### Isolation of a branch (R571 to R573) -/

theorem State.demandClose_valve (s : State) (b c : Nat) :
    ((s.demandClose b c).valve c).plant = some (s.getU E.BR_ISO_CLOSE b) := by
  change ((s.plantValve c _).valve c).plant = _
  rw [State.plantValve, State.valve_putValve_same]

theorem State.demandClose_branch (s : State) (b c : Nat) :
    (s.demandClose b c).branch b = { s.branch b with closeSeen := s.now, oppositeFrom := none } := by
  rw [State.demandClose, State.branch_putBranch_same]
  rfl

theorem State.getU_demandClose (s : State) (b c : Nat) (e : Ent) (u : Nat) :
    (s.demandClose b c).getU e u = s.getU e u := rfl

theorem State.endIsolation_leak {s : State} {b : Nat} (hleak : (s.branch b).leak ≠ 0) :
    ((s.endIsolation b).branch b).leak = 5 := by
  have ended (x : Branch) (hx : x.leak = 5) : ((s.putBranch b x).branch b).leak = 5 := by
    rw [State.branch_putBranch_same, hx]
  unfold State.endIsolation
  dsimp only
  split
  case isTrue hended => simpa [hleak] using hended
  case isFalse => split <;> exact ended _ rfl

/-! ### What each command of the plant leaves -/

section

variable {s z a : State} {t b i : Nat} {rx : Rx} {live : Bool}

/-- PLANT_SUPERVISOR_RUN (R544, R555): the run is noted, and the heat exchangers show their states. -/
theorem plantSupervisorRun_shows (hz : z = s.at t) (hon : z.plantOn = true) (hslot : z.pastSlot 8 = true)
    (hfirst : z.plant.ran ≠ some z.tick) :
    Answers (.plantSupervisorRun t) s fun u =>
      u.plant.ran = some z.tick ∧ ∀ h, h < 16 → u.getU E.HX_STATE h = u.hxState h := by
  subst hz
  refine ⟨_, rfl, ?_⟩
  generalize s.at t = z at *
  rw [State.when_of (by simp [hon, hslot, hfirst])]
  extract_lets plant noted runs before ran pumped bare stopped was stoppedNow branched leaked new sets started shown
    due watched
  have entered (u : State) (k : Nat) :
      (((u.branchesOf k).filter u.mayStop).foldl State.enterStop u).plantRan = u.plantRan :=
    State.plantRan_foldl (fun w b => w.plantRan_enterStop b) _ u
  have kept : started.plantRan = some z.tick := calc
    started.plantRan = leaked.plantRan := State.plantRan_foldl (fun u k => u.plantRan_startStandby k) _ _
    _ = branched.plantRan := branched.plantRan_takeLeaks
    _ = stoppedNow.plantRan := State.plantRan_foldl (fun u b => u.plantRan_branchRun b) _ _
    _ = pumped.plantRan := State.plantRan_foldl entered _ _
    _ = noted.readSources.plantRan :=
      (State.plantRan_pumpsRun _).trans (State.plantRan_foldl (fun u b => u.plantRan_branchEdge b) _ _)
    _ = some z.tick := noted.plantRan_readSources
  have ran : shown.plantRan = some z.tick := calc
    shown.plantRan = started.fanHolds.capacityRun.plantRan := State.plantRan_showBranches _
    _ = started.fanHolds.plantRan := State.plantRan_capacityRun _
    _ = some z.tick := (State.plantRan_fanHolds _).trans kept
  have states (h : Nat) (hh : h < 16) : HxShown shown h :=
    (hxShown_capacityRun started.fanHolds hh).congr (State.hxView_showBranches _ hh)
  clear_value shown
  obtain ⟨regs, plant⟩ := shown.sendPlantCuts_keeps due
  generalize shown.sendPlantCuts due = sent at *
  generalize watched.map _ = values
  constructor
  · exact (sent.histValues_keeps 4 values 0).2.trans ((State.plantRan_congr plant).trans ran)
  · intro h hh
    exact (states h hh).congr ((sent.histValues_keeps 4 values h).1.trans (State.hxView_congr regs plant h))

/-- TREND_END (R564). -/
theorem trendEnd_ends (hz : z = s.at t) (hon : z.plantOn = true) (htrend : (z.branch b).trend = true)
    (hclear : z.eff E.FLOW_RECOVER_TICKS ≤ (z.branch b).clearRun) :
    Answers (.trendEnd t b) s fun u =>
      u.branch b = { z.branch b with trend := false, lowRun := 0, returnRun := 0 } := by
  subst hz
  refine ⟨_, rfl, ?_⟩
  generalize s.at t = z at *
  rw [State.when_of (by simp [hon, htrend, hclear])]
  have kept (u : State) : (u.latchEnd E.PLANT_LATCHES 0 0 (branchKey b)).branch b = u.branch b :=
    State.branch_congr (by simp) b
  rw [kept, State.branch_putBranch_same]

/-- FLOW_RECOVERY (R566, R573): the branch recovers, bounded by its row cut. -/
theorem flowRecovery_recovers (hz : z = s.at t) (hon : z.plantOn = true)
    (hstopped : (z.branch b).stop = 1 ∨ (z.branch b).leak = 5)
    (hclear : z.eff E.FLOW_RECOVER_TICKS ≤ (z.branch b).recoverRun) :
    Answers (.flowRecovery t b) s fun u =>
      (u.branch b).stop = 2 ∧ (u.branch b).bound = (z.plantCeil b).getD 0 ∧ (u.branch b).recoverTick = z.tick
        ∧ (u.branch b).leak = if (z.branch b).leak = 5 then 0 else (z.branch b).leak := by
  subst hz
  refine ⟨_, rfl, ?_⟩
  generalize s.at t = z at *
  rw [State.when_of (by simp [hon, hstopped, hclear]), State.branch_putBranch_same]
  exact ⟨rfl, rfl, rfl, rfl⟩

/-- PLANT_CLASS_LIFT (R566, R567): the next class is lifted; with the last one the branch is normal. -/
theorem plantClassLift_lifts {l : Nat} {mine : List (Nat × Guest)} {left : List Nat} (hz : z = s.at t)
    (hon : z.plantOn = true) (hstop : (z.branch b).stop = 3) (hlapse : (z.branch b).lapse = some l) (hl : l < z.tick)
    (hgap : (z.branch b).lifted = [] ∨ (z.branch b).liftTick + z.eff E.PLANT_LIFT_GAP ≤ z.tick)
    (hmine : mine = (z.presents.filter fun p => p.2.pp.branch == b))
    (hleft : left = ((List.range 256).filter fun c =>
      (mine.any fun p => p.2.pp.cls == c) && !(z.branch b).lifted.contains c)) :
    Answers (.plantClassLift t b) s fun u =>
      (left.length ≤ 1 → (u.branch b).stop = 0 ∧ (u.branch b).lifted = []) ∧
      (∀ c d rest, left = c :: d :: rest →
        (u.branch b).stop = 3 ∧ (u.branch b).lifted = (z.branch b).lifted ++ [c] ∧ (u.branch b).liftTick = z.tick) := by
  subst hz
  refine ⟨_, rfl, ?_⟩
  generalize s.at t = z at *
  simp only [hlapse]
  rw [State.when_of (by simp [hon, hstop, hl, hgap])]
  simp only [← hmine]
  simp only [← hleft]
  match left with
  | [] =>
    refine ⟨fun _ => ?_, fun c d rest hlist => absurd hlist (by simp)⟩
    rw [State.branch_putBranch_same]
    exact ⟨rfl, rfl⟩
  | [c] =>
    refine ⟨fun _ => ?_, fun c d rest hlist => absurd hlist (by simp)⟩
    simp only [List.isEmpty_nil, if_true]
    rw [State.branch_putBranch_same]
    exact ⟨rfl, rfl⟩
  | c :: d :: rest =>
    refine ⟨fun hlen => absurd hlen (by simp), fun c' d' rest' hlist => ?_⟩
    obtain ⟨rfl, -⟩ := List.cons.inj hlist
    simp only [List.isEmpty_cons, Bool.false_eq_true, if_false]
    generalize hy : List.foldl _ z _ = y
    have tick : y.tick = z.tick := by
      rw [← hy]
      refine foldl_eq_of_step (p := State.tick) (fun u p => ?_) _ z
      rfl
    rw [State.branch_putBranch_same]
    exact ⟨hstop, rfl, tick⟩

/-- PLANT_FAN_HOLD_RELEASE (R569). -/
theorem plantFanHoldRelease_releases (hz : z = s.at t) (hon : z.plantOn = true) :
    Answers (.plantFanHoldRelease t) s fun u =>
      u.plant.hxHeld = (z.plant.hxHeld.filter fun h =>
          decide (z.plant.fanClear.getD h 0 < z.eff E.FLOW_RECOVER_TICKS))
        ∧ u.plant.fanHeld = (List.range 28).filter fun c =>
          u.plant.hxHeld.any fun h => (z.getU E.HX_FANS h).testBit c := by
  subst hz
  exact answers_of_when rfl hon ⟨rfl, rfl⟩

/-- PLANT_ROW_CUT_REFRESH (R574): the cut of a standing cause goes out once more. -/
theorem plantRowCutRefresh_sends {c : Nat} (hz : z = s.at t) (hon : z.plantOn = true) (hb : b < 40)
    (hdue : z.rowInForce (scopeBranch b) z.tick = none ∨ (∃ r, z.rowInForce (scopeBranch b) z.tick = some r
      ∧ r.tick + r.hold ≤ z.tick + 1 ∧ r.tick ≠ z.tick))
    (hout : ∀ r ∈ z.desk.rowOut, r.scope ≠ scopeBranch b) (hlink : z.linkUp = true) (hsending : z.port.sending = true)
    (hceil : z.plantCeil b = some c) :
    Answers (.plantRowCutRefresh t b) s fun u =>
      u.desk.rowOut = { scope := scopeBranch b, ceiling := c, slew := z.eff E.PLANT_CUT_SLEW
                        hold := z.eff E.PLANT_CUT_HOLD } :: z.desk.rowOut := by
  subst hz
  refine ⟨_, rfl, ?_⟩
  generalize s.at t = z at *
  have unsent : (z.desk.rowOut.any fun r => r.scope == scopeBranch b) = false := by
    simpa using hout
  rw [State.when_of (by
    rcases hdue with never | ⟨r, last, hold, first⟩
    · simp [never, hon, hb, unsent]
    · simp [last, hold, first, hon, hb, unsent])]
  simp only [State.sendPlantCuts, hlink, hsending, hceil, List.filterMap_cons, List.filterMap_nil, Option.map_some,
    Bool.not_true, Bool.or_false, Bool.false_eq_true, if_false, List.all_cons, List.all_nil, Bool.and_true,
    List.singleton_append]
  congr 1
  refine List.filter_eq_self.2 fun r hr => ?_
  simpa using (hout r hr).symm

/-- ROPE_MEASURE (R549): a rope that is disabled reads 0. -/
theorem ropeMeasure_of_disabled {x : RopeIn} (hz : z = s.at t) (hi : i < 16) (hrun : z.fwRuns = true)
    (heighth : z.wheel.idx % max 1 (z.ticksPerTurn / 8) = 0) (hfirst : z.plant.ropeAt.get i ≠ some z.tick)
    (hoff : z.getU E.ROPE_ENABLE i = 0) : Answers (.ropeMeasure t i x) s fun u => u.getU E.ROPE_STATE i = 0 := by
  subst hz
  refine ⟨_, rfl, ?_⟩
  generalize s.at t = z at *
  rw [State.when_of (by simp [hi, hrun, heighth, hfirst])]
  extract_lets plant y was
  have off : y.getU E.ROPE_ENABLE i = 0 := hoff
  rw [if_pos off]
  exact State.getU_setU_same _ _ _ _

/-- ROPE_MEASURE (R549, R570): resistance, state and run of a rope, and the leak of one that turns wet. -/
theorem ropeMeasure_measures {run : Nat} {x : RopeIn} (hz : z = s.at t) (hi : i < 16) (hfw : z.fwRuns = true)
    (heighth : z.wheel.idx % max 1 (z.ticksPerTurn / 8) = 0) (hfirst : z.plant.ropeAt.get i ≠ some z.tick)
    (hon : z.getU E.ROPE_ENABLE i ≠ 0)
    (hrun : run = (if x.kohm < z.getU E.ROPE_WET_KOHM i then z.plant.ropeWet.getD i 0 + 1 else 0)) :
    Answers (.ropeMeasure t i x) s fun u =>
      u.getU E.ROPE_KOHM i = satBytes 4 x.kohm
        ∧ u.getU E.ROPE_STATE i = (if 1000 < x.loop then 3 else if z.getU E.ROPE_PERSIST i ≤ run then 2 else 1)
        ∧ u.plant.ropeWet.getD i 0 = run
        ∧ (u.getU E.ROPE_STATE i = 2 → z.getU E.ROPE_STATE i ≠ 2 → u.plant.leakDue = z.plant.leakDue
            ++ (List.range 40).filter fun b => (z.getU E.ROPE_BRANCHES i).testBit b) := by
  subst hz
  refine ⟨_, rfl, ?_⟩
  generalize s.at t = z at *
  rw [State.when_of (by simp [hi, hfw, heighth, hfirst])]
  extract_lets plant y was left dried low count state wetted shown warned bs due
  have on : y.getU E.ROPE_ENABLE i ≠ 0 := hon
  have counted : count = run := by
    rw [hrun]
    exact ite_congr (propext decide_eq_true_iff) (fun _ => rfl) (fun _ => rfl)
  have kohm : shown.getU E.ROPE_KOHM i = satBytes 4 x.kohm :=
    (State.getU_setU_of_sub _ _ _ _ (by decide)).trans (State.getU_setU_same _ _ _ _)
  have state' : shown.getU E.ROPE_STATE i = state := State.getU_setU_same _ _ _ _
  have turned : state = (if 1000 < x.loop then 3 else if z.getU E.ROPE_PERSIST i ≤ run then 2 else 1) := by
    rw [← counted]
    rfl
  have wet : shown.plant.ropeWet.getD i 0 = run := (AMap.getD_set_same _ _ _ _).trans counted
  have leaks : shown.plant.leakDue = z.plant.leakDue := rfl
  have branches : shown.getU E.ROPE_BRANCHES i = z.getU E.ROPE_BRANCHES i :=
    (State.getU_setU_of_sub _ _ _ _ (by decide)).trans (State.getU_setU_of_sub _ _ _ _ (by decide))
  have latched (bit : Nat) {e : Ent} (hk : e.key < 0x8F0000) (he : e.key % 256 ≠ E.SFE_LATCHES.key % 256) :
      (shown.latch E.SFE_LATCHES bit (ropeKey i)).getU e i = shown.getU e i :=
    State.getU_latch_of_sub _ _ _ (by omega) hk he
  have plant' (bit : Nat) : (shown.latch E.SFE_LATCHES bit (ropeKey i)).plant = shown.plant := by simp
  rw [if_neg on]
  clear_value shown state
  split
  case isTrue hbroken =>
    have broken : state = 3 := by simpa using (Bool.and_eq_true_iff.1 hbroken).1
    rw [latched 4 (by decide) (by decide), latched 4 (by decide) (by decide), plant' 4, kohm, state', wet]
    exact ⟨rfl, turned, rfl, fun hwet => absurd (broken.symm.trans hwet) (by decide)⟩
  case isFalse =>
    split
    case isTrue =>
      refine ⟨(latched 3 (by decide) (by decide)).trans kohm,
        ((latched 3 (by decide) (by decide)).trans state').trans turned, ?_, fun _ _ => ?_⟩
      · exact (congrArg (fun p : Plant => p.ropeWet.getD i 0) (plant' 3)).trans wet
      · change warned.plant.leakDue ++ bs = _
        rw [← leaks, ← branches, ← latched 3 (e := E.ROPE_BRANCHES) (by decide) (by decide)]
        exact congrArg (fun p : Plant => p.leakDue ++ bs) (plant' 3)
    case isFalse hsame =>
      refine ⟨kohm, state'.trans turned, wet, fun hwet hwas => absurd ?_ hsame⟩
      have wetted' : state = 2 := state'.symm.trans hwet
      have was' : was ≠ 2 := hwas
      simp [wetted', was']

/-- ISOLATION_CLOSE_DEMAND (R571): after `LEAK_CLOSE_MAX` ticks the supervisor demands closing. -/
theorem isolationCloseDemand_demands {c : Nat} (hz : z = s.at t) (hon : z.plantOn = true) (hb : b < 40)
    (hleak : (z.branch b).leak = 1) (hmax : (z.branch b).leakTick + z.eff E.LEAK_CLOSE_MAX ≤ z.tick)
    (hiso : z.isoChannel b = some c) :
    Answers (.isolationCloseDemand t b) s fun u =>
      (u.valve c).plant = some (z.getU E.BR_ISO_CLOSE b) ∧ u.getU E.VALVE_REST c = z.getU E.BR_ISO_CLOSE b
        ∧ (u.branch b).leak = 2 ∧ (u.branch b).closeSeen = z.now := by
  subst hz
  refine ⟨_, rfl, ?_⟩
  generalize s.at t = z at *
  rw [State.when_of (by simp [hon, hb, hleak, hmax])]
  simp only [hiso]
  rw [State.demandClose_valve, State.demandClose_branch, State.getU_demandClose, State.getU_setU_same,
    State.getU_setU_of_sub _ _ _ _ (by decide), State.getU_putBranch]
  refine ⟨rfl, rfl, ?_, rfl⟩
  change (State.branch (State.putBranch _ _ _) _).leak = 2
  rw [State.branch_putBranch_same]

/-- ISOLATION_RETRY_CLOSE (R572). -/
theorem isolationRetryClose_demands {f c : Nat} (hz : z = s.at t) (hopposite : (z.branch b).oppositeFrom = some f)
    (hiso : z.isoChannel b = some c) (hon : z.plantOn = true) (hleak : (z.branch b).leak = 2)
    (hdue : f + z.getU E.SEAT_WINDOW_MS c * ms ≤ z.now) :
    Answers (.isolationRetryClose t b) s fun u =>
      (u.valve c).plant = some (z.getU E.BR_ISO_CLOSE b)
        ∧ u.branch b = { z.branch b with closeSeen := z.now, oppositeFrom := none } := by
  subst hz
  refine ⟨_, rfl, ?_⟩
  generalize s.at t = z at *
  simp only [hopposite, hiso]
  rw [State.when_of (by simp [hon, hleak, hdue])]
  exact ⟨State.demandClose_valve _ _ _, State.demandClose_branch _ _ _⟩

/-- BR_CMD 1 (R573): an isolation that stands ends. -/
theorem brCmdEndIsolation_ends (hs : (s.at t).screen rx brCmdEndIsolationService = .run live a)
    (hi : i = (Req.parse rx).index - E.BR_CMD.key / 256) (hleak : (a.branch i).leak ≠ 0) :
    Answers (.brCmdEndIsolation t rx) s fun u => (u.branch i).leak = 5 := by
  refine answers_of_cmd rfl hs hi fun ans => ?_
  rw [State.branch_congr (s := a.endIsolation i) (by simp)]
  exact a.endIsolation_leak hleak

/-- BR_CMD 2 (R570): the leak waits for the supervisor. -/
theorem brCmdDeclareLeak_notes (hs : (s.at t).screen rx brCmdDeclareLeakService = .run live a)
    (hi : i = (Req.parse rx).index - E.BR_CMD.key / 256) :
    Answers (.brCmdDeclareLeak t rx) s fun u => u.plant.leakDue = a.plant.leakDue ++ [i] :=
  answers_of_cmd rfl hs hi fun ans => by simp

end

end Sys2Proof.Machine

namespace Sys2Proof.Proofs

open Sys2Proof Sys2Proof.Machine

/-- Settles O47, command by command. -/
theorem plantActs : Obligations.PlantActs := by
  unfold Obligations.PlantActs
  refine ⟨?run, ?trend, ?recovery, ?lift, ?fans, ?refresh, ?ropeOff, ?rope, ?close, ?retry, ?endIsolation, ?declare⟩
  case run => exact fun s z t hz hon hslot hfirst => plantSupervisorRun_shows hz hon hslot hfirst
  case trend => exact fun s z t b hz hon htrend hclear => trendEnd_ends hz hon htrend hclear
  case recovery => exact fun s z t b hz hon hstopped hclear => flowRecovery_recovers hz hon hstopped hclear
  case lift =>
    exact fun s z t b l mine left hz hon hstop hlapse hl hgap hmine hleft =>
      plantClassLift_lifts hz hon hstop hlapse hl hgap hmine hleft
  case fans => exact fun s z t hz hon => plantFanHoldRelease_releases hz hon
  case refresh =>
    exact fun s z t b c hz hon hb hdue hout hlink hsending hceil =>
      plantRowCutRefresh_sends hz hon hb hdue hout hlink hsending hceil
  case ropeOff =>
    exact fun s z t r x hz hr hrun heighth hfirst hoff => ropeMeasure_of_disabled hz hr hrun heighth hfirst hoff
  case rope =>
    exact fun s z t r run x hz hr hfw heighth hfirst hon hrun =>
      ropeMeasure_measures hz hr hfw heighth hfirst hon hrun
  case close =>
    exact fun s z t b c hz hon hb hleak hmax hiso => isolationCloseDemand_demands hz hon hb hleak hmax hiso
  case retry =>
    exact fun s z t b f c hz hopposite hiso hon hleak hdue =>
      isolationRetryClose_demands hz hopposite hiso hon hleak hdue
  case endIsolation => exact fun s a t i rx live hs hi hleak => brCmdEndIsolation_ends hs hi hleak
  case declare => exact fun s a t i rx live hs hi => brCmdDeclareLeak_notes hs hi

end Sys2Proof.Proofs
end

section
/-! PROOFS. The statements on self-tests, spares and the units they serve (R648 to R658), and on analog
inputs (R548). -/

namespace Sys2Proof.Machine

open Sys2Proof

/-! ### Units of the ledger (R648 to R658) -/

/-- The ledger and the wheel that dates its entries. -/
def State.ledger (s : State) : Wear × Wheel := (s.wear, s.wheel)

theorem State.ledger_foldl {β : Type} {f : State → β → State} (h : ∀ s b, (f s b).ledger = s.ledger) (l : List β)
    (s : State) : (l.foldl f s).ledger = s.ledger := foldl_eq_of_step (p := State.ledger) h l s

theorem State.ledger_setU (s : State) (e : Ent) (u v : Nat) : (s.setU e u v).ledger = s.ledger := rfl

theorem State.ledger_putEng (s : State) (n : Nat) (x : Eng) : (s.putEng n x).ledger = s.ledger := rfl

theorem State.wear_of_ledger {s t : State} (h : t.ledger = s.ledger) : t.wear = s.wear := (Prod.ext_iff.1 h).1

theorem State.turn_of_ledger {s t : State} (h : t.ledger = s.ledger) : t.turn = s.turn :=
  congrArg Wheel.turn (Prod.ext_iff.1 h).2

/-- A unit in a role it takes now (R658). -/
def State.unitInRole (s : State) (row role serves : Nat) : LedgerUnit :=
  { s.unit row with
    role := role, serves := serves, useTurns := s.useTurns (s.unit row), roleTurn := s.turn, since := s.tick
    changes := satBytes 4 ((s.unit row).changes + 1), tested := (s.unit row).tested && role == 1 }

theorem State.setRole_wear (s : State) (row role serves : Nat) :
    (s.setRole row role serves).wear = (s.putUnit row (s.unitInRole row role serves)).wear := by
  simp [State.setRole, State.unitInRole]

theorem State.setRole_waiting (s : State) (row role serves : Nat) :
    (s.setRole row role serves).wear.waiting = s.wear.waiting := by
  rw [State.setRole_wear]
  rfl

theorem State.unit_setRole (s : State) (row role serves : Nat) :
    (s.setRole row role serves).unit row = s.unitInRole row role serves := by
  rw [State.unit_congr (State.setRole_wear _ _ _ _), State.unit_putUnit_same]

theorem State.unit_promote_ne (s : State) {row other : Nat} (h : other ≠ row) (serves : Nat) :
    (s.promote row serves).unit other = s.unit other := by
  rw [State.promote, State.unit_congr (s := s.setRole row 0 serves) (by simp), State.unit_setRole_ne _ h]

theorem State.wear_latch (s : State) (e : Ent) (b key : Nat) : (s.latch e b key).wear = s.wear := by simp

theorem State.refreshKind_wear (s : State) (k : Nat) : (s.refreshKind k).wear = s.wear := by simp

/-- A unit that is retired keeps its counts (R655). -/
theorem State.unit_retire (s : State) (row cause : Nat) : (s.retire row cause).unit row =
    { s.unitInRole row 4 0xFFFF with cause := cause, testFrom := none, outcome := none } := by
  have written (u : State) (b key : Nat) :
      (((u.refreshKind (kindOf row)).writeLife row).latch E.WEAR_LATCHES b key).unit row = u.unit row :=
    State.unit_congr (by simp) row
  unfold State.retire
  rw [written, State.unit_putUnit_same, State.unit_setRole]

theorem State.retire_waiting (s : State) (row cause : Nat) : (s.retire row cause).wear.waiting = s.wear.waiting := by
  have put (u : State) (x : LedgerUnit) : (u.putUnit row x).wear.waiting = u.wear.waiting := rfl
  unfold State.retire
  simp only [State.latch_frame, State.writeLife_frame, State.refreshKind_frame, put, State.setRole_waiting]

theorem State.unit_startTest (s : State) (row : Nat) (planned : Bool) : (s.startTest row planned).unit row =
    { s.unitInRole row 3 0xFFFF with
      testFrom := some s.now, outcome := none, planned := planned, tested := false } := by
  unfold State.startTest
  dsimp only
  rw [State.inc_unit, State.unit_putUnit_same, State.unit_setRole, (State.setRole_frame _ _ _ _).1]

theorem State.refreshArrays_ledger (s : State) : s.refreshArrays.ledger = s.ledger := by
  unfold State.refreshArrays
  dsimp only
  split <;> rfl

theorem mem_of_minBy {α : Type} {key : α → Nat} {l : List α} {x : α} (h : minBy key l = some x) : x ∈ l := by
  induction l generalizing x with
  | nil => simp [minBy] at h
  | cons y l ih =>
    unfold minBy at h
    split at h
    next => exact List.mem_cons.2 (.inl (Option.some.inj h).symm)
    next z hz =>
      split at h
      · exact List.mem_cons.2 (.inl (Option.some.inj h).symm)
      · exact List.mem_cons_of_mem _ (ih (h ▸ hz))

/-- The best spare of a kind is a spare (R654). -/
theorem State.bestSpare_role {s : State} {rows : List Nat} {r : Nat} (h : s.bestSpare rows = some r) :
    (s.unit r).role = 1 := by
  have spare := (List.mem_filter.1 (mem_of_minBy h)).2
  simp only [Bool.and_eq_true, beq_iff_eq] at spare
  exact spare.1

theorem State.keeperWaits_of_none {s : State} (h : s.wear.waiting = []) : s.keeperWaits = s := by
  unfold State.keeperWaits
  rw [h]

theorem State.unit_queueKeeper (s : State) (l : List Nat) (row : Nat) :
    ({ s with wear := { s.wear with waiting := l } } : State).unit row = s.unit row := rfl

/-- No waiting keeper is moved onto a unit that is not a spare. -/
theorem State.keeperWaits_unit {s : State} {row : Nat} (h : (s.unit row).role ≠ 1) :
    s.keeperWaits.unit row = s.unit row := by
  unfold State.keeperWaits
  split
  · rfl
  · split
    next k rest _ _ r hspare =>
      have hr : row ≠ r := by
        rintro rfl
        exact h (State.bestSpare_role hspare)
      exact State.unit_promote_ne _ hr _
    · split
      · rfl
      · exact State.unit_congr (by simp) row

/-- What follows a test's result: with no keeper that waits, the ledger stands. -/
theorem State.afterTest_wear {s : State} {k : Nat} (h : k ≠ 15 ∨ s.wear.waiting = []) :
    (if k = 15 then (if k = 2 then s.refreshArrays else s).keeperWaits
      else if k = 2 then s.refreshArrays else s).wear = s.wear := by
  have arrays : (if k = 2 then s.refreshArrays else s).wear = s.wear := by
    split
    · exact State.wear_of_ledger s.refreshArrays_ledger
    · rfl
  split
  next hk => rw [State.keeperWaits_of_none (by rw [arrays]; exact h.resolve_left fun hne => hne hk), arrays]
  next => exact arrays

theorem State.copyKeys_ledger (l : List Nat) (src dst : Nat) (s : State) :
    (l.foldl (fun s i => s.copyKey (src + i) (dst + i)) s).ledger = s.ledger := by
  refine State.ledger_foldl (fun u i => ?_) l s
  rfl

theorem State.resetEntries_ledger (s : State) (index : Nat) : (s.resetEntries index).ledger = s.ledger := by
  refine State.ledger_foldl (fun u r => ?_) _ s
  refine State.ledger_foldl (fun w i => ?_) _ u
  rfl

/-- A unit is made new by its own entries and state alone (R648). -/
theorem State.reinit_ledger (s : State) (row : Nat) : (s.reinit row).ledger = s.ledger := by
  have cleared : (match unitIndex row with | some i => s.resetEntries i | none => s).ledger = s.ledger := by
    split
    · exact s.resetEntries_ledger _
    · rfl
  unfold State.reinit
  dsimp only
  split <;> exact cleared

theorem State.rebindEngine_ledger (s : State) (e : Ent) (n a : Nat) : (s.rebindEngine e n a).ledger = s.ledger := by
  refine State.ledger_foldl (fun u k => ?_) _ s
  dsimp only
  split <;> rfl

theorem State.moveLoop_ledger (s : State) (n a : Nat) : (s.moveLoop n a true).ledger = s.ledger := by
  unfold State.moveLoop
  extract_lets subs base copied x y given freed bound budget named
  have copied_eq : copied.ledger = s.ledger := State.copyKeys_ledger subs (base n) (base a) s
  clear_value copied
  have freed_eq : freed.ledger = copied.ledger := (State.ledger_putEng _ _ _).trans (State.ledger_putEng _ _ _)
  clear_value freed
  have bound_eq : bound.ledger = freed.ledger := by simp only [bound, State.rebindEngine_ledger]
  clear_value bound
  have budget_eq : budget.ledger = bound.ledger := by
    simp only [budget]
    split <;> rfl
  clear_value budget
  rw [if_pos rfl, ← copied_eq, ← freed_eq, ← bound_eq, ← budget_eq]
  exact (State.ledger_setU _ _ _ _).trans (State.ledger_setU _ _ _ _)

theorem State.ledger_putFan (s : State) (c : Nat) (x : Fan) : (s.putFan c x).ledger = s.ledger := rfl

theorem State.ledger_setFanState (s : State) (c v : Nat) : (s.setFanState c v).ledger = s.ledger := by
  unfold State.setFanState State.fanSet
  split <;> rfl

/-! ### A spare takes an analog input (R548) -/

/-- The bindings that may name an analog input. -/
def ainBindings : List Ent :=
  [E.MEAS_BIND, E.SP_BIND, E.FF_BIND, E.FOLLOW_BIND, E.BR_SUPPLY_T, E.BR_RETURN_T, E.BR_SUPPLY_FLOW, E.BR_RETURN_FLOW,
    E.HX_PRIMARY_T]

/-- Rebinding writes bindings alone: any view that a write of a binding leaves stands. -/
theorem State.rebindAin_view {α : Type} {p : State → α} (h : ∀ s, ∀ e ∈ ainBindings, ∀ u v, p (s.setU e u v) = p s)
    (s : State) (n a : Nat) : p (s.rebindAin n a) = p s := by
  have unit (e : Ent) (he : e ∈ ainBindings) (l : List Nat) (u : State) : p (l.foldl (fun s k =>
      if bKind (s.getU e k) = 1 && bSel (s.getU e k) = n then s.setU e k (bWithSel (s.getU e k) a) else s) u)
        = p u := by
    refine foldl_eq_of_step (fun w k => ?_) l u
    split
    · exact h _ e he _ _
    · rfl
  unfold State.rebindAin
  extract_lets swap engines branches
  have swapped (u : State) (e : Ent) (he : e ∈ ainBindings) (units : Nat) : p (swap u e units) = p u := unit e he _ u
  calc p (swap branches E.HX_PRIMARY_T 16)
    _ = p branches := swapped _ _ (by decide) _
    _ = p engines := foldl_eq_of_mem (fun u e he => swapped u e (by revert he; revert e; decide) _) _
    _ = p s := foldl_eq_of_mem (fun u e he => swapped u e (by revert he; revert e; decide) _) _

theorem State.getU_rebindAin_of_sub (s : State) {e : Ent} (n a w : Nat)
    (h : ∀ f ∈ ainBindings, e.key % 256 ≠ f.key % 256) : (s.rebindAin n a).getU e w = s.getU e w :=
  State.rebindAin_view (p := fun u => u.getU e w) (fun u f hf k v => State.getU_setU_of_sub u k v w (h f hf)) s n a

theorem State.rebindAin_plant (s : State) (n a : Nat) : (s.rebindAin n a).plant = s.plant :=
  State.rebindAin_view (p := State.plant) (fun _ _ _ _ _ => rfl) s n a

theorem State.rebindAin_wear (s : State) (n a : Nat) : (s.rebindAin n a).wear = s.wear :=
  State.rebindAin_view (p := State.wear) (fun _ _ _ _ _ => rfl) s n a

theorem State.ain_congr {s t : State} (h : t.plant = s.plant) (n : Nat) : t.ain n = s.ain n := by
  unfold State.ain
  rw [h]

theorem State.ain_putAin_ne (s : State) {n m : Nat} (h : m ≠ n) (x : Ain) : (s.putAin n x).ain m = s.ain m :=
  AMap.getD_set_ne _ h _ _

/-! ### What each command of tests and spares leaves -/

section

variable {s z : State} {t row kind ch f : Nat}

/-- BIST_COMPLETE (R648, R649): the signature stands against the stored one, unless an error came first. -/
theorem bistComplete_compares {sig : Nat} (hz : z = s.at t) (hrun : z.fwRuns = true) (hrow : row < 674)
    (hrole : (z.unit row).role = 3) (htest : (z.unit row).testFrom ≠ none) :
    Answers (.bistComplete t row sig) s fun u =>
      (u.unit row).lastSig = sig ∧ (u.unit row).testFrom = none ∧ (u.unit row).role = 3 ∧
      ((z.unit row).outcome ≠ none → (u.unit row).outcome = (z.unit row).outcome) ∧
      ((z.unit row).outcome = none → z.storedSignature (kindOf row) = some sig →
        (u.unit row).outcome = some (0, z.tick)) ∧
      ((z.unit row).outcome = none → z.storedSignature (kindOf row) ≠ some sig →
        (u.unit row).outcome = some (1, z.tick)) := by
  subst hz
  refine ⟨_, rfl, ?_⟩
  generalize s.at t = z at *
  rw [State.when_of (by simp [hrun, hrow, hrole, Option.isSome_iff_ne_none, htest])]
  dsimp only
  rw [State.unit_putUnit_same]
  refine ⟨rfl, rfl, hrole, fun hout => ?_, fun hout hsig => ?_, fun hout hsig => ?_⟩
  · obtain ⟨o, ho⟩ := Option.ne_none_iff_exists'.1 hout
    simp only [ho]
  · simp only [hout, hsig, if_true]
  · simp only [hout, hsig, if_false]

/-- BIST_TIMEOUT (R650). -/
theorem bistTimeout_ends (hz : z = s.at t) (hrun : z.fwRuns = true) (hrow : row < 674)
    (hrole : (z.unit row).role = 3) (hout : (z.unit row).outcome = none) (htest : (z.unit row).testFrom = some f)
    (hdue : f + 2 * bistTime (kindOf row) ≤ z.now) :
    Answers (.bistTimeout t row) s fun u =>
      u.unit row = { z.unit row with outcome := some (4, z.tick), testFrom := none } := by
  subst hz
  refine ⟨_, rfl, ?_⟩
  generalize s.at t = z at *
  rw [State.when_of (by simp [hrun, hrow, hrole, hout])]
  simp only [htest]
  rw [if_pos hdue, State.unit_putUnit_same]

/-- BIST_RESULT (R648): a unit that passed is a tested spare. -/
theorem bistResult_passes {k : Nat} (hz : z = s.at t) (hrun : z.fwRuns = true) (hrow : row < 674)
    (hrole : (z.unit row).role = 3) (hout : (z.unit row).outcome = some (0, k)) (hk : k < z.tick)
    (hkeeper : kindOf row ≠ 15 ∨ z.wear.waiting = []) :
    Answers (.bistResult t row) s fun u =>
      (u.unit row).role = 1 ∧ (u.unit row).tested = true ∧ (u.unit row).lastPass = z.turn
        ∧ (u.unit row).passes = satBytes 4 ((z.unit row).passes + 1) ∧ (u.unit row).outcome = none := by
  subst hz
  refine ⟨_, rfl, ?_⟩
  generalize s.at t = z at *
  simp only [hout]
  rw [State.when_of (by simp [hrun, hrow, hrole, hk])]
  simp only [if_true]
  generalize hw : (z.reinit row).setRole row 1 0xFFFF = w
  have role : (w.unit row).role = 1 := by rw [← hw, State.unit_setRole_role]
  have turn : w.turn = z.turn := by
    rw [← hw]
    exact (congrArg Wheel.turn (by simp)).trans (State.turn_of_ledger (z.reinit_ledger row))
  have waiting : w.wear.waiting = z.wear.waiting := by
    rw [← hw, State.setRole_waiting]
    exact congrArg (fun v : Wear => v.waiting) (State.wear_of_ledger (z.reinit_ledger row))
  generalize hy : State.refreshKind (w.putUnit row _) (kindOf row) = y
  have wear : y.wear = (w.putUnit row { w.unit row with
      tested := true, passes := satBytes 4 ((z.unit row).passes + 1), lastTick := w.tick, lastPass := w.turn
      outcome := none, retest := false, planned := false }).wear := by rw [← hy, State.refreshKind_wear]
  have kept := State.afterTest_wear (s := y) (k := kindOf row)
    (hkeeper.imp_right fun h => by rw [wear]; exact waiting.trans h)
  rw [State.unit_congr (kept.trans wear), State.unit_putUnit_same]
  exact ⟨role, rfl, turn, rfl, rfl⟩

/-- BIST_RESULT (R650, R655): a unit that failed is retired. -/
theorem bistResult_retires {k o : Nat} (hz : z = s.at t) (hrun : z.fwRuns = true) (hrow : row < 674)
    (hrole : (z.unit row).role = 3) (hout : (z.unit row).outcome = some (o, k)) (ho : o ≠ 0) (hk : k < z.tick)
    (hkeeper : kindOf row ≠ 15 ∨ z.wear.waiting = []) :
    Answers (.bistResult t row) s fun u =>
      (u.unit row).role = 4 ∧ (u.unit row).cause = (if o = 4 then 4 else 1)
        ∧ (u.unit row).fails = satBytes 4 ((z.unit row).fails + 1) := by
  subst hz
  refine ⟨_, rfl, ?_⟩
  generalize s.at t = z at *
  simp only [hout]
  rw [State.when_of (by simp [hrun, hrow, hrole, hk])]
  simp only [if_neg ho]
  generalize hw : State.latch _ E.WEAR_LATCHES 1 (unitKey row) = w
  have fails : (w.unit row).fails = satBytes 4 ((z.unit row).fails + 1) := by
    rw [← hw, State.unit_congr (State.wear_latch _ _ _ _), State.inc_unit, State.unit_putUnit_same]
  have waiting : w.wear.waiting = z.wear.waiting := by
    rw [← hw, State.wear_latch]
    rfl
  have kept := State.afterTest_wear (s := w.retire row (if o = 4 then 4 else 1)) (k := kindOf row)
    (hkeeper.imp_right fun h => by rw [State.retire_waiting, waiting, h])
  rw [State.unit_congr kept, State.unit_retire]
  exact ⟨rfl, rfl, fails⟩

/-- SPARE_RETEST (R651, R657): the spare with the oldest pass is tested again. -/
theorem spareRetest_tests {r : Nat} (hz : z = s.at t) (hrun : z.fwRuns = true) (hrest : z.inRest = false)
    (hidx : z.wheel.idx = 0) (hlanes : kind ≠ 12) (hlinks : kind ≠ 16) (hfree : z.spareInTest (kindRows kind) = false)
    (holdest : minBy (fun r => (z.unit r).lastPass) ((kindRows kind).filter fun r => (z.unit r).role == 1
      && (z.unit r).tested && decide ((z.unit r).lastPass + z.effU E.SPARE_RETEST_TURNS kind < z.turn)) = some r) :
    Answers (.spareRetest t kind) s fun u =>
      (u.unit r).role = 3 ∧ (u.unit r).retest = true ∧ (u.unit r).testFrom = some z.now
        ∧ (u.unit r).tested = false := by
  subst hz
  refine ⟨_, rfl, ?_⟩
  generalize s.at t = z at *
  rw [State.when_of (by simp [hrun, hrest, hidx, hlanes, hlinks, hfree])]
  simp only [holdest]
  generalize hw : State.putUnit (z.startTest r false) r _ = w
  have shown : w.unit r = { (z.startTest r false).unit r with retest := true } := by
    rw [← hw, State.unit_putUnit_same]
  have arrays : (if kind = 2 then w.refreshArrays else w).unit r = w.unit r := by
    split
    · exact State.unit_congr (State.wear_of_ledger w.refreshArrays_ledger) r
    · rfl
  rw [arrays, shown, State.unit_startTest]
  exact ⟨rfl, rfl, rfl, rfl⟩

/-- PLANNED_TEST of a keeper or an engine (R652, R653): the spare takes the role, and the unit goes to its test. -/
theorem plannedTest_swaps {o i : Nat} (hz : z = s.at t) (hrun : z.fwRuns = true) (hwheel : z.get E.WHEEL_STATE ≠ 0)
    (hidx : z.wheel.idx = 0) (hkind : kind = 3 ∨ kind = 15)
    (hdue : z.wear.lastPlanned.getD kind 0 + z.effU E.PLANNED_TEST_TURNS kind ≤ z.turn)
    (hfirst : z.wear.plannedTried.get kind ≠ some z.turn) (hrest : z.inRest = false)
    (hout : z.plannedOut kind = some o) (hin : z.longestSpare (kindRows kind) = some i) (ho : (z.unit o).role = 0)
    (hi : (z.unit i).role = 1) :
    Answers (.plannedTest t kind) s fun u =>
      (u.unit i).role = 0 ∧ (u.unit o).role = 2 ∧ (u.unit o).planned = true
        ∧ u.wear.lastPlanned.getD kind 0 = z.turn := by
  subst hz
  refine ⟨_, rfl, ?_⟩
  generalize s.at t = z at *
  have listed : kind = 3 ∨ kind = 6 ∨ kind = 15 := by omega
  have fan : kind ≠ 6 := by omega
  have hne : i ≠ o := by
    rintro rfl
    omega
  rw [State.when_of (by simp [hrun, hwheel, hidx, listed, hdue, hfirst])]
  extract_lets wear y go
  have out : y.plannedOut kind = some o := hout
  have into : y.longestSpare (kindRows kind) = some i := hin
  have rest : y.inRest = false := hrest
  have turn : y.turn = z.turn := rfl
  clear_value y
  simp only [out, into, rest, if_neg fan, Bool.false_eq_true, if_false]
  generalize (if kind = 3 then i - kindRow 3 else (y.unit o).serves) = serves
  generalize hw : State.putUnit ((y.setRole i 0 serves).setRole o 2 0xFFFF) o _ = w
  have taken : (w.unit i).role = 0 := by
    rw [← hw, State.unit_putUnit_ne _ hne, State.unit_setRole_ne _ hne, State.unit_setRole_role]
  have given : (w.unit o).role = 2 ∧ (w.unit o).planned = true := by
    rw [← hw, State.unit_putUnit_same]
    exact ⟨State.unit_setRole_role _ _ _ _, rfl⟩
  have wturn : w.turn = z.turn := by
    rw [← hw, ← turn]
    exact congrArg Wheel.turn (by simp)
  have moved : (if kind = 3 then w.moveLoop (o - kindRow 3) (i - kindRow 3) true else w).ledger = w.ledger := by
    split
    · exact State.moveLoop_ledger _ _ _
    · rfl
  generalize (if kind = 3 then w.moveLoop (o - kindRow 3) (i - kindRow 3) true else w) = x at moved ⊢
  have same (r : Nat) : (go x).unit r = w.unit r := State.unit_congr (s := w) (State.wear_of_ledger moved) r
  rw [same, same]
  refine ⟨taken, given.1, given.2, ?_⟩
  exact (AMap.getD_set_same _ _ _ _).trans ((State.turn_of_ledger moved).trans wturn)

/-- PLANNED_TEST of an internal fan (R652): the spare starts, and the swap is noted. -/
theorem plannedTest_notes_swap {o i : Nat} (hz : z = s.at t) (hrun : z.fwRuns = true) (hwheel : z.get E.WHEEL_STATE ≠ 0)
    (hidx : z.wheel.idx = 0) (hdue : z.wear.lastPlanned.getD 6 0 + z.effU E.PLANNED_TEST_TURNS 6 ≤ z.turn)
    (hfirst : z.wear.plannedTried.get 6 ≠ some z.turn) (hrest : z.inRest = false) (hout : z.plannedOut 6 = some o)
    (hin : z.longestSpare (kindRows 6) = some i) :
    Answers (.plannedTest t 6) s fun u =>
      u.wear.ifanSwap = some (o - kindRow 6, i - kindRow 6) ∧ u.wear.lastPlanned.getD 6 0 = z.turn := by
  subst hz
  refine ⟨_, rfl, ?_⟩
  generalize s.at t = z at *
  rw [State.when_of (by simp [hrun, hwheel, hidx, hdue, hfirst])]
  extract_lets wear y go
  have out : y.plannedOut 6 = some o := hout
  have into : y.longestSpare (kindRows 6) = some i := hin
  have rest : y.inRest = false := hrest
  have turn : y.turn = z.turn := rfl
  clear_value y
  simp only [out, into, rest, if_true, Bool.false_eq_true, if_false]
  generalize hw : State.setFanState _ _ 0 = w
  have noted : w.ledger = ({ y with wear := { y.wear with
      ifanSwap := some (o - kindRow 6, i - kindRow 6) } } : State).ledger := by
    rw [← hw, State.ledger_setFanState]
    exact State.ledger_putFan _ _ _
  refine ⟨congrArg (fun v : Wear => v.ifanSwap) (State.wear_of_ledger noted), ?_⟩
  exact (AMap.getD_set_same _ _ _ _).trans ((State.turn_of_ledger noted).trans turn)

/-- KEEPER_BLOCK_ERROR (R651, R654): a keeper that works or waits is fenced. -/
theorem keeperBlockError_fences {keeper : Nat} (hz : z = s.at t) (hrow : row = kindRow 15 + keeper)
    (hrun : z.fwRuns = true) (hkeeper : keeper < 18) (hrole : (z.unit row).role = 0 ∨ (z.unit row).role = 1) :
    Answers (.keeperBlockError t keeper) s fun u => (u.unit row).role = 2 ∨ (u.unit row).role = 4 := by
  subst hz hrow
  refine ⟨_, rfl, ?_⟩
  generalize s.at t = z at *
  rw [State.when_of (by simp [hrun, hkeeper])]
  have fenced := z.unit_fenceUnit_role (kindRow 15 + keeper)
  rcases hrole with active | spare
  · simp only [active]
    generalize z.fenceUnit (kindRow 15 + keeper) = w at fenced ⊢
    rw [State.keeperWaits_unit (by rw [State.unit_queueKeeper]; omega), State.unit_queueKeeper]
    exact fenced
  · simp only [spare]
    exact fenced

/-- KEEPER_BLOCK_ERROR during a keeper's test is its mismatch (R651). -/
theorem keeperBlockError_fails_test {keeper : Nat} (hz : z = s.at t) (hrow : row = kindRow 15 + keeper)
    (hrun : z.fwRuns = true) (hkeeper : keeper < 18) (hrole : (z.unit row).role = 3) :
    Answers (.keeperBlockError t keeper) s fun u =>
      u.unit row = { z.unit row with outcome := some (1, z.tick) } := by
  subst hz hrow
  refine ⟨_, rfl, ?_⟩
  generalize s.at t = z at *
  rw [State.when_of (by simp [hrun, hkeeper])]
  simp only [hrole]
  rw [State.unit_putUnit_same]

/-- AIN_TAKEOVER (R548): the best tested spare takes the terminal. -/
theorem ainTakeover_moves {a : Nat} (hz : z = s.at t) (hch : ch < 80) (hfence : (z.ain ch).fenceTick = some f)
    (hf : f < z.tick) (hspare : z.bestSpare (kindRows 8) = some row) (ha : a = row - kindRow 8) (hne : ch ≠ a) :
    Answers (.ainTakeover t ch) s fun u =>
      u.getU E.AIN_MOVED_TO ch = a ∧ u.getU E.AIN_TERMINAL ch = 0xFF ∧ (u.ain ch).fenceTick = none
        ∧ (u.ain a).switching = some (z.getU E.AIN_TERMINAL ch, z.now) ∧ (u.unit row).role = 0 := by
  subst hz
  refine ⟨_, rfl, ?_⟩
  generalize s.at t = z at *
  simp only [hfence]
  rw [State.when_of (by simp [hf])]
  simp only [hspare, ← ha]
  generalize hy : z.promote row (z.getU E.AIN_TERMINAL ch) = y
  have role : (y.unit row).role = 0 := hy ▸ z.unit_promote_role row _
  have now : y.now = z.now := by simp [← hy]
  generalize hx : List.foldl _ y [1, 2, 3, 4, 5] = x
  have wear : x.wear = y.wear := by rw [← hx, State.copyKeys_wear]
  have now' : x.now = z.now := by
    rw [← hx, ← now]
    refine foldl_eq_of_step (p := State.now) (fun u i => ?_) _ y
    rfl
  generalize hw : State.putAin (x.putAin a _) ch _ = w
  have freed : (w.ain ch).fenceTick = none := by rw [← hw, State.ain_putAin_same]
  have switching : (w.ain a).switching = some (z.getU E.AIN_TERMINAL ch, z.now) := by
    rw [← hw, State.ain_putAin_ne _ (Ne.symm hne), State.ain_putAin_same, ← now']
  have wear' : w.wear = y.wear := by
    rw [← wear, ← hw]
    rfl
  have rebound (u : State) {e : Ent} (hk : e.key < 0x8F0000) (he : e.key % 256 ≠ E.SFE_LATCHES.key % 256)
      (hb : ∀ g ∈ ainBindings, e.key % 256 ≠ g.key % 256) :
      ((u.rebindAin ch a).latch E.SFE_LATCHES 1 (ainKey ch)).getU e ch = u.getU e ch := by
    rw [State.getU_latch_of_sub _ _ _ (by omega) hk he, State.getU_rebindAin_of_sub _ _ _ _ hb]
  have plant (u : State) : ((u.rebindAin ch a).latch E.SFE_LATCHES 1 (ainKey ch)).plant = u.plant := by
    simp [State.rebindAin_plant]
  have units (u : State) : ((u.rebindAin ch a).latch E.SFE_LATCHES 1 (ainKey ch)).wear = u.wear := by
    rw [State.wear_latch, State.rebindAin_wear]
  rw [rebound _ (by decide) (by decide) (by decide), rebound _ (by decide) (by decide) (by decide),
    State.getU_setU_same, State.getU_setU_of_sub _ _ _ _ (by decide), State.getU_setU_same,
    State.ain_congr (plant _), State.ain_congr (plant _), State.unit_congr (units _)]
  exact ⟨rfl, rfl, freed, switching, by rw [← role]; exact congrArg _ (State.unit_congr (s := y) wear' row)⟩

/-- AIN_TAKEOVER without a spare (R548): the terminal is given up. -/
theorem ainTakeover_without_spare (hz : z = s.at t) (hch : ch < 80) (hfence : (z.ain ch).fenceTick = some f)
    (hf : f < z.tick) (hspare : z.bestSpare (kindRows 8) = none) (htest : z.spareInTest (kindRows 8) = false) :
    Answers (.ainTakeover t ch) s fun u => u.getU E.AIN_TERMINAL ch = 0xFF ∧ (u.ain ch).fenceTick = none := by
  subst hz
  refine ⟨_, rfl, ?_⟩
  generalize s.at t = z at *
  simp only [hfence]
  rw [State.when_of (by simp [hf])]
  simp only [hspare, htest, Bool.false_eq_true, if_false]
  have kept (u : State) : (u.latch E.SFE_LATCHES 2 (ainKey ch)).ain ch = u.ain ch := State.ain_congr (by simp) ch
  have stands (u : State) (v : Nat) : (u.setU E.AIN_TERMINAL ch v).ain ch = u.ain ch := rfl
  rw [State.getU_latch_of_sub _ _ _ (by omega) (by decide) (by decide), State.getU_setU_same, kept, stands,
    State.ain_putAin_same]
  exact ⟨rfl, rfl⟩

/-- AIN_SWITCH_DONE (R548): the spare serves the terminal. -/
theorem ainSwitchDone_serves {term from_ : Nat} (hz : z = s.at t)
    (hswitch : (z.ain ch).switching = some (term, from_)) :
    Answers (.ainSwitchDone t ch) s fun u =>
      u.getU E.AIN_TERMINAL ch = term ∧ u.ain ch = { z.ain ch with switching := none } := by
  subst hz
  refine ⟨_, rfl, ?_⟩
  generalize s.at t = z at *
  have stands (u : State) (v : Nat) : (u.setU E.AIN_TERMINAL ch v).ain ch = u.ain ch := rfl
  simp only [hswitch]
  rw [State.getU_setU_same, stands, State.ain_putAin_same]
  exact ⟨rfl, rfl⟩

end

end Sys2Proof.Machine

namespace Sys2Proof.Proofs

open Sys2Proof Sys2Proof.Machine

/-- Settles O51, command by command. -/
theorem testsAndSpares : Obligations.TestsAndSpares := by
  unfold Obligations.TestsAndSpares
  refine ⟨?complete, ?timeout, ?passed, ?failed, ?retest, ?planned, ?fan, ?keeper, ?tested, ?takeover, ?bare, ?switched⟩
  case complete =>
    exact fun s z t row sig hz hrun hrow hrole htest => bistComplete_compares hz hrun hrow hrole htest
  case timeout =>
    exact fun s z t row f hz hrun hrow hrole hout htest hdue => bistTimeout_ends hz hrun hrow hrole hout htest hdue
  case passed =>
    exact fun s z t row k hz hrun hrow hrole hout hk hkeeper => bistResult_passes hz hrun hrow hrole hout hk hkeeper
  case failed =>
    exact fun s z t row k o hz hrun hrow hrole hout ho hk hkeeper =>
      bistResult_retires hz hrun hrow hrole hout ho hk hkeeper
  case retest =>
    exact fun s z t kind r hz hrun hrest hidx hlanes hlinks hfree holdest =>
      spareRetest_tests hz hrun hrest hidx hlanes hlinks hfree holdest
  case planned =>
    exact fun s z t kind o i hz hrun hwheel hidx hkind hdue hfirst hrest hout hin ho hi =>
      plannedTest_swaps hz hrun hwheel hidx hkind hdue hfirst hrest hout hin ho hi
  case fan =>
    exact fun s z t o i hz hrun hwheel hidx hdue hfirst hrest hout hin =>
      plannedTest_notes_swap hz hrun hwheel hidx hdue hfirst hrest hout hin
  case keeper =>
    exact fun s z t keeper row hz hrow hrun hkeeper hrole => keeperBlockError_fences hz hrow hrun hkeeper hrole
  case tested =>
    exact fun s z t keeper row hz hrow hrun hkeeper hrole => keeperBlockError_fails_test hz hrow hrun hkeeper hrole
  case takeover =>
    exact fun s z t ch f row a hz hch hfence hf hspare ha hne => ainTakeover_moves hz hch hfence hf hspare ha hne
  case bare =>
    exact fun s z t ch f hz hch hfence hf hspare htest => ainTakeover_without_spare hz hch hfence hf hspare htest
  case switched => exact fun s z t ch term from_ hz hswitch => ainSwitchDone_serves hz hswitch

end Sys2Proof.Proofs
end

section
/-! PROOFS. The statements of spec/18_recorder.md on the log, its pages and the recorder's commands. -/

namespace Sys2Proof.Machine

open Sys2Proof

/-! ### What staging a condition leaves (R605, R606, R614) -/

/-- The recorder's marks that staging, folding and losing a condition leave: whether the log has stopped, its failing
and its retired pages, the histograms that are to be set and the commands that wait. -/
def Recorder.marks (r : Recorder) :=
  (r.stopped, r.failing, r.pageMap, r.histDue, r.cmds)

theorem Recorder.keep_marks (r : Recorder) (c : Cond) (ends : Nat) : (r.keep c ends).marks = r.marks := by
  unfold Recorder.keep
  split
  · rfl
  · split
    · rfl
    · split <;> rfl

theorem Recorder.of_marks {r q : Recorder} (h : r.marks = q.marks) :
    r.stopped = q.stopped ∧ r.failing = q.failing ∧ r.pageMap = q.pageMap ∧ r.histDue = q.histDue
      ∧ r.cmds = q.cmds := by
  simpa [Recorder.marks] using h

theorem State.condLost_marks (s : State) (c : Cond) : (s.condLost c).recorder.marks = s.recorder.marks := by
  unfold State.condLost
  dsimp only
  split <;> rfl

theorem State.cond_marks (s : State) (c : Cond) (isOpen : Bool) :
    (s.cond c isOpen).recorder.marks = s.recorder.marks := by
  unfold State.cond
  dsimp only
  split
  · rfl
  · split
    · rfl
    · split
      · split
        · exact Recorder.keep_marks _ _ _
        · exact s.condLost_marks c
      · split
        · rfl
        · exact s.condLost_marks c

theorem State.latch_marks (s : State) (e : Ent) (b key : Nat) :
    (s.latch e b key).recorder.marks = s.recorder.marks := by
  unfold State.latch State.latchU
  exact State.cond_marks _ _ _

theorem State.gasp_marks (s : State) (c : Cond) : (s.gasp c).recorder.marks = s.recorder.marks := by
  unfold State.gasp
  dsimp only
  split
  · rfl
  · split
    · rfl
    · exact State.latch_marks _ _ _ _

theorem State.answer_marks (s : State) (q : Req) (ans : Ans) :
    (s.answer q ans).recorder.marks = s.recorder.marks := by
  obtain ⟨cache, shape⟩ := s.answer_shape q ans
  rw [shape]
  unfold State.sendReply State.send
  dsimp only
  split
  · exact State.latch_marks _ _ _ _
  · split
    · rfl
    · split
      · rfl
      · split <;> rfl

/-! ### The room of the log and its sound pages (R606, R609) -/

theorem logRoom_of_lt {x : Staged} {pos : Nat} (h : x.isNew = true → pos < 16777216) :
    ¬ (x.isNew && decide (16777216 ≤ pos)) = true := by
  rw [Bool.and_eq_true, decide_eq_true_eq]
  rintro ⟨new, full⟩
  exact absurd (h new) (by omega)

theorem pageSound_of_ne {l : List (Nat × Nat)} {page : Nat} (h : ∀ f ∈ l, f.1 ≠ page) :
    ¬ (l.any fun f => f.1 == page) = true := by
  rw [List.any_eq_true]
  rintro ⟨f, hf, heq⟩
  exact h f hf (beq_iff_eq.1 heq)

/-! ### What each command of the recorder leaves -/

section

variable {s z a : State} {t pos page at_ : Nat} {damaged : List Nat} {rx : Rx} {live : Bool}

/-! The next staged record, whose page is not failing, is to be committed at `pos`. -/

section

variable {x : Staged} {rest : List Staged} (hz : z = s.at t) (hrun : z.recorder.running = true)
  (hdue : z.recorder.lastCommit + 125000 ≤ z.now) (hstaged : z.recorder.staged = x :: rest)
  (hstopped : z.recorder.stopped = false) (hlost : z.recorder.logLost = false)
  (hpos : pos = (if x.isNew = true then z.get E.LOG_NEXT else x.cond.pos)) (hroom : x.isNew = true → pos < 16777216)
  (hpage : ∀ f ∈ z.recorder.failing, f.1 ≠ pageOf pos)
include hz hrun hdue hstaged hstopped hlost hpos hroom hpage

/-- LOG_COMMIT (R606, R608): the record stands in the log at its position. -/
theorem logCommit_commits :
    Answers (.logCommit t true) s fun u =>
      u.recorder.staged = rest ∧ u.recorder.lastCommit = z.now
        ∧ u.recorder.log.get pos = some { x.cond with pos := pos }
        ∧ (∀ p, p ≠ pos → u.recorder.log.get p = z.recorder.log.get p)
        ∧ u.get E.LOG_NEXT = (if x.isNew = true then pos + 1 else z.get E.LOG_NEXT) := by
  subst hz
  refine ⟨_, rfl, ?_⟩
  generalize s.at t = z at *
  rw [State.when_of (by simp [hrun, hdue])]
  simp only [hstaged, ← hpos, hstopped, hlost, Bool.or_self, Bool.false_eq_true, if_false,
    if_neg (logRoom_of_lt hroom), if_neg (pageSound_of_ne hpage), Bool.not_true]
  generalize hw : ({ z with recorder := _ } : State) = w
  have staged : w.recorder.staged = rest := by
    rw [← hw]
    exact (Recorder.keep_staged _ _ _).trans (by rw [Recorder.unstage, hstaged, List.drop_one, List.tail_cons])
  have log : w.recorder.log = z.recorder.log.set pos { x.cond with pos := pos } := by rw [← hw]
  have commit : w.recorder.lastCommit = z.now := by rw [← hw]
  have next : w.get E.LOG_NEXT = z.get E.LOG_NEXT := by rw [← hw]; rfl
  have here : w.recorder.log.get pos = some { x.cond with pos := pos } := by rw [log, AMap.get_set_same]
  have others (p : Nat) (hp : p ≠ pos) : w.recorder.log.get p = z.recorder.log.get p := by
    rw [log, AMap.get_set_ne _ hp]
  split
  case isTrue =>
    refine ⟨staged, commit, here, others, ?_⟩
    rw [State.get_inc_ne _ _ _ (by decide), State.get_set_same]
  case isFalse => exact ⟨staged, commit, here, others, next⟩

/-- LOG_COMMIT of a record that reads back wrong (R608, R609): its page is failing, and the record waits. -/
theorem logCommit_fails :
    Answers (.logCommit t false) s fun u =>
      u.recorder.staged = x :: rest ∧ u.recorder.failing = z.recorder.failing ++ [(pageOf pos, z.tick)]
        ∧ u.recorder.log = z.recorder.log := by
  subst hz
  refine ⟨_, rfl, ?_⟩
  generalize s.at t = z at *
  rw [State.when_of (by simp [hrun, hdue])]
  simp only [hstaged, ← hpos, hstopped, hlost, Bool.or_self, Bool.false_eq_true, if_false,
    if_neg (logRoom_of_lt hroom), if_neg (pageSound_of_ne hpage), Bool.not_false, if_true, and_self]

end

/-- EVENTS_LOST_RECORD (R607). -/
theorem eventsLostRecord_stages (hz : z = s.at t) (hrun : z.recorder.running = true) (hempty : z.recorder.staged = [])
    (hlost : 0 < z.recorder.lost) :
    Answers (.eventsLostRecord t) s fun u =>
      u.recorder.lost = 0 ∧ ∃ x, u.recorder.staged = [x] ∧ x.isNew = true ∧ x.cond.index = 0x9002 ∧ x.cond.bit = 0
        ∧ x.cond.count = z.recorder.lost ∧ x.cond.start = z.recorder.lostFirstTick := by
  subst hz
  refine ⟨_, rfl, ?_⟩
  generalize s.at t = z at *
  rw [State.when_of (by simp [hrun, hempty, hlost])]
  exact ⟨rfl, _, rfl, rfl, rfl, rfl, rfl, rfl⟩

/-- LOG_PAGE_RETIRE without a spare page (R611): the log stops. -/
theorem logPageRetire_stops (hz : z = s.at t) (hfailing : (page, at_) ∈ z.recorder.failing) (hat : at_ < z.tick)
    (hspare : z.get E.LOG_SPARE_PAGES = 0) :
    Answers (.logPageRetire t page damaged) s fun u =>
      u.recorder.stopped = true ∧ u.recorder.failing = z.recorder.failing.filter fun f => f.1 != page := by
  subst hz
  refine ⟨_, rfl, ?_⟩
  generalize s.at t = z at *
  rw [State.when_of (List.any_eq_true.2 ⟨_, hfailing, by simpa using hat⟩)]
  simp only [hspare, if_true]
  obtain ⟨stopped, failing, -⟩ := Recorder.of_marks (State.latch_marks
    { z with recorder := { z.recorder with
        failing := z.recorder.failing.filter fun f => f.1 != page, stopped := true } } E.REC_LATCHES 2 0)
  exact ⟨stopped, failing⟩

/-- LOG_PAGE_RETIRE (R610): the lowest free spare page takes the failing page's place. -/
theorem logPageRetire_retires (hz : z = s.at t) (hfailing : (page, at_) ∈ z.recorder.failing) (hat : at_ < z.tick)
    (hspare : z.get E.LOG_SPARE_PAGES ≠ 0) :
    Answers (.logPageRetire t page damaged) s fun u =>
      u.recorder.pageMap.get page = some (492 - z.get E.LOG_SPARE_PAGES)
        ∧ u.recorder.failing = (z.recorder.failing.filter fun f => f.1 != page)
        ∧ u.get E.LOG_SPARE_PAGES = z.get E.LOG_SPARE_PAGES - 1
        ∧ u.get E.LOG_PAGES_RETIRED = (z.get E.LOG_PAGES_RETIRED + 1) % 2 ^ 64 := by
  subst hz
  refine ⟨_, rfl, ?_⟩
  generalize s.at t = z at *
  rw [State.when_of (List.any_eq_true.2 ⟨_, hfailing, by simpa using hat⟩)]
  simp only [if_neg hspare]
  generalize hw : ({ z with recorder := _ } : State) = w
  have marks : w.recorder.marks = ({ z.recorder with
      failing := z.recorder.failing.filter fun f => f.1 != page
      pageMap := z.recorder.pageMap.set page (492 - z.get E.LOG_SPARE_PAGES) } : Recorder).marks := by
    rw [← hw]
    rfl
  have regs : w.regs = z.regs := by rw [← hw]
  generalize hx : State.add _ E.LOG_RECORDS_DAMAGED _ = x
  have xmarks : x.recorder.marks = w.recorder.marks := by rw [← hx]; rfl
  have spare : x.get E.LOG_SPARE_PAGES = z.get E.LOG_SPARE_PAGES - 1 := by
    rw [← hx, State.get_add_ne _ _ _ _ (by decide), State.get_inc_ne _ _ _ (by decide), State.get_set_same]
  have retired : x.get E.LOG_PAGES_RETIRED = (z.get E.LOG_PAGES_RETIRED + 1) % 2 ^ 64 := by
    rw [← hx, State.get_add_ne _ _ _ _ (by decide), State.get_inc_same, State.get_set_ne _ _ _ _ (by decide),
      State.get_congr regs]
  generalize hv : ({ x.set E.REC_LATCHES _ with latched := _ } : State) = v
  have vmarks : v.recorder.marks = x.recorder.marks := by rw [← hv]; rfl
  have kept {e : Ent} (he : e.key ∉ logKeys) (c d : Cond) : ((v.cond c false).gasp d).get e = x.get e := by
    have hne : e.key ≠ E.REC_LATCHES.key := fun h => he (by rw [h]; decide)
    rw [State.get, State.getD_gasp _ _ he, State.getD_cond _ _ _ he, ← State.get, ← hv]
    exact State.get_set_ne _ _ _ _ hne
  obtain ⟨-, failing, pages, -⟩ := Recorder.of_marks
    (((State.gasp_marks _ _).trans (State.cond_marks _ _ _)).trans (vmarks.trans (xmarks.trans marks)))
  refine ⟨?_, failing, (kept (by decide) _ _).trans spare, (kept (by decide) _ _).trans retired⟩
  rw [pages, AMap.get_set_same]

/-- REC_CMD_COMPLETE (R618). -/
theorem recCmdComplete_completes (hz : z = s.at t) (hclearing : z.recorder.clearing ≠ 0) :
    Answers (.recCmdComplete t) s fun u => u.recorder.clearing = 0 ∧ u.get E.REC_CMD_STATE = 0 := by
  subst hz
  refine ⟨_, rfl, ?_⟩
  generalize s.at t = z at *
  rw [State.when_of (by simpa using hclearing)]
  exact ⟨rfl, State.get_set_same _ _ _⟩

/-- HIST_SET (R596): the histogram is set at the next tick. -/
theorem histSet_orders {b : Bytes} (hs : (s.at t).screen rx histSetService = .run live a)
    (hb : b = (Req.parse rx).value) :
    Answers (.histSet t rx) s fun u =>
      u.recorder.histDue = a.recorder.histDue ++ [(field b 0 2, a.tick + 1,
        { source := field b 2 1, select := field b 4 2, lo := field b 8 4, width := field b 12 4 })] := by
  refine answers_of_cmd rfl hs rfl fun ans => ?_
  obtain ⟨-, -, -, hists, -⟩ := Recorder.of_marks (State.answer_marks
    { a with recorder := { a.recorder with histDue := a.recorder.histDue ++ [(field b 0 2, a.tick + 1,
        { source := field b 2 1, select := field b 4 2, lo := field b 8 4, width := field b 12 4 })] } }
    (Req.parse rx) ans)
  rw [← hb]
  exact hists

/-- A command of the recorder that is accepted waits for the next tick (R618). -/
theorem recCmd_orders {c : Instr} {v : Nat} {mine : Bytes → Bool}
    (hc : exec c s = .next ((s.at t).serve rx (recCmd v mine)))
    (hs : (s.at t).screen rx (recCmd v mine) = .run live a) :
    Answers c s fun u => u.recorder.cmds = a.recorder.cmds ++ [(v, a.tick + 1)]
      ∧ (v = 3 ∨ v = 4 → u.get E.REC_CMD_STATE = 1) := by
  unfold recCmd at hc hs
  refine answers_of_cmd hc hs rfl fun ans => ?_
  obtain ⟨-, -, -, -, cmds⟩ := Recorder.of_marks (State.answer_marks
    (if v = 3 || v = 4 then State.set { a with recorder := { a.recorder with
        cmds := a.recorder.cmds ++ [(v, a.tick + 1)] } } E.REC_CMD_STATE 1
      else { a with recorder := { a.recorder with cmds := a.recorder.cmds ++ [(v, a.tick + 1)] } }) (Req.parse rx) ans)
  refine ⟨cmds.trans ?_, fun hv => ?_⟩
  · split <;> rfl
  · rw [State.get_answer _ _ _ (by decide)]
    dsimp only
    rw [if_pos (by simpa using hv), State.get_set_same]

end

end Sys2Proof.Machine

namespace Sys2Proof.Proofs

open Sys2Proof Sys2Proof.Machine

/-- Settles O49, command by command. -/
theorem recorderWrites : Obligations.RecorderWrites := by
  unfold Obligations.RecorderWrites
  refine ⟨?commit, ?fails, ?lost, ?stops, ?retires, ?done, ?hist, ?log, ?histograms, ?guests, ?die, ?gasp⟩
  case commit =>
    exact fun s z t pos x rest hz hrun hdue hstaged hstopped hlost hpos hroom hpage =>
      logCommit_commits hz hrun hdue hstaged hstopped hlost hpos hroom hpage
  case fails =>
    exact fun s z t pos x rest hz hrun hdue hstaged hstopped hlost hpos hroom hpage =>
      logCommit_fails hz hrun hdue hstaged hstopped hlost hpos hroom hpage
  case lost => exact fun s z t hz hrun hempty hlost => eventsLostRecord_stages hz hrun hempty hlost
  case stops => exact fun s z t page at_ damaged hz hfailing hat hspare => logPageRetire_stops hz hfailing hat hspare
  case retires =>
    exact fun s z t page at_ damaged hz hfailing hat hspare => logPageRetire_retires hz hfailing hat hspare
  case done => exact fun s z t hz hclearing => recCmdComplete_completes hz hclearing
  case hist => exact fun s a t rx live b hs hb => histSet_orders hs hb
  case log => exact fun s a t rx live hs => (recCmd_orders rfl hs).imp fun _ ⟨hexec, hcmds, _⟩ => ⟨hexec, hcmds⟩
  case histograms => exact fun s a t rx live hs => (recCmd_orders rfl hs).imp fun _ ⟨hexec, hcmds, _⟩ => ⟨hexec, hcmds⟩
  case guests =>
    exact fun s a t rx live hs =>
      (recCmd_orders rfl hs).imp fun _ ⟨hexec, hcmds, hbusy⟩ => ⟨hexec, hcmds, hbusy (.inl rfl)⟩
  case die =>
    exact fun s a t rx live hs =>
      (recCmd_orders rfl hs).imp fun _ ⟨hexec, hcmds, hbusy⟩ => ⟨hexec, hcmds, hbusy (.inr rfl)⟩
  case gasp => exact fun s a t rx live hs => (recCmd_orders rfl hs).imp fun _ ⟨hexec, hcmds, _⟩ => ⟨hexec, hcmds⟩

end Sys2Proof.Proofs
end

section
/-! PROOFS. The statements of spec/19_start.md on power good, the boot steps up to step 6 and the restarts. -/

namespace Sys2Proof.Machine

open Sys2Proof

/-! ### A fan raised to full speed (R490, R505) -/

/-- What raising a fan leaves: power, time, the start sequence, and the power board's order. -/
def State.boardView (s : State) : Elec × Nat × Start × List Nat × Nat :=
  (s.elec, s.now, s.start, s.ioc.stagger, s.ioc.staggerAt)

theorem State.of_boardView {s t : State} (h : t.boardView = s.boardView) :
    t.elec = s.elec ∧ t.now = s.now ∧ t.start = s.start ∧ t.ioc.stagger = s.ioc.stagger
      ∧ t.ioc.staggerAt = s.ioc.staggerAt := by
  simpa [State.boardView] using h

theorem State.boardView_setU (s : State) (e : Ent) (u v : Nat) : (s.setU e u v).boardView = s.boardView := rfl

theorem State.boardView_putFan (s : State) (c : Nat) (x : Fan) : (s.putFan c x).boardView = s.boardView := rfl

theorem State.boardView_setFanState (s : State) (c v : Nat) : (s.setFanState c v).boardView = s.boardView := by
  unfold State.setFanState State.fanSet
  split <;> exact State.boardView_setU _ _ _ _

theorem State.boardView_setVolts (s : State) (c v : Nat) : (s.setVolts c v).boardView = s.boardView := by
  unfold State.setVolts
  dsimp only
  split
  · rw [State.boardView_setU, State.boardView_putFan]
  · exact State.boardView_putFan _ _ _

theorem State.boardView_fanFull (s : State) (c : Nat) : (s.fanFull c).boardView = s.boardView := by
  unfold State.fanFull
  split
  · exact State.boardView_setFanState _ _ _
  · dsimp only
    rw [State.boardView_putFan, State.boardView_setVolts, State.boardView_setFanState]

/-! ### Steps that begin, end and start over (R624, R626, R635) -/

theorem State.beginStep_start (s : State) (k : Nat) : (s.beginStep k).start =
    { s.start with
      step := k, from_ := s.now
      diary := { s.start.diary.setStep k 1 with reached := max (s.start.diary.setStep k 1).reached k } } := rfl

theorem State.get_beginStep_stage (s : State) (k : Nat) : (s.beginStep k).get E.START_STAGE = k :=
  State.get_set_same _ _ _

theorem State.endStep_diaryInFram (s : State) (k : Nat) :
    (s.endStep k).start.diaryInFram = s.start.diaryInFram := by
  unfold State.endStep
  dsimp only
  split <;> rfl

/-- The sequence that starts over is in step 2 with its cause; no failure and no order stand (R626, R638, R640). -/
theorem State.restartFrom2_starts (s : State) (cause : Nat) :
    (s.restartFrom2 cause).start.step = 2 ∧ (s.restartFrom2 cause).start.cause = cause
      ∧ (s.restartFrom2 cause).start.failedAt = none ∧ (s.restartFrom2 cause).start.restart = none := by
  have raised (u : State) : (fanOrder.foldl State.fanFull u).start = u.start :=
    (State.of_boardView (foldl_eq_of_step (p := State.boardView) State.boardView_fanFull fanOrder u)).2.2.1
  unfold State.restartFrom2
  dsimp only
  rw [State.beginStep_start, raised]
  exact ⟨rfl, rfl, rfl, rfl⟩

/-! ### What each command of the start leaves -/

section

variable {s : State} {t : Nat}

/-- POWER_GOOD (R624, R669): step 2 begins. -/
theorem powerGood_begins (hpower : (s.at t).elec.power = 0 ∨ (s.at t).elec.power = 3) :
    Answers (.powerGood t) s fun u =>
      u.elec.power = 1 ∧ u.start.step = 2 ∧ u.start.from_ = (s.at t).now ∧ u.get E.START_STAGE = 2 := by
  refine ⟨_, rfl, ?_⟩
  generalize s.at t = z at *
  rw [State.when_of (by simpa using hpower)]
  extract_lets reset start elec ioc y
  obtain ⟨elec, now, -⟩ := State.of_boardView (y.boardView_fanFull 28)
  exact ⟨congrArg Elec.power elec, rfl, now, State.get_beginStep_stage _ _⟩

/-- FAN_POWER_UP_STAGGER (R490, R505): the next fan is raised. -/
theorem fanPowerUpStagger_raises {c : Nat} {rest : List Nat} (horder : (s.at t).ioc.stagger = c :: rest)
    (hpower : (s.at t).elec.power = 1) (hrun : (s.at t).fwRuns = false)
    (hdue : (s.at t).ioc.staggerAt + (
        if c = 0 || 28 ≤ c then 500 else (s.at t).fram.entries.getD E.FAN_START_GAP_MS.key E.FAN_START_GAP_MS.dflt)
        * ms ≤ (s.at t).now) :
    Answers (.fanPowerUpStagger t) s fun u => u.ioc.stagger = rest ∧ u.ioc.staggerAt = (s.at t).now := by
  refine ⟨_, rfl, ?_⟩
  generalize s.at t = z at *
  simp only [horder]
  rw [State.when_of (by simp [hpower, hrun]; simpa using hdue)]
  obtain ⟨-, -, -, stagger, staggerAt⟩ := State.of_boardView
    (State.boardView_fanFull { z with ioc := { z.ioc with stagger := rest, staggerAt := z.now } } c)
  exact ⟨stagger, staggerAt⟩

/-- BOOT_ROM_AND_FUSES (R624): step 2 ends, and the fuses show. -/
theorem bootRomAndFuses_passes (hin : (s.at t).inStep 2 = true) :
    Answers (.bootRomAndFuses t true) s fun u =>
      u.start.step = 3 ∧ u.get E.START_STAGE = 3 ∧ u.get E.FUSE_SEC_VERSION = s.start.fuseSec
        ∧ u.get E.FUSE_KEY_REVOKED = s.start.fuseRevoked := by
  refine answers_of_when rfl hin ?_
  rw [if_pos rfl]
  obtain ⟨step, stage⟩ := State.endStep_moves
    (((s.at t).set E.FUSE_SEC_VERSION (s.at t).start.fuseSec).set E.FUSE_KEY_REVOKED (s.at t).start.fuseRevoked)
    (k := 2) (by decide)
  refine ⟨step, stage, ?_, ?_⟩
  · rw [State.get_endStep _ _ (by decide), State.get_set_ne _ _ _ _ (by decide), State.get_set_same]
    rfl
  · rw [State.get_endStep _ _ (by decide), State.get_set_same]
    rfl

/-- BOOT_ROM_AND_FUSES with a bad checksum (R638): step 2 waits for its retry. -/
theorem bootRomAndFuses_fails (hin : (s.at t).inStep 2 = true) :
    Answers (.bootRomAndFuses t false) s fun u => u.start.failedAt = some (s.at t).now ∧ u.start.step = 2 := by
  have step : (s.at t).start.step = 2 := by
    simp only [State.inStep, Bool.and_eq_true, beq_iff_eq] at hin
    exact hin.1.1
  exact answers_of_when rfl hin ⟨rfl, step⟩

/-- FRAM_READ (R635, R636): step 3 ends; the diary is kept where it could be read. -/
theorem framRead_reads {ok lifeOk : Bool} (hin : (s.at t).inStep 3 = true) :
    Answers (.framRead t ok lifeOk) s fun u =>
      u.start.step = 4 ∧ u.start.diaryInFram = ok ∧ u.get E.START_STAGE = 4 := by
  refine ⟨_, rfl, ?_⟩
  rw [State.when_of hin]
  cases ok with
  | true =>
    dsimp only
    rw [if_pos rfl, State.endStep_diaryInFram]
    exact ⟨State.endStep_step _ (by decide), rfl, State.get_endStep_stage _ (by decide)⟩
  | false =>
    dsimp only
    rw [if_neg (by decide)]
    refine ⟨State.endStep_step _ (by decide), ?_, State.get_endStep_stage (State.readLedger _ []) (by decide)⟩
    exact State.endStep_diaryInFram _ 3

/-- ARRAY_GROUP_POWER (R634). -/
theorem arrayGroupPower_powers (hin : (s.at t).inStep 5 = true) (hgroups : s.start.groups < 18)
    (hdue : s.start.groups = 0 ∨ s.start.groupAt + 50 * us ≤ (s.at t).now) :
    Answers (.arrayGroupPower t) s fun u =>
      u = { s.at t with start := { s.start with groups := s.start.groups + 1, groupAt := (s.at t).now } } := by
  have due : ((s.at t).start.groups == 0 || decide ((s.at t).start.groupAt + 50 * us ≤ (s.at t).now)) = true := by
    rw [Bool.or_eq_true, beq_iff_eq, decide_eq_true_iff]
    exact hdue
  have more : decide ((s.at t).start.groups < 18) = true := decide_eq_true hgroups
  exact answers_of_when rfl (by rw [hin, more, due]; rfl) rfl

/-- START_TIMER_EXPIRY (R626). -/
theorem startTimerExpiry_restarts {l : Nat} (hlimit : stepLimit s.start.step = some l)
    (hin : (s.at t).inStep s.start.step = true) (hdue : (s.at t).stepFrom + 4 * l * ms ≤ (s.at t).now) :
    Answers (.startTimerExpiry t) s fun u => u.start.step = 2 ∧ u.start.cause = 2 := by
  have limit : stepLimit (s.at t).start.step = some l := hlimit
  have running : (s.at t).inStep (s.at t).start.step = true := hin
  refine ⟨_, rfl, ?_⟩
  generalize s.at t = z at *
  simp only [limit]
  rw [State.when_of (by simp [running, hdue])]
  obtain ⟨step, cause, -⟩ := State.restartFrom2_starts
    (z.putDiary { z.start.diary.setStep z.start.step 3 with endState := 2 }) 2
  exact ⟨step, cause⟩

/-- REQUIRED_STEP_RETRY (R638). -/
theorem requiredStepRetry_restarts {f : Nat} (hfailed : s.start.failedAt = some f) (hpower : s.elec.power = 1)
    (hdue : f + 10 * sec ≤ (s.at t).now) :
    Answers (.requiredStepRetry t) s fun u => u.start.step = 2 ∧ u.start.cause = 3 ∧ u.start.failedAt = none := by
  have failed : (s.at t).start.failedAt = some f := hfailed
  have power : (s.at t).elec.power = 1 := hpower
  refine ⟨_, rfl, ?_⟩
  generalize s.at t = z at *
  simp only [failed]
  rw [State.when_of (by simp [power, hdue])]
  obtain ⟨step, cause, none, -⟩ := z.restartFrom2_starts 3
  exact ⟨step, cause, none⟩

/-- RESTART_RESET (R640). -/
theorem restartReset_restarts {x : Nat} (horder : s.start.restart = some x) (hpower : s.elec.power = 1)
    (hdue : x ≤ (s.at t).now) :
    Answers (.restartReset t) s fun u => u.start.step = 2 ∧ u.start.cause = 1 ∧ u.start.restart = none := by
  have order : (s.at t).start.restart = some x := horder
  have power : (s.at t).elec.power = 1 := hpower
  refine ⟨_, rfl, ?_⟩
  generalize s.at t = z at *
  rw [State.when_of (by simp [order, power, hdue])]
  obtain ⟨step, cause, -, restart⟩ := z.copyToFram.restartFrom2_starts 1
  exact ⟨step, cause, restart⟩

end

end Sys2Proof.Machine

namespace Sys2Proof.Proofs

open Sys2Proof Sys2Proof.Machine

/-- Settles O14, command by command. -/
theorem startSequenceMoves : Obligations.StartSequenceMoves := by
  unfold Obligations.StartSequenceMoves
  refine ⟨?power, ?stagger, ?rom, ?fram, ?groups, ?timer, ?retry, ?reset⟩
  case power => exact fun s t hpower => powerGood_begins hpower
  case stagger => exact fun s t c rest horder hpower hrun hdue => fanPowerUpStagger_raises horder hpower hrun hdue
  case rom => exact fun s t hin => ⟨bootRomAndFuses_passes hin, bootRomAndFuses_fails hin⟩
  case fram => exact fun s t ok lifeOk hin => framRead_reads hin
  case groups => exact fun s t hin hgroups hdue => arrayGroupPower_powers hin hgroups hdue
  case timer => exact fun s t k l hlimit hin _ hdue => startTimerExpiry_restarts hlimit hin hdue
  case retry => exact fun s t f hfailed hpower hdue => requiredStepRetry_restarts hfailed hpower hdue
  case reset => exact fun s t x horder hpower hdue => restartReset_restarts horder hpower hdue

end Sys2Proof.Proofs
end

section
/-! PROOFS. The statements of spec/19_start.md on the boot exchange and the image. -/

namespace Sys2Proof.Machine

open Sys2Proof

/-! ### What the boot exchange leaves of the start sequence -/

theorem State.step_of_inStep {s : State} {k : Nat} (h : s.inStep k = true) : s.start.step = k := by
  simp only [State.inStep, Bool.and_eq_true, beq_iff_eq] at h
  exact h.1.1

@[simp] theorem State.sendBoot_start (s : State) (dst dport ty : Nat) (body : Bytes) :
    (s.sendBoot dst dport ty body).start = s.start := by
  simp [State.sendBoot]

@[simp] theorem State.sendRead_start (s : State) (r : BootRead) : (s.sendRead r).start = s.start := by
  unfold State.sendRead
  split
  · exact State.sendBoot_start _ _ _ _ _
  · rfl

/-- Reads that go out leave the offer they read from (R628). -/
theorem State.issueReads_offer (s : State) (len n : Nat) : (s.issueReads len n).start.offer = s.start.offer := by
  induction n generalizing s with
  | zero => rfl
  | succ n ih =>
    unfold State.issueReads
    split
    · rfl
    · dsimp only
      rw [ih, State.sendRead_start]

/-- Once the whole image has been asked for, no read goes out. -/
theorem State.issueReads_of_all {s : State} {len : Nat} (h : len ≤ s.start.nextOff) (n : Nat) :
    s.issueReads len n = s := by
  cases n with
  | zero => rfl
  | succ n => exact if_pos (by simp [h])

/-- A refused image leaves no offer, and the module in step 8 (R631). -/
theorem State.refuseImage_refuses (s : State) (result step : Nat) :
    (s.refuseImage result step).start.step = 8 ∧ (s.refuseImage result step).start.offer = none
      ∧ (s.refuseImage result step).start.refused = true := by
  unfold State.refuseImage
  extract_lets sent marked noted dropped
  split
  case isTrue h => exact ⟨h, rfl, rfl⟩
  case isFalse h => rw [State.beginStep_start]; exact ⟨rfl, rfl, rfl⟩

theorem State.endStep_image (s : State) (k : Nat) : (s.endStep k).start.image = s.start.image := by
  unfold State.endStep
  dsimp only
  split <;> rfl

/-! ### What each command of the boot exchange leaves -/

section

variable {s : State} {t : Nat}

/-- BOOT_REQUEST (R627, R628). -/
theorem bootRequest_asks {x : Nat} (hin : (s.at t).inStep 8 = true) (hoffer : s.start.offer = none)
    (hlink : s.linkUp = true) (hlocal : s.port.linkLocal = 2) (hask : s.start.imageReqAt = some x)
    (hdue : x ≤ (s.at t).now) :
    Answers (.bootRequest t) s fun u =>
      u.start.imageReqAt = some ((s.at t).now + sec) ∧ u.start.bootSeq = s.freeVal % 2 ^ 32
        ∧ u.freeCtr = s.freeCtr + 1 ∧ u.start.step = 8 := by
  have offer : (s.at t).start.offer = none := hoffer
  have link : (s.at t).linkUp = true := hlink
  have addr : (s.at t).port.linkLocal = 2 := hlocal
  have ask : (s.at t).start.imageReqAt = some x := hask
  change Answers _ _ fun u => u.start.imageReqAt = some ((s.at t).now + sec)
    ∧ u.start.bootSeq = (s.at t).freeVal % 2 ^ 32 ∧ u.freeCtr = (s.at t).freeCtr + 1 ∧ u.start.step = 8
  refine ⟨_, rfl, ?_⟩
  generalize s.at t = z at *
  rw [State.when_of (by simp [hin, offer, link, addr, ask, hdue])]
  have step := State.step_of_inStep hin
  extract_lets seq drawn start asked
  rw [State.sendBoot_start]
  refine ⟨rfl, rfl, ?_, step⟩
  simp [State.sendBoot, asked, drawn, State.drawn]

/-- BOOT_OFFER of a length in range (R628): the first offer of the attempt is taken. -/
theorem bootOffer_takes {rx : Rx} (hin : (s.at t).inStep 8 = true) (hoffer : s.start.offer = none)
    (hmine : (s.at t).bootMine rx 2 = true) (hlen : rx.bytes.length = 56) (hlow : 512 ≤ field rx.bytes 16 4)
    (hhigh : field rx.bytes 16 4 ≤ 134217728) :
    Answers (.bootOffer t rx) s fun u =>
      u.start.offer = some (rx.src, rx.sport, field rx.bytes 16 4, field rx.bytes 24 32) := by
  refine answers_of_when rfl (by simp [hin, hoffer, hmine, hlen]) ?_
  dsimp only
  rw [if_neg (by simp [hlow, hhigh]), State.issueReads_offer]

/-- BOOT_OFFER of a length out of range (R630): the image is refused. -/
theorem bootOffer_refuses {rx : Rx} (hin : (s.at t).inStep 8 = true) (hoffer : s.start.offer = none)
    (hmine : (s.at t).bootMine rx 2 = true) (hlen : rx.bytes.length = 56)
    (hout : field rx.bytes 16 4 < 512 ∨ 134217728 < field rx.bytes 16 4) :
    Answers (.bootOffer t rx) s fun u => u.start.offer = none ∧ u.start.refused = true ∧ u.start.step = 8 := by
  refine answers_of_when rfl (by simp [hin, hoffer, hmine, hlen]) ?_
  extract_lets taken len start offered
  rw [if_pos (by simpa [len] using hout)]
  obtain ⟨step, none, refused⟩ := offered.refuseImage_refuses 1 8
  exact ⟨none, refused, step⟩

/-- BOOT_DATA for an outstanding read, once the whole image has been asked for (R628): the data are staged. -/
theorem bootData_stages {rx : Rx} {src sport len digest : Nat} {r : BootRead}
    (hoffer : s.start.offer = some (src, sport, len, digest))
    (hread : (s.start.reads.find? fun r => r.offset == field rx.bytes 16 4 && r.count == field rx.bytes 20 2) = some r)
    (hin : (s.at t).inStep 8 = true) (hmine : (s.at t).bootMine rx 4 = true)
    (hlen : rx.bytes.length = 24 + r.count) (hall : len ≤ s.start.nextOff)
    (hrest : (s.start.reads.filter fun x => x.offset != r.offset) ≠ []) :
    Answers (.bootData t rx) s fun u =>
      u.start.reads = (s.start.reads.filter fun x => x.offset != r.offset)
        ∧ u.start.stagedParts = s.start.stagedParts.set r.offset (rx.bytes.drop 24) ∧ u.start.step = 8 := by
  have start : ((s.at t).take rx).start = s.start := rfl
  have running : ((s.at t).take rx).inStep 8 = true := hin
  have mine : ((s.at t).take rx).bootMine rx 4 = true := hmine
  have step : s.start.step = 8 := State.step_of_inStep hin
  refine ⟨_, rfl, ?_⟩
  generalize (s.at t).take rx = z at *
  simp only [start, hoffer, hread]
  rw [State.when_of (by simp [running, mine, hlen]), State.issueReads_of_all (by exact start ▸ hall),
    if_neg (by simp [start, hrest])]
  exact ⟨congrArg (fun a : Start => a.reads.filter _) start, congrArg (fun a : Start => a.stagedParts.set _ _) start,
    (congrArg Start.step start).trans step⟩

/-- BOOT_DATA for the last outstanding read (R628): step 8 ends with the image. -/
theorem bootData_completes {rx : Rx} {src sport len digest : Nat} {r : BootRead}
    (hoffer : s.start.offer = some (src, sport, len, digest))
    (hread : (s.start.reads.find? fun r => r.offset == field rx.bytes 16 4 && r.count == field rx.bytes 20 2) = some r)
    (hin : (s.at t).inStep 8 = true) (hmine : (s.at t).bootMine rx 4 = true)
    (hlen : rx.bytes.length = 24 + r.count) (hall : len ≤ s.start.nextOff)
    (hrest : (s.start.reads.filter fun x => x.offset != r.offset) = []) :
    Answers (.bootData t rx) s fun u =>
      u.start.image = (s.start.stagedParts.set r.offset (rx.bytes.drop 24)).flatMap Prod.snd ∧ u.start.step = 9 := by
  have start : ((s.at t).take rx).start = s.start := rfl
  have running : ((s.at t).take rx).inStep 8 = true := hin
  have mine : ((s.at t).take rx).bootMine rx 4 = true := hmine
  refine ⟨_, rfl, ?_⟩
  generalize (s.at t).take rx = z at *
  simp only [start, hoffer, hread]
  rw [State.when_of (by simp [running, mine, hlen]), State.issueReads_of_all (by exact start ▸ hall),
    if_pos (by simp [start, hrest, hall]), State.endStep_image]
  exact ⟨congrArg (fun a : Start => (a.stagedParts.set _ _).flatMap Prod.snd) start,
    State.endStep_step _ (by decide)⟩

/-- BOOT_READ_TIMEOUT of a read sent fewer than 8 times (R628): it is sent again. -/
theorem bootReadTimeout_resends {offset : Nat} {r : BootRead}
    (hread : (s.start.reads.find? fun r => r.offset == offset) = some r) (hin : (s.at t).inStep 8 = true)
    (hdue : r.sentAt + 50 * ms ≤ (s.at t).now) (hsends : r.sends < 8) :
    Answers (.bootReadTimeout t offset) s fun u =>
      u.start.reads = s.start.reads.map fun x =>
        if x.offset = offset then { r with sends := r.sends + 1, sentAt := (s.at t).now } else x := by
  have start : (s.at t).start = s.start := rfl
  refine ⟨_, rfl, ?_⟩
  generalize s.at t = z at *
  simp only [start, hread]
  rw [State.when_of (by simp [hin, hdue]), if_neg (by omega), State.sendRead_start]
  exact congrArg (fun a : Start => a.reads.map _) start

/-- BOOT_READ_TIMEOUT of a read sent 8 times (R628): the attempt is abandoned. -/
theorem bootReadTimeout_abandons {offset : Nat} {r : BootRead}
    (hread : (s.start.reads.find? fun r => r.offset == offset) = some r) (hin : (s.at t).inStep 8 = true)
    (hdue : r.sentAt + 50 * ms ≤ (s.at t).now) (hsends : 8 ≤ r.sends) :
    Answers (.bootReadTimeout t offset) s fun u =>
      u.start.offer = none ∧ u.start.reads = [] ∧ u.start.attempt = satBytes 2 (s.start.attempt + 1)
        ∧ u.start.imageReqAt = some ((s.at t).now + sec) := by
  have start : (s.at t).start = s.start := rfl
  refine ⟨_, rfl, ?_⟩
  generalize s.at t = z at *
  simp only [start, hread]
  rw [State.when_of (by simp [hin, hdue]), if_pos hsends]
  exact ⟨rfl, rfl, congrArg (fun a : Start => satBytes 2 (a.attempt + 1)) start, rfl⟩

/-- IMAGE_CHECK of a sound image (R630, R631): step 9 ends; after a refusal at step 11, step 10 is not repeated. -/
theorem imageCheck_passes {src sport len digest : Nat} (hin : (s.at t).inStep 9 = true)
    (hoffer : s.start.offer = some (src, sport, len, digest))
    (hsound : s.imageCause s.start.image len digest = 0) :
    Answers (.imageCheck t) s fun u => u.start.step = if s.start.result11 then 11 else 10 := by
  have start : (s.at t).start = s.start := rfl
  have sound : (s.at t).imageCause s.start.image len digest = 0 := hsound
  refine ⟨_, rfl, ?_⟩
  generalize s.at t = z at *
  rw [State.when_of hin]
  simp only [start, hoffer, sound]
  rw [if_neg (by decide)]
  split
  · rfl
  · exact State.endStep_step _ (by decide)

/-- IMAGE_CHECK of an unsound image (R630). -/
theorem imageCheck_refuses {src sport len digest : Nat} (hin : (s.at t).inStep 9 = true)
    (hoffer : s.start.offer = some (src, sport, len, digest))
    (hunsound : s.imageCause s.start.image len digest ≠ 0) :
    Answers (.imageCheck t) s fun u => u.start.step = 8 ∧ u.start.offer = none ∧ u.start.refused = true := by
  have start : (s.at t).start = s.start := rfl
  have unsound : (s.at t).imageCause s.start.image len digest ≠ 0 := hunsound
  refine ⟨_, rfl, ?_⟩
  generalize s.at t = z at *
  rw [State.when_of hin]
  simp only [start, hoffer]
  rw [if_pos unsound]
  exact z.refuseImage_refuses _ 9

/-- FIRMWARE_START that the loader and the IOC take (R630, R632). -/
theorem firmwareStart_passes (hin : (s.at t).inStep 11 = true) (hprog : s.rowProgramOk s.start.image = true) :
    Answers (.firmwareStart t true) s fun u => u.start.step = 12 ∧ u.get E.START_STAGE = 12 := by
  have prog : (s.at t).rowProgramOk (s.at t).start.image = true := hprog
  refine ⟨_, rfl, ?_⟩
  generalize s.at t = z at *
  rw [State.when_of hin]
  extract_lets start tried sent noted runs wheel
  have runnable : tried.rowProgramOk tried.start.image = true := prog
  rw [if_neg (by simp [runnable]), if_neg (by decide)]
  exact State.endStep_moves _ (by decide)

/-- FIRMWARE_START that the loader or the IOC refuses (R630, R631). -/
theorem firmwareStart_refuses {iocOk : Bool} (hin : (s.at t).inStep 11 = true)
    (hbad : s.rowProgramOk s.start.image = false ∨ iocOk = false) :
    Answers (.firmwareStart t iocOk) s fun u => u.start.step = 8 ∧ u.start.offer = none ∧ u.start.refused = true := by
  have bad : (s.at t).rowProgramOk (s.at t).start.image = false ∨ iocOk = false := hbad
  refine ⟨_, rfl, ?_⟩
  generalize s.at t = z at *
  rw [State.when_of hin]
  extract_lets start tried
  split
  case isTrue => exact tried.refuseImage_refuses 9 11
  case isFalse hprog =>
    have runnable : tried.rowProgramOk tried.start.image = true := by simpa using hprog
    have refused : iocOk = false := bad.resolve_left (ne_false_of_eq_true runnable)
    rw [if_pos (by simp [refused])]
    exact tried.refuseImage_refuses 10 11

end

end Sys2Proof.Machine

namespace Sys2Proof.Proofs

open Sys2Proof Sys2Proof.Machine

/-- Settles O16, command by command. -/
theorem bootExchangeMoves : Obligations.BootExchangeMoves := by
  unfold Obligations.BootExchangeMoves
  refine ⟨?request, ?offer, ?data, ?timeout, ?check, ?firmware⟩
  case request =>
    exact fun s t x hin hoffer hlink hlocal hask hdue => bootRequest_asks hin hoffer hlink hlocal hask hdue
  case offer =>
    exact fun s t rx hin hoffer hmine hlen =>
      ⟨bootOffer_takes hin hoffer hmine hlen, bootOffer_refuses hin hoffer hmine hlen⟩
  case data =>
    exact fun s t rx src sport len digest r hoffer hread hin hmine hlen hall =>
      ⟨bootData_stages hoffer hread hin hmine hlen hall, bootData_completes hoffer hread hin hmine hlen hall⟩
  case timeout =>
    exact fun s t offset r hread hin hdue =>
      ⟨bootReadTimeout_resends hread hin hdue, bootReadTimeout_abandons hread hin hdue⟩
  case check =>
    intro s t src sport len digest hin hoffer
    by_cases hcause : s.imageCause s.start.image len digest = 0
    · exact (imageCheck_passes hin hoffer hcause).imp fun _ h => ⟨h.1, fun _ => h.2, fun bad => absurd hcause bad⟩
    · exact (imageCheck_refuses hin hoffer hcause).imp fun _ h => ⟨h.1, fun good => absurd good hcause, fun _ => h.2⟩
  case firmware =>
    intro s t iocOk hin
    by_cases hgood : s.rowProgramOk s.start.image = true ∧ iocOk = true
    · obtain ⟨hprog, rfl⟩ := hgood
      refine (firmwareStart_passes hin hprog).imp fun _ h => ⟨h.1, fun _ => h.2, fun bad => ?_⟩
      simp [hprog] at bad
    · have hbad : s.rowProgramOk s.start.image = false ∨ iocOk = false := by
        simpa only [Bool.not_eq_true, Classical.not_and_iff_not_or_not] using hgood
      exact (firmwareStart_refuses hin hbad).imp fun _ h => ⟨h.1, fun good => absurd good hgood, fun _ => h.2⟩

end Sys2Proof.Proofs
end
